-- ==== Sys2Proof/Word.lean ====
section
/-! DEFINITION. The words of the module: bytes, status words, step words, tile descriptors. -/

namespace Sys2Proof

/-- One byte. -/
abbrev Byte := BitVec 8
/-- A status word, abort code or other 32-bit word (R520). -/
abbrev Word := BitVec 32
/-- A step word of 128 bits (R28). -/
abbrev StepWord := BitVec 128
/-- A stream map entry of 128 bits (R26). -/
abbrev MapEntry := BitVec 128
/-- A tile descriptor (R18), a job descriptor (R351), an event record (R502) or a track context (R213): 512 bits. -/
abbrev Desc := BitVec 512

end Sys2Proof
end

