-- ==== Sys2Proof/Machine/Bits.lean ====
section
/-! DEFINITION. Bit fields, byte lists, sign extension and the three CRCs. -/

namespace Sys2Proof.Machine

/-- Field [hi:lo] of a word, as a number. -/
def fld {w : Nat} (x : BitVec w) (hi lo : Nat) : Nat := (x.extractLsb' lo (hi + 1 - lo)).toNat

/-- Bit `i` of a word. -/
def bit {w : Nat} (x : BitVec w) (i : Nat) : Bool := x.getLsbD i

/-- `x` with field [hi:lo] replaced by the low bits of `v`. -/
def setFld {w : Nat} (x : BitVec w) (hi lo v : Nat) : BitVec w :=
  (x &&& ~~~ (BitVec.ofNat w ((2 ^ (hi + 1 - lo) - 1) * 2 ^ lo)))
    ||| BitVec.ofNat w ((v % 2 ^ (hi + 1 - lo)) * 2 ^ lo)

/-- A signed reading of the low `w` bits of `n`. -/
def signed (w n : Nat) : Int :=
  let m := n % 2 ^ w
  if m < 2 ^ (w - 1) then m else (m : Int) - 2 ^ w

/-- The low `w` bits of an integer, two's complement. -/
def wrap (w : Nat) (i : Int) : Nat := (i % (2 ^ w : Int)).toNat

/-- `i` clamped to lo .. hi. -/
def clampI (lo hi i : Int) : Int := if i < lo then lo else if hi < i then hi else i

/-- The `n` little-endian bytes of a number (R413). -/
def leBytes : Nat → Nat → List Byte
  | 0, _ => []
  | n + 1, v => BitVec.ofNat 8 v :: leBytes n (v / 256)

/-- The number that little-endian bytes hold. -/
def leNat : List Byte → Nat
  | [] => 0
  | b :: r => b.toNat + 256 * leNat r

/-- Big-endian number of bytes. -/
def beNat (l : List Byte) : Nat := leNat l.reverse

/-- The bytes of a wide word, byte n holding bits 8n+7 .. 8n. -/
def wordBytes {w : Nat} (x : BitVec w) : List Byte := leBytes (w / 8) x.toNat

/-- The word that bytes hold, byte 0 lowest. -/
def bytesWord (w : Nat) (l : List Byte) : BitVec w := BitVec.ofNat w (leNat l)

/-- Is `x` in set bit position `i` of a map. -/
def inMap (m : Nat) (i : Nat) : Bool := m.testBit i

/-- One bit step of a left-shifting CRC of width `w`. -/
def crcStep (w poly : Nat) (c : Nat) : Nat → Nat
  | 0 => c
  | k + 1 =>
    let c2 := (c * 2) % 2 ^ w
    crcStep w poly (if c.testBit (w - 1) then c2 ^^^ poly else c2) k

/-- A CRC of width `w` over bytes, most significant bit first. -/
def crcMsb (w poly init : Nat) (l : List Byte) : Nat :=
  l.foldl (fun c b => crcStep w poly (c ^^^ (b.toNat * 2 ^ (w - 8))) 8) init

/-- CRC-16 with polynomial 0x1021 and initial value 0xFFFF (R18). -/
def crc16 (l : List Byte) : Nat := crcMsb 16 0x1021 0xFFFF l

/-- CRC-8 with polynomial 0x07 and initial value 0x00 (R433). -/
def crc8 (l : List Byte) : Nat := crcMsb 8 0x07 0x00 l

/-- One byte's worth of steps of the reflected CRC-32. -/
def crc32Step (c : Nat) : Nat → Nat
  | 0 => c
  | k + 1 => crc32Step (if c.testBit 0 then (c / 2) ^^^ 0xEDB88320 else c / 2) k

/-- CRC-32 of ISO/IEC 8802-3 (R502): reflected, all-ones initial value and final complement. -/
def crc32 (l : List Byte) : Nat :=
  (l.foldl (fun c b => crc32Step (c ^^^ b.toNat) 8) 0xFFFFFFFF) ^^^ 0xFFFFFFFF

/-- Sum of a list of numbers. -/
def sumNat (l : List Nat) : Nat := l.foldl (· + ·) 0

/-- Ceiling division (0 where the divisor is 0). -/
def ceilDiv (a b : Nat) : Nat := if b = 0 then 0 else (a + b - 1) / b

/-- Serial arithmetic (R24): `a` is newer than `b` when ahead by 1 to 2^31 - 1. -/
def newer (a b : Word) : Bool :=
  let d := (a - b).toNat
  decide (1 ≤ d) && decide (d ≤ 0x7FFFFFFF)

/-! ### Counts (R246) -/

/-- A count as 48-bit two's complement holds it. -/
def count48 (i : Int) : Int := signed 48 (wrap 48 i)

/-- How far `a` lies ahead of `b` in 48-bit serial arithmetic. -/
def ahead48 (a b : Int) : Int := count48 (a - b)

end Sys2Proof.Machine
end

