-- ==== Sys2Proof/Machine/Tab.lean ====
section
/-! DEFINITION. Sparse tables in one canonical form: keys strictly rising. -/

namespace Sys2Proof.Machine

/-- A sparse table: key and value pairs, keys strictly rising (`Tab.Sorted`). -/
abbrev Tab (α : Type) := List (Nat × α)

namespace Tab

variable {α : Type}

/-- What the table lists at key `q`. -/
def look (t : Tab α) (q : Nat) : Option α :=
  match t with
  | [] => none
  | (k, v) :: r => if q = k then some v else look r q

/-- What the table holds at key `q`, `d` where it lists nothing. -/
def val (t : Tab α) (d : α) (q : Nat) : α := (look t q).getD d

/-- List `v` at key `q`, in its place by the order of keys. -/
def ins (t : Tab α) (q : Nat) (v : α) : Tab α :=
  match t with
  | [] => [(q, v)]
  | (k, u) :: r => if q < k then (q, v) :: (k, u) :: r else if q = k then (q, v) :: r else (k, u) :: ins r q v

/-- List nothing at key `q`. -/
def del (t : Tab α) (q : Nat) : Tab α := t.filter fun p => p.1 != q

/-- Write `v` at key `q` of a table whose unlisted keys read `d`: writing `d` removes the entry. -/
def put [DecidableEq α] (t : Tab α) (d : α) (q : Nat) (v : α) : Tab α :=
  if v = d then t.del q else t.ins q v

/-- Change the value at key `q` of a table whose unlisted keys read `d`. -/
def upd [DecidableEq α] (t : Tab α) (d : α) (q : Nat) (f : α → α) : Tab α := t.put d q (f (t.val d q))

/-- Change every listed value of a table whose unlisted keys read `d`; what then reads `d` is not listed. -/
def mapVal [DecidableEq α] (t : Tab α) (d : α) (f : α → α) : Tab α :=
  (t.map fun p => (p.1, f p.2)).filter fun p => p.2 ≠ d

/-- The keys. -/
def keys (t : Tab α) : List Nat := t.map (·.1)

/-- Keys strictly rise. -/
abbrev Sorted (t : Tab α) : Prop := t.Pairwise fun a b => a.1 < b.1

/-- The canonical form: keys strictly rise and no entry equals what an unlisted key reads. -/
abbrev Canon (t : Tab α) (d : α) : Prop := Sorted t ∧ ∀ p ∈ t, p.2 ≠ d

end Tab

end Sys2Proof.Machine
end

