-- ==== Sys2Proof/Machine/Ent.lean ====
section
/-! DEFINITION. What a dictionary entry is (R413 to R417) and the stores that hold the values. -/

namespace Sys2Proof.Machine

/-- The roles, lowest first (R415). -/
inductive Role | view | operate | integrate | service
deriving DecidableEq, Repr

/-- The number of a role (R421). -/
def Role.num : Role → Nat
  | .view => 0 | .operate => 1 | .integrate => 2 | .service => 3

/-- The role a number names. -/
def roleOf : Nat → Role
  | 0 => .view | 1 => .operate | 2 => .integrate | _ => .service

/-- Does role `r` hold the rights of role `need` (R415)? -/
def Role.reaches (r need : Role) : Bool := decide (need.num ≤ r.num)

/-- The types of entries (R413). -/
inductive EntTy | bool | u8 | u16 | u32 | u64 | i8 | i16 | i32 | i64 | f32 | time80 | str | octets | domain
deriving DecidableEq, Repr

/-- The type code (R413). -/
def EntTy.code : EntTy → Nat
  | .bool => 1 | .u8 => 2 | .u16 => 3 | .u32 => 4 | .u64 => 5 | .i8 => 6 | .i16 => 7 | .i32 => 8 | .i64 => 9
  | .f32 => 10 | .time80 => 11 | .str => 12 | .octets => 13 | .domain => 14

/-- The size in bytes of a number type; 0 for types held as bytes. -/
def EntTy.size : EntTy → Nat
  | .bool => 1 | .u8 => 1 | .u16 => 2 | .u32 => 4 | .u64 => 8 | .i8 => 1 | .i16 => 2 | .i32 => 4 | .i64 => 8
  | .f32 => 4 | .time80 => 10 | .str => 0 | .octets => 0 | .domain => 0

/-- Is the type one of the two's complement types? -/
def EntTy.isSigned : EntTy → Bool
  | .i8 => true | .i16 => true | .i32 => true | .i64 => true | _ => false

/-- Is the value held as a number? -/
def EntTy.isNum (t : EntTy) : Bool := t.size != 0

/-- Access codes (R414). -/
inductive Acc | ro | rw | wo | rws
deriving DecidableEq, Repr

/-- The number of an access code (R421). -/
def Acc.code : Acc → Nat
  | .ro => 0 | .rw => 1 | .wo => 2 | .rws => 3

/-- Persistence classes (R417). -/
inductive Pers | volatile | saved | factory
deriving DecidableEq, Repr

/-- The number of a persistence class (R421). -/
def Pers.code : Pers → Nat
  | .volatile => 0 | .saved => 1 | .factory => 2

/-- The selectors an entry may refer to (R416). -/
inductive Sel
  | none | station | array | bank | group | channel | port | track | string | encoder | input | output | vstream
  | template | job | queue | link | lane | eth | cout | island | block | sensor
deriving DecidableEq, Repr

/-- An entry of the object dictionary (R413). Entries listed as a span of sub-indices are one `Ent` with `n` subs. -/
structure Ent where
  i : Nat
  s : Nat
  n : Nat := 1
  name : String
  ty : EntTy
  acc : Acc
  pers : Pers := .volatile
  det : Bool := false
  dflt : Int := 0
  dfltB : List Byte := []
  lo : Int := 0
  hi : Int := 0
  step : Nat := 1
  oneOf : List Int := []
  maxLen : Nat
  rd : Role := .view
  wr : Role := .operate
  sel : Sel := .none
deriving DecidableEq, Repr

/-- The key of sub-index `s + j`, instance `k` of the unit the entry's selector names (0 where it refers to none). -/
def Ent.key (e : Ent) (j k : Nat) : Nat := (e.i * 256 + e.s + j) * 4294967296 + k

/-- The values of one persistence class: numbers and byte strings by entry, sub-index and instance; a value equal to
the entry's default is not listed. -/
structure Store where
  nums : Tab Int := []
  blobs : Tab (List Byte) := []
deriving DecidableEq, Repr

/-- The value of a number entry in a store. -/
def Store.num (r : Store) (e : Ent) (j k : Nat) : Int := r.nums.val e.dflt (e.key j k)

/-- Write a number entry in a store. -/
def Store.setNum (r : Store) (e : Ent) (j k : Nat) (v : Int) : Store :=
  { r with nums := r.nums.put e.dflt (e.key j k) v }

/-- The value of a byte entry in a store. -/
def Store.blob (r : Store) (e : Ent) (j k : Nat) : List Byte := r.blobs.val e.dfltB (e.key j k)

/-- Write a byte entry in a store. -/
def Store.setBlob (r : Store) (e : Ent) (j k : Nat) (v : List Byte) : Store :=
  { r with blobs := r.blobs.put e.dfltB (e.key j k) v }

/-- The dictionary's values by persistence class (R417): volatile, saved and factory. -/
structure Regs where
  vol : Store := {}
  sav : Store := {}
  fac : Store := {}
deriving DecidableEq, Repr

/-- The store that holds an entry. -/
def Regs.store (r : Regs) (p : Pers) : Store :=
  match p with
  | .volatile => r.vol
  | .saved => r.sav
  | .factory => r.fac

/-- Change the store of a persistence class. -/
def Regs.mapStore (r : Regs) (p : Pers) (f : Store → Store) : Regs :=
  match p with
  | .volatile => { r with vol := f r.vol }
  | .saved => { r with sav := f r.sav }
  | .factory => { r with fac := f r.fac }

end Sys2Proof.Machine
end

