-- ==== Sys2Proof/Machine/TypesCore.lean ====
section
/-! DEFINITION. The state types of stations, streams, buffers, memory, queues and jobs (chapters 2 to 6, 16, 17). -/

namespace Sys2Proof.Machine

/-- Sequencer states (R33). -/
inductive SeqState | off | idle | run | blocked | drain | fault
deriving DecidableEq, Repr

/-- The number SEQ_STATE reads (R52). -/
def SeqState.num : SeqState → Nat
  | .off => 0 | .idle => 1 | .run => 2 | .blocked => 3 | .drain => 4 | .fault => 5

/-- Switch conditions of a shadow slot (R35); AT_SWAP carries the swap line count. -/
inductive SwitchCond
  | atEnd
  | atYield
  | atSwap (line : Int)
deriving DecidableEq, Repr

/-- A shadow slot (R35). -/
inductive Shadow
  | empty
  | loaded (table : List StepWord)
  | armed (table : List StepWord) (cond : SwitchCond)
deriving DecidableEq, Repr

/-- The number SHADOW_SLOT reads (R52). -/
def Shadow.num : Shadow → Nat
  | .empty => 0 | .loaded _ => 1 | .armed _ _ => 2

/-- What an input port holds: a tile, or a run of missing tiles (R25). -/
inductive Item
  | tile (d : Desc)
  | gap (n : Nat)
deriving DecidableEq, Repr

/-- An output tile a step has computed and not yet emitted: its elements' bytes and its shape; the frame flags and the
sample's flags and TAG where the step fixes them, and whether the row sequence ends with it, at a line timeout (R186). -/
structure OutTile where
  bytes : List Byte := []
  scales : List Byte := []
  format : Nat := 0
  mx : Bool := false
  zc : Bool := false
  rows : Nat := 1
  cols : Nat := 1
  poisoned : Bool := false
  concealed : Bool := false
  mucked : Bool := false
  sot : Option Bool := none
  eot : Option Bool := none
  brk : Bool := false
  tag : Option Nat := none
deriving DecidableEq, Repr

/-- A query tile of an ATTN step, or one of a column pair: its rows and the flags that its output tile takes (R307). -/
structure AttnTile where
  rows : Nat
  concealed : Bool := false
  mucked : Bool := false
  sot : Bool := false
  eot : Bool := false
deriving DecidableEq, Repr

/-- What an ATU step holds (R306 to R316): the entries as (sequence, query tokens), the next of them; whether the table
or the row count was found bad; whether all query tiles are in; the query tiles, query rows and new key and value rows;
the output rows so far as FP32 codes, and whether each is of a failed entry; whether the locks are held, since when it
waits for them; since when an entry waits for pages, how many, those it has, the page at the list's
end that takes more tokens (index, number, format, fill), whether the first page is for a copy; whether an
entry of the step has failed for want of pages. -/
structure AttnRun where
  entries : List (Nat × Nat) := []
  next : Nat := 0
  bad : Bool := false
  allIn : Bool := false
  tiles : List AttnTile := []
  queries : List (List Nat) := []
  kv : List (List Nat) := []
  kvIn : Bool := false
  out : List (List Nat × Bool) := []
  locked : Bool := false
  lockWait : Option Nat := none
  pageWait : Option Nat := none
  need : Nat := 0
  pages : List Nat := []
  cur : Option (Nat × Nat × Nat × Nat) := none
  copy : Bool := false
  starved : Bool := false
deriving DecidableEq, Repr

/-- A step in flight (R31, R527): its word, the tiles it consumed and has not yet used, by port, how many it consumed,
the rows or indices done, accumulators kept between commands, its flags, deadline and TAG (and whether it has a TAG),
and the output it has computed; of an array's step its place in the order of issue and the bias it started with (R84,
R86). -/
structure Running where
  word : StepWord
  ins : List (Nat × Item) := []
  used : Nat := 0
  done : Nat := 0
  state : List Nat := []
  poisoned : Bool := false
  late : Bool := false
  incomplete : Bool := false
  concealed : Bool := false
  mucked : Bool := false
  deadline : Nat := 0
  tag : Nat := 0
  tagged : Bool := false
  outs : List OutTile := []
  computed : Bool := false
  attn : Option AttnRun := none
  order : Nat := 0
  bias : List Nat := []
  biasFmt : Nat := 0
  biasBad : Bool := false
deriving DecidableEq, Repr

/-- A disable in progress (R527): the request time and the counts to report. -/
structure Drain where
  since : Nat := 0
  completed : Nat := 0
  poisoned : Nat := 0
  dropped : Nat := 0
deriving DecidableEq, Repr

/-- A station (R14, R33 to R41): sequencer, slots, input queues, the step in flight, rounding state, tags; since when it
stands in BLOCKED (R355). -/
structure Station where
  seq : SeqState := .off
  epoch : BitVec 16 := 1
  active : List StepWord := []
  shadow : Shadow := .empty
  pc : Nat := 0
  loops : List (Nat × Nat) := []
  yielded : Bool := false
  inq : Tab (List Item) := []
  running : Option Running := none
  drain : Option Drain := none
  rng : Option Word := none
  cap : Nat := 64
  tags : Nat := 0
  held : Bool := false
  faults : List Nat := []
  checkPassed : Bool := false
  blockedAt : Nat := 0
deriving DecidableEq, Repr

/-- A sequencer enters BLOCKED, or stays there (R33). -/
def Station.block (now : Nat) (st : Station) : Station :=
  { st with seq := .blocked, blockedAt := if st.seq = .blocked then st.blockedAt else now }

/-- A stream in force (R23 to R27): its map entry, the producer's next SEQ and credits, the consumer's expected SEQ,
how many emitted tiles the consumer has not yet accepted (R29 FENCE), and the producer's role epoch at its last tile
with the SEQ of the first tile it emitted in that epoch (R43; 0: none yet). -/
structure Stream where
  entry : MapEntry
  next : Word := 0
  expect : Word := 0
  credits : Nat := 0
  unacc : Nat := 0
  sentIn : BitVec 16 := 0
  sentFrom : Word := 0
deriving DecidableEq, Repr

/-- States of a buffer group (R126). -/
inductive GroupState | off | clearing | on | poweringDown
deriving DecidableEq, Repr

/-- The number GROUP_STATE reads (R130). -/
def GroupState.num : GroupState → Nat
  | .off => 0 | .clearing => 1 | .on => 2 | .poweringDown => 3

/-- A buffer group (R126 to R128): its state, its count of writes issued and not landed, the time of the power-down
request, a power-up waiting for OFF, whether an owner change is being zero-filled (R125), and how many writes issued before
a power-down have not arrived since the group went OFF (R127). -/
structure Group where
  st : GroupState := .off
  inflight : Nat := 0
  since : Nat := 0
  upPending : Bool := false
  downPending : Bool := false
  filling : Bool := false
  late : Nat := 0
deriving DecidableEq, Repr

/-- A bank (R113): the DMA engine whose burst holds it and the rows left, the run of refusals of each waiting DMA
request by its requester, and the last requester served of each class (for the round robin of R112). -/
structure Bank where
  burst : Nat := 0
  burstBy : Nat := 0
  refused : Tab Nat := []
  lastBy : Tab Nat := []
deriving DecidableEq, Repr

/-- A cache line (R143, R144): its line number in the HBM, whether it is dirty, and whether it was placed by a
prefetcher and not yet read. A set lists its lines by way; the order of use is kept with each. -/
structure CacheLine where
  line : Nat
  dirty : Bool := false
  ahead : Bool := false
  used : Nat := 0
deriving DecidableEq, Repr

/-- A stream prefetcher (R146, R147). -/
structure Prefetcher where
  station : Nat := 0
  base : Nat := 0
  stride : Int := 0
  next : Int := 0
  last : Int := 0
  stop : Option Nat := none
  misses : Nat := 0
  used : Nat := 0
  live : Bool := false
deriving DecidableEq, Repr

/-- The last reads of a station, for the detection of a stride (R146): last address, stride, run length. -/
structure Stride where
  last : Nat := 0
  stride : Int := 0
  run : Nat := 0
deriving DecidableEq, Repr

/-- A model-store command under way (R151): issuer, direction, partition, first block, count, HBM offset. -/
structure MsCmd where
  sid : Nat
  write : Bool
  part : Nat
  block : Nat
  count : Nat
  off : Nat
deriving DecidableEq, Repr

/-- A request waiting at its channel (R141): station, offset, bytes, hint and data of a write; the 64-byte bursts it still
needs, and since when it waits, a Trump request since it is the oldest of its domain. -/
structure HbmReq where
  sid : Nat
  off : Nat
  n : Nat
  hint : Nat
  data : Option (List Byte) := none
  left : Nat
  since : Nat
deriving DecidableEq, Repr

/-- One of the supervisor's two PSRAM devices (R154, R155): the code region's bytes, and the words of 8 bytes of the
others by their number in the device. Records waiting in the recorder region stand in the recorder's queue. -/
structure Psram where
  code : List Byte := []
  words : Tab (BitVec 64) := []
deriving DecidableEq, Repr

/-- The memory system (chapter 6): bytes of the module address space, poisoned 32-byte units, the cache, the
prefetchers; the model store's blocks, as they stand on the device (R484), and how many have been written since the
start (R157); the requests waiting at each channel, oldest
first, and the time from which its next slot is free (R141); the shared tags taken, the stations that wait for one and the
last that took one (R148, R149); the two PSRAM devices (R154). -/
structure Memory where
  bytes : Tab Byte := []
  poison : Tab Bool := []
  cache : Tab CacheLine := []
  useCount : Nat := 0
  pf : Tab Prefetcher := []
  detect : Tab Stride := []
  store : Tab Byte := []
  msWritten : Nat := 0
  chan : Tab (List HbmReq) := []
  slotAt : Tab Nat := []
  tagsShared : Nat := 0
  tagWait : List Nat := []
  tagLast : Nat := 0
  psram0 : Psram := {}
  psram1 : Psram := {}
  ms : List MsCmd := []
deriving DecidableEq, Repr

/-- A packet of a queue (R375): an identity, its cells in order, its bytes' number, whether it starts with a tile
descriptor, and when it was posted (time-base count, device ns). -/
structure Packet where
  id : Nat
  cells : List Nat
  len : Nat
  stream : Bool
  posted : Nat := 0
  postedDev : Nat := 0
deriving DecidableEq, Repr

/-- A queue (R374 to R383). In strip-pair mode `fill` holds the packets of the fill bank (R379). -/
structure Queue where
  unread : List Packet := []
  held : List Packet := []
  mark : Option Nat := none
  incarn : BitVec 4 := 0
  nextId : Nat := 0
  flush : Bool := false
  sweep : List Nat := []
  fill : List Packet := []
  closed : Bool := false
  fillCells : List Nat := []
  drainCells : List Nat := []
  waitSince : Option Nat := none
deriving DecidableEq, Repr

/-- The queue manager (R373, R376): the queues and the link word of every taken cell. -/
structure Queues where
  q : Tab Queue := []
  links : Tab (BitVec 64) := []
deriving DecidableEq, Repr

/-- Weights in the array's registers (R76, R81): format, MX setting, reduction length, columns; per column its element
codes and, block-scaled, its scale codes; of integer weights the sums over the columns by reduction index (R98); whether
a tile behind them was not to be trusted (log 16). -/
structure Weights where
  format : Nat := 0
  mx : Bool := false
  k : Nat := 0
  n : Nat := 0
  cols : List (List Nat) := []
  scales : List (List Nat) := []
  sums : List Int := []
  bad : Bool := false
deriving DecidableEq, Repr

/-- The current ramp of an array (R93): full current; ramping down since a time; clock-gated; ramping up until one. -/
inductive Ramp
  | full
  | down (since : Nat)
  | gated
  | up (until_ : Nat)
deriving DecidableEq, Repr

/-- An array's or half's datapath (R75, R76): shadow and active weights, the bias register, and whether the half is fenced
(R104). The shadow registers are empty once made active; what the registers hold at power-up is log 90. The steps that
the sequencer has handed over (R84): how many, the one queued at the multiply path (which runs the station's step in
flight), the WLOADs and the BLOADs running and queued. -/
structure Datapath where
  shadow : Option Weights := none
  active : Weights := {}
  bias : List Nat := []
  biasFmt : Nat := 0
  biasBad : Bool := false
  fenced : Bool := false
  issued : Nat := 0
  next : Option Running := none
  loading : Option Running := none
  loadNext : Option Running := none
  biasing : Option Running := none
  biasNext : Option Running := none
deriving DecidableEq, Repr

/-- What both halves of an array share (R91 to R93, R103): the ramp, the run of frozen or idle cycles, and the stations
whose WLOADs the weight loader has taken, in the order they were issued. -/
structure ArrayShared where
  ramp : Ramp := .full
  idle : Nat := 0
  loads : List Nat := []
deriving DecidableEq, Repr

/-- Job states (R353). -/
inductive JobState | ready | owner | blocked | ended
deriving DecidableEq, Repr

/-- The number JOB_STATE reads (R372). -/
def JobState.num : JobState → Nat
  | .ready => 0 | .owner => 1 | .blocked => 2 | .ended => 3

/-- A job (R351 to R370): its descriptor and state; whether its partner has been accepted (R365); its context (R358,
R363: saved stations, streams and datapaths, and the place of its footprint in each buffer group, base and length in
KiB); and what is counted of it. `awaits` are the sequences it waits for while BLOCKED (R356). -/
structure Job where
  desc : Desc
  st : JobState := .ready
  order : Nat := 0
  paired : Bool := false
  resident : Bool := false
  loading : Bool := false
  ownNs : Nat := 0
  ownSince : Nat := 0
  preempts : Nat := 0
  evictions : Nat := 0
  missed : Bool := false
  starved : Bool := false
  awaits : List Nat := []
  ctx : Tab Station := []
  streams : Tab Stream := []
  paths : Tab Datapath := []
  place : Tab (Nat × Nat) := []
deriving DecidableEq, Repr

/-- Trump domain states (R346). -/
inductive TrumpState | stopped | starting | running | stopping
deriving DecidableEq, Repr

/-- The number TRUMP_STATE reads (R372). -/
def TrumpState.num : TrumpState → Nat
  | .stopped => 0 | .starting => 1 | .running => 2 | .stopping => 3

/-- The latency certificate (R44): of its Trump arrays, in order of number, whether each runs split; one cap for each
Trump station (R149). -/
structure Cert where
  split : List Bool := []
  hbmShare : Nat := 0
  islandFreq : Tab Nat := []
  lineRate : Tab Nat := []
  rfLines : Nat := 0
  lLv : Nat := 0
  lVl : Nat := 0
  stampOffset : Nat := 0
  caps : Tab Nat := []
deriving DecidableEq, Repr, Inhabited

/-- What makes a program adaptable (R327): its adapter stations, their two table sets, where the banks lie, and the
weights of the adapter built in (identity 0, R329). -/
structure AdapterPart where
  stations : List Nat := []
  set0 : Tab (List StepWord) := []
  set1 : Tab (List StepWord) := []
  base : Nat := 0
  bytes : Nat := 0
  builtIn : List Byte := []
deriving DecidableEq, Repr, Inhabited

/-- A Trump program image (R44, R149, R327): its PROGRAM_HASH, certificate, and adapter part where it is adaptable. -/
structure TrumpImage where
  hash : List Byte := []
  cert : Cert := {}
  adapter : Option AdapterPart := none
deriving DecidableEq, Repr, Inhabited

/-- The Trump domain (R346 to R350): of the program started last, the certificate, the hash and the adapter part. -/
structure Trump where
  st : TrumpState := .stopped
  cert : Cert := {}
  programHash : List Byte := []
  adapter : Option AdapterPart := none
  stoppingSince : Nat := 0
deriving DecidableEq, Repr

/-- The job scheduler (R353 to R370): the jobs by ID, the owner (one job, or the two members of a group), the
submissions counted, the pre-emption under way: to whom the domain goes at the boundary, and the longest switch. -/
structure Sched where
  jobs : Tab Job := []
  owner : List Nat := []
  submitted : Nat := 0
  switching : Option (List Nat) := none
deriving DecidableEq, Repr

end Sys2Proof.Machine
end

