-- ==== Sys2Proof/Machine/TypesAdapt.lean ====
section
/-! DEFINITION. The state types of on-site adaptation (chapter 15). -/

namespace Sys2Proof.Machine

/-- States of an adapter bank (R329). -/
inductive BankState | empty | loading | sealed | armed | live | previous
deriving DecidableEq, Repr

/-- The number BANKn_STATE reads (R345). -/
def BankState.num : BankState → Nat
  | .empty => 0 | .loading => 1 | .sealed => 2 | .armed => 3 | .live => 4 | .previous => 5

/-- States of the adaptation cycle (R331). -/
inductive AdaptState | idle | training | trained | validating | gated | awaitingApproval | armed | watch
deriving DecidableEq, Repr

/-- The number ADAPT_STATE reads (R345). -/
def AdaptState.num : AdaptState → Nat
  | .idle => 0 | .training => 1 | .trained => 2 | .validating => 3 | .gated => 4 | .awaitingApproval => 5
  | .armed => 6 | .watch => 7

/-- An adapter image of model-store partition 3 (R330): the program it was trained for, its weights, the length and
the SHA-256 it states, and thresholds it carries (R339). -/
structure AdapterImage where
  program : List Byte := []
  weights : List Byte := []
  length : Nat := 0
  sha : List Byte := []
  thresholds : Option (Nat × Nat) := none
deriving DecidableEq, Repr

/-- A label of partition 5 (R332): the sample record, the crop, the teacher's class and confidence, whether used; and the
model slot whose image labelled it (R553). -/
structure Label where
  record : List Byte
  crop : List Byte
  cls : Nat
  conf : Nat
  used : Bool
  model : Option Nat := none
deriving DecidableEq, Repr

/-- An object of the golden set as the validation job classified it (R334): its label class and weight, and the scores of
the classes with the candidate bank and with the live bank. -/
structure GoldenScore where
  label : BitVec 4
  weight : BitVec 16
  cand : List (BitVec 16)
  live : List (BitVec 16)
deriving DecidableEq, Repr

/-- The candidate (R331, R334): identity, image, its bank, and the sums of the validation: the weight of the objects
whose candidate action is the label's, of candidate FIRE, of live FIRE, and of all. -/
structure Candidate where
  id : Nat
  image : AdapterImage
  bank : Nat := 0
  equal : Nat := 0
  fireCand : Nat := 0
  fireLive : Nat := 0
  total : Nat := 0
deriving DecidableEq, Repr

/-- On-site adaptation (R327 to R343): images and labels in the model store; the cycle, its candidate and the job under
way; the labels its training started with; since when approval is awaited; the swap line and whether a swap goes back; the watch: when it began, verdicts and
FIRE actions since, when it was last evaluated, the baseline as FIRE actions of verdicts, the thresholds before the
swap; the actions of the last verdicts, newest first; whether a swap line has been set since the start; the last shift
start; the candidate a reset voided. -/
structure Adapt where
  images : Tab AdapterImage := []
  labels : List Label := []
  st : AdaptState := .idle
  cand : Option Candidate := none
  job : Nat := 0
  labelled : Nat := 0
  bank0 : BankState := .empty
  bank1 : BankState := .empty
  awaitSince : Nat := 0
  line : Int := 0
  rolling : Bool := false
  watchAt : Nat := 0
  seen : Nat := 0
  fired : Nat := 0
  lastEval : Option Nat := none
  baseFired : Nat := 0
  baseSeen : Nat := 0
  before : Option (Nat × Nat) := none
  history : List Bool := []
  swapped : Bool := false
  shiftAt : Option Nat := none
  voided : Option Nat := none
deriving DecidableEq, Repr

end Sys2Proof.Machine
end

