-- ==== Sys2Proof/Machine/TypesFab.lean ====
section
/-! DEFINITION. The state types of the fabric and of the attention units (chapters 18 and 14). -/

namespace Sys2Proof.Machine

/-- A tile's shape as a DMA step names it, for expanding or compressing (R120 to R122): format, rows, columns. -/
structure ZcShape where
  format : BitVec 5
  rows : Nat
  cols : Nat
deriving DecidableEq, Repr

/-- A fabric frame (R395): its 32-byte header and its payload. -/
structure Frame where
  hdr : BitVec 256
  payload : List Byte := []
deriving DecidableEq, Repr

/-- States of a link (R390). -/
inductive LinkState | down | training | up
deriving DecidableEq, Repr

/-- The number LINK_STATE reads (R412). -/
def LinkState.num : LinkState → Nat
  | .down => 0 | .training => 1 | .up => 2

/-- A lane (R390 to R392): clock-data lock, block lock, marker seen, slips of this training. -/
structure Lane where
  clock : Bool := false
  block : Bool := false
  marker : Bool := false
  slips : Nat := 0
deriving DecidableEq, Repr

/-- A link (R390 to R399): state, the peer HELLO gave, whether HELLO was sent and received in this training, whether it
is held DOWN (R391), the time of the last training step, the rate applied; sleep and wake of both ends; deskew; the
sequence numbers, the frames sent and not acknowledged and those queued, oldest first; an ACK owed at the end of a wake;
the last NAK, the last advance of an ACK, replays since, and the last frame sent. Each queued frame stands with its
source: 0 to 7 the input links, 8 this module, 9 the link's own control frames; `servedT` and `servedJ` are the source
served last in the Trump and in the job class (R400). -/
structure Link where
  st : LinkState := .down
  peer : Nat := 0
  helloSent : Bool := false
  helloSeen : Bool := false
  held : Bool := false
  stepAt : Nat := 0
  rate : Nat := 6
  txAsleep : Bool := false
  rxAsleep : Bool := false
  waking : Option Nat := none
  deskew : Nat := 0
  nextSeq : BitVec 12 := 0
  expect : BitVec 12 := 0
  unacked : List Frame := []
  txq : List (Nat × Frame) := []
  servedT : Nat := 0
  servedJ : Nat := 0
  ackOwed : Bool := false
  nakAt : Option Nat := none
  ackAt : Nat := 0
  replays : Nat := 0
  sentAt : Nat := 0
deriving DecidableEq, Repr

/-- Kinds of fabric transaction (R402). -/
inductive TransKind | tile | write | read
deriving DecidableEq, Repr

/-- A transaction the module has issued (R402, R408): by in-flight tag, with the tag's reuse count, the issuing station,
its role epoch (R43) and its job, the start, the stream of a tile; of a read, where its data lands, how much, how far it has come, and
the form of a compressed tile to be expanded, and of one to be compressed, once it has landed (R122). -/
structure Trans where
  kind : TransKind
  reuse : Nat
  station : Nat
  epoch : BitVec 16 := 0
  job : Nat := 0
  start : Nat := 0
  stream : Nat := 0
  land : Nat := 0
  len : Nat := 0
  got : Nat := 0
  expand : Option ZcShape := none
  compress : Option ZcShape := none
deriving DecidableEq, Repr

/-- A tile being landed from the fabric (R402, R405): its descriptor and the payload so far; none once rejected. `whole`
is the last frame of one that waits for room in its queue (R378). -/
structure Landing where
  desc : Option Desc
  data : List Byte := []
  whole : Option Frame := none
deriving DecidableEq, Repr

/-- A write being served (R406): the first status it met. -/
structure Served where
  status : Word := 0
deriving DecidableEq, Repr

/-- The flow of a remote stream (R404): at the producer the last X and credits received, at the consumer what has been
popped, when a CREDIT was last sent, and whether one is owed. -/
structure RemoteFlow where
  x : Word := 0
  credits : Nat := 0
  popped : Word := 0
  sentAt : Option Nat := none
  owed : Bool := false
deriving DecidableEq, Repr

/-- The fabric (R386 to R410). `altAt` gives, of each destination module, when a frame was last queued on its alternate
link. -/
structure Fabric where
  links : Tab Link := []
  lanes : Tab Lane := []
  trans : Tab Trans := []
  reuse : Tab Nat := []
  landing : Tab Landing := []
  served : Tab Served := []
  flow : Tab RemoteFlow := []
  altAt : Tab Nat := []
  bseqOut : Tab Nat := []
  bseqIn : Tab Word := []
deriving DecidableEq, Repr

/-- An ATU (R322): the look-aside buffer's keys and the cached directory entries, least recently used first. -/
structure Atu where
  lab : List (Nat × Nat) := []
  dirs : List (Nat × Nat) := []
deriving DecidableEq, Repr

/-- Attention and the KV cache (R297 to R324): the locks, by sequence, as the job and the ATU that hold them; the
Kitty's ring position and level; the scheduler's free list as runs (first page, count); the order of CLOSE. -/
structure Attn where
  atus : Tab Atu := []
  locks : Tab (Nat × Nat) := []
  kittyHead : Nat := 0
  kittyLevel : Nat := 0
  freeList : List (Nat × Nat) := []
  closes : Tab Nat := []
  nextClose : Nat := 0
deriving DecidableEq, Repr

end Sys2Proof.Machine
end

