-- ==== Sys2Proof/Machine/TypesSys.lean ====
section
/-! DEFINITION. The state types of time, power, records, escalation, security, start-up and update
(chapters 20, 22 to 26, 28). -/

namespace Sys2Proof.Machine

/-- TIME_STATE (R448). -/
inductive TimeState | unset | free | locked | holdover
deriving DecidableEq, Repr

/-- The number TIME_STATE reads (R448). -/
def TimeState.num : TimeState → Nat
  | .unset => 0 | .free => 1 | .locked => 2 | .holdover => 3

/-- What an Announce message says of its sender (R450; the data set of IEEE 1588-2019): grandmaster identity, the
priorities, class, accuracy and variance, the steps removed, and the announce interval. -/
structure Announce where
  identity : List Byte
  priority1 : Nat := 128
  cls : Nat := 248
  accuracy : Nat := 254
  variance : Nat := 65535
  priority2 : Nat := 128
  steps : Nat := 0
  intervalNs : Nat := 1000000000
deriving DecidableEq, Repr

/-- The time base and the servo (R446 to R453). `dev` is device time in units of 2^-32 ns; `inc` is INCREMENT in
units of 2^-28 ns a cycle; INCREMENT as it last was in LOCKED; offsets below 1 us in a row; the masters whose step was
refused and told; when the override was armed; the masters heard, with when; whether one is followed. -/
structure Clock where
  dev : Nat := 0
  inc : Nat := 0x10000000
  st : TimeState := .unset
  lockedInc : Nat := 0x10000000
  small : Nat := 0
  refused : List (List Byte) := []
  armedAt : Option Nat := none
  masters : List (Announce × Nat) := []
  master : Option Announce := none
deriving DecidableEq, Repr

/-- The Ethernet switch (R441): the address table, port and when last seen by address; the second of RX_LIMIT under
way and its frames. -/
structure Net where
  macs : Tab (Nat × Nat) := []
  second : Nat := 0
  count : Nat := 0
deriving DecidableEq, Repr

/-- States of a power domain (R471). -/
inductive PdState | off | poweringUp | on | poweringDown
deriving DecidableEq, Repr

/-- A power domain (R471, R472): its state and a request that waits for the change under way. -/
structure Pd where
  st : PdState := .off
  waiting : Option Bool := none
deriving DecidableEq, Repr

/-- What the grade certificate says of a clock island, by operating point (R475, R476): floor and ceiling voltage in mV
and the replica's sensitivity in 0.1 ps per mV. -/
structure IslandCert where
  floor : List Nat := []
  vmax : List Nat := []
  sens10 : List Nat := []
deriving DecidableEq, Repr

/-- What a grade certificate says (R2, R108, R469, R475): the part number, the map of the enabled arrays, and, by
cap-adjustable island, the frequencies in MHz of its operating points and the limits of its voltages. -/
structure GradeCert where
  part : List Byte := []
  map : BitVec 16 := 0
  freqs : Tab (List Nat) := []
  islands : Tab IslandCert := []
deriving DecidableEq, Repr, Inhabited

/-- A clock island (R469 to R479): operating point, the setting before the cap acted, the voltages in force by point,
whether they are the committed plan's, whether a measurement is owed, and the voltages of its top point in the last 52
plans, newest first. -/
structure Island where
  point : Nat := 7
  before : Option Nat := none
  volt : List Nat := []
  applied : Bool := true
  missed : Bool := false
  tops : List Nat := []
deriving DecidableEq, Repr

/-- One copy of the margin plan in the boot flash (R477): its sequence number, and by island the voltages of its points
and the points retired. -/
structure PlanCopy where
  seq : Nat := 0
  volts : Tab (List Nat) := []
  retired : Tab (List Nat) := []
deriving DecidableEq, Repr

/-- Power, cap and ageing (R468 to R479): domains, islands, what the certificate says of them; the samples behind the
average, newest first; since when the average has stood low, the last step up, whether the cap has acted; the two
copies of the plan, which of them is committed, whether the other is prepared. -/
structure Power where
  pd : Tab Pd := [(63, { st := .on })]
  islands : Tab Island := []
  cert : Tab IslandCert := []
  samples : List Nat := []
  belowSince : Option Nat := none
  lastRaise : Nat := 0
  capActed : Bool := false
  planA : PlanCopy := {}
  planB : PlanCopy := {}
  commitB : Bool := false
  prepared : Bool := false
deriving DecidableEq, Repr

/-- A slot of the recorder's flash (R507): what each device holds; none where the program or check failed. -/
structure RecSlot where
  dev0 : Option (BitVec 512) := none
  dev1 : Option (BitVec 512) := none
deriving DecidableEq, Repr

/-- The event recorder (R502 to R512). The circulating area is a ring of 17 sectors of 1,024 slots. `cycle` holds the time of
the last record and how many of the queue's last records were written in its cycle (R503). -/
structure Recorder where
  nextSeq : Nat := 0
  queue : List (BitVec 512) := []
  first : Tab RecSlot := []
  key : Tab RecSlot := []
  circ : Tab RecSlot := []
  firstNext : Nat := 0
  keyNext : Nat := 0
  circNext : Nat := 0
  dropped : Nat := 0
  erasing : Bool := false
  clearedBelow : Nat := 0
  stopped : Bool := false
  opNs : Nat := 0
  opSaved : Nat := 0
  powerCycles : Nat := 0
  lastRep : Tab Nat := []
  cycle : Nat × Nat := (0, 0)
deriving DecidableEq, Repr

/-- One performance counter block (R513 to R516): the settings in force and, of each of its eight counters, the value
and OVF; which restart at the next strobe because their settings were written; the last snapshot's words. -/
structure CounterBlock where
  events : List Nat := [0, 0, 0, 0, 0, 0, 0, 0]
  chain : Nat := 0
  vals : List Nat := [0, 0, 0, 0, 0, 0, 0, 0]
  ovf : List Bool := [false, false, false, false, false, false, false, false]
  restart : List Bool := [false, false, false, false, false, false, false, false]
  snap : List Nat := [0, 0, 0, 0, 0, 0, 0, 0]
deriving DecidableEq, Repr

/-- A sensor (R523, R524): the readings its filter holds, newest first; filtered value and peak; whether it has failed;
the levels that stand (1 is the report level); and of each the time since when the reading lies inside. -/
structure Sensor where
  readings : List Int := []
  value : Int := 0
  peak : Int := 0
  failed : Bool := false
  levels : List Nat := []
  inside : Tab Nat := []
deriving DecidableEq, Repr

/-- Guarding and escalation (R527 to R535): the standing causes as (level, status word, what raised it), oldest
first; heartbeat and its loss; self-check; sensors; whether islands are lowered for heat, and when last. -/
structure Guard where
  causes : List (Nat × Word × Nat) := []
  lastBeat : Nat := 0
  lost : Bool := false
  lostAt : Nat := 0
  selfBad : Bool := false
  sensors : Tab Sensor := []
  lowering : Bool := false
  lastLower : Nat := 0
deriving DecidableEq, Repr

/-- Module phases (R541). -/
inductive Phase | startUp | inService | test | recovery | serviceState
deriving DecidableEq, Repr

/-- The number MODULE_PHASE reads (R541). -/
def Phase.num : Phase → Nat
  | .startUp => 0 | .inService => 1 | .test => 2 | .recovery => 3 | .serviceState => 4

/-- One of the two copies of the saved set, or of the key area, in the boot flash (R417, R485): sequence number, which
is the write count of the key area, whether it is intact, the entries of the settings area, the sealed items of the key
area. -/
structure SavedCopy where
  seq : Nat := 0
  intact : Bool := false
  set : Store := {}
  items : Tab (List Byte) := []
deriving DecidableEq, Repr

/-- A commit record (R546), with its REC_CRC. -/
def commitRecord (area slot state attempts seq length version : Nat) (hash : BitVec 256) : BitVec 512 :=
  let body : Nat :=
    (1 <<< 508) + (area <<< 506) + (slot <<< 504) + (state <<< 502) + (attempts <<< 498) + ((seq % 4294967296) <<< 448)
      + ((length % 281474976710656) <<< 400) + ((version % 4294967296) <<< 368) + (hash.toNat <<< 112)
  BitVec.ofNat 512 (body + crc32 ((leBytes 64 body).drop 4))

/-- Start-up, resets and updates (R538 to R555): whether power stands; whether step 8 has passed; the recovery loader;
the phase; the sensor by which the module is held in reset; a reset asked for, and when; the cause of the last; the
rings of commit records, oldest first (at delivery the firmware's holds slot A, log 63); the running slot; the stage of a
model commit, the slot staged and its bytes; the model in force, whether it is loaded, its length; the swap line at
which another slot takes over; the incomplete slots to be erased, as (area, slot); a model commit cut short; the copies
of the saved set and of the key area; and since when saved writes wait for a commit. -/
structure Boot where
  powered : Bool := false
  booted : Bool := false
  recoveryLoader : Bool := false
  phase : Phase := .startUp
  held : Option Nat := none
  request : Option Nat := none
  requestAt : Nat := 0
  cause : Nat := 1
  fwRing : List (BitVec 512) := [commitRecord 0 0 3 0 1 0 0 0]
  fwImages : Tab (List Byte) := []
  modelRing : List (BitVec 512) := []
  running : Nat := 0
  commitStage : Nat := 0
  stagedBytes : Nat := 0
  activeModel : Option Nat := none
  modelLoaded : Bool := false
  modelLength : Nat := 0
  modelSwap : Option (Int × Nat) := none
  slotErase : List (Nat × Nat) := []
  interrupted : Bool := false
  savedA : SavedCopy := {}
  savedB : SavedCopy := {}
  keysA : SavedCopy := {}
  keysB : SavedCopy := {}
  saveDirtyAt : Option Nat := none
deriving DecidableEq, Repr

/-- Security (R482 to R499): the service state, whether it has been reported, whether three tamper resets hold it;
whether step 3 failed; debug; the challenge; CUSTOMER_SALT; burnt marks, the open block and its next leaf; whether
attestation is refused; the reports under way as (requester, leaf, nonce), oldest first; the reports that stand, by
requester (0 the I3C target, else the session's number); the operating times of tamper resets in the last hour, whether
one is still to be recorded, and how many there were. -/
structure Security where
  serviceState : Bool := false
  serviceReported : Bool := false
  tamperHeld : Bool := false
  pufBad : Bool := false
  debugUnlocked : Bool := false
  challenge : List Byte := []
  salt : List Byte := []
  marksBurnt : Nat := 0
  openBlock : Option Nat := none
  nextLeaf : Nat := 0
  attestRefused : Bool := false
  attesting : List (Nat × Nat × List Byte) := []
  reports : Tab (List Byte) := []
  tamperOps : List Nat := []
  tamperOwed : Bool := false
  tampers : Nat := 0
deriving DecidableEq, Repr

/-- An ENC_5V supply (R579): whether an overload has it off, and since when. -/
structure Supply where
  enc5vOff : Bool := false
  enc5vAt : Nat := 0
deriving DecidableEq, Repr

end Sys2Proof.Machine
end

