-- ==== Sys2Proof/Machine/TypesVideo.lean ====
section
/-! DEFINITION. The state types of video decode and the Deck (chapter 13). -/

namespace Sys2Proof.Machine

/-- An RTP packet of a stream (R278, R279): sequence number, timestamp, marker bit, payload, and when it arrived, by
time base and by device time. -/
structure RtpPacket where
  seq : BitVec 16
  ts : Word
  marker : Bool
  payload : List Byte
  at_ : Nat := 0
  dev : Nat := 0
deriving DecidableEq, Repr

/-- An access unit (R279): its timestamp, arrival time (device ns), its NAL units or OBUs in order (the last one perhaps
still unfinished), whether a packet of it was lost, whether bytes of it are not in its payload format, and, once it is
complete, whether it is a key frame (R283) and whether it is a RASL picture. -/
structure AccessUnit where
  ts : Word
  dev : Nat
  parts : List (List Byte) := []
  unfinished : Bool := false
  lossy : Bool := false
  broken : Bool := false
  key : Bool := false
  rasl : Bool := false
deriving DecidableEq, Repr

/-- What a core decoded (R277, R284): width, height, bits a sample, luma samples, chroma samples at half width and
height (empty: monochrome). -/
structure Frame420 where
  w : Nat := 0
  h : Nat := 0
  bits : Nat := 8
  y : List Nat := []
  u : List Nat := []
  v : List Nat := []
deriving DecidableEq, Repr

/-- The profiles of R277's table; `other` is every other one. -/
inductive VProfile | high | constrainedBaseline | main | main10 | av1Main | other
deriving DecidableEq, Repr

/-- The chroma formats. -/
inductive Chroma | mono | c420 | c422 | c444
deriving DecidableEq, Repr

/-- What a core reports of an access unit it decoded (R277, R283, R284): the profile, level (in tenths), tier and chroma
format that its parameter sets give; the damage found (0 packet loss, 1 bitstream error, 3 reference missing), the unit
size in luma samples, the units not decoded, whether it refers directly or indirectly to a concealed picture, and the
samples. -/
structure Decoded where
  profile : VProfile := .high
  level : Nat := 40
  highTier : Bool := false
  chroma : Chroma := .c420
  damage : Option Nat := none
  unit : Nat := 16
  lost : List Nat := []
  chain : Bool := false
  frame : Frame420 := {}
deriving DecidableEq, Repr

/-- An output picture of a stream (R284 to R286): its samples and flags; when its unit arrived (device ns), when it was
put out (time-base count), the concealed units per thousand, and the arrival of the picture whose samples it shows. -/
structure Picture where
  ts : Word
  dev : Nat
  done : Nat
  frame : Frame420 := {}
  concealed : Bool := false
  mucked : Bool := false
  permille : Nat := 0
  real : Nat := 0
deriving DecidableEq, Repr

/-- States of a video stream (R283). -/
inductive VState | idle | waitKey | run | resync | lost
deriving DecidableEq, Repr

/-- The number STREAM_STATE reads (R296). -/
def VState.num : VState → Nat
  | .idle => 0 | .waitKey => 1 | .run => 2 | .resync => 3 | .lost => 4

/-- A video stream (R278 to R287). `next` is the RTP sequence number whose place comes next; `held` the packets held
for REORDER_TIME; `cur` the access unit under assembly, `units` those ready; `used` core time (ns) of the unit being
decoded; `times` the core times behind the running average; `chain` says that a picture since the last key frame was
concealed; `count` the pictures put out; `turn` the stream's standing in the round robin. -/
structure VStream where
  st : VState := .idle
  since : Nat := 0
  lastPacket : Nat := 0
  next : Option (BitVec 16) := none
  held : List RtpPacket := []
  cur : Option AccessUnit := none
  units : List AccessUnit := []
  pics : List Picture := []
  times : List Nat := []
  used : Nat := 0
  chain : Bool := false
  count : Nat := 0
  turn : Int := 0
deriving DecidableEq, Repr

/-- A batch under way (R288, R292): its template, sequence number, build instant (device ns), masks and slots. -/
structure Batch where
  template : Nat
  seq : Nat
  instant : Nat
  concealed : Nat := 0
  mucked : Nat := 0
  slots : Nat
deriving DecidableEq, Repr

/-- Video and the Deck: streams; the stream whose slice each core runs and since when, and
the earliest time of the core's next slice boundary; when each template was enabled
and how many of its instants have passed; the batch being built in each space; batches begun by template; the cell of
the record of each ready batch, by space; whether the low-water alarm may come. -/
structure Video where
  streams : Tab VStream := []
  slice : Tab Nat := []
  sliceAt : Tab Nat := []
  boundary : Tab Nat := []
  enabledAt : Tab Nat := []
  instants : Tab Nat := []
  building : Tab Batch := []
  seqs : Tab Nat := []
  spaces : Tab Nat := []
  armed : Bool := false
deriving DecidableEq, Repr

end Sys2Proof.Machine
end

