-- ==== Sys2Proof/Machine/TypesOps.lean ====
section
/-! DEFINITION. The types of the commands' operands. -/

namespace Sys2Proof.Machine

/-- What happens to an array while a command's work is done: idle cycles before it and frozen cycles within it (R91,
R92), disturbances of integer column sums as (row, column, amount) (R98), and whether a unit's parity fails (R100). -/
structure ArrayRun where
  idle : Nat := 0
  frozen : Nat := 0
  upsets : List (Nat × Nat × Int) := []
  parity : Bool := false
deriving DecidableEq, Repr

/-- The port classes of a bank (R112). -/
inductive PortClass | array | vector | front | dma
deriving DecidableEq, Repr

/-- A request presented to a bank in one cycle (R112, R113): its class, the station that issued it and which of the
station's units, what it accesses, how many consecutive rows of this bank it names (DMA port), its read mode (R117),
and whether it was issued before the group's power-down request (R127). -/
structure BankReq where
  cls : PortClass
  sid : BitVec 8
  unit : Nat := 0
  addr : Nat
  rows : Nat := 1
  mode : BitVec 16 := 0
  data : Option (List Byte) := none
  old : Bool := false
deriving DecidableEq, Repr

/-- What the SEC-DED check of an access found (R133, R154). -/
inductive EccResult | good | corrected | bad
deriving DecidableEq, Repr

/-- A DMA transfer descriptor (R117, R119, R122, R145, R146): source, destination, length in bytes, read mode, cache
hint, whether the source is zero-compressed and whether the destination is to be, a declared stream (base, stride,
length), the remote side of a transfer over the fabric: read from there, or written there (R401); and what the check of
the channels finds of what it reads in the HBM (R133). -/
structure DmaDesc where
  src : Nat
  dst : Nat
  len : Nat
  mode : BitVec 16 := 0
  hint : BitVec 2 := 0
  expand : Option ZcShape := none
  compress : Option ZcShape := none
  declared : Option (Nat × Int × Nat) := none
  remoteSrc : Option Nat := none
  remoteDst : Option Nat := none
  ecc : EccResult := .good
deriving DecidableEq, Repr

/-- An image line packet as a camera port finds it (R159, R160, R167): whether its header was corrected, or is
unreadable (then `words` is the length of the burst); virtual channel, data type, word count, whether the payload's
CRC passes, the pixel codes, and whether a payload byte arrived at a full FIFO (R169). -/
structure LinePacket where
  corrected : Bool := false
  readable : Bool := true
  vc : Nat := 0
  dt : Nat := 0x2C
  words : Nat
  crcOk : Bool := true
  codes : List (BitVec 16) := []
  full : Bool := false
deriving DecidableEq, Repr

/-- What a start finds (R538): by firmware slot, whether the device reads it as it was written; whether the root key is
recovered, the grade and the identity certificate are read as they were written; by copy, whether the saved set and the key area are still intact; whether the
HBM trains and the cluster starts; by model slot, whether the device reads its image as it was written (R153); of each
island measured, the reference and the stressed count and the slack (R475). -/
structure BootRun where
  fwGood : List Bool := [true, true]
  pufGood : Bool := true
  gradeGood : Bool := true
  identityGood : Bool := true
  savedGood : List Bool := [true, true]
  keysGood : List Bool := [true, true]
  hbmGood : Bool := true
  imageGood : List Bool := [true, true]
  ages : List (Nat × Nat × Nat × Int) := []
deriving DecidableEq, Repr

/-- A failed attempt at a slot (R507): which area (0 circulating, 1 first-records, 2 key-events), and whether the program
or check failed on each device. -/
structure SlotFail where
  area : Nat
  dev0 : Bool
  dev1 : Bool
deriving DecidableEq, Repr

/-- An FDP datagram as it arrives (R423): the port and IPv4 address it comes from, the fields of its header but GEN, KIND
and LENGTH, its body and TAG. -/
structure Datagram where
  port : BitVec 1
  src : Word
  version : BitVec 8 := 1
  session : BitVec 16
  seq : Word
  body : List Byte := []
  tag : List Byte := []
deriving DecidableEq, Repr

end Sys2Proof.Machine
end

