-- ==== Sys2Proof/Syntax.lean ====
section
/-! DEFINITION. The commands of the block: one constructor per row of the command table, in the table's order. The
first operand of each, `t`, is the time-base count (ns) at which the command comes about (log 1). -/

namespace Sys2Proof

open Machine

/-- The commands. Each docstring names the row and the rule it is governed by; what each operand is stands there. -/
inductive Instr
  /-- TILE_RECEIVE (R25). A tile or message reaches a station input port and is checked, then queued or rejected.
  `dst` is the consumer's address, `d` the descriptor as it arrived. -/
  | tileReceive (t : Nat) (dst : BitVec 24) (port : BitVec 4) (d : Desc)
  /-- STEP_START (R31). A station starts a step once every named input port holds a tile and the output port holds its
  credits. -/
  | stepStart (t : Nat) (st : BitVec 8)
  /-- TILE_EMIT (R19). A step completes and emits its output tile with flags carried from its inputs. `addr` and
  `scale` are where the step writes payload and scales; `sot` and `eot` the frame flags. -/
  | tileEmit (t : Nat) (st : BitVec 8) (addr scale : BitVec 48) (sot eot : Bool)
  /-- NOP (R29). Control opcode that does nothing for one sequencer cycle. -/
  | nop (t : Nat) (st : BitVec 8)
  /-- LOOP (R29). Control opcode that opens a loop run COUNT_M1 + 1 times. -/
  | loop (t : Nat) (st : BitVec 8)
  /-- ENDLOOP (R29). Control opcode that closes the innermost open loop. -/
  | endloop (t : Nat) (st : BitVec 8)
  /-- FENCE (R29). Control opcode that waits until every emitted tile has been accepted. -/
  | fence (t : Nat) (st : BitVec 8)
  /-- FENCE_DONE (R33). The last emitted tile is accepted and a station blocked on a FENCE resumes. -/
  | fenceDone (t : Nat) (st : BitVec 8)
  /-- END (R29). Control opcode that ends the table, restarting it or leaving the station IDLE. -/
  | endTable (t : Nat) (st : BitVec 8)
  /-- TABLE_LOAD (R32). The management cluster loads a table into a shadow slot, which checks it. -/
  | tableLoad (t : Nat) (st : BitVec 8) (table : List StepWord)
  /-- TABLE_ARM (R35). A loaded shadow slot is armed with AT_END, AT_YIELD or AT_SWAP. -/
  | tableArm (t : Nat) (st : BitVec 8) (cond : SwitchCond)
  /-- TABLE_DISARM (R38). A disarm request returns an armed shadow slot to LOADED if the switch has not begun.
  `sameCycle`: a switch falls in the same sequencer cycle. -/
  | tableDisarm (t : Nat) (st : BitVec 8) (sameCycle : Bool)
  /-- STREAM_MAP_LOAD (R26). A stream map is loaded into the stations it names. `credits` are the tiles each consumer
  port can hold. -/
  | streamMapLoad (t : Nat) (entries : List MapEntry) (credits : Nat)
  /-- STATION_START (R33). An IDLE station whose active slot holds a table is started and enters RUN. -/
  | stationStart (t : Nat) (st : BitVec 8)
  /-- STATION_FAULT (R33). A station finds a fault and enters FAULT. `status` is the fault's status word (class 0x04).
  -/
  | stationFault (t : Nat) (st : BitVec 8) (status : Word)
  /-- STATION_CLEAR (R532). The management cluster clears a faulted station, which enters IDLE with a raised epoch. -/
  | stationClear (t : Nat) (st : BitVec 8)
  /-- WLOAD (R85). Array opcode that loads the shadow weight registers. -/
  | wload (t : Nat) (st : BitVec 8) (run : ArrayRun)
  /-- MMUL (R87). Array opcode for the weight-stationary product. The next activation tile (or pair of tiles) of the
  step. -/
  | mmul (t : Nat) (st : BitVec 8) (run : ArrayRun)
  /-- OSMUL (R89). Array opcode for the output-stationary product. The next pair of an activation and a weight tile of
  the step. -/
  | osmul (t : Nat) (st : BitVec 8) (run : ArrayRun)
  /-- BLOAD (R80). Array opcode that loads the bias register. -/
  | bload (t : Nat) (st : BitVec 8) (run : ArrayRun)
  /-- CHECK (R99). Array opcode that runs the built-in pattern check against EXPECT. `word` is a CHECK step that the
  management cluster runs on a faulted array (R532); none: the step in flight. -/
  | check (t : Nat) (st : BitVec 8) (run : ArrayRun) (word : Option StepWord)
  /-- MVMUL (R107). Matrix-vector engine opcode for thin products. The next pair of an activation and a weight tile of
  the step. -/
  | mvmul (t : Nat) (st : BitVec 8)
  /-- RAMP_DOWN (R93). After 256 frozen or idle cycles an array ramps its current down and is clock-gated. `cycles`
  frozen or idle cycles have passed; `completed`: the ramp ends, else it begins. -/
  | rampDown (t : Nat) (array : BitVec 4) (cycles : Nat) (completed : Bool)
  /-- RAMP_UP_DONE (R93). An array's 2 µs current ramp-up ends and it takes its first real operand. -/
  | rampUpDone (t : Nat) (array : BitVec 4)
  /-- HALF_FENCE (R104). A fault in one half of a split array is contained within 64 cycles. -/
  | halfFence (t : Nat) (st : BitVec 8) (status : Word)
  /-- ARRAY_SPLIT (R103). The management cluster splits an idle array into two halves. -/
  | arraySplit (t : Nat) (array : BitVec 4)
  /-- ARRAY_JOIN (R103). The management cluster joins the two idle halves of an array. -/
  | arrayJoin (t : Nat) (array : BitVec 4)
  /-- BUF_ACCESS (R113). A port request is presented to a buffer bank and is granted or refused. One cycle of bank
  `bank` (its code as BANK_SELECT has it), with the requests presented to it. -/
  | bufAccess (t : Nat) (bank : BitVec 9) (reqs : List BankReq)
  /-- DMA_GRANT_FORCED (R113). A DMA request refused for 32 cycles is granted at the next cycle free of bursts. Such a
  cycle, in which the waiting DMA request goes first. -/
  | dmaGrantForced (t : Nat) (bank : BitVec 9) (reqs : List BankReq)
  /-- DMA_TRANSFER (R119). A DMA engine executes a transfer descriptor. -/
  | dmaTransfer (t : Nat) (st : BitVec 8) (d : DmaDesc)
  /-- GROUP_POWER_DOWN (R127). A buffer group receives a power-down request and enters POWERING_DOWN. `outstanding`
  writes have been issued to it and not landed. -/
  | groupPowerDown (t : Nat) (group : Fin 24) (outstanding : Nat)
  /-- GROUP_OFF (R127). The last in-flight write lands and the group powers down. `waiting`: the stations whose reads
  still wait for a bank of the group. -/
  | groupOff (t : Nat) (group : Fin 24) (waiting : List (BitVec 8))
  /-- GROUP_FORCED_OFF (R127). 2 µs after the request the group powers down with writes still outstanding. `waiting`
  as for GROUP_OFF. -/
  | groupForcedOff (t : Nat) (group : Fin 24) (waiting : List (BitVec 8))
  /-- GROUP_POWER_UP (R126). A buffer group is switched on and enters CLEARING. -/
  | groupPowerUp (t : Nat) (group : Fin 24)
  /-- GROUP_CLEAR_DONE (R126). The zero-fill of a group ends and it enters ON. -/
  | groupClearDone (t : Nat) (group : Fin 24)
  /-- OWNER_MAP_WRITE (R125). SHARED_OWNER_MAP or DMA_OWNER_MAP is written and moved groups start their zero fill. A
  write of SHARED_OWNER_MAP, or of DMA_OWNER_MAP (R123, R125, R130). -/
  | ownerMapWrite (t : Nat) (role : Role) (dma : Bool) (value : BitVec 8)
  /-- OWNER_FILL_DONE (R125). The zero fill of a shared group that changed owner ends and the new owner may reach it.
  -/
  | ownerFillDone (t : Nat) (group : Fin 8)
  /-- HBM_ACCESS (R137). An HBM request is checked against the Trump region and granted a channel slot. A request of
  up to 256 bytes at HBM offset `off`, presented for the first time or again while it waits, and the slot of its
  channel at `t`; `rowOpen`: the oldest waiting job request hits an open row and completes within the slot; `ecc`:
  what the check finds of a read that the slot completes. -/
  | hbmAccess (t : Nat) (st : BitVec 8) (off hint len : Nat) (rowOpen : Bool) (write : Option (List Byte)) (ecc
    : EccResult)
  /-- PF_ISSUE (R147). A running prefetcher issues a read ahead once the station has tags free. -/
  | pfIssue (t : Nat) (pf : BitVec 8)
  /-- HBM_SCRUB (R133). The patrol scrubber reads an HBM address in an unclaimed slot. `claimed`: some request claims
  the slot. -/
  | hbmScrub (t : Nat) (off : Nat) (claimed : Bool) (ecc : EccResult)
  /-- MS_COMMAND (R151). A job-domain DMA engine issues a model-store block command. -/
  | msCommand (t : Nat) (st : BitVec 8) (write : Bool) (part block count off : Nat)
  /-- MS_COMPLETE (R152). A model-store command completes once its data is durable. `index`: which of the commands
  under way, oldest first. -/
  | msComplete (t : Nat) (index : Nat) (mediaError : Bool)
  /-- PSRAM_READ (R154). The supervisor reads a PSRAM word with SEC-DED and mirror fallback. The number of the word in
  a device, and what the checks find in device 0 and, where it is read, in device 1. -/
  | psramRead (t : Nat) (word : Nat) (dev0 dev1 : EccResult)
  /-- PORT_ENABLE_WRITE (R590). A write of PORT_ENABLE checks the port's cross-entry conditions and enables or
  disables it. A write of PORT_ENABLE (R163, R590). -/
  | portEnableWrite (t : Nat) (role : Role) (port : BitVec 4) (value : BitVec 8)
  /-- FRAME_START (R164). A frame start on the framing virtual channel opens the port's frame. `corrected`: the
  header's ECC corrected a bit; `fifoLow`: the FIFO holds 24 KiB or less. -/
  | frameStart (t : Nat) (port : BitVec 4) (vc : BitVec 5) (number : BitVec 16) (corrected fifoLow : Bool)
  /-- FRAME_END (R164). A frame end on the framing virtual channel closes the frame. -/
  | frameEnd (t : Nat) (port : BitVec 4) (vc : BitVec 5) (corrected fifoLow : Bool)
  /-- IMAGE_LINE (R165). An image line packet is received, stamped and checked. -/
  | imageLine (t : Nat) (port : BitVec 4) (packet : LinePacket) (fifoLow : Bool)
  /-- METADATA_PACKET (R166). A user-defined metadata packet is emitted as UINT8 tiles on output port 1. `full`: a
  payload byte arrived at a full FIFO; `addr`: where the payloads of its tiles are laid. -/
  | metadataPacket (t : Nat) (port : BitVec 4) (vc : BitVec 5) (dt : BitVec 6) (crcOk corrected : Bool) (payload
    : List Byte) (full : Bool) (addr : BitVec 48)
  /-- PACKET_IGNORED (R159). A packet of an unaccepted type or virtual channel is discarded and counted. -/
  | packetIgnored (t : Nat) (port : BitVec 4) (corrected : Bool)
  /-- LINE_TIMEOUT (R168). No image line for LINE_PERIOD_MAX closes the frame and emits an INCOMPLETE tile. -/
  | lineTimeout (t : Nat) (port : BitVec 4) (addr : BitVec 48) (fifoLow : Bool)
  /-- DEVELOP_LINE (R170). The develop lane corrects a line and emits its output tiles. `addr`: where the payloads of
  the tiles are laid, one after another. -/
  | developLine (t : Nat) (port : BitVec 4) (addr : BitVec 48)
  /-- STATS_WINDOW_END (R176). A statistics window ends and its histograms and zone averages are published. -/
  | statsWindowEnd (t : Nat) (port : BitVec 4)
  /-- GAIN_APPLY (R178). Computed gains take effect at the first line 100 µs after the window's end. -/
  | gainApply (t : Nat) (port : BitVec 4)
  /-- FWLOAD (R189). Front-engine opcode that loads the weight store. -/
  | fwload (t : Nat) (st : BitVec 8)
  /-- FCONV (R192). Front-engine opcode computing one output row of a convolution band. -/
  | fconv (t : Nat) (st : BitVec 8)
  /-- FPOOL (R196). Front-engine opcode computing one output row of pooling. -/
  | fpool (t : Nat) (st : BitVec 8)
  /-- VPOOL (R195). Vector-unit pooling opcode. -/
  | vpool (t : Nat) (st : BitVec 8)
  /-- DECIDE (R205). DEC consumes a detection tile, joins partials and issues verdicts. The tile of DEC's step in
  flight. -/
  | decide (t : Nat)
  /-- CROP_SAMPLE (R212). DEC copies an UNSURE object's crop and posts a sample record. The oldest UNSURE verdict
  whose sample is to be tried. -/
  | cropSample (t : Nat)
  /-- TRACK (R214). TRK consumes a verdict tile, merges or allocates contexts and sends window commands. The tile of
  TRK's step in flight. -/
  | track (t : Nat)
  /-- TRACK_EJECTING (R214). TRK receives an OPENED report and moves the context to EJECTING. The report tile at the
  head of TRK's input port. -/
  | trackEjecting (t : Nat) (port : BitVec 4)
  /-- TRACK_RETIRE (R214). The encoder position reaches WIN_END and the context is freed. -/
  | trackRetire (t : Nat) (index : BitVec 16)
  /-- TRACK_EXPIRED (R214). A context older than TRACK_MAX_AGE is freed and its window cancelled. `addr`: where the
  payload of the command tile is written. -/
  | trackExpired (t : Nat) (index : BitVec 16) (addr : BitVec 48)
  /-- THRESHOLD_WRITE (R208). A write of ACCEPT_THRESHOLD or REJECT_THRESHOLD is checked and applies from the next
  verdict. A write of ACCEPT_THRESHOLD or REJECT_THRESHOLD (R208). -/
  | thresholdWrite (t : Nat) (role : Role) (accept : Bool) (value : BitVec 16)
  /-- ENVELOPE_WRITE (R208). A write of a threshold envelope object clamps thresholds to the new bounds. A write of
  ACC_THR_MIN, ACC_THR_MAX, REJ_THR_MIN or REJ_THR_MAX (R208). -/
  | envelopeWrite (t : Nat) (role : Role) (which : Fin 4) (value : BitVec 16)
  /-- WINDOW_NEW (R222). The Dealer takes a NEW window command into its slot. The next command of the Dealer's step in
  flight, where it is of this kind. -/
  | windowNew (t : Nat)
  /-- WINDOW_AMEND (R222). The Dealer replaces the range and valves of an existing window. As WINDOW_NEW. -/
  | windowAmend (t : Nat)
  /-- WINDOW_CANCEL (R222). The Dealer removes a window, clearing opened valves at the next latch. As WINDOW_NEW. -/
  | windowCancel (t : Nat)
  /-- LATCH_COMMIT (R234). At t_L − t_frame − 2 µs the Dealer fixes a latch's time and image. -/
  | latchCommit (t : Nat) (string : BitVec 4)
  /-- LATCH_STROBE (R236). LATCH rises at t_L and the string takes its new image. `diag`: the frame DIAG returned;
  `addr`: where the payload of the report tile is written. -/
  | latchStrobe (t : Nat) (string : BitVec 4) (diag : BitVec 256) (addr : BitVec 48)
  /-- BELT_STALL (R227). The newest edge grows older than STALL_TIME and opened valves are cleared. -/
  | beltStall (t : Nat) (enc : BitVec 3)
  /-- DRIVER_FAULT (R238). DIAG low for 2 µs outside frames is counted and reported. -/
  | driverFault (t : Nat) (string : BitVec 4)
  /-- STRING_REFRESH (R239). A string without a latch for REFRESH_PERIOD latches its current image again. -/
  | stringRefresh (t : Nat) (string : BitVec 4)
  /-- STRING_ZERO_LATCH (R240). On a stop, Dealer fault or safe state a string latches all zeros. -/
  | stringZeroLatch (t : Nat) (string : BitVec 4) (diag : BitVec 256)
  /-- ENCODER_EDGE (R247). A filtered incremental edge is counted and written to the edge ring. The accepted levels of
  A and B from now on. -/
  | encoderEdge (t : Nat) (enc : BitVec 3) (a b : Bool)
  /-- EDGE_FAULT (R248). A raw change reverting before EDGE_MIN is counted and ignored. -/
  | edgeFault (t : Nat) (enc : BitVec 3)
  /-- MAG_STEP (R250). A three-switch state change counts a step or is a fault. The state of the three switches from
  now on. -/
  | magStep (t : Nat) (enc : BitVec 3) (uvw : BitVec 3)
  /-- SSI_FRAME_START (R251). Every SSI_PERIOD the channel starts clocking an SSI frame. -/
  | ssiFrameStart (t : Nat) (enc : BitVec 3)
  /-- SSI_FRAME_END (R253). A completed SSI frame is checked and moves the position by its step. `raw`: the data bits
  and, last, the parity bit where there is one. -/
  | ssiFrameEnd (t : Nat) (enc : BitVec 3) (raw : BitVec 49) (notReady recoveryBad : Bool)
  /-- ENC_INDEX (R254). A Z rising edge captures the position and may reset it. -/
  | encIndex (t : Nat) (enc : BitVec 3)
  /-- LINE_FAULT (R256). A wire pair standing equal for LINE_FILTER enters LINE_FAULT. `pair`: 0 A, 1 B, 2 Z. -/
  | lineFault (t : Nat) (enc : BitVec 3) (pair : Fin 3)
  /-- LINE_FAULT_CLEAR (R256). Wires opposite for LINE_FILTER clear LINE_FAULT. -/
  | lineFaultClear (t : Nat) (enc : BitVec 3) (pair : Fin 3)
  /-- PERIOD_INVALID (R258). T becomes invalid when the newest entry is older than 2 × T. -/
  | periodInvalid (t : Nat) (enc : BitVec 3)
  /-- POSITION_WRITE (R246). A write of POSITION sets the count, empties the ring and invalidates T. A write of
  POSITION (R246). -/
  | positionWrite (t : Nat) (role : Role) (enc : BitVec 3) (value : BitVec 64)
  /-- INDEX_ARM_WRITE (R254). A write of 1 to INDEX_ARM arms a one-shot index reset. A write of INDEX_ARM (R254). -/
  | indexArmWrite (t : Nat) (role : Role) (enc : BitVec 3) (value : BitVec 8)
  /-- ENC_5V_OVERLOAD (R579). ENC_5V above 400 mA switches off. -/
  | enc5vOverload (t : Nat) (enc : BitVec 3)
  /-- ENC_5V_RETRY (R579). A switched-off ENC_5V retries every 100 ms. -/
  | enc5vRetry (t : Nat) (enc : BitVec 3)
  /-- DI_SAMPLE (R261). Every 250 ns each input is measured and given a raw class. -/
  | diSample (t : Nat) (input : BitVec 5) (millivolts microamps : Nat)
  /-- DI_CHANGE (R263). A raw class held for DEBOUNCE is accepted as ON or OFF. -/
  | diChange (t : Nat) (input : BitVec 5)
  /-- FIELD_WIRE_BREAK (R264). BREAK held for BREAK_FILTER is accepted and reported. -/
  | fieldWireBreak (t : Nat) (input : BitVec 5)
  /-- FIELD_SUPPLY_LOW (R265). Field supply below 19.2 V for 1 ms freezes inputs and switches outputs off. -/
  | fieldSupplyLow (t : Nat)
  /-- FIELD_SUPPLY_GOOD (R265). Field supply good for 10 ms restarts input debounce. -/
  | fieldSupplyGood (t : Nat)
  /-- OUTPUT_FRAME (R266). Every 50 µs the logic side sends an output frame and the field side drives from it.
  `received`: the frame crosses the barrier intact. -/
  | outputFrame (t : Nat) (received : Bool)
  /-- FIELD_OUT_OVERCURRENT (R267). Overcurrent for 10 µs switches the output off. -/
  | fieldOutOvercurrent (t : Nat) (output : BitVec 4)
  /-- DO_RETRY (R267). With DO_RESTART 1 an overcurrent output retries every 100 ms. -/
  | doRetry (t : Nat) (output : BitVec 4)
  /-- FIELD_OUT_OPEN_LOAD (R267). Load current below 2 mA for 100 ms sets open load. -/
  | fieldOutOpenLoad (t : Nat) (output : BitVec 4)
  /-- FIELD_OUT_MISMATCH (R267). Readback disagreeing for 1 ms sets mismatch. -/
  | fieldOutMismatch (t : Nat) (output : BitVec 4)
  /-- DO_FAULT_CLEAR (R267). Open-load or mismatch bits clear after their condition is absent 100 ms. `mismatch`: bit
  2 clears, else bit 1. -/
  | doFaultClear (t : Nat) (output : BitVec 4) (mismatch : Bool)
  /-- WATCHDOG_KICK (R268). The supervisor's kick sequence reloads the logic-side watchdog. The two words and the ns
  between them. -/
  | watchdogKick (t : Nat) (first second : BitVec 8) (gap : Nat)
  /-- WATCHDOG_EXPIRY (R269). The watchdog reaches zero and outputs enter their safe states. -/
  | watchdogExpiry (t : Nat)
  /-- FIELD_LINK_LOST (R270). No intact frame for 500 µs makes the field side apply safe states. -/
  | fieldLinkLost (t : Nat)
  /-- FIELD_POWER_UP (R271). A powering-up field side drives outputs off until its first intact frame. -/
  | fieldPowerUp (t : Nat)
  /-- SAFE_STATE_RELEASE (R272). A release write after a kick returns outputs to their commanded states. A write of
  SAFE_STATE_RELEASE (R272). -/
  | safeStateRelease (t : Nat) (role : Role) (value : BitVec 8)
  /-- DO_FAULT_ACK (R273). A write of DO_FAULT_ACK clears a latched overcurrent. A write of DO_FAULT_ACK (R267). -/
  | doFaultAck (t : Nat) (role : Role) (output : BitVec 4) (value : BitVec 8)
  /-- RTP_PACKET (R278). An RTP packet arrives and is matched to a stream. Its UDP source address and destination
  port, and its RTP header's fields. -/
  | rtpPacket (t : Nat) (source : BitVec 32) (port : BitVec 16) (payloadType : BitVec 7) (seq : BitVec 16)
    (stamp : BitVec 32) (marker : Bool) (payload : List Byte)
  /-- RTP_RELEASE (R279). After REORDER_TIME a packet is released in sequence order and access units assembled. -/
  | rtpRelease (t : Nat) (stream : BitVec 6)
  /-- DECODE_SLICE (R282). At each 250 µs slice boundary a core chooses a stream by weighted round robin. -/
  | decodeSlice (t : Nat) (core : BitVec 3)
  /-- PICTURE_DONE (R284). A picture's decode completes and it is emitted, concealed or mucked. -/
  | pictureDone (t : Nat) (stream : BitVec 6) (result : Decoded)
  /-- VIDEO_BUDGET (R285). A picture using its budget of core time is stopped and the stream enters RESYNC. `first`,
  `damaged`, `total`: the first unit not decoded, how many were not, and the picture's units. -/
  | videoBudget (t : Nat) (stream : BitVec 6) (first damaged total : BitVec 24)
  /-- VIDEO_STREAM_LOST (R283). STREAM_TIMEOUT without a packet moves the stream to LOST. -/
  | videoStreamLost (t : Nat) (stream : BitVec 6)
  /-- VSTREAM_ENABLE_WRITE (R280). A write of VSTREAM_ENABLE admits or disables a stream. A write of VSTREAM_ENABLE
  (R280). -/
  | vstreamEnableWrite (t : Nat) (role : Role) (stream : BitVec 6) (value : BitVec 8)
  /-- TEMPLATE_ENABLE_WRITE (R290). A write of TEMPLATE_ENABLE starts or stops batch builds. A write of
  TEMPLATE_ENABLE (R288, R291). -/
  | templateEnableWrite (t : Nat) (role : Role) (template : BitVec 3) (value : BitVec 8)
  /-- BATCH_BUILD (R288). At each build instant the Deck starts one batch in a free space. -/
  | batchBuild (t : Nat) (template : BitVec 3)
  /-- BATCH_COMPLETE (R293). A batch is complete and its record posted to DECK_QUEUE. -/
  | batchComplete (t : Nat) (space : BitVec 6)
  /-- ATTN (R309). ATU opcode performing attention over a batch of sequences. `count`: at most how many entries it
  goes through before it stops at an entry's end (R324). -/
  | attn (t : Nat) (st : BitVec 8) (count : Nat)
  /-- SEQ_LOCK (R308). An ATU acquires locks on all named sequences once the other ATU holds none. -/
  | seqLock (t : Nat) (st : BitVec 8)
  /-- KITTY_TAKE (R315). A waiting entry takes all its pages once the Kitty holds them. -/
  | kittyTake (t : Nat) (st : BitVec 8)
  /-- KITTY_EMPTY (R316). An entry that cannot take its pages within 100 µs fails. -/
  | kittyEmpty (t : Nat) (st : BitVec 8)
  /-- KITTY_REFILL (R317). Below KITTY_LOW_WATER the scheduler refills the Kitty and may reclaim sequences. -/
  | kittyRefill (t : Nat)
  /-- KV_POOL_PAGES_WRITE (R317). A write of KV_POOL_PAGES fills the Kitty and forms the free list. A write of
  KV_POOL_PAGES (R298, R317). -/
  | kvPoolPagesWrite (t : Nat) (role : Role) (value : BitVec 32)
  /-- KV_OPEN (R319). KVOP subop opening a sequence. -/
  | kvOpen (t : Nat) (st : BitVec 8)
  /-- KV_FORK (R319). KVOP subop forking a sequence and raising page counts. -/
  | kvFork (t : Nat) (st : BitVec 8)
  /-- KV_CLOSE (R319). KVOP subop marking a sequence COMPLETE. -/
  | kvClose (t : Nat) (st : BitVec 8)
  /-- KV_FREE (R319). KVOP subop freeing a sequence's pages. -/
  | kvFree (t : Nat) (st : BitVec 8)
  /-- TEACHER_BATCH (R332). The controller submits a teacher job for a batch of sample records. `labels`: the class
  and confidence the teacher gives each record, in order. -/
  | teacherBatch (t : Nat) (job : Desc) (labels : List (BitVec 4 × BitVec 16))
  /-- TRAINING_START (R331). LABELS_PENDING reaching TRAIN_MIN_LABELS starts a training job. -/
  | trainingStart (t : Nat) (job : Desc)
  /-- TRAINING_END (R333). The training job ends and its image is written to partition 3. `result`: the image's
  ADAPTER_ID and the image; none where the job ended in error. -/
  | trainingEnd (t : Nat) (result : Option (BitVec 32 × AdapterImage))
  /-- BANK_SEALED (R331). The candidate is copied into an empty bank, sealed and validation starts. `job`: the
  validation job. -/
  | bankSealed (t : Nat) (job : Desc)
  /-- VALIDATION_END (R334). The validation job ends with its scores and the gates are applied. `objects`: the golden
  objects as the validation job classified them, with the candidate bank and with the live bank. -/
  | validationEnd (t : Nat) (objects : List GoldenScore)
  /-- SHIFT_START (R335). A shift starts and held candidates run the gates again. -/
  | shiftStart (t : Nat)
  /-- ADAPT_APPROVE (R337). Writing the candidate ID approves it and arms it. -/
  | adaptApprove (t : Nat) (role : Role) (id : BitVec 32)
  /-- ADAPT_REFUSE (R337). Writing the candidate ID refuses and discards it. -/
  | adaptRefuse (t : Nat) (role : Role) (id : BitVec 32)
  /-- APPROVAL_TIMEOUT (R331). A candidate not approved within APPROVAL_TIMEOUT is discarded. -/
  | approvalTimeout (t : Nat)
  /-- SWAP_ARM (R338). Once T is valid the controller chooses a swap line and arms the adapter stations. -/
  | swapArm (t : Nat)
  /-- SWAP_SWITCHED (R338). The last listed station switches; banks change state and the watch begins. `count`: TAG
  count of the switching tile. -/
  | swapSwitched (t : Nat) (count : BitVec 48)
  /-- WATCH_EVALUATE (R340). Once per second the reject-rate change is evaluated and may roll back. -/
  | watchEvaluate (t : Nat)
  /-- ADAPT_ROLLBACK (R340). An operator write of the candidate ID rolls the swap back. -/
  | adaptRollback (t : Nat) (role : Role) (id : BitVec 32)
  /-- WATCH_ACCEPT (R341). After WATCH_TIME without rollback the candidate is accepted and committed. -/
  | watchAccept (t : Nat)
  /-- TRUMP_START (R346). TRUMP_CONTROL written 1 in STOPPED moves the domain to STARTING and runs the start checks.
  -/
  | trumpStart (t : Nat) (role : Role)
  /-- TRUMP_STARTED (R348). All checks pass and every Trump station leaves IDLE in the same cycle. -/
  | trumpStarted (t : Nat)
  /-- TRUMP_STOP (R346). TRUMP_CONTROL written 0 ends a start or moves a running domain to STOPPING. -/
  | trumpStop (t : Nat) (role : Role)
  /-- TRUMP_STOPPED (R346). Every Trump station is IDLE or FAULT and the domain enters STOPPED. -/
  | trumpStopped (t : Nat)
  /-- TRUMP_ARRAY_MAP_WRITE (R347). A write of TRUMP_ARRAY_MAP moves arrays between domains. `split`: the write is of
  TRUMP_SPLIT_MAP. -/
  | trumpArrayMapWrite (t : Nat) (role : Role) (split : Bool) (value : BitVec 16)
  /-- JOB_SUBMIT (R352). A job descriptor arrives by JOB_SUBMIT or JOB_QUEUE and is checked and scheduled. `d`: the
  descriptor written to JOB_SUBMIT; none: the oldest record of JOB_QUEUE. -/
  | jobSubmit (t : Nat) (role : Role) (d : Option Desc)
  /-- JOB_BLOCKED (R355). The owner's stations all blocked for BLOCK_DETECT make it BLOCKED. -/
  | jobBlocked (t : Nat) (id : BitVec 32)
  /-- JOB_UNBLOCKED (R355). An awaited input arrives and the job becomes READY. -/
  | jobUnblocked (t : Nat) (id : BitVec 32)
  /-- RESIDENT_LOAD_DONE (R359). A job's load completes and it becomes resident. What the load brought: by station its
  cap and table, the stream map, its credits, and the bytes moved; whether the job uses the model (R554). -/
  | residentLoadDone (t : Nat) (id : BitVec 32) (tables : List (BitVec 8 × Nat × List StepWord)) (entries : List
    MapEntry) (credits : Nat) (moved : List (BitVec 48 × List Byte)) (usesModel : Bool)
  /-- PREEMPT_BOUNDARY (R362). The owner's last station reaches its boundary and the domain switches owner. `absent`:
  an awaited input of the owner is found absent; `switchNs`: how long the switch takes. -/
  | preemptBoundary (t : Nat) (absent : Bool) (switchNs : Fin 50001)
  /-- JOB_DEADLINE_MISSED (R357). Device time passes a job's deadline and it is reported once. -/
  | jobDeadlineMissed (t : Nat) (id : BitVec 32)
  /-- JOB_OVERRUN (R357). Ownership exceeding RUN_LIMIT aborts the job. -/
  | jobOverrun (t : Nat) (id : BitVec 32)
  /-- JOB_ABORT (R370). A write of a live JOB_ID to JOB_ABORT ends the job. -/
  | jobAbort (t : Nat) (role : Role) (id : BitVec 32)
  /-- JOB_END (R369). Every station of a job reaches END and its done record is posted. -/
  | jobEnd (t : Nat) (id : BitVec 32)
  /-- QUEUE_ENABLE_WRITE (R374). A write of QUEUE_ENABLE enables or disables a queue, taking strip banks if needed. A
  write of QUEUE_ENABLE (R374, R379). -/
  | queueEnableWrite (t : Nat) (role : Role) (q : BitVec 12) (value : BitVec 8)
  /-- QUEUE_PUSH (R377). PUSH takes cells and links a packet after the tail. `issuer` is the station that commands;
  `stream`: a stream's packet, else a record; `mismatch`: two copies of a class C pointer differ. -/
  | queuePush (t : Nat) (issuer : BitVec 8) (q : BitVec 12) (packet : List Byte) (stream stripEnd mismatch : Bool)
  /-- QUEUE_POP (R377). POP delivers the oldest unread packet and holds it. `parity`: a word delivered fails its
  parity. -/
  | queuePop (t : Nat) (issuer : BitVec 8) (q : BitVec 12) (mismatch parity : Bool)
  /-- QUEUE_RELEASE (R377). RELEASE frees the cells of the oldest held packet. -/
  | queueRelease (t : Nat) (issuer : BitVec 8) (q : BitVec 12) (mismatch : Bool)
  /-- QUEUE_FLUSH (R382). FLUSH is requested for the queue's next packet boundary. -/
  | queueFlush (t : Nat) (issuer : BitVec 8) (q : BitVec 12) (mismatch : Bool)
  /-- FLUSH_BOUNDARY (R382). At the packet boundary every unread packet is discarded. -/
  | flushBoundary (t : Nat) (q : BitVec 12)
  /-- QUEUE_MARK (R383). MARK records the oldest unreleased packet. -/
  | queueMark (t : Nat) (issuer : BitVec 8) (q : BitVec 12) (mismatch : Bool)
  /-- QUEUE_REWIND (R383). REWIND returns held packets from the mark to the unread list. -/
  | queueRewind (t : Nat) (issuer : BitVec 8) (q : BitVec 12) (mismatch : Bool)
  /-- QUEUE_RESET (R381). RESET empties the queue, advances its incarnation and starts a sweep. -/
  | queueReset (t : Nat) (issuer : BitVec 8) (q : BitVec 12)
  /-- Q_SWEEP_DONE (R381). The 65.5 µs sweep ends having freed the queue's old cells. -/
  | qSweepDone (t : Nat) (q : BitVec 12)
  /-- LINK_ENABLE_WRITE (R390). LINK_ENABLE written 1 starts link training. -/
  | linkEnableWrite (t : Nat) (role : Role) (link : BitVec 3) (value : BitVec 8)
  /-- BIT_SLIP (R390). A write of BIT_SLIP moves a lane's block boundary by one bit. `marker`: the lane's marker is
  then seen; `skew`: the skew of the link's lanes in blocks, where that was the last. -/
  | bitSlip (t : Nat) (role : Role) (lane : BitVec 5) (marker : Bool) (skew : Nat)
  /-- FAB_ALIGN_FAIL (R390). Training fails on slips, skew or HELLO timeout and the link returns DOWN. -/
  | fabAlignFail (t : Nat) (link : BitVec 3)
  /-- LANE_LOCK_LOSS (R392). 16 bad sync headers in 64 blocks lose lock and the link goes DOWN. -/
  | laneLockLoss (t : Nat) (lane : BitVec 5)
  /-- TX_SLEEP (R393). An idle transmitter sends SLEEP and powers down after SLEEP_IDLE. -/
  | txSleep (t : Nat) (link : BitVec 3)
  /-- TX_WAKE (R393). A frame queued for a sleeping transmitter wakes it. -/
  | txWake (t : Nat) (link : BitVec 3)
  /-- HELLO (R390). A HELLO frame is received and the link comes UP. -/
  | hello (t : Nat) (link : BitVec 3) (f : Frame)
  /-- SLEEP (R393). A SLEEP frame powers down the receiver. -/
  | sleep (t : Nat) (link : BitVec 3) (f : Frame)
  /-- ACK (R398). An ACK frame releases acknowledged frames from the replay buffer. -/
  | ack (t : Nat) (link : BitVec 3) (f : Frame)
  /-- NAK (R399). A NAK frame resends every unacknowledged frame after the named one. -/
  | nak (t : Nat) (link : BitVec 3) (f : Frame)
  /-- REPLAY_TIMEOUT (R399). No ACK advance for REPLAY_TIMEOUT resends every unacknowledged frame. -/
  | replayTimeout (t : Nat) (link : BitVec 3)
  /-- TILE_HEAD (R405). A TILE_HEAD frame is checked, forwarded or starts landing a tile. -/
  | tileHead (t : Nat) (link : BitVec 3) (f : Frame)
  /-- TILE_DATA (R402). A TILE_DATA frame lands payload; the last pushes the tile and sends COMPLETE. -/
  | tileData (t : Nat) (link : BitVec 3) (f : Frame)
  /-- FAB_WRITE (R406). A WRITE frame is served by FAB_LAND_DMA at the target. `old`: the write was issued before its
  group's power-down request. -/
  | fabWrite (t : Nat) (link : BitVec 3) (f : Frame) (old : Bool)
  /-- FAB_READ_REQ (R406). A READ_REQ is served by FAB_LAND_DMA with READ_RESP frames. -/
  | fabReadReq (t : Nat) (link : BitVec 3) (f : Frame)
  /-- READ_RESP (R407). A READ_RESP lands data; the last ends the read. -/
  | readResp (t : Nat) (link : BitVec 3) (f : Frame)
  /-- COMPLETE (R402). A COMPLETE frame ends a tile transfer or write at the issuer. -/
  | complete (t : Nat) (link : BitVec 3) (f : Frame)
  /-- CREDIT (R404). A CREDIT frame updates the producer's output credits for a remote stream. -/
  | credit (t : Nat) (link : BitVec 3) (f : Frame)
  /-- FAB_RETURN (R405). A RETURN frame ends a tile transfer and places its status in the producer's error queue. -/
  | fabReturn (t : Nat) (link : BitVec 3) (f : Frame)
  /-- FAB_TIMEOUT (R408). A transaction not ended within FAB_TIMEOUT is fenced. -/
  | fabTimeout (t : Nat) (tag : BitVec 12)
  /-- BRIDGE_DATAGRAM (R410). A bridged fabric datagram arrives, is checked and routed. -/
  | bridgeDatagram (t : Nat) (header : BitVec 64) (f : Frame)
  /-- OBJECT_WRITE (R419). A write of a dictionary entry without behaviour of its own is checked and applied. A write
  of a dictionary entry by I3C (`who` 0) or FDP session `who` (R419). -/
  | objectWrite (t : Nat) (role : Role) (who : BitVec 16) (index : BitVec 16) (sub : BitVec 8) (value : List Byte)
  /-- FDP_OPEN_REQ (R425). OPEN_REQ opens a session or is answered with an abort. A host opens a session (R425). -/
  | fdpOpenReq (t : Nat) (m : Datagram)
  /-- FDP_CLOSE (R427). CLOSE ends the session. A host closes its session (R427). -/
  | fdpClose (t : Nat) (m : Datagram)
  /-- FDP_READ (R419). READ returns the values of 1 to 32 entries. A host reads 1 to 32 entries (R419, R424). -/
  | fdpRead (t : Nat) (m : Datagram)
  /-- FDP_WRITE (R419). WRITE executes 1 to 32 item writes in order. A host writes 1 to 32 entries (R419, R424). -/
  | fdpWrite (t : Nat) (m : Datagram)
  /-- FDP_DESCRIBE (R421). DESCRIBE returns an entry's description record. A host asks for an entry's description
  (R421). -/
  | fdpDescribe (t : Nat) (m : Datagram)
  /-- FDP_SEG_INIT (R422). SEG_INIT opens a segmented read or write of a DOMAIN entry. A host begins a segmented
  transfer (R422). -/
  | fdpSegInit (t : Nat) (m : Datagram)
  /-- FDP_SEG_DATA (R422). SEG_DATA carries the next segment. A segment of a host's transfer (R422). -/
  | fdpSegData (t : Nat) (m : Datagram)
  /-- FDP_SEG_END (R422). SEG_END checks the whole value and replaces the old one. A host ends its transfer (R422). -/
  | fdpSegEnd (t : Nat) (m : Datagram)
  /-- FDP_SUBSCRIBE (R431). SUBSCRIBE sets the session's event mask. A host sets its session's event mask (R431). -/
  | fdpSubscribe (t : Nat) (m : Datagram)
  /-- FDP_KEEPALIVE (R427). KEEPALIVE refreshes the session timeout. A host keeps its session open (R427). -/
  | fdpKeepalive (t : Nat) (m : Datagram)
  /-- FDP_BAD_KIND (R424). A message of a reserved kind is answered with FDP_BAD_KIND. A message of kind 1, 9 or 12 to
  15 within a session (R424). -/
  | fdpBadKind (t : Nat) (kind : BitVec 4) (m : Datagram)
  /-- FDP_AUTH_FAIL (R429). A datagram with a bad TAG, session, GEN or length is discarded. A datagram with a bad GEN
  or length, or one whose TAG or session is bad (R429). -/
  | fdpAuthFail (t : Nat) (m : Datagram)
  /-- SEG_TIMEOUT (R422). A segmented transfer idle for 5 s is cancelled. A transfer of I3C (0) or a session has been
  idle for 5 s (R422). -/
  | segTimeout (t : Nat) (who : BitVec 16)
  /-- SESSION_TIMEOUT (R427). A session without a good message for SESSION_TIMEOUT closes. A session has been silent
  for SESSION_TIMEOUT (R427). -/
  | sessionTimeout (t : Nat) (session : BitVec 16)
  /-- SESSION_OPEN_IDLE (R425). A session without a good request within 2 s of opening is closed. A session has had no
  good request for 2 s from its opening (R425). -/
  | sessionOpenIdle (t : Nat) (session : BitVec 16)
  /-- SETTINGS_COMMIT (R417). 2 s after a burst of saved writes the saved set is committed. 2 s have passed since the
  last saved write of a burst (R417). -/
  | settingsCommit (t : Nat)
  /-- STORE_NOW (R417). STORE_NOW written 1 commits the saved set at once. A write of STORE_NOW (R417). -/
  | storeNow (t : Nat) (role : Role) (value : BitVec 8)
  /-- RESTORE_DEFAULTS (R418). RESTORE_DEFAULTS sets saved entries to defaults and commits. A write of
  RESTORE_DEFAULTS (R418). -/
  | restoreDefaults (t : Nat) (role : Role) (value : BitVec 8)
  /-- ROLE_KEY_WRITE (R430). A write of a role key changes it and closes that role's sessions. A write of KEY_VIEW,
  KEY_OPERATE or KEY_INTEGRATE (R430). -/
  | roleKeyWrite (t : Nat) (role : Role) (which : Fin 3) (key : List Byte)
  /-- INTEGRATE_KEY_ENROL (R430). A one-time I3C write sets the unset Integrate key and commits it. A write of
  INTEGRATE_KEY_ENROL over I3C (R430). -/
  | integrateKeyEnrol (t : Nat) (role : Role) (key : List Byte)
  /-- FDP_ENABLE_WRITE (R437). A write of FDP_ENABLE 0 closes every session after its response. A write of FDP_ENABLE
  (R437). -/
  | fdpEnableWrite (t : Nat) (role : Role) (value : BitVec 8)
  /-- I3C_READ (R433). I3C private-write command reading an entry. Private write of command 0x01 and its CRC-8 (R433).
  -/
  | i3cRead (t : Nat) (body : List Byte) (crc : BitVec 8)
  /-- I3C_WRITE (R433). I3C command writing an entry of up to 64 bytes. Private write of command 0x02 and its CRC-8
  (R433). -/
  | i3cWrite (t : Nat) (body : List Byte) (crc : BitVec 8)
  /-- I3C_SEG_INIT (R433). I3C command opening a segmented transfer. Private write of command 0x03 and its CRC-8
  (R433). -/
  | i3cSegInit (t : Nat) (body : List Byte) (crc : BitVec 8)
  /-- I3C_SEG_DATA (R433). I3C command carrying the next segment. Private write of command 0x04 and its CRC-8 (R433).
  -/
  | i3cSegData (t : Nat) (body : List Byte) (crc : BitVec 8)
  /-- I3C_SEG_END (R433). I3C command closing a segmented transfer. Private write of command 0x05 and its CRC-8
  (R433). -/
  | i3cSegEnd (t : Nat) (body : List Byte) (crc : BitVec 8)
  /-- I3C_DESCRIBE (R433). I3C command returning an entry's description. Private write of command 0x06 and its CRC-8
  (R433). -/
  | i3cDescribe (t : Nat) (body : List Byte) (crc : BitVec 8)
  /-- EVENT_POP (R436). I3C command returning and removing the oldest queued event. Private write of command 0x07 and
  its CRC-8 (R433, R436). -/
  | eventPop (t : Nat) (body : List Byte) (crc : BitVec 8)
  /-- I3C_RESULT_READ (R434). A private read returns the ready result of the last command. A private read of the
  target (R434). -/
  | i3cResultRead (t : Nat)
  /-- I3C_IBI (R436). With IBIs enabled and events queued the target raises an IBI. The target may raise an IBI now
  (R436). -/
  | i3cIbi (t : Nat)
  /-- ENTDAA (R432). CCC assigning a dynamic address and enabling IBIs. The controller assigns a dynamic address by
  ENTDAA (R432). -/
  | entdaa (t : Nat) (address : BitVec 7)
  /-- SETDASA (R432). CCC assigning a dynamic address from the static address. The controller assigns a dynamic
  address to a static address (R432). -/
  | setdasa (t : Nat) (static address : BitVec 7)
  /-- SETNEWDA (R432). CCC changing the dynamic address. The controller changes the dynamic address (R432). -/
  | setnewda (t : Nat) (address : BitVec 7)
  /-- RSTDAA (R432). CCC resetting the dynamic address. The controller resets dynamic addresses (R432). -/
  | rstdaa (t : Nat)
  /-- ENEC (R436). CCC enabling IBIs. The controller enables events (R432, R436). -/
  | enec (t : Nat) (events : BitVec 8)
  /-- DISEC (R436). CCC disabling IBIs. The controller disables events (R432, R436). -/
  | disec (t : Nat) (events : BitVec 8)
  /-- GETPID (R432). CCC returning the PID. The controller reads the PID (R432). -/
  | getpid (t : Nat)
  /-- GETBCR (R432). CCC returning BCR. The controller reads the BCR (R432). -/
  | getbcr (t : Nat)
  /-- GETDCR (R432). CCC returning DCR. The controller reads the DCR (R432). -/
  | getdcr (t : Nat)
  /-- GETSTATUS (R432). CCC returning target status. The controller reads the status (R432). -/
  | getstatus (t : Nat)
  /-- GETMWL (R432). CCC returning the maximum write length. The controller reads the maximum write length (R432). -/
  | getmwl (t : Nat)
  /-- SETMWL (R432). CCC lowering the maximum write length. The controller sets the maximum write length (R432). -/
  | setmwl (t : Nat) (length : BitVec 16)
  /-- GETMRL (R432). CCC returning the maximum read length. The controller reads the maximum read length (R432). -/
  | getmrl (t : Nat)
  /-- SETMRL (R432). CCC lowering the maximum read length. The controller sets the maximum read length (R432). -/
  | setmrl (t : Nat) (length : BitVec 16)
  /-- GETMXDS (R432). CCC returning maximum data speed. The controller reads the maximum data speed (R432). -/
  | getmxds (t : Nat)
  /-- ENTHDR0 (R432). CCC entering HDR-DDR mode. The controller enters HDR-DDR (R432). -/
  | enthdr0 (t : Nat)
  /-- ETH_FRAME (R441). An Ethernet frame arrives and is switched, corrected or delivered. `bytes`: the frame without
  its FCS; `residence`: ns between the start-of-frame delimiters at ingress and egress. -/
  | ethFrame (t : Nat) (port : BitVec 1) (bytes : List Byte) (fcsOk : Bool) (residence : Nat)
  /-- ETH_LINK_DOWN (R455). A port loses its link. -/
  | ethLinkDown (t : Nat) (port : BitVec 1)
  /-- PTP_DELAY_RESP (R450). After a Delay_Resp the servo computes the offset and steps or slews. The times of Sync
  and Delay_Req in ns, corrections applied: sent and received Sync, sent and received Delay_Req. -/
  | ptpDelayResp (t : Nat) (port : BitVec 1) (t1 t2 t3 t4 : Int)
  /-- PTP_ANNOUNCE (R453). An Announce is received and the best master chosen. -/
  | ptpAnnounce (t : Nat) (port : BitVec 1) (a : Announce)
  /-- PTP_MASTER_LOST (R453). Three announce intervals without Announce enter HOLDOVER. -/
  | ptpMasterLost (t : Nat)
  /-- TIME_SET (R451). A write of TIME_SET requests a step of device time. -/
  | timeSet (t : Nat) (role : Role) (seconds : BitVec 48) (ns : BitVec 32)
  /-- STEP_OVERRIDE (R452). STEP_OVERRIDE written 1 arms the step override. -/
  | stepOverride (t : Nat) (role : Role) (value : BitVec 8)
  /-- OVERRIDE_EXPIRY (R452). The override clears after OVERRIDE_WINDOW. -/
  | overrideExpiry (t : Nat)
  /-- COUT_FRAME_START (R464). At the end of a frame the port drops aged requests and chooses the next frame. -/
  | coutFrameStart (t : Nat) (port : BitVec 2)
  /-- OVERLAY_PENDING (R461). An overlay frame becomes pending after CERT_L_LV + CERT_L_VL from its last line. -/
  | overlayPending (t : Nat) (port : BitVec 2)
  /-- COUT_LINE (R465). A line is sent once its bytes are buffered and the token bucket holds them. -/
  | coutLine (t : Nat) (port : BitVec 2)
  /-- PD_REQUEST (R471). The scheduler requests a power state and SUP grants or refuses it. `outstanding`: of a buffer
  group, the writes issued to it and not landed (R127). -/
  | pdRequest (t : Nat) (pd : BitVec 6) (on : Bool) (outstanding : Nat)
  /-- PD_POWER_UP_DONE (R471). A power domain reaches ON. -/
  | pdPowerUpDone (t : Nat) (pd : BitVec 6)
  /-- PD_POWER_DOWN_DONE (R471). A power domain reaches OFF and pending requests take effect. -/
  | pdPowerDownDone (t : Nat) (pd : BitVec 6)
  /-- POWER_SAMPLE (R473). Every 10 µs SUP samples input power and steps island points. -/
  | powerSample (t : Nat) (milliwatts : Nat)
  /-- AGE_MEASURE (R475). SUP measures an island's odometer and replica and computes a new plan. The counts of the two
  rings over 100 us, and the delay found in ps, -1 where the replica fails with none. -/
  | ageMeasure (t : Nat) (island : Fin 41) (reference stressed : Nat) (slack : Int)
  /-- MARGIN_PLAN_COMMIT (R477). A prepared plan's commit record is written and the plan becomes committed. -/
  | marginPlanCommit (t : Nat)
  /-- PLAN_APPLY_WINDOW (R478). A 1 ms idle window applies the committed plan to an island. -/
  | planApplyWindow (t : Nat) (island : Fin 41)
  /-- ATTEST_NONCE (R494). A nonce write reserves a leaf and requests an attestation report. `who`: 0 the I3C target,
  else the number of the session. -/
  | attestNonce (t : Nat) (role : Role) (who : BitVec 16) (nonce : List Byte)
  /-- ATTEST_REPORT_READY (R494). The signed report becomes readable. The oldest attestation report under way is
  signed (R494). -/
  | attestReportReady (t : Nat)
  /-- INTEGRATOR_KEY_WRITE (R490). A write of an integrator public key is accepted only under the rotation rule. The
  write supplies, with the key, a signed header. -/
  | integratorKeyWrite (t : Nat) (role : Role) (which : Fin 2) (key header signature : List Byte)
  /-- TAMPER (R498). A glitch or temperature detector clears keys and resets the module. -/
  | tamper (t : Nat)
  /-- REC_FLASH_WRITE (R510). A queued event record is written to both flash devices. The slots at which a program or
  its check failed before the record was written. -/
  | recFlashWrite (t : Nat) (fails : List SlotFail)
  /-- OP_TIME_SAVE (R508). Every 60 s the supervisor writes the operating time. -/
  | opTimeSave (t : Nat)
  /-- POWER_LOSS (R509). Input below 36 V stops recording and writes POWER_LOSS within hold-up. -/
  | powerLoss (t : Nat)
  /-- REC_CLEAR (R512). REC_CLEAR written 1 by Service clears the circulating area. -/
  | recClear (t : Nat) (role : Role) (value : Nat)
  /-- REC_ERASE_DONE (R512). The erase of the circulating area ends and REC_CLEARED is written. -/
  | recEraseDone (t : Nat)
  /-- COUNTER_STROBE (R515). At each COUNTER_PERIOD all counters are latched and a snapshot page written. By block,
  how often each event of R513's table occurred since the last strobe. -/
  | counterStrobe (t : Nat) (seen : List (Nat × List Nat))
  /-- DRAIN_TIMEOUT (R527). Steps still running at DRAIN_TIMEOUT stop and emit begun tiles poisoned. Where the output
  tile under way and its scales lie, and how many of its bytes are written. -/
  | drainTimeout (t : Nat) (sid : BitVec 8) (addr scale written : Nat)
  /-- DRAIN_REPORT (R527). A drained station enters IDLE and reports its counts. -/
  | drainReport (t : Nat) (sid : BitVec 8)
  /-- SENSOR_SAMPLE (R523). SUP samples a sensor and raises reports or escalation levels. In mV or thousandths of a
  degree. -/
  | sensorSample (t : Nat) (sensor : BitVec 8) (value : Int)
  /-- SENSOR_SILENT (R524). A sensor giving no reading for 10 periods fails. -/
  | sensorSilent (t : Nat) (sensor : BitVec 8)
  /-- SENSOR_CLEAR (R524). A reading inside threshold with hysteresis for 1 s clears the condition. -/
  | sensorClear (t : Nat) (sensor : BitVec 8)
  /-- MGT_HEARTBEAT (R530). The management cluster writes its heartbeat. -/
  | mgtHeartbeat (t : Nat)
  /-- MGT_HEARTBEAT_LOST (R534). No heartbeat for HEARTBEAT_TIMEOUT raises level 3. -/
  | mgtHeartbeatLost (t : Nat)
  /-- HEARTBEAT_RESET (R534). With AUTO_RESET a heartbeat still absent after RESET_AFTER raises level 4. -/
  | heartbeatReset (t : Nat)
  /-- SUP_SELF_CHECK (R530). Every 100 ms SUP checks its code-region CRC. Is the CRC-32 the one taken at start? -/
  | supSelfCheck (t : Nat) (good : Bool)
  /-- TRUMP_STOP_HUNG (R532). STOPPING not done within 2 × DRAIN_TIMEOUT + 1 ms raises level 3. -/
  | trumpStopHung (t : Nat)
  /-- UNIT_RELEASE (R533). A Service write of a unit address releases a held unit. -/
  | unitRelease (t : Nat) (role : Role) (address : Nat)
  /-- INPUT_POWER_GOOD (R576). The 48 V input above 38 V for 10 ms starts the module as a power-on reset. -/
  | inputPowerGood (t : Nat)
  /-- BOOT (R538). After a reset the module runs its boot steps through model load. What the start finds. -/
  | boot (t : Nat) (r : BootRun)
  /-- HOST_RESET (R542). RESET_REQUEST 1 requests a host reset. -/
  | hostReset (t : Nat) (role : Role)
  /-- MGT_RESTART (R544). RESET_REQUEST 2 requests a management restart. -/
  | mgtRestart (t : Nat) (role : Role)
  /-- RESET_TAKE_EFFECT (R545). 10 ms after the response, or after a commit record, the requested reset takes effect.
  -/
  | resetTakeEffect (t : Nat)
  /-- PHASE_IN_SERVICE (R541). PHASE_REQUEST 1 returns the module to IN_SERVICE. -/
  | phaseInService (t : Nat) (role : Role)
  /-- PHASE_TEST (R541). PHASE_REQUEST 2 moves the module to TEST. -/
  | phaseTest (t : Nat) (role : Role)
  /-- PHASE_RECOVERY (R541). PHASE_REQUEST 3 moves the module to RECOVERY. -/
  | phaseRecovery (t : Nat) (role : Role)
  /-- SLOT_ERASE_DONE (R547). The background erase of an incomplete slot completes. Area 0 firmware, 1 model; slot 0
  A, 1 B. -/
  | slotEraseDone (t : Nat) (area slot : Fin 2)
  /-- MODEL_ACTIVATE_LOADED (R553). In mode 1 the new model finishes loading and a swap line is chosen. Has the image
  the hash of its commit record? -/
  | modelActivateLoaded (t : Nat) (imageGood : Bool)
  /-- ETH_LINK_UP (R440). An Ethernet port gains its link and ETH_LINK becomes 1. -/
  | ethLinkUp (t : Nat) (port : BitVec 1)
  /-- RX_WAKE (R393). A sleeping fabric receiver wakes on the far transmitter's signal and is ready within the 8 µs of
  idles. -/
  | rxWake (t : Nat) (link : BitVec 3)
  /-- TX_WAKE_END (R393). 10 µs after a wake began, the transmitter ends its idles and sends its queued frames,
  including any deferred ACK. -/
  | txWakeEnd (t : Nat) (link : BitVec 3)
  /-- CLOCK_DATA_LOCK (R390). A fabric lane receiver gains clock-data lock (LANE_STATUS bit 0) during training. As
  BIT_SLIP. -/
  | clockDataLock (t : Nat) (lane : BitVec 5) (marker : Bool) (skew : Nat)
  /-- RESET_HOLD_END (R523). A module held in reset by input overvoltage or island overtemperature is released once
  the input is below 60 V for 10 ms or the temperature is below 100 °C. -/
  | resetHoldEnd (t : Nat)
deriving DecidableEq, Repr

end Sys2Proof
end

