-- ==== Sys2Proof/Decode.lean ====
section
/-! DEFINITION. The commands that a word of the command table spells. The table gives no row any bits: the block takes its
commands from wires, buses and datagrams, whose own layouts the meanings read. -/

namespace Sys2Proof

/-- The command that a word spells by the table's bits: none, since no row has any. -/
def decodeTableWord (_nbits _w : Nat) : Option Instr := none

end Sys2Proof
end

