-- ==== Sys2Proof/Machine/Operands.lean ====
section
/-! DEFINITION. Number formats and exact values: reading elements, products and sums (R53 to R65). -/

namespace Sys2Proof.Machine

/-- An exact value an element or accumulator holds: (-1)^neg × m × 2^e, an infinity, or NaN. -/
inductive Num
  | nan
  | inf (neg : Bool)
  | fin (neg : Bool) (m : Nat) (e : Int)
deriving DecidableEq, Repr

/-- Positive zero. -/
def Num.zero : Num := .fin false 0 0

/-- An integer scaled by a power of two. -/
def Num.ofInt (i : Int) (e : Int) : Num := .fin (decide (i < 0)) i.natAbs e

/-- An IEEE-style format (R53): exponent bits, mantissa bits, bias, and whether it has Inf and NaN. -/
structure Ieee where
  eb : Nat
  mb : Nat
  bias : Int
  inf : Bool
  nan : Bool
deriving DecidableEq, Repr

/-- The IEEE-style formats by code (R53). -/
def ieeeOf : Nat → Option Ieee
  | 0x01 => some ⟨8, 23, 127, true, true⟩
  | 0x02 => some ⟨8, 10, 127, true, true⟩
  | 0x03 => some ⟨8, 7, 127, true, true⟩
  | 0x04 => some ⟨5, 10, 15, true, true⟩
  | 0x05 => some ⟨4, 3, 7, false, true⟩
  | 0x06 => some ⟨5, 2, 15, true, true⟩
  | 0x07 => some ⟨3, 2, 3, false, false⟩
  | 0x08 => some ⟨2, 3, 1, false, false⟩
  | 0x09 => some ⟨2, 1, 1, false, false⟩
  | _ => none

/-- Is the code one of R53? -/
def formatKnown (f : Nat) : Bool := decide (1 ≤ f ∧ f ≤ 0x12)

/-- Bits an element occupies in memory (R54). -/
def storeBits : Nat → Nat
  | 0x01 => 32 | 0x02 => 32 | 0x03 => 16 | 0x04 => 16 | 0x05 => 8 | 0x06 => 8 | 0x07 => 6 | 0x08 => 6 | 0x09 => 4
  | 0x0A => 8 | 0x0B => 4 | 0x0C => 32 | 0x0D => 16 | 0x0E => 8 | 0x0F => 8 | 0x10 => 4 | 0x11 => 16 | 0x12 => 8
  | _ => 8

/-- The zero code of a format (R61, R121). -/
def zeroCode (f : Nat) : Nat := if f = 0x0A then 0x40 else if f = 0x0B then 0x4 else 0

/-- The value of an IEEE-style code of `w = 1 + eb + mb` bits; subnormals kept (R55). -/
def Ieee.decode (p : Ieee) (c : Nat) : Num :=
  let neg := c.testBit (p.eb + p.mb)
  let ex := c / 2 ^ p.mb % 2 ^ p.eb
  let m := c % 2 ^ p.mb
  let top := 2 ^ p.eb - 1
  if p.inf && ex == top then (if m = 0 then .inf neg else .nan)
  else if p.nan && !p.inf && ex == top && m == 2 ^ p.mb - 1 then .nan
  else if ex = 0 then .fin neg m (1 - p.bias - p.mb)
  else .fin neg (2 ^ p.mb + m) ((ex : Int) - p.bias - p.mb)

/-- The fraction table T of log products (R64): 2^(f/8) × 2^15. -/
def logT : Nat → Nat
  | 0 => 32768 | 1 => 35734 | 2 => 38968 | 3 => 42495 | 4 => 46341 | 5 => 50535 | 6 => 55109 | 7 => 60097
  | _ => 65536

/-- The log field of a LOG8 or LOG4 code in eighths, and the sign; none for the two zero codes (R59 to R61). -/
def logField (f c : Nat) : Option (Bool × Int) :=
  if f = 0x0A then
    let l := signed 7 (c % 128)
    if l = -64 then none else some (c.testBit 7, l)
  else
    let l := signed 3 (c % 8)
    if l = -4 then none else some (c.testBit 3, 4 * l)

/-- The value of an element code (R53 to R61). A log value is its nearest FP32-exact table value T[f] × 2^(e-15)
(R64, R72); see log 15. -/
def decodeElem (f c : Nat) : Num :=
  match ieeeOf f with
  | some p => p.decode (if f = 0x02 then c / 8192 else c)
  | none =>
    if f = 0x0A ∨ f = 0x0B then
      match logField f c with
      | none => .zero
      | some (neg, l) => .fin neg (logT (l % 8).toNat) (l / 8 - 15)
    else if f = 0x0C then .ofInt (signed 32 c) 0
    else if f = 0x0D then .ofInt (signed 16 c) 0
    else if f = 0x0E then .ofInt (signed 8 c) 0
    else if f = 0x10 then .ofInt (signed 4 c) 0
    else if f = 0x11 then .fin false (c % 65536) (-4)
    else if f = 0x12 then (if c % 256 = 255 then .nan else .fin false 1 ((c % 256 : Nat) - 127))
    else .fin false c 0

/-! ### Packed rows (R54) -/

/-- Elements from one row's start to the next as units write a tile: the columns, for packed formats up to the next
multiple that starts a row on a byte (R54). What pads a row is written zero (log 89). -/
def rowElems (f n : Nat) : Nat :=
  if storeBits f = 4 then ceilDiv n 2 * 2 else if storeBits f = 6 then ceilDiv n 4 * 4 else n

/-- ROW_STRIDE of a tile as units write it (R18, R54): 0 where it is the columns. -/
def rowStride (f n : Nat) : Nat := if rowElems f n = n then 0 else rowElems f n

/-- Bytes of a row of `n` elements. -/
def rowBytes (f n : Nat) : Nat := rowElems f n * storeBits f / 8

/-- The zero code of a pair in place of the other: units write no other (R61). -/
def canonCode (f c : Nat) : Nat :=
  if f = 0x0A && c % 128 == 0x40 then 0x40 else if f = 0x0B && c % 8 == 4 then 4 else c

/-- The `n` element codes of a packed row, element 0 lowest (R54). -/
def unpackRow (f : Nat) (bytes : List Byte) (n : Nat) : List Nat :=
  let w := storeBits f
  let v := leNat bytes
  (List.range n).map fun i => v / 2 ^ (i * w) % 2 ^ w

/-- The bytes of a row of element codes. -/
def packRow (f : Nat) (codes : List Nat) : List Byte :=
  let w := storeBits f
  leBytes (rowBytes f codes.length)
    (codes.foldr (fun c v => c % 2 ^ w + 2 ^ w * v) 0)

/-- One zero-compressed block (R120): the present elements in order behind a 64-bit mask, read into `n` codes; what is
absent reads as the zero code (R121). Gives the codes and the bytes the block occupies. -/
def unpackBlock (f : Nat) (bytes : List Byte) (n : Nat) : List Nat × Nat :=
  let mask := leNat (bytes.take 8)
  let w := storeBits f
  let v := leNat (bytes.drop 8)
  let step (acc : List Nat × Nat) (i : Nat) : List Nat × Nat :=
    if mask.testBit i then (acc.1 ++ [v / 2 ^ (acc.2 * w) % 2 ^ w], acc.2 + 1) else (acc.1 ++ [zeroCode f], acc.2)
  let (codes, present) := (List.range n).foldl step ([], 0)
  (codes, 8 + ceilDiv (ceilDiv (present * w) 8) 8 * 8)

/-- A zero-compressed row of `n` elements: one or two blocks of 64 (R120). Gives the codes and what follows. -/
def unpackZcRow (f : Nat) (bytes : List Byte) (n : Nat) : List Nat × List Byte :=
  let (a, la) := unpackBlock f bytes (min n 64)
  if n ≤ 64 then (a, bytes.drop la)
  else
    let r := bytes.drop la
    let (b, lb) := unpackBlock f r (n - 64)
    (a ++ b, r.drop lb)

/-- The rows of a zero-compressed tile. -/
def unpackZc (f : Nat) (n : Nat) (bytes : List Byte) : Nat → List (List Nat)
  | 0 => []
  | k + 1 =>
    let (r, rest) := unpackZcRow f bytes n
    r :: unpackZc f n rest k

/-- One zero-compressed block written (R120, R121). -/
def packBlock (f : Nat) (codes : List Nat) : List Byte :=
  let w := storeBits f
  let present := codes.filter (· != zeroCode f)
  let mask := ((List.range codes.length).map fun i =>
    if codes.getD i 0 != zeroCode f then 2 ^ i else 0).foldl (· + ·) 0
  let data := leBytes (ceilDiv (ceilDiv (present.length * w) 8) 8 * 8)
    (present.foldr (fun c v => c % 2 ^ w + 2 ^ w * v) 0)
  leBytes 8 mask ++ data

/-- A zero-compressed row written. -/
def packZcRow (f : Nat) (codes : List Nat) : List Byte :=
  if codes.length ≤ 64 then packBlock f codes else packBlock f (codes.take 64) ++ packBlock f (codes.drop 64)

/-! ### Exact arithmetic and FP32 (R63) -/

/-- The signed mantissa of a finite value at a lower exponent `q`. -/
def scaleTo (neg : Bool) (m : Nat) (e q : Int) : Int :=
  let v : Int := (m * 2 ^ (e - q).toNat : Nat)
  if neg then -v else v

/-- The exact sum of two finite values; the sum of opposite values is +0, of two negative zeros is −0. -/
def addExact (n1 : Bool) (m1 : Nat) (e1 : Int) (n2 : Bool) (m2 : Nat) (e2 : Int) : Num :=
  let q := min e1 e2
  let v := scaleTo n1 m1 e1 q + scaleTo n2 m2 e2 q
  if v = 0 then .fin (n1 && n2) 0 0 else .ofInt v q

/-- A mantissa at exponent `e` brought to the quantum `q`: quotient, and whether the remainder is below, at or above
one half (0, 1, 2; with exact values 0 and no remainder). -/
def quotRem (m : Nat) (e q : Int) : Nat × Nat × Nat :=
  if q ≤ e then (m * 2 ^ (e - q).toNat, 0, 1)
  else
    let d := 2 ^ (q - e).toNat
    (m / d, m % d, d)

/-- Round to nearest even at the quantum `q`. -/
def roundEven (m : Nat) (e q : Int) : Nat :=
  let (k, r, d) := quotRem m e q
  if 2 * r > d ∨ (2 * r = d ∧ k % 2 = 1) then k + 1 else k

/-- Round stochastically at the quantum `q` with draw `u`: up when the first 16 bits below exceed `u` (R69). -/
def roundStoch (m : Nat) (e q : Int) (u : Nat) : Nat :=
  let (k, r, d) := quotRem m e q
  if 65536 * r / d > u then k + 1 else k

/-- The exponent of the leading bit of m × 2^e, for m > 0. -/
def topExp (m : Nat) (e : Int) : Int := (Nat.log2 m : Int) + e

/-- The quantum of a format at a value: that of its binade, not below the subnormal one (R55). -/
def Ieee.quantum (p : Ieee) (m : Nat) (e : Int) : Int := max (topExp m e) (1 - p.bias) - p.mb

/-- The largest finite mantissa and exponent of a format (R53). -/
def Ieee.largest (p : Ieee) : Nat × Int :=
  let top : Int := if p.inf then 2 ^ p.eb - 2 else 2 ^ p.eb - 1
  let m := if p.nan && !p.inf then 2 ^ (p.mb + 1) - 2 else 2 ^ (p.mb + 1) - 1
  (m, top - p.bias - p.mb)

/-- Is k × 2^q above m × 2^e? -/
def aboveVal (k : Nat) (q : Int) (m : Nat) (e : Int) : Bool :=
  let x := min q e
  decide (m * 2 ^ (e - x).toNat < k * 2 ^ (q - x).toNat)

/-- FP32, the accumulator format (R62). -/
def fp32 : Ieee := ⟨8, 23, 127, true, true⟩

/-- Round a value to FP32, nearest even; overflow gives an infinity (R63). -/
def round32 : Num → Num
  | .fin n m e =>
    if m = 0 then .fin n 0 0
    else
      let q := fp32.quantum m e
      let k := roundEven m e q
      let (lm, le) := fp32.largest
      if aboveVal k q lm le then .inf n else .fin n k q
  | x => x

/-- FP32 addition (R63). -/
def add32 : Num → Num → Num
  | .nan, _ => .nan
  | _, .nan => .nan
  | .inf a, .inf b => if a = b then .inf a else .nan
  | .inf a, _ => .inf a
  | _, .inf b => .inf b
  | .fin n1 m1 e1, .fin n2 m2 e2 => round32 (addExact n1 m1 e1 n2 m2 e2)

/-- The exact product (R63). -/
def mulExact : Num → Num → Num
  | .nan, _ => .nan
  | _, .nan => .nan
  | .inf a, .inf b => .inf (a != b)
  | .inf a, .fin n m _ => if m = 0 then .nan else .inf (a != n)
  | .fin n m _, .inf b => if m = 0 then .nan else .inf (n != b)
  | .fin n1 m1 e1, .fin n2 m2 e2 => .fin (n1 != n2) (m1 * m2) (e1 + e2)

/-- A value times 2^x. -/
def scale2 (x : Int) : Num → Num
  | .fin n m e => .fin n m (e + x)
  | v => v

/-- The 32-bit code of a value already rounded to FP32; NaN is canonical (R55). -/
def encode32 : Num → Nat
  | .nan => 0x7FC00000
  | .inf n => (if n then 0xFF800000 else 0x7F800000)
  | .fin n m e =>
    let s := if n then 2147483648 else 0
    if m = 0 then s
    else
      let q := fp32.quantum m e
      let k := roundEven m e q
      if k < 8388608 then s + k
      else if k = 16777216 then s + ((q + 1 + 150).toNat * 8388608)
      else s + ((q + 150).toNat * 8388608) + (k - 8388608)

/-- The integer a finite value with an exponent of zero or more holds (integer formats). -/
def Num.toInt : Num → Int
  | .fin n m e => let v : Int := (m * 2 ^ e.toNat : Nat); if n then -v else v
  | _ => 0

/-- A log product in accumulator units of 2^-S (R64). -/
def logProduct (scale fa a fb b : Nat) : Int :=
  match logField fa a, logField fb b with
  | some (na, la), some (nb, lb) =>
    let sum := la + lb
    let e := sum / 8
    let f := (sum % 8).toNat
    let sh := e + scale - 15
    let mag := roundEven (logT f) sh 0
    let c := min mag 2147483647
    if na != nb then -(c : Int) else c
  | _, _ => 0

/-- Saturate to INT32, and whether it did (R65). -/
def sat32 (v : Int) : Int × Bool :=
  if v < -2147483648 then (-2147483648, true) else if 2147483647 < v then (2147483647, true) else (v, false)

/-- A quotient as an exact value, with a last bit that says that more follows. -/
def ratNum (n : Int) (d : Nat) : Num :=
  let q := n.natAbs * 2 ^ 160
  .fin (decide (n < 0)) (2 * (q / d) + (if q % d = 0 then 0 else 1)) (-161)

/-- The opposite of a value. -/
def negNum : Num → Num
  | .fin n m e => .fin (!n) m e
  | .inf n => .inf (!n)
  | .nan => .nan

/-- FP32 subtraction. -/
def sub32 (a b : Num) : Num := add32 a (negNum b)

/-- FP32 multiplication. -/
def mul32 (a b : Num) : Num := round32 (mulExact a b)

/-- FP32 division: rounded to nearest even. -/
def div32 : Num → Num → Num
  | .nan, _ => .nan
  | _, .nan => .nan
  | .inf _, .inf _ => .nan
  | .inf a, .fin n _ _ => .inf (a != n)
  | .fin n _ _, .inf b => .fin (n != b) 0 0
  | .fin n1 m1 e1, .fin n2 m2 e2 =>
    if m2 = 0 then (if m1 = 0 then .nan else .inf (n1 != n2))
    else
      let q := m1 * 2 ^ 320
      round32 (.fin (n1 != n2) (2 * (q / m2) + (if q % m2 = 0 then 0 else 1)) (e1 - e2 - 321))

/-- The sign and order of two values that are not NaN: is `a` below `b`? -/
def ltNum : Num → Num → Bool
  | .inf a, .inf b => a && !b
  | .inf a, .fin _ _ _ => a
  | .fin _ _ _, .inf b => !b
  | .fin n1 m1 e1, .fin n2 m2 e2 =>
    let q := min e1 e2
    decide (scaleTo n1 m1 e1 q < scaleTo n2 m2 e2 q)
  | _, _ => false

/-- The larger of two values; NaN where either is. -/
def max32 (a b : Num) : Num :=
  match a, b with
  | .nan, _ => .nan
  | _, .nan => .nan
  | _, _ => if ltNum a b then b else a

/-- The integer square root of `n`, bit by bit from bit `k` - 1 down; `r` is what is found so far. -/
def sqrtBits (n : Nat) : Nat → Nat → Nat
  | 0, r => r
  | k + 1, r => if (r + 2 ^ k) * (r + 2 ^ k) ≤ n then sqrtBits n k (r + 2 ^ k) else sqrtBits n k r

/-- Precision, in bits, of the powers of two below. -/
def expBits : Nat := 224

/-- 2^(f / 2^n) in units of 2^-expBits, from the bits of f, highest first: `root` is 2^(1/2^i). -/
def exp2Frac (f : Nat) : Nat → Nat → Nat → Nat
  | 0, _, acc => acc
  | n + 1, root, acc =>
    let root := sqrtBits (root * 2 ^ expBits) (expBits + 2) 0
    exp2Frac f n root (if f.testBit n then acc * root / 2 ^ expBits else acc)

/-- 2^y correctly rounded to FP32 (R320). The fraction is taken to 200 bits; a power that is no integer one is irrational,
so something always follows. -/
def exp2Round : Num → Num
  | .nan => .nan
  | .inf true => .zero
  | .inf false => .inf false
  | .fin n m e =>
    let v : Int := if e < -200 then (let k := m / 2 ^ (-200 - e).toNat; if n then -(k : Int) else k)
      else scaleTo n m e (-200)
    let one : Int := 2 ^ 200
    let k := v / one
    let f := (v % one).toNat
    if k < -200 then round32 (.fin false 1 (-200))
    else if f = 0 then
      (if n && m != 0 && v == 0 then round32 (.fin false (2 ^ 200 - 1) (-200)) else round32 (.fin false 1 k))
    else round32 (.fin false (2 * exp2Frac f 200 (2 * 2 ^ expBits) (2 ^ expBits) + 1) (k - expBits - 1))

/-- exp(x) of R320: 2^y with y = x × log2 e rounded to FP32. -/
def exp32 (x : Num) : Num := exp2Round (mul32 x (decodeElem 1 0x3FB8AA3B))

end Sys2Proof.Machine
end

