-- ==== Sys2Proof/Machine/Flags.lean ====
section
/-! DEFINITION. Conversion, rounding and saturation, with what each conversion counts (R57, R66 to R69). -/

namespace Sys2Proof.Machine

/-- The result of a conversion: the code, whether it saturated or mapped ±Inf to a finite value, and whether it mapped
a NaN to a number (R66). -/
structure Conv where
  code : Nat
  sat : Bool := false
  nan : Bool := false
deriving DecidableEq, Repr

/-- Is a format marked stochastic in R66? -/
def stochFormat (f : Nat) : Bool := decide (0x05 ≤ f ∧ f ≤ 0x0B)

/-- One draw of the generator (R68): the new state; the draw is its top 16 bits. -/
def genNext (s : Word) : Word :=
  let s := s ^^^ (s <<< 13)
  let s := s ^^^ (s >>> 17)
  s ^^^ (s <<< 5)

/-- The 16-bit draw of a generator state (R68). -/
def genDraw (s : Word) : Nat := (s >>> 16).toNat

/-- The code of k × 2^q in a format, for a finite in-range magnitude at the format's quantum. -/
def Ieee.code (p : Ieee) (neg : Bool) (k : Nat) (q : Int) : Nat :=
  let s := if neg then 2 ^ (p.eb + p.mb) else 0
  if k < 2 ^ p.mb then s + k
  else if k = 2 ^ (p.mb + 1) then s + (q + 1 + p.bias + p.mb).toNat * 2 ^ p.mb
  else s + (q + p.bias + p.mb).toNat * 2 ^ p.mb + (k - 2 ^ p.mb)

/-- Convert into an IEEE-style format (R66): `u` is the draw of a stochastic conversion. -/
def toIeee (f : Nat) (p : Ieee) (u : Option Nat) (x : Num) : Conv :=
  let sgn (n : Bool) : Nat := if n then 2 ^ (p.eb + p.mb) else 0
  let (lm, le) := p.largest
  let big (n : Bool) : Nat := p.code n lm le
  let infCode (n : Bool) : Nat := sgn n + (2 ^ p.eb - 1) * 2 ^ p.mb
  match x with
  | .nan =>
    if f = 0x05 then { code := 0x7F } else if f = 0x06 then { code := 0x7E }
    else if p.nan then { code := (2 ^ p.eb - 1) * 2 ^ p.mb + 2 ^ (p.mb - 1) }
    else { code := 0, nan := true }
  | .inf n => if p.inf then { code := infCode n } else { code := big n, sat := true }
  | .fin n m e =>
    if m = 0 then { code := sgn n }
    else
      let q := p.quantum m e
      let k := match u with
        | some u => roundStoch m e q u
        | none => roundEven m e q
      if aboveVal k q lm le then
        if p.inf && f != 0x06 then { code := infCode n } else { code := big n, sat := true }
      else { code := p.code n k q }

/-- Convert into a signed or unsigned integer of `w` bits, at the quantum 2^q (R66). A negative value that an unsigned
format takes as 0 counts as saturated (log 88). -/
def toInteger (w : Nat) (sgnd : Bool) (q : Int) (x : Num) : Conv :=
  let lo : Int := if sgnd then -(2 ^ (w - 1)) else 0
  let hi : Int := if sgnd then 2 ^ (w - 1) - 1 else 2 ^ w - 1
  match x with
  | .nan => { code := 0, nan := true }
  | .inf n => { code := wrap w (if n then lo else hi), sat := true }
  | .fin n m e =>
    let k := roundEven m e q
    let v : Int := if n then -(k : Int) else k
    if v < lo then { code := wrap w lo, sat := true }
    else if hi < v then { code := wrap w hi, sat := true }
    else { code := wrap w v }

/-- The log field of a magnitude m × 2^e, m > 0, before limiting: nearest by the thresholds of R67 with ties to even,
or by the draw of R69. `ts` are the fractions T used (of LOG8 or LOG4). -/
def logRound (ts : List Nat) (u : Option Nat) (m : Nat) (e : Int) : Int :=
  let n := ts.length - 1
  let l := Nat.log2 m
  let x := m * 65536
  let base := (topExp m e) * n
  match u with
  | none =>
    let hs := (List.range n).map fun f => (ts.getD f 0 + ts.getD (f + 1) 0) * 2 ^ l
    let c := (hs.filter fun h => decide (h < x)).length
    match (List.range n).find? fun k => hs.getD k 0 == x with
    | some k => if (base + k) % 2 = 0 then base + k else base + k + 1
    | none => base + c
  | some u =>
    let f := ((List.range n).filter fun f => decide (2 * ts.getD f 0 * 2 ^ l ≤ x)).length - 1
    let a := 2 * ts.getD f 0 * 2 ^ l
    let b := 2 * ts.getD (f + 1) 0 * 2 ^ l
    if 65536 * (x - a) / (b - a) > u then base + f + 1 else base + f

/-- The fractions of LOG8. -/
def log8T : List Nat := [32768, 35734, 38968, 42495, 46341, 50535, 55109, 60097, 65536]
/-- The fractions of LOG4. -/
def log4T : List Nat := [32768, 46341, 65536]

/-- Convert into LOG8 or LOG4 (R67, R69). -/
def toLog (f : Nat) (u : Option Nat) (x : Num) : Conv :=
  let w := if f = 0x0A then 7 else 3
  let hi : Int := 2 ^ (w - 1) - 1
  let lo : Int := -(2 ^ (w - 1))
  let sgn (n : Bool) : Nat := if n then 2 ^ w else 0
  let mid : Nat × Int := if f = 0x0A then (35734, -24) else (46341, -18)
  match x with
  | .nan => { code := zeroCode f, nan := true }
  | .inf n => { code := sgn n + hi.toNat, sat := true }
  | .fin n m e =>
    if m = 0 ∨ !(aboveVal m e mid.1 mid.2) then { code := zeroCode f }
    else
      let l := logRound (if f = 0x0A then log8T else log4T) u m e
      if hi < l then { code := sgn n + hi.toNat, sat := true }
      else if l ≤ lo then { code := sgn n + wrap w (lo + 1) }
      else { code := sgn n + wrap w l }

/-- Convert a value into a format (R66). -/
def convert (f : Nat) (u : Option Nat) (x : Num) : Conv :=
  match ieeeOf f with
  | some p =>
    let c := toIeee f p (if stochFormat f then u else none) x
    if f = 0x02 then { c with code := c.code * 8192 } else c
  | none =>
    if f = 0x0A ∨ f = 0x0B then toLog f u x
    else if f = 0x0C then toInteger 32 true 0 x
    else if f = 0x0D then toInteger 16 true 0 x
    else if f = 0x0E then toInteger 8 true 0 x
    else if f = 0x0F then toInteger 8 false 0 x
    else if f = 0x10 then toInteger 4 true 0 x
    else toInteger 16 false (-4) x

/-- What a run of conversions yields: codes in order, the generator after, and the counts (R66, R68). -/
structure ConvRun where
  codes : List Nat := []
  gen : Word
  sats : Nat := 0
  nans : Nat := 0
deriving DecidableEq, Repr

/-- Convert one more element; a stochastic conversion draws once, zeros included (R69). -/
def ConvRun.step (f : Nat) (stoch : Bool) (r : ConvRun) (x : Num) : ConvRun :=
  let draws := stoch && stochFormat f
  let g := if draws then genNext r.gen else r.gen
  let c := convert f (if draws then some (genDraw g) else none) x
  { codes := r.codes ++ [c.code], gen := g, sats := r.sats + c.sat.toNat, nans := r.nans + c.nan.toNat }

/-- Convert a row of values. -/
def convertRow (f : Nat) (stoch : Bool) (r : ConvRun) (xs : List Num) : ConvRun := xs.foldl (·.step f stoch) r

/-- emax of a block-scaled element format (R57). -/
def mxEmax (f : Nat) : Int :=
  if f = 0x05 then 8 else if f = 0x06 then 15 else if f = 0x07 then 4 else if f = 0x08 then 2
  else if f = 0x09 then 2 else 0

/-- May a format be block-scaled (R56)? -/
def mxFormat (f : Nat) : Bool := decide (0x05 ≤ f ∧ f ≤ 0x09) || f == 0x0E

/-- The larger of two magnitudes. -/
def maxMag (a b : Nat × Int) : Nat × Int := if aboveVal a.1 a.2 b.1 b.2 then a else b

/-- Write a block of up to 32 values block-scaled (R57): the scale byte, and the run of conversions. In a block with a NaN
each NaN counts as mapped to a number (log 87); with an infinity, amax is beyond every scale, so X is clamped to 127. -/
def mxBlock (f : Nat) (stoch : Bool) (r : ConvRun) (xs : List Num) : Nat × ConvRun :=
  if xs.any (· == .nan) then
    (0xFF, { (convertRow f stoch r (xs.map fun _ => Num.zero)) with
      nans := r.nans + (xs.filter (· == .nan)).length })
  else
    let amax := xs.foldl (fun a x => match x with
      | .fin _ m e => if m = 0 then a else maxMag (m, e) a
      | _ => a) (0, 0)
    let anyInf := xs.any fun x => match x with
      | .inf _ => true
      | _ => false
    if amax.1 = 0 && !anyInf then (0, convertRow f stoch r xs)
    else
      let x : Int := if anyInf then 127 else clampI (-127) 127 (topExp amax.1 amax.2 - mxEmax f)
      let sh : Int := if f = 0x0E then 6 - x else -x
      ((x + 127).toNat, convertRow f stoch r (xs.map (scale2 sh)))

/-- Cut a list into runs of `n`. -/
def chunks {α : Type} (n : Nat) : Nat → List α → List (List α)
  | 0, _ => []
  | k + 1, l => if l.isEmpty then [] else l.take n :: chunks n k (l.drop n)

/-- Write a row block-scaled: scales and codes (R56, R57). -/
def mxRow (f : Nat) (stoch : Bool) (r : ConvRun) (xs : List Num) : List Nat × ConvRun :=
  (chunks 32 xs.length xs).foldl (fun (acc : List Nat × ConvRun) b =>
    let (x, r) := mxBlock f stoch acc.2 b
    (acc.1 ++ [x], r)) ([], r)

end Sys2Proof.Machine
end

