-- ==== Sys2Proof/Machine/LaneCode.lean ====
section
/-! DEFINITION. The 66-bit blocks of the fabric's lanes (R387, R395). The scrambler runs on over the idle blocks between
frames and so hangs on time: blocks stand here as they are before it (log 131). -/

namespace Sys2Proof.Machine

/-- A 66-bit block: its sync header and its eight bytes, the first sent first. -/
structure Block where
  sync : BitVec 2
  bytes : List Byte
deriving DecidableEq, Repr

/-- A data block, which carries 8 bytes of a frame. -/
def dataBlock (l : List Byte) : Block := ⟨0b01, l⟩

/-- An idle block. -/
def idleBlock : Block := ⟨0b10, 0x1E :: List.replicate 7 0x00⟩

/-- The alignment marker of a lane of a link: 0xC1, lane, link, 0x5D, and the complements of those four bytes. -/
def markerBlock (lane link : Nat) : Block :=
  let l : List Byte := [0xC1, BitVec.ofNat 8 lane, BitVec.ofNat 8 link, 0x5D]
  ⟨0b10, l ++ l.map (~~~ ·)⟩

/-- The data blocks of a frame: its 8-byte words. -/
def wordBlocks : Nat → List Byte → List Block
  | 0, _ => []
  | n + 1, l => dataBlock (l.take 8) :: wordBlocks n (l.drop 8)

/-- A frame's blocks on its link's four lanes: its words go to lanes 0, 1, 2 and 3 in turn. -/
def laneBlocks (frame : List Byte) : List (List Block) :=
  let ws := wordBlocks (frame.length / 8) frame
  (List.range 4).map fun lane => (ws.zipIdx.filter fun p => p.2 % 4 == lane).map (·.1)

/-- What a transmitter sends that trains its link or wakes: idle blocks and a marker on each lane (R390, R393). -/
def idleLanes (link : Nat) : List (List Block) := (List.range 4).map fun lane => [idleBlock, markerBlock lane link]

end Sys2Proof.Machine
end

