-- ==== Sys2Proof/Config.lean ====
section
/-! DEFINITION. What the spec leaves open: free values, as constants with no body. -/

namespace Sys2Proof

/-- FREE VALUE (log 3). A value of `w` bits that the spec leaves open (a nonce, a salt, an undefined result): the
`n`-th draw of the machine. Nothing constrains it. -/
opaque Config.freeBits (w : Nat) (n : Nat) : BitVec w

/-- FREE VALUE (log 45). What a Trump program image says, given its bytes: the spec names its parts and gives no
layout. Nothing constrains it. -/
opaque Config.trumpImage (bytes : List Byte) : Machine.TrumpImage

/-- FREE VALUE (log 45). The SHA-256 of step tables and a stream map (R44): the spec does not say in which form they are
hashed. Nothing constrains it. -/
opaque Config.tablesHash (tables : List (Nat × List StepWord)) (map : List MapEntry) : List Byte

/-- FREE VALUE (log 98). What a grade certificate says, given its bytes (R2, R469, R476): the spec names its parts and
gives no layout. Nothing constrains it. -/
opaque Config.gradeCert (bytes : List Byte) : Machine.GradeCert

/-- FREE VALUE (log 64). The set point in mV of on-module rail sensor `k` (R523): the spec gives none. -/
opaque Config.railSetPoint (k : Nat) : Nat

/-- FREE VALUE (log 109). The root key of this module, which its PUF gives (R482). -/
opaque Config.rootKey : List Byte

/-- FREE VALUE (log 63). The signed firmware object that slot A holds at delivery. -/
opaque Config.deliveredFirmware : List Byte

/-- FREE VALUE (log 66). The vendor's HSS root public key, held in the boot ROM (R486). -/
opaque Config.vendorKey : List Byte

/-- FREE VALUE (log 79). The Service role key, a factory value (R430). -/
opaque Config.serviceKey : List Byte

/-- FREE VALUE (log 119). The CRC-8 of an output frame (R266), given its levels, its SAFE flag and its count: the spec
gives no polynomial and no layout. -/
opaque Config.fieldCrc (levels : BitVec 16) (safe : Bool) (count : Nat) : BitVec 8

/-- FREE VALUE (log 67). MODEL_HBM_ROOM: the bytes free for a second image, given the length of the present one and of the
Trump region (R553, R557): the spec does not say where an image lies in the HBM. -/
opaque Config.modelRoom (present region : Nat) : Nat

/-- FREE VALUE (log 73). The bytes of TRUMP_CERTIFICATE, given the fields of R44: the spec gives no layout. -/
opaque Config.certificateBytes (cert : Machine.Cert) : List Byte

/-- FREE VALUE (log 74). The voltage in mV of a fixed clock island (R481): the spec gives none. -/
opaque Config.fixedVolt (island : Nat) : Nat

/-- FREE VALUE (log 75). The vendor's part of I3C_PID (R432): its manufacturer field, and the low bits the spec leaves
open. -/
opaque Config.pidVendor : BitVec 27

/-- FREE VALUE (log 76). MS_WEAR: % of the model store's rated endurance used, given how many blocks have been written
since the start: the spec gives no rule. -/
opaque Config.msWear (written : Nat) : BitVec 8

/-- FREE VALUE (log 77). FIRMWARE_RELEASE of firmware of a version other than the delivered one. -/
opaque Config.firmwareRelease (version : Nat) : List Byte

end Sys2Proof
end

