-- ==== Sys2Proof/Machine/Sha.lean ====
section
/-! DEFINITION. SHA-256 and HMAC-SHA-256 over byte lists, which the hashes and the tags of the spec name, and the key
derivation of R483. -/

namespace Sys2Proof.Machine

/-! ### SHA-256 (FIPS 180-4) -/

/-- The round constants, eight to the number, the first the most significant. -/
def shaTable : List (BitVec 256) :=
  [0x428a2f9871374491b5c0fbcfe9b5dba53956c25b59f111f1923f82a4ab1c5ed5,
   0xd807aa9812835b01243185be550c7dc372be5d7480deb1fe9bdc06a7c19bf174,
   0xe49b69c1efbe47860fc19dc6240ca1cc2de92c6f4a7484aa5cb0a9dc76f988da,
   0x983e5152a831c66db00327c8bf597fc7c6e00bf3d5a7914706ca635114292967,
   0x27b70a852e1b21384d2c6dfc53380d13650a7354766a0abb81c2c92e92722c85,
   0xa2bfe8a1a81a664bc24b8b70c76c51a3d192e819d6990624f40e3585106aa070,
   0x19a4c1161e376c082748774c34b0bcb5391c0cb34ed8aa4a5b9cca4f682e6ff3,
   0x748f82ee78a5636f84c878148cc7020890befffaa4506cebbef9a3f7c67178f2]

/-- The constant of round `t`. -/
def shaConst (t : Nat) : Word := ((shaTable.getD (t / 8) 0).extractLsb' (32 * (7 - t % 8)) 32)

/-- The chaining value before the first block, its first word the most significant. -/
def shaStart : BitVec 256 := 0x6a09e667bb67ae853c6ef372a54ff53a510e527f9b05688c1f83d9ab5be0cd19

/-- The xor of a word turned right by each of the amounts. -/
def turned (x : Word) (by' : List Nat) : Word := by'.foldl (fun a n => a ^^^ x.rotateRight n) 0

/-- The number that bytes hold, the first the most significant. -/
def beBits (w : Nat) (l : List Byte) : BitVec w := BitVec.ofNat w (beNat l)

/-- The bytes of a word, the most significant first. -/
def bitsBe {w : Nat} (x : BitVec w) : List Byte := (wordBytes x).reverse

/-- The word of the message schedule that follows the last sixteen, the oldest of which is the most significant. -/
def shaNextWord (last : BitVec 512) : Word :=
  let ago (k : Nat) : Word := last.extractLsb' (32 * (k - 1)) 32
  let near := turned (ago 2) [17, 19] ^^^ (ago 2 >>> 10)
  let far := turned (ago 15) [7, 18] ^^^ (ago 15 >>> 3)
  near + ago 7 + far + ago 16

/-- The working variables, the first the most significant, after one round over the schedule word plus constant. -/
def shaMix (v : BitVec 256) (kw : Word) : BitVec 256 :=
  let at' (k : Nat) : Word := v.extractLsb' (32 * (7 - k)) 32
  let pick := at' 6 ^^^ (at' 4 &&& (at' 5 ^^^ at' 6))
  let most := (at' 0 &&& (at' 1 ||| at' 2)) ||| (at' 1 &&& at' 2)
  let x := at' 7 + turned (at' 4) [6, 11, 25] + pick + kw
  let top := x + turned (at' 0) [2, 13, 22] + most
  let down := v >>> 32
  setFld (setFld down 255 224 top.toNat) 127 96 (at' 3 + x).toNat

/-- The rounds that are left, over the last sixteen words of the schedule. -/
def shaRounds (v : BitVec 256) (last : BitVec 512) : Nat → BitVec 256
  | 0 => v
  | left + 1 =>
    let v := shaMix v (last.extractLsb' 480 32 + shaConst (63 - left))
    shaRounds v ((last <<< 32) ||| (shaNextWord last).zeroExtend 512) left

/-- The sum, word by word, of two chaining values. -/
def shaAdd (a b : BitVec 256) : BitVec 256 :=
  (List.range 8).foldl (fun r k => setFld r (32 * k + 31) (32 * k) (fld a (32 * k + 31) (32 * k) + fld b (32 * k + 31) (32 * k))) 0

/-- Take in `n` blocks of 64 bytes. -/
def shaTake (h : BitVec 256) (l : List Byte) : Nat → BitVec 256
  | 0 => h
  | n + 1 => shaTake (shaAdd h (shaRounds h (beBits 512 (l.take 64)) 64)) (l.drop 64) n

/-- SHA-256: the message, a one bit, zeros, and its length in bits in the last eight bytes of the last block. -/
def sha256 (l : List Byte) : List Byte :=
  let blocks := (l.length + 72) / 64
  let zeros := 64 * blocks - l.length - 9
  bitsBe (shaTake shaStart (l ++ 0x80 :: List.replicate zeros 0 ++ bitsBe (BitVec.ofNat 64 (8 * l.length))) blocks)

/-! ### HMAC (RFC 2104) and the key derivation (R483) -/

/-- HMAC-SHA-256. -/
def hmac256 (key msg : List Byte) : List Byte :=
  let short := if 64 < key.length then sha256 key else key
  let padded (x : Byte) : List Byte := (List.range 64).map fun i => short.getD i 0 ^^^ x
  sha256 (padded 0x5C ++ sha256 (padded 0x36 ++ msg))

/-- The counter-mode KDF of SP 800-108 over HMAC-SHA-256 (R483): the first `n` bytes of the tags over the counter, the
label, a zero byte, the context and the length in bits, counter and length being 32 bits, high byte first (log 109). -/
def kdf (key label context : List Byte) (n : Nat) : List Byte :=
  ((List.range ((n + 31) / 32)).flatMap fun i =>
    hmac256 key (bitsBe (BitVec.ofNat 32 (i + 1)) ++ label ++ [0] ++ context ++ bitsBe (BitVec.ofNat 32 (8 * n)))).take n

end Sys2Proof.Machine
end

