-- ==== Sys2Proof/Machine/DictA.lean ====
section
/-! DEFINITION. The entries of the object dictionary, chapters 2 to 12 (the tables the rules named below give). -/

namespace Sys2Proof.Machine.Dict

/-! ### R52 -/

/-- 0x4010:00 TRUMP_CERTIFICATE (R52). -/
def trumpCertificate : Ent :=
  { i := 0x4010, s := 0, name := "TRUMP_CERTIFICATE", ty := .domain, acc := .ro, maxLen := 1073741824,
    wr := .integrate }
/-- 0x4011:01 CERT_L_LV (R52). -/
def certLLv : Ent :=
  { i := 0x4011, s := 1, name := "CERT_L_LV", ty := .u32, acc := .ro, hi := 4294967295, maxLen := 4,
    wr := .integrate }
/-- 0x4011:02 CERT_L_VL (R52). -/
def certLVl : Ent :=
  { i := 0x4011, s := 2, name := "CERT_L_VL", ty := .u32, acc := .ro, hi := 4294967295, maxLen := 4,
    wr := .integrate }
/-- 0x4011:03 CERT_STAMP_OFFSET (R52). -/
def certStampOffset : Ent :=
  { i := 0x4011, s := 3, name := "CERT_STAMP_OFFSET", ty := .u32, acc := .ro, hi := 4294967295, maxLen := 4,
    wr := .integrate }
/-- 0x4012:01 STATION_SELECT (R52). -/
def stationSelect : Ent :=
  { i := 0x4012, s := 1, name := "STATION_SELECT", ty := .u32, acc := .rw, hi := 16777215, maxLen := 4,
    wr := .view }
/-- 0x4012:02 SEQ_STATE (R52). -/
def seqState : Ent :=
  { i := 0x4012, s := 2, name := "SEQ_STATE", ty := .u8, acc := .ro, hi := 5, maxLen := 1, wr := .integrate,
    sel := .station }
/-- 0x4012:03 ACTIVE_STEP (R52). -/
def activeStep : Ent :=
  { i := 0x4012, s := 3, name := "ACTIVE_STEP", ty := .u16, acc := .ro, hi := 4095, maxLen := 2, wr := .integrate,
    sel := .station }
/-- 0x4012:04 ROLE_EPOCH (R52). -/
def roleEpoch : Ent :=
  { i := 0x4012, s := 4, name := "ROLE_EPOCH", ty := .u16, acc := .ro, dflt := 1, lo := 1, hi := 65535,
    maxLen := 2, wr := .integrate, sel := .station }
/-- 0x4012:05 SHADOW_SLOT (R52). -/
def shadowSlot : Ent :=
  { i := 0x4012, s := 5, name := "SHADOW_SLOT", ty := .u8, acc := .ro, hi := 2, maxLen := 1, wr := .integrate,
    sel := .station }
/-- 0x4012:06 LATE_COUNT (R52). -/
def lateCount : Ent :=
  { i := 0x4012, s := 6, name := "LATE_COUNT", ty := .u64, acc := .ro, hi := 18446744073709551615, maxLen := 8,
    wr := .integrate, sel := .station }
/-- 0x4012:07 ROLE_CHANGED_COUNT (R52). -/
def roleChangedCount : Ent :=
  { i := 0x4012, s := 7, name := "ROLE_CHANGED_COUNT", ty := .u64, acc := .ro, hi := 18446744073709551615,
    maxLen := 8, wr := .integrate, sel := .station }
/-- 0x4012:08 SEQ_GAP_COUNT (R52). -/
def seqGapCount : Ent :=
  { i := 0x4012, s := 8, name := "SEQ_GAP_COUNT", ty := .u64, acc := .ro, hi := 18446744073709551615, maxLen := 8,
    wr := .integrate, sel := .station }
/-- 0x4012:09 DESC_CHECK_COUNT (R52). -/
def descCheckCount : Ent :=
  { i := 0x4012, s := 9, name := "DESC_CHECK_COUNT", ty := .u64, acc := .ro, hi := 18446744073709551615,
    maxLen := 8, wr := .integrate, sel := .station }

/-- The entries of R52, in the order of its table. -/
def list02 : List Ent :=
  [trumpCertificate, certLLv, certLVl, certStampOffset, stationSelect, seqState, activeStep, roleEpoch] ++
  [shadowSlot, lateCount, roleChangedCount, seqGapCount, descCheckCount]

/-! ### R74 -/

/-- 0x4120:01 ROUND_SEED (R74). -/
def roundSeed : Ent :=
  { i := 0x4120, s := 1, name := "ROUND_SEED", ty := .u32, acc := .rws, pers := .saved, det := true,
    dflt := 625341585, lo := 1, hi := 4294967295, maxLen := 4, wr := .integrate, sel := .station }
/-- 0x4120:02 CONV_SAT_COUNT (R74). -/
def convSatCount : Ent :=
  { i := 0x4120, s := 2, name := "CONV_SAT_COUNT", ty := .u64, acc := .ro, hi := 18446744073709551615, maxLen := 8,
    wr := .integrate, sel := .station }
/-- 0x4120:03 NAN_ZERO_COUNT (R74). -/
def nanZeroCount : Ent :=
  { i := 0x4120, s := 3, name := "NAN_ZERO_COUNT", ty := .u64, acc := .ro, hi := 18446744073709551615, maxLen := 8,
    wr := .integrate, sel := .station }
/-- 0x4120:04 ACC_SAT_COUNT (R74). -/
def accSatCount : Ent :=
  { i := 0x4120, s := 4, name := "ACC_SAT_COUNT", ty := .u64, acc := .ro, hi := 18446744073709551615, maxLen := 8,
    wr := .integrate, sel := .station }

/-- The entries of R74, in the order of its table. -/
def list03 : List Ent :=
  [roundSeed, convSatCount, nanZeroCount, accSatCount]

/-! ### R109 -/

/-- 0x4100:01 ENABLED_ARRAYS (R109). -/
def enabledArrays : Ent :=
  { i := 0x4100, s := 1, name := "ENABLED_ARRAYS", ty := .u8, acc := .ro, pers := .factory, dflt := 16, lo := 12,
    hi := 16, maxLen := 1, wr := .integrate }
/-- 0x4100:02 ARRAY_ENABLE_MAP (R109). -/
def arrayEnableMap : Ent :=
  { i := 0x4100, s := 2, name := "ARRAY_ENABLE_MAP", ty := .u16, acc := .ro, pers := .factory, dflt := 65535,
    hi := 65535, maxLen := 2, wr := .integrate }
/-- 0x4100:03 ARRAY_SPLIT_MAP (R109). -/
def arraySplitMap : Ent :=
  { i := 0x4100, s := 3, name := "ARRAY_SPLIT_MAP", ty := .u16, acc := .ro, hi := 65535, maxLen := 2,
    wr := .integrate }
/-- 0x4101:01 ARRAY_SELECT (R109). -/
def arraySelect : Ent :=
  { i := 0x4101, s := 1, name := "ARRAY_SELECT", ty := .u8, acc := .rw, hi := 15, maxLen := 1, wr := .view }
/-- 0x4101:02 FREEZE_CYCLES (R109). -/
def freezeCycles : Ent :=
  { i := 0x4101, s := 2, name := "FREEZE_CYCLES", ty := .u64, acc := .ro, hi := 18446744073709551615, maxLen := 8,
    wr := .integrate, sel := .array }
/-- 0x4101:03 DUMMY_CYCLES (R109). -/
def dummyCycles : Ent :=
  { i := 0x4101, s := 3, name := "DUMMY_CYCLES", ty := .u64, acc := .ro, hi := 18446744073709551615, maxLen := 8,
    wr := .integrate, sel := .array }
/-- 0x4101:04 RAMP_DOWN_COUNT (R109). -/
def rampDownCount : Ent :=
  { i := 0x4101, s := 4, name := "RAMP_DOWN_COUNT", ty := .u64, acc := .ro, hi := 18446744073709551615,
    maxLen := 8, wr := .integrate, sel := .array }
/-- 0x4101:05 CHECKSUM_FAIL_COUNT (R109). -/
def checksumFailCount : Ent :=
  { i := 0x4101, s := 5, name := "CHECKSUM_FAIL_COUNT", ty := .u64, acc := .ro, hi := 18446744073709551615,
    maxLen := 8, wr := .integrate, sel := .array }
/-- 0x4101:06 CHECK_STEP_FAIL_COUNT (R109). -/
def checkStepFailCount : Ent :=
  { i := 0x4101, s := 6, name := "CHECK_STEP_FAIL_COUNT", ty := .u64, acc := .ro, hi := 18446744073709551615,
    maxLen := 8, wr := .integrate, sel := .array }
/-- 0x4101:07 PARITY_FAULT_COUNT (R109). -/
def parityFaultCount : Ent :=
  { i := 0x4101, s := 7, name := "PARITY_FAULT_COUNT", ty := .u64, acc := .ro, hi := 18446744073709551615,
    maxLen := 8, wr := .integrate, sel := .array }
/-- 0x4101:08 HALF_FENCE_COUNT (R109). -/
def halfFenceCount : Ent :=
  { i := 0x4101, s := 8, name := "HALF_FENCE_COUNT", ty := .u64, acc := .ro, hi := 18446744073709551615,
    maxLen := 8, wr := .integrate, sel := .array }
/-- 0x4101:09 FORMAT_MISMATCH_COUNT (R109). -/
def formatMismatchCount : Ent :=
  { i := 0x4101, s := 9, name := "FORMAT_MISMATCH_COUNT", ty := .u64, acc := .ro, hi := 18446744073709551615,
    maxLen := 8, wr := .integrate, sel := .array }
/-- 0x4102:00 JOB_HOLD_WARM (R109). -/
def jobHoldWarm : Ent :=
  { i := 0x4102, s := 0, name := "JOB_HOLD_WARM", ty := .bool, acc := .rw, pers := .saved, hi := 1, maxLen := 1 }

/-- The entries of R109, in the order of its table. -/
def list04 : List Ent :=
  [enabledArrays, arrayEnableMap, arraySplitMap, arraySelect, freezeCycles, dummyCycles, rampDownCount, checksumFailCount] ++
  [checkStepFailCount, parityFaultCount, halfFenceCount, formatMismatchCount, jobHoldWarm]

/-! ### R130 -/

/-- 0x4200:01 SHARED_OWNER_MAP (R130). -/
def sharedOwnerMap : Ent :=
  { i := 0x4200, s := 1, name := "SHARED_OWNER_MAP", ty := .u8, acc := .rws, pers := .saved, hi := 255,
    maxLen := 1, wr := .integrate }
/-- 0x4200:02 DMA_OWNER_MAP (R130). -/
def dmaOwnerMap : Ent :=
  { i := 0x4200, s := 2, name := "DMA_OWNER_MAP", ty := .u8, acc := .rws, pers := .saved, hi := 255, maxLen := 1,
    wr := .integrate }
/-- 0x4201:01 BANK_SELECT (R130). -/
def bankSelect : Ent :=
  { i := 0x4201, s := 1, name := "BANK_SELECT", ty := .u16, acc := .rw, hi := 319, maxLen := 2, wr := .view }
/-- 0x4201:02 BANK_CONFLICT_COUNT (R130). -/
def bankConflictCount : Ent :=
  { i := 0x4201, s := 2, name := "BANK_CONFLICT_COUNT", ty := .u64, acc := .ro, hi := 18446744073709551615,
    maxLen := 8, wr := .integrate, sel := .bank }
/-- 0x4201:03 SAME_ROW_COUNT (R130). -/
def sameRowCount : Ent :=
  { i := 0x4201, s := 3, name := "SAME_ROW_COUNT", ty := .u64, acc := .ro, hi := 18446744073709551615, maxLen := 8,
    wr := .integrate, sel := .bank }
/-- 0x4202:01 GROUP_SELECT (R130). -/
def groupSelect : Ent :=
  { i := 0x4202, s := 1, name := "GROUP_SELECT", ty := .u8, acc := .rw, hi := 23, maxLen := 1, wr := .view }
/-- 0x4202:02 GROUP_STATE (R130). -/
def groupState : Ent :=
  { i := 0x4202, s := 2, name := "GROUP_STATE", ty := .u8, acc := .ro, hi := 3, maxLen := 1, wr := .integrate,
    sel := .group }
/-- 0x4202:03 POISON_DROP_COUNT (R130). -/
def poisonDropCount : Ent :=
  { i := 0x4202, s := 3, name := "POISON_DROP_COUNT", ty := .u64, acc := .ro, hi := 18446744073709551615,
    maxLen := 8, wr := .integrate, sel := .group }
/-- 0x4202:04 FORCED_OFF_COUNT (R130). -/
def forcedOffCount : Ent :=
  { i := 0x4202, s := 4, name := "FORCED_OFF_COUNT", ty := .u64, acc := .ro, hi := 18446744073709551615,
    maxLen := 8, wr := .integrate, sel := .group }

/-- The entries of R130, in the order of its table. -/
def list05 : List Ent :=
  [sharedOwnerMap, dmaOwnerMap, bankSelect, bankConflictCount, sameRowCount, groupSelect, groupState, poisonDropCount] ++
  [forcedOffCount]

/-! ### R157 -/

/-- 0x4210:01 TRUMP_HBM_SHARE (R157). -/
def trumpHbmShare : Ent :=
  { i := 0x4210, s := 1, name := "TRUMP_HBM_SHARE", ty := .u8, acc := .rws, pers := .saved, det := true,
    dflt := 10, lo := 5, hi := 50, maxLen := 1, wr := .integrate }
/-- 0x4210:02 TRUMP_HBM_BASE (R157). -/
def trumpHbmBase : Ent :=
  { i := 0x4210, s := 2, name := "TRUMP_HBM_BASE", ty := .u64, acc := .rws, pers := .saved,
    hi := 18446744073709551615, step := 67108864, maxLen := 8, wr := .integrate }
/-- 0x4210:03 TRUMP_HBM_LENGTH (R157). -/
def trumpHbmLength : Ent :=
  { i := 0x4210, s := 3, name := "TRUMP_HBM_LENGTH", ty := .u64, acc := .rws, pers := .saved, dflt := 8589934592,
    hi := 18446744073709551615, step := 67108864, maxLen := 8, wr := .integrate }
/-- 0x4210:04 ADAPTER_STAGE_BASE (R157). -/
def adapterStageBase : Ent :=
  { i := 0x4210, s := 4, name := "ADAPTER_STAGE_BASE", ty := .u64, acc := .rws, pers := .saved, dflt := 6979321856,
    hi := 18446744073709551615, step := 4096, maxLen := 8, wr := .integrate }
/-- 0x4210:05 ADAPTER_STAGE_LENGTH (R157). -/
def adapterStageLength : Ent :=
  { i := 0x4210, s := 5, name := "ADAPTER_STAGE_LENGTH", ty := .u64, acc := .rws, pers := .saved,
    dflt := 1610612736, hi := 18446744073709551615, step := 4096, maxLen := 8, wr := .integrate }
/-- 0x4211:01 CHANNEL_SELECT (R157). -/
def channelSelect : Ent :=
  { i := 0x4211, s := 1, name := "CHANNEL_SELECT", ty := .u8, acc := .rw, hi := 127, maxLen := 1, wr := .view }
/-- 0x4211:02 HBM_CORRECTED_COUNT (R157). -/
def hbmCorrectedCount : Ent :=
  { i := 0x4211, s := 2, name := "HBM_CORRECTED_COUNT", ty := .u64, acc := .ro, hi := 18446744073709551615,
    maxLen := 8, wr := .integrate, sel := .channel }
/-- 0x4211:03 HBM_UNCORRECTABLE_COUNT (R157). -/
def hbmUncorrectableCount : Ent :=
  { i := 0x4211, s := 3, name := "HBM_UNCORRECTABLE_COUNT", ty := .u64, acc := .ro, hi := 18446744073709551615,
    maxLen := 8, wr := .integrate, sel := .channel }
/-- 0x4211:04 TRUMP_SLOTS_LENT (R157). -/
def trumpSlotsLent : Ent :=
  { i := 0x4211, s := 4, name := "TRUMP_SLOTS_LENT", ty := .u64, acc := .ro, hi := 18446744073709551615,
    maxLen := 8, wr := .integrate, sel := .channel }
/-- 0x4211:05 TRUMP_MAX_WAIT (R157). -/
def trumpMaxWait : Ent :=
  { i := 0x4211, s := 5, name := "TRUMP_MAX_WAIT", ty := .u32, acc := .ro, hi := 4294967295, maxLen := 4,
    wr := .integrate, sel := .channel }
/-- 0x4212:01 CACHE_TRUMP_WAYS (R157). -/
def cacheTrumpWays : Ent :=
  { i := 0x4212, s := 1, name := "CACHE_TRUMP_WAYS", ty := .u8, acc := .rws, pers := .saved, dflt := 4, hi := 6,
    maxLen := 1, wr := .integrate }
/-- 0x4212:02 CACHE_HIT_COUNT (R157). -/
def cacheHitCount : Ent :=
  { i := 0x4212, s := 2, name := "CACHE_HIT_COUNT", ty := .u64, acc := .ro, hi := 18446744073709551615,
    maxLen := 8, wr := .integrate }
/-- 0x4212:03 CACHE_MISS_COUNT (R157). -/
def cacheMissCount : Ent :=
  { i := 0x4212, s := 3, name := "CACHE_MISS_COUNT", ty := .u64, acc := .ro, hi := 18446744073709551615,
    maxLen := 8, wr := .integrate }
/-- 0x4213:01 PF_TRUMP_COUNT (R157). -/
def pfTrumpCount : Ent :=
  { i := 0x4213, s := 1, name := "PF_TRUMP_COUNT", ty := .u8, acc := .rws, pers := .saved, dflt := 32, hi := 64,
    maxLen := 1, wr := .integrate }
/-- 0x4213:02 PF_DEPTH (R157). -/
def pfDepth : Ent :=
  { i := 0x4213, s := 2, name := "PF_DEPTH", ty := .u8, acc := .rw, pers := .saved, dflt := 16, lo := 4, hi := 64,
    step := 4, maxLen := 1 }
/-- 0x4213:03 PF_ISSUED (R157). -/
def pfIssued : Ent :=
  { i := 0x4213, s := 3, name := "PF_ISSUED", ty := .u64, acc := .ro, hi := 18446744073709551615, maxLen := 8,
    wr := .integrate }
/-- 0x4213:04 PF_USED (R157). -/
def pfUsed : Ent :=
  { i := 0x4213, s := 4, name := "PF_USED", ty := .u64, acc := .ro, hi := 18446744073709551615, maxLen := 8,
    wr := .integrate }
/-- 0x4214:01 TRUMP_TAG_RESERVE (R157). -/
def trumpTagReserve : Ent :=
  { i := 0x4214, s := 1, name := "TRUMP_TAG_RESERVE", ty := .u16, acc := .rws, pers := .saved, dflt := 1024,
    lo := 256, hi := 2048, maxLen := 2, wr := .integrate }
/-- 0x4214:02 INFLIGHT_CAP (R157). -/
def inflightCap : Ent :=
  { i := 0x4214, s := 2, name := "INFLIGHT_CAP", ty := .u16, acc := .ro, dflt := 64, lo := 1, hi := 4096, maxLen := 2,
    wr := .integrate, sel := .station }
/-- 0x4214:03 INFLIGHT_NOW (R157). -/
def inflightNow : Ent :=
  { i := 0x4214, s := 3, name := "INFLIGHT_NOW", ty := .u16, acc := .ro, hi := 65535, maxLen := 2,
    wr := .integrate, sel := .station }
/-- 0x4214:04 CAP_STALL_CYCLES (R157). -/
def capStallCycles : Ent :=
  { i := 0x4214, s := 4, name := "CAP_STALL_CYCLES", ty := .u64, acc := .ro, hi := 18446744073709551615,
    maxLen := 8, wr := .integrate, sel := .station }
/-- 0x4215:01 MS_ACTIVE_SLOT (R157). -/
def msActiveSlot : Ent :=
  { i := 0x4215, s := 1, name := "MS_ACTIVE_SLOT", ty := .u8, acc := .ro, dflt := 1, lo := 1, hi := 2, maxLen := 1,
    wr := .integrate }
/-- 0x4215:02 MS_MEDIA_ERRORS (R157). -/
def msMediaErrors : Ent :=
  { i := 0x4215, s := 2, name := "MS_MEDIA_ERRORS", ty := .u64, acc := .ro, hi := 18446744073709551615,
    maxLen := 8, wr := .integrate }
/-- 0x4215:03 MS_WEAR (R157). -/
def msWear : Ent :=
  { i := 0x4215, s := 3, name := "MS_WEAR", ty := .u8, acc := .ro, hi := 255, maxLen := 1, wr := .integrate }
/-- 0x4216:01 PSRAM_CORRECTED_COUNT (R157). -/
def psramCorrectedCount : Ent :=
  { i := 0x4216, s := 1, name := "PSRAM_CORRECTED_COUNT", ty := .u64, acc := .ro, hi := 18446744073709551615,
    maxLen := 8, wr := .integrate }
/-- 0x4216:02 PSRAM_MIRROR_COUNT (R157). -/
def psramMirrorCount : Ent :=
  { i := 0x4216, s := 2, name := "PSRAM_MIRROR_COUNT", ty := .u64, acc := .ro, hi := 18446744073709551615,
    maxLen := 8, wr := .integrate }

/-- The entries of R157, in the order of its table. -/
def list06 : List Ent :=
  [trumpHbmShare, trumpHbmBase, trumpHbmLength, adapterStageBase, adapterStageLength, channelSelect, hbmCorrectedCount, hbmUncorrectableCount] ++
  [trumpSlotsLent, trumpMaxWait, cacheTrumpWays, cacheHitCount, cacheMissCount, pfTrumpCount, pfDepth, pfIssued] ++
  [pfUsed, trumpTagReserve, inflightCap, inflightNow, capStallCycles, msActiveSlot, msMediaErrors, msWear] ++
  [psramCorrectedCount, psramMirrorCount]

/-! ### R181 -/

/-- 0x2000:01 PORT_SELECT (R181). -/
def portSelect : Ent :=
  { i := 0x2000, s := 1, name := "PORT_SELECT", ty := .u8, acc := .rw, hi := 15, maxLen := 1, wr := .view }
/-- 0x2001:01 PORT_ENABLE (R181). -/
def portEnable : Ent :=
  { i := 0x2001, s := 1, name := "PORT_ENABLE", ty := .bool, acc := .rws, pers := .saved, hi := 1, maxLen := 1,
    wr := .integrate, sel := .port }
/-- 0x2001:02 PHY_MODE (R181). -/
def phyMode : Ent :=
  { i := 0x2001, s := 2, name := "PHY_MODE", ty := .u8, acc := .rws, pers := .saved, hi := 1, maxLen := 1,
    wr := .integrate, sel := .port }
/-- 0x2001:03 LANES (R181). -/
def lanes : Ent :=
  { i := 0x2001, s := 3, name := "LANES", ty := .u8, acc := .rws, pers := .saved, dflt := 4, lo := 1, hi := 4,
    maxLen := 1, wr := .integrate, sel := .port }
/-- 0x2001:04 LANE_RATE (R181). -/
def laneRate : Ent :=
  { i := 0x2001, s := 4, name := "LANE_RATE", ty := .u16, acc := .rws, pers := .saved, dflt := 2500, lo := 80,
    hi := 4500, maxLen := 2, wr := .integrate, sel := .port }
/-- 0x2001:05 HEAD_KIND (R181). -/
def headKind : Ent :=
  { i := 0x2001, s := 5, name := "HEAD_KIND", ty := .u8, acc := .rws, pers := .saved, det := true, hi := 2,
    maxLen := 1, wr := .integrate, sel := .port }
/-- 0x2001:06 LINE_WIDTH (R181). -/
def lineWidth : Ent :=
  { i := 0x2001, s := 6, name := "LINE_WIDTH", ty := .u16, acc := .rws, pers := .saved, det := true, dflt := 4096,
    lo := 8, hi := 16384, step := 4, maxLen := 2, wr := .integrate, sel := .port }
/-- 0x2001:07 FRAME_LINES (R181). -/
def frameLines : Ent :=
  { i := 0x2001, s := 7, name := "FRAME_LINES", ty := .u16, acc := .rws, pers := .saved, dflt := 1024, lo := 1,
    hi := 8192, maxLen := 2, wr := .integrate, sel := .port }
/-- 0x2001:08 LINE_PERIOD_MIN (R181). -/
def linePeriodMin : Ent :=
  { i := 0x2001, s := 8, name := "LINE_PERIOD_MIN", ty := .u32, acc := .rws, pers := .saved, dflt := 4000,
    lo := 500, hi := 100000000, maxLen := 4, wr := .integrate, sel := .port }
/-- 0x2001:09 LINE_PERIOD_MAX (R181). -/
def linePeriodMax : Ent :=
  { i := 0x2001, s := 9, name := "LINE_PERIOD_MAX", ty := .u32, acc := .rws, pers := .saved, dflt := 1000000,
    lo := 1000, hi := 1000000000, maxLen := 4, wr := .integrate, sel := .port }
/-- 0x2001:0A ENCODER_CHANNEL (R181). -/
def encoderChannel : Ent :=
  { i := 0x2001, s := 10, name := "ENCODER_CHANNEL", ty := .u8, acc := .rws, pers := .saved, hi := 7, maxLen := 1,
    wr := .integrate, sel := .port }
/-- 0x2001:0B LINE_LATENCY (R181). -/
def lineLatency : Ent :=
  { i := 0x2001, s := 11, name := "LINE_LATENCY", ty := .u32, acc := .rws, pers := .saved, hi := 1000000,
    maxLen := 4, wr := .integrate, sel := .port }
/-- 0x2001:0C MAX_PIXEL_RATE (R181). -/
def maxPixelRate : Ent :=
  { i := 0x2001, s := 12, name := "MAX_PIXEL_RATE", ty := .u16, acc := .rws, pers := .saved, dflt := 1000, lo := 1,
    hi := 1600, maxLen := 2, wr := .integrate, sel := .port }
/-- 0x2002:01 VC_MAP (R181). -/
def vcMap : Ent :=
  { i := 0x2002, s := 1, n := 16, name := "VC_MAP", ty := .u16, acc := .rws, pers := .saved, det := true,
    dflt := 5632, hi := 65535, maxLen := 2, wr := .integrate, sel := .port }
/-- 0x2003:01 ECC_CORRECTED (R181). -/
def eccCorrected : Ent :=
  { i := 0x2003, s := 1, name := "ECC_CORRECTED", ty := .u64, acc := .ro, hi := 18446744073709551615, maxLen := 8,
    wr := .integrate, sel := .port }
/-- 0x2003:02 HEADER_ERROR (R181). -/
def headerError : Ent :=
  { i := 0x2003, s := 2, name := "HEADER_ERROR", ty := .u64, acc := .ro, hi := 18446744073709551615, maxLen := 8,
    wr := .integrate, sel := .port }
/-- 0x2003:03 CRC_ERROR (R181). -/
def crcError : Ent :=
  { i := 0x2003, s := 3, name := "CRC_ERROR", ty := .u64, acc := .ro, hi := 18446744073709551615, maxLen := 8,
    wr := .integrate, sel := .port }
/-- 0x2003:04 LENGTH_ERROR (R181). -/
def lengthError : Ent :=
  { i := 0x2003, s := 4, name := "LENGTH_ERROR", ty := .u64, acc := .ro, hi := 18446744073709551615, maxLen := 8,
    wr := .integrate, sel := .port }
/-- 0x2003:05 LINE_MISSING (R181). -/
def lineMissing : Ent :=
  { i := 0x2003, s := 5, name := "LINE_MISSING", ty := .u64, acc := .ro, hi := 18446744073709551615, maxLen := 8,
    wr := .integrate, sel := .port }
/-- 0x2003:06 PACKET_IGNORED (R181). -/
def packetIgnored : Ent :=
  { i := 0x2003, s := 6, name := "PACKET_IGNORED", ty := .u64, acc := .ro, hi := 18446744073709551615, maxLen := 8,
    wr := .integrate, sel := .port }
/-- 0x2003:07 FS_MISSING (R181). -/
def fsMissing : Ent :=
  { i := 0x2003, s := 7, name := "FS_MISSING", ty := .u64, acc := .ro, hi := 18446744073709551615, maxLen := 8,
    wr := .integrate, sel := .port }
/-- 0x2003:08 FE_MISSING (R181). -/
def feMissing : Ent :=
  { i := 0x2003, s := 8, name := "FE_MISSING", ty := .u64, acc := .ro, hi := 18446744073709551615, maxLen := 8,
    wr := .integrate, sel := .port }
/-- 0x2003:09 FRAME_SKIP (R181). -/
def frameSkip : Ent :=
  { i := 0x2003, s := 9, name := "FRAME_SKIP", ty := .u64, acc := .ro, hi := 18446744073709551615, maxLen := 8,
    wr := .integrate, sel := .port }
/-- 0x2003:0A LINE_FAST (R181). -/
def lineFast : Ent :=
  { i := 0x2003, s := 10, name := "LINE_FAST", ty := .u64, acc := .ro, hi := 18446744073709551615, maxLen := 8,
    wr := .integrate, sel := .port }
/-- 0x2003:0B LINE_TIMEOUT (R181). -/
def lineTimeout : Ent :=
  { i := 0x2003, s := 11, name := "LINE_TIMEOUT", ty := .u64, acc := .ro, hi := 18446744073709551615, maxLen := 8,
    wr := .integrate, sel := .port }
/-- 0x2003:0C OVERFLOW_FRAMES (R181). -/
def overflowFrames : Ent :=
  { i := 0x2003, s := 12, name := "OVERFLOW_FRAMES", ty := .u64, acc := .ro, hi := 18446744073709551615,
    maxLen := 8, wr := .integrate, sel := .port }
/-- 0x2003:0D LINES_DROPPED (R181). -/
def linesDropped : Ent :=
  { i := 0x2003, s := 13, name := "LINES_DROPPED", ty := .u64, acc := .ro, hi := 18446744073709551615, maxLen := 8,
    wr := .integrate, sel := .port }
/-- 0x2100:01 CHANNELS (R181). -/
def channels : Ent :=
  { i := 0x2100, s := 1, name := "CHANNELS", ty := .u8, acc := .rws, pers := .saved, det := true, dflt := 1,
    lo := 1, hi := 4, maxLen := 1, wr := .integrate, sel := .port }
/-- 0x2100:02 PATTERN (R181). -/
def pattern : Ent :=
  { i := 0x2100, s := 2, name := "PATTERN", ty := .u16, acc := .rws, pers := .saved, det := true, hi := 65535,
    maxLen := 2, wr := .integrate, sel := .port }
/-- 0x2100:03 OUT_LINES (R181). -/
def outLines : Ent :=
  { i := 0x2100, s := 3, name := "OUT_LINES", ty := .u8, acc := .rws, pers := .saved, det := true, dflt := 1,
    lo := 1, hi := 8, oneOf := [1, 2, 4, 8], maxLen := 1, wr := .integrate, sel := .port }
/-- 0x2101:01 BLACK_LEVEL (R181). -/
def blackLevel : Ent :=
  { i := 0x2101, s := 1, n := 4, name := "BLACK_LEVEL", ty := .u16, acc := .rws, pers := .saved, det := true,
    hi := 65535, maxLen := 2, wr := .integrate, sel := .port }
/-- 0x2102:01 ALIGN_LINES (R181). -/
def alignLines : Ent :=
  { i := 0x2102, s := 1, n := 4, name := "ALIGN_LINES", ty := .u8, acc := .rws, pers := .saved, det := true,
    hi := 15, maxLen := 1, wr := .integrate, sel := .port }
/-- 0x2103:01 ALIGN_COLUMNS (R181). -/
def alignColumns : Ent :=
  { i := 0x2103, s := 1, n := 4, name := "ALIGN_COLUMNS", ty := .i8, acc := .rws, pers := .saved, det := true,
    lo := -8, hi := 8, maxLen := 1, wr := .integrate, sel := .port }
/-- 0x2104:00 DEFECT_TABLE (R181). -/
def defectTable : Ent :=
  { i := 0x2104, s := 0, name := "DEFECT_TABLE", ty := .domain, acc := .rws, pers := .saved, det := true,
    maxLen := 6144, wr := .integrate, sel := .port }
/-- 0x2105:00 SHADING_TABLE (R181). -/
def shadingTable : Ent :=
  { i := 0x2105, s := 0, name := "SHADING_TABLE", ty := .domain, acc := .rws, pers := .saved, det := true,
    maxLen := 131072, wr := .integrate, sel := .port }
/-- 0x2106:01 WB_GAIN (R181). -/
def wbGain : Ent :=
  { i := 0x2106, s := 1, n := 4, name := "WB_GAIN", ty := .u16, acc := .rw, pers := .saved, det := true,
    dflt := 8192, hi := 65535, maxLen := 2, sel := .port }
/-- 0x2107:00 EXPOSURE_GAIN (R181). -/
def exposureGain : Ent :=
  { i := 0x2107, s := 0, name := "EXPOSURE_GAIN", ty := .u16, acc := .rw, pers := .saved, det := true,
    dflt := 8192, hi := 65535, maxLen := 2, sel := .port }
/-- 0x2108:00 DEV_SAT_COUNT (R181). -/
def devSatCount : Ent :=
  { i := 0x2108, s := 0, name := "DEV_SAT_COUNT", ty := .u64, acc := .ro, hi := 18446744073709551615, maxLen := 8,
    wr := .integrate, sel := .port }
/-- 0x2200:01 STATS_WINDOW (R181). -/
def statsWindow : Ent :=
  { i := 0x2200, s := 1, name := "STATS_WINDOW", ty := .u32, acc := .rws, pers := .saved, dflt := 4096, lo := 256,
    hi := 65536, maxLen := 4, wr := .integrate, sel := .port }
/-- 0x2200:02 STATS_SEQ (R181). -/
def statsSeq : Ent :=
  { i := 0x2200, s := 2, name := "STATS_SEQ", ty := .u32, acc := .ro, hi := 4294967295, maxLen := 4,
    wr := .integrate, sel := .port }
/-- 0x2200:03 HISTOGRAM (R181). -/
def histogram : Ent :=
  { i := 0x2200, s := 3, name := "HISTOGRAM", ty := .domain, acc := .ro, maxLen := 16384, wr := .integrate,
    sel := .port }
/-- 0x2200:04 ZONE_AVERAGES (R181). -/
def zoneAverages : Ent :=
  { i := 0x2200, s := 4, name := "ZONE_AVERAGES", ty := .domain, acc := .ro, maxLen := 256, wr := .integrate,
    sel := .port }
/-- 0x2210:01 EXPOSURE_LOOP (R181). -/
def exposureLoop : Ent :=
  { i := 0x2210, s := 1, name := "EXPOSURE_LOOP", ty := .bool, acc := .rw, pers := .saved, det := true, hi := 1,
    maxLen := 1, sel := .port }
/-- 0x2210:02 EXP_CHANNEL (R181). -/
def expChannel : Ent :=
  { i := 0x2210, s := 2, name := "EXP_CHANNEL", ty := .u8, acc := .rw, pers := .saved, hi := 3, maxLen := 1,
    sel := .port }
/-- 0x2210:03 EXP_ZONES (R181). -/
def expZones : Ent :=
  { i := 0x2210, s := 3, name := "EXP_ZONES", ty := .u32, acc := .rw, pers := .saved, dflt := 4294967295,
    hi := 4294967295, maxLen := 4, sel := .port }
/-- 0x2210:04 EXP_TARGET (R181). -/
def expTarget : Ent :=
  { i := 0x2210, s := 4, name := "EXP_TARGET", ty := .u16, acc := .rw, pers := .saved, dflt := 32768, hi := 65535,
    maxLen := 2, sel := .port }
/-- 0x2210:05 EXP_GAIN_MIN (R181). -/
def expGainMin : Ent :=
  { i := 0x2210, s := 5, name := "EXP_GAIN_MIN", ty := .u16, acc := .rw, pers := .saved, dflt := 4096, hi := 65535,
    maxLen := 2, wr := .integrate, sel := .port }
/-- 0x2210:06 EXP_GAIN_MAX (R181). -/
def expGainMax : Ent :=
  { i := 0x2210, s := 6, name := "EXP_GAIN_MAX", ty := .u16, acc := .rw, pers := .saved, dflt := 16384,
    hi := 65535, maxLen := 2, wr := .integrate, sel := .port }
/-- 0x2210:07 EXP_STEP_MAX (R181). -/
def expStepMax : Ent :=
  { i := 0x2210, s := 7, name := "EXP_STEP_MAX", ty := .u8, acc := .rw, pers := .saved, dflt := 5, lo := 1,
    hi := 50, maxLen := 1, wr := .integrate, sel := .port }
/-- 0x2211:01 WB_LOOP (R181). -/
def wbLoop : Ent :=
  { i := 0x2211, s := 1, name := "WB_LOOP", ty := .bool, acc := .rw, pers := .saved, det := true, hi := 1,
    maxLen := 1, sel := .port }
/-- 0x2211:02 WB_ZONES (R181). -/
def wbZones : Ent :=
  { i := 0x2211, s := 2, name := "WB_ZONES", ty := .u32, acc := .rw, pers := .saved, dflt := 4294967295,
    hi := 4294967295, maxLen := 4, sel := .port }
/-- 0x2211:03 WB_STEP_MAX (R181). -/
def wbStepMax : Ent :=
  { i := 0x2211, s := 3, name := "WB_STEP_MAX", ty := .u8, acc := .rw, pers := .saved, dflt := 5, lo := 1,
    hi := 50, maxLen := 1, wr := .integrate, sel := .port }
/-- 0x2212:01 WB_RATIO (R181). -/
def wbRatio : Ent :=
  { i := 0x2212, s := 1, n := 4, name := "WB_RATIO", ty := .u16, acc := .rw, pers := .saved, dflt := 8192,
    hi := 65535, maxLen := 2, sel := .port }
/-- 0x2213:01 WB_GAIN_MIN (R181). -/
def wbGainMin : Ent :=
  { i := 0x2213, s := 1, n := 4, name := "WB_GAIN_MIN", ty := .u16, acc := .rw, pers := .saved, dflt := 4096,
    hi := 65535, maxLen := 2, wr := .integrate, sel := .port }
/-- 0x2214:01 WB_GAIN_MAX (R181). -/
def wbGainMax : Ent :=
  { i := 0x2214, s := 1, n := 4, name := "WB_GAIN_MAX", ty := .u16, acc := .rw, pers := .saved, dflt := 16384,
    hi := 65535, maxLen := 2, wr := .integrate, sel := .port }
/-- 0x2215:00 LOG_DEADBAND (R181). -/
def logDeadband : Ent :=
  { i := 0x2215, s := 0, name := "LOG_DEADBAND", ty := .u8, acc := .rw, pers := .saved, dflt := 2, lo := 1,
    hi := 50, maxLen := 1, sel := .port }

/-- The entries of R181, in the order of its table. -/
def list07 : List Ent :=
  [portSelect, portEnable, phyMode, lanes, laneRate, headKind, lineWidth, frameLines] ++
  [linePeriodMin, linePeriodMax, encoderChannel, lineLatency, maxPixelRate, vcMap, eccCorrected, headerError] ++
  [crcError, lengthError, lineMissing, packetIgnored, fsMissing, feMissing, frameSkip, lineFast] ++
  [lineTimeout, overflowFrames, linesDropped, channels, pattern, outLines, blackLevel, alignLines] ++
  [alignColumns, defectTable, shadingTable, wbGain, exposureGain, devSatCount, statsWindow, statsSeq] ++
  [histogram, zoneAverages, exposureLoop, expChannel, expZones, expTarget, expGainMin, expGainMax] ++
  [expStepMax, wbLoop, wbZones, wbStepMax, wbRatio, wbGainMin, wbGainMax, logDeadband]

/-! ### R199 -/

/-- 0x2100:04 S2D_FACTOR (R199). -/
def s2dFactor : Ent :=
  { i := 0x2100, s := 4, name := "S2D_FACTOR", ty := .u8, acc := .rws, pers := .saved, det := true, hi := 8,
    oneOf := [0, 2, 4, 8], maxLen := 1, wr := .integrate, sel := .port }
/-- 0x2100:05 S2D_FORMAT (R199). -/
def s2dFormat : Ent :=
  { i := 0x2100, s := 5, name := "S2D_FORMAT", ty := .u8, acc := .rws, pers := .saved, det := true, dflt := 3,
    lo := 3, hi := 10, oneOf := [3, 4, 5, 10], maxLen := 1, wr := .integrate, sel := .port }
/-- 0x2100:06 S2D_SHIFT (R199). -/
def s2dShift : Ent :=
  { i := 0x2100, s := 6, name := "S2D_SHIFT", ty := .u8, acc := .rws, pers := .saved, det := true, hi := 15,
    maxLen := 1, wr := .integrate, sel := .port }
/-- 0x4103:01 FE_BUSY_CYCLES (R199). -/
def feBusyCycles : Ent :=
  { i := 0x4103, s := 1, name := "FE_BUSY_CYCLES", ty := .u64, acc := .ro, hi := 18446744073709551615, maxLen := 8,
    wr := .integrate, sel := .station }
/-- 0x4103:02 FE_FORMAT_MISMATCH_COUNT (R199). -/
def feFormatMismatchCount : Ent :=
  { i := 0x4103, s := 2, name := "FE_FORMAT_MISMATCH_COUNT", ty := .u64, acc := .ro, hi := 18446744073709551615,
    maxLen := 8, wr := .integrate, sel := .station }

/-- The entries of R199, in the order of its table. -/
def list08 : List Ent :=
  [s2dFactor, s2dFormat, s2dShift, feBusyCycles, feFormatMismatchCount]

/-! ### R220 -/

/-- 0x3000:01 ACCEPT_THRESHOLD (R220). -/
def acceptThreshold : Ent :=
  { i := 0x3000, s := 1, name := "ACCEPT_THRESHOLD", ty := .u16, acc := .rw, pers := .saved, det := true,
    dflt := 45875, hi := 65535, maxLen := 2 }
/-- 0x3000:02 REJECT_THRESHOLD (R220). -/
def rejectThreshold : Ent :=
  { i := 0x3000, s := 2, name := "REJECT_THRESHOLD", ty := .u16, acc := .rw, pers := .saved, det := true,
    dflt := 26214, hi := 65535, maxLen := 2 }
/-- 0x3001:01 ACC_THR_MIN (R220). -/
def accThrMin : Ent :=
  { i := 0x3001, s := 1, name := "ACC_THR_MIN", ty := .u16, acc := .rw, pers := .saved, dflt := 32768, hi := 65535,
    maxLen := 2, wr := .integrate }
/-- 0x3001:02 ACC_THR_MAX (R220). -/
def accThrMax : Ent :=
  { i := 0x3001, s := 2, name := "ACC_THR_MAX", ty := .u16, acc := .rw, pers := .saved, dflt := 65535, hi := 65535,
    maxLen := 2, wr := .integrate }
/-- 0x3001:03 REJ_THR_MIN (R220). -/
def rejThrMin : Ent :=
  { i := 0x3001, s := 3, name := "REJ_THR_MIN", ty := .u16, acc := .rw, pers := .saved, hi := 65535, maxLen := 2,
    wr := .integrate }
/-- 0x3001:04 REJ_THR_MAX (R220). -/
def rejThrMax : Ent :=
  { i := 0x3001, s := 4, name := "REJ_THR_MAX", ty := .u16, acc := .rw, pers := .saved, dflt := 32767, hi := 65535,
    maxLen := 2, wr := .integrate }
/-- 0x3002:00 CLASS_POLICY (R220). -/
def classPolicy : Ent :=
  { i := 0x3002, s := 0, name := "CLASS_POLICY", ty := .u16, acc := .rws, pers := .saved, det := true, hi := 65535,
    maxLen := 2, wr := .integrate }
/-- 0x3003:00 DEC_CLASSES (R220). -/
def decClasses : Ent :=
  { i := 0x3003, s := 0, name := "DEC_CLASSES", ty := .u8, acc := .rws, pers := .saved, det := true, dflt := 2,
    lo := 1, hi := 16, maxLen := 1, wr := .integrate }
/-- 0x3004:01 DEFAULT_ACTION (R220). -/
def defaultAction : Ent :=
  { i := 0x3004, s := 1, name := "DEFAULT_ACTION", ty := .u8, acc := .rws, pers := .saved, det := true, hi := 1,
    maxLen := 1, wr := .integrate }
/-- 0x3004:02 INCOMPLETE_ACTION (R220). -/
def incompleteAction : Ent :=
  { i := 0x3004, s := 2, name := "INCOMPLETE_ACTION", ty := .u8, acc := .rws, pers := .saved, det := true, hi := 1,
    maxLen := 1, wr := .integrate }
/-- 0x3005:01 MERGE_COL_GAP (R220). -/
def mergeColGap : Ent :=
  { i := 0x3005, s := 1, name := "MERGE_COL_GAP", ty := .u8, acc := .rws, pers := .saved, det := true, hi := 64,
    maxLen := 1, wr := .integrate }
/-- 0x3005:02 MERGE_HOLD_CNT (R220). -/
def mergeHoldCnt : Ent :=
  { i := 0x3005, s := 2, name := "MERGE_HOLD_CNT", ty := .u32, acc := .rws, pers := .saved, det := true,
    hi := 4294967295, maxLen := 4, wr := .integrate }
/-- 0x3006:01 LEAD_MARGIN (R220). -/
def leadMargin : Ent :=
  { i := 0x3006, s := 1, name := "LEAD_MARGIN", ty := .u32, acc := .rws, pers := .saved, hi := 4294967295,
    maxLen := 4, wr := .integrate }
/-- 0x3006:02 TRAIL_MARGIN (R220). -/
def trailMargin : Ent :=
  { i := 0x3006, s := 2, name := "TRAIL_MARGIN", ty := .u32, acc := .rws, pers := .saved, hi := 4294967295,
    maxLen := 4, wr := .integrate }
/-- 0x3006:03 LATERAL_MARGIN (R220). -/
def lateralMargin : Ent :=
  { i := 0x3006, s := 3, name := "LATERAL_MARGIN", ty := .u32, acc := .rws, pers := .saved, hi := 4294967295,
    maxLen := 4, wr := .integrate }
/-- 0x3007:01 VALVE_X0 (R220). -/
def valveX0 : Ent :=
  { i := 0x3007, s := 1, name := "VALVE_X0", ty := .i32, acc := .rws, pers := .saved, lo := -2147483648,
    hi := 2147483647, maxLen := 4, wr := .integrate }
/-- 0x3007:02 VALVE_PITCH (R220). -/
def valvePitch : Ent :=
  { i := 0x3007, s := 2, name := "VALVE_PITCH", ty := .u32, acc := .rws, pers := .saved, dflt := 1000000,
    hi := 4294967295, maxLen := 4, wr := .integrate }
/-- 0x3007:03 VALVE_COUNT (R220). -/
def valveCount : Ent :=
  { i := 0x3007, s := 3, name := "VALVE_COUNT", ty := .u16, acc := .rws, pers := .saved, dflt := 256, lo := 1,
    hi := 4096, maxLen := 2, wr := .integrate }
/-- 0x3010:01 CAM_X0 (R220). -/
def camX0 : Ent :=
  { i := 0x3010, s := 1, name := "CAM_X0", ty := .i32, acc := .rws, pers := .saved, lo := -2147483648,
    hi := 2147483647, maxLen := 4, wr := .integrate, sel := .port }
/-- 0x3010:02 PIXEL_PITCH (R220). -/
def pixelPitch : Ent :=
  { i := 0x3010, s := 2, name := "PIXEL_PITCH", ty := .u32, acc := .rws, pers := .saved, dflt := 100000000,
    hi := 4294967295, maxLen := 4, wr := .integrate, sel := .port }
/-- 0x3010:03 FLIGHT_CNT (R220). -/
def flightCnt : Ent :=
  { i := 0x3010, s := 3, name := "FLIGHT_CNT", ty := .u32, acc := .rws, pers := .saved, hi := 4294967295,
    maxLen := 4, wr := .integrate, sel := .port }
/-- 0x3010:04 CROP_RING_BASE (R220). -/
def cropRingBase : Ent :=
  { i := 0x3010, s := 4, name := "CROP_RING_BASE", ty := .u64, acc := .rws, pers := .saved,
    hi := 18446744073709551615, maxLen := 8, wr := .integrate, sel := .port }
/-- 0x3010:05 CROP_RING_LINES (R220). -/
def cropRingLines : Ent :=
  { i := 0x3010, s := 5, name := "CROP_RING_LINES", ty := .u32, acc := .rws, pers := .saved, hi := 65536,
    maxLen := 4, wr := .integrate, sel := .port }
/-- 0x3020:01 SAMPLE_ENABLE (R220). -/
def sampleEnable : Ent :=
  { i := 0x3020, s := 1, name := "SAMPLE_ENABLE", ty := .bool, acc := .rw, pers := .saved, hi := 1, maxLen := 1 }
/-- 0x3020:02 SAMPLE_MAX_RATE (R220). -/
def sampleMaxRate : Ent :=
  { i := 0x3020, s := 2, name := "SAMPLE_MAX_RATE", ty := .u16, acc := .rw, pers := .saved, dflt := 10, lo := 1,
    hi := 10000, maxLen := 2 }
/-- 0x3020:03 ADAPT_QUEUE (R220). -/
def adaptQueue : Ent :=
  { i := 0x3020, s := 3, name := "ADAPT_QUEUE", ty := .u16, acc := .rws, pers := .saved, hi := 4095, maxLen := 2,
    wr := .integrate }
/-- 0x3020:04 CROP_AREA_BASE (R220). -/
def cropAreaBase : Ent :=
  { i := 0x3020, s := 4, name := "CROP_AREA_BASE", ty := .u64, acc := .rws, pers := .saved, dflt := 6979321856,
    hi := 18446744073709551615, maxLen := 8, wr := .integrate }
/-- 0x3020:05 CROP_SLOTS (R220). -/
def cropSlots : Ent :=
  { i := 0x3020, s := 5, name := "CROP_SLOTS", ty := .u16, acc := .rws, pers := .saved, dflt := 64, lo := 1,
    hi := 4096, maxLen := 2, wr := .integrate }
/-- 0x3020:06 CROP_SLOT_BYTES (R220). -/
def cropSlotBytes : Ent :=
  { i := 0x3020, s := 6, name := "CROP_SLOT_BYTES", ty := .u32, acc := .rws, pers := .saved, dflt := 16777216,
    hi := 4294967295, step := 4096, maxLen := 4, wr := .integrate }
/-- 0x3020:07 CROP_MARGIN (R220). -/
def cropMargin : Ent :=
  { i := 0x3020, s := 7, name := "CROP_MARGIN", ty := .u16, acc := .rw, pers := .saved, dflt := 32, hi := 1024,
    maxLen := 2 }
/-- 0x3030:01 VERDICT_COUNT (R220). -/
def verdictCount : Ent :=
  { i := 0x3030, s := 1, n := 5, name := "VERDICT_COUNT", ty := .u64, acc := .ro, hi := 18446744073709551615,
    maxLen := 8, wr := .integrate }
/-- 0x3030:06 STRIPE_JOINS (R220). -/
def stripeJoins : Ent :=
  { i := 0x3030, s := 6, name := "STRIPE_JOINS", ty := .u64, acc := .ro, hi := 18446744073709551615, maxLen := 8,
    wr := .integrate }
/-- 0x3030:07 DET_MALFORMED_COUNT (R220). -/
def detMalformedCount : Ent :=
  { i := 0x3030, s := 7, name := "DET_MALFORMED_COUNT", ty := .u64, acc := .ro, hi := 18446744073709551615,
    maxLen := 8, wr := .integrate }
/-- 0x3030:08 SAMPLED_COUNT (R220). -/
def sampledCount : Ent :=
  { i := 0x3030, s := 8, name := "SAMPLED_COUNT", ty := .u64, acc := .ro, hi := 18446744073709551615, maxLen := 8,
    wr := .integrate }
/-- 0x3030:09 SAMPLE_SKIPPED (R220). -/
def sampleSkipped : Ent :=
  { i := 0x3030, s := 9, name := "SAMPLE_SKIPPED", ty := .u64, acc := .ro, hi := 18446744073709551615, maxLen := 8,
    wr := .integrate }
/-- 0x3100:01 TRACKS_LIVE (R220). -/
def tracksLive : Ent :=
  { i := 0x3100, s := 1, name := "TRACKS_LIVE", ty := .u32, acc := .ro, hi := 4294967295, maxLen := 4,
    wr := .integrate }
/-- 0x3100:02 TRACKS_PEAK (R220). -/
def tracksPeak : Ent :=
  { i := 0x3100, s := 2, name := "TRACKS_PEAK", ty := .u32, acc := .ro, hi := 4294967295, maxLen := 4,
    wr := .integrate }
/-- 0x3100:03 MERGE_COUNT (R220). -/
def mergeCount : Ent :=
  { i := 0x3100, s := 3, name := "MERGE_COUNT", ty := .u64, acc := .ro, hi := 18446744073709551615, maxLen := 8,
    wr := .integrate }
/-- 0x3100:04 TRACK_RECLAIMED (R220). -/
def trackReclaimed : Ent :=
  { i := 0x3100, s := 4, name := "TRACK_RECLAIMED", ty := .u64, acc := .ro, hi := 18446744073709551615,
    maxLen := 8, wr := .integrate }
/-- 0x3100:05 TRACK_DROPPED (R220). -/
def trackDropped : Ent :=
  { i := 0x3100, s := 5, name := "TRACK_DROPPED", ty := .u64, acc := .ro, hi := 18446744073709551615, maxLen := 8,
    wr := .integrate }
/-- 0x3100:06 TRACK_EXPIRED_COUNT (R220). -/
def trackExpiredCount : Ent :=
  { i := 0x3100, s := 6, name := "TRACK_EXPIRED_COUNT", ty := .u64, acc := .ro, hi := 18446744073709551615,
    maxLen := 8, wr := .integrate }
/-- 0x3101:01 MERGE_X_GAP (R220). -/
def mergeXGap : Ent :=
  { i := 0x3101, s := 1, name := "MERGE_X_GAP", ty := .u32, acc := .rws, pers := .saved, det := true,
    hi := 4294967295, maxLen := 4, wr := .integrate }
/-- 0x3101:02 MERGE_POS_GAP (R220). -/
def mergePosGap : Ent :=
  { i := 0x3101, s := 2, name := "MERGE_POS_GAP", ty := .u32, acc := .rws, pers := .saved, det := true,
    hi := 4294967295, maxLen := 4, wr := .integrate }
/-- 0x3101:03 TRACK_MAX_AGE (R220). -/
def trackMaxAge : Ent :=
  { i := 0x3101, s := 3, name := "TRACK_MAX_AGE", ty := .u32, acc := .rws, pers := .saved, dflt := 10000, lo := 10,
    hi := 600000, maxLen := 4, wr := .integrate }
/-- 0x3102:01 TRACK_SELECT (R220). -/
def trackSelect : Ent :=
  { i := 0x3102, s := 1, name := "TRACK_SELECT", ty := .u16, acc := .rw, hi := 65535, maxLen := 2, wr := .view }
/-- 0x3102:02 TRACK_CONTEXT (R220). -/
def trackContext : Ent :=
  { i := 0x3102, s := 2, name := "TRACK_CONTEXT", ty := .octets, acc := .ro, dfltB := List.replicate 64 0,
    maxLen := 64, wr := .integrate, sel := .track }

/-- The entries of R220, in the order of its table. -/
def list09 : List Ent :=
  [acceptThreshold, rejectThreshold, accThrMin, accThrMax, rejThrMin, rejThrMax, classPolicy, decClasses] ++
  [defaultAction, incompleteAction, mergeColGap, mergeHoldCnt, leadMargin, trailMargin, lateralMargin, valveX0] ++
  [valvePitch, valveCount, camX0, pixelPitch, flightCnt, cropRingBase, cropRingLines, sampleEnable] ++
  [sampleMaxRate, adaptQueue, cropAreaBase, cropSlots, cropSlotBytes, cropMargin, verdictCount, stripeJoins] ++
  [detMalformedCount, sampledCount, sampleSkipped, tracksLive, tracksPeak, mergeCount, trackReclaimed, trackDropped] ++
  [trackExpiredCount, mergeXGap, mergePosGap, trackMaxAge, trackSelect, trackContext]

/-! ### R243 -/

/-- 0x3200:01 EJECT_MISSED_COUNT (R243). -/
def ejectMissedCount : Ent :=
  { i := 0x3200, s := 1, name := "EJECT_MISSED_COUNT", ty := .u64, acc := .ro, hi := 18446744073709551615,
    maxLen := 8, wr := .integrate }
/-- 0x3200:02 EJECT_PARTIAL_COUNT (R243). -/
def ejectPartialCount : Ent :=
  { i := 0x3200, s := 2, name := "EJECT_PARTIAL_COUNT", ty := .u64, acc := .ro, hi := 18446744073709551615,
    maxLen := 8, wr := .integrate }
/-- 0x3200:03 EJECT_CUT_COUNT (R243). -/
def ejectCutCount : Ent :=
  { i := 0x3200, s := 3, name := "EJECT_CUT_COUNT", ty := .u64, acc := .ro, hi := 18446744073709551615,
    maxLen := 8, wr := .integrate }
/-- 0x3200:04 LATE_COMMIT_COUNT (R243). -/
def lateCommitCount : Ent :=
  { i := 0x3200, s := 4, name := "LATE_COMMIT_COUNT", ty := .u64, acc := .ro, hi := 18446744073709551615,
    maxLen := 8, wr := .integrate }
/-- 0x3200:05 CMD_MALFORMED_COUNT (R243). -/
def cmdMalformedCount : Ent :=
  { i := 0x3200, s := 5, name := "CMD_MALFORMED_COUNT", ty := .u64, acc := .ro, hi := 18446744073709551615,
    maxLen := 8, wr := .integrate }
/-- 0x3200:06 UNPREDICTED_LATCHES (R243). -/
def unpredictedLatches : Ent :=
  { i := 0x3200, s := 6, name := "UNPREDICTED_LATCHES", ty := .u64, acc := .ro, hi := 18446744073709551615,
    maxLen := 8, wr := .integrate }
/-- 0x3200:07 STALL_COUNT (R243). -/
def stallCount : Ent :=
  { i := 0x3200, s := 7, name := "STALL_COUNT", ty := .u64, acc := .ro, hi := 18446744073709551615, maxLen := 8,
    wr := .integrate }
/-- 0x3200:08 WINDOWS_LIVE (R243). -/
def windowsLive : Ent :=
  { i := 0x3200, s := 8, name := "WINDOWS_LIVE", ty := .u32, acc := .ro, hi := 4294967295, maxLen := 4,
    wr := .integrate }
/-- 0x3200:09 WINDOWS_ABANDONED (R243). -/
def windowsAbandoned : Ent :=
  { i := 0x3200, s := 9, name := "WINDOWS_ABANDONED", ty := .u64, acc := .ro, hi := 18446744073709551615,
    maxLen := 8, wr := .integrate }
/-- 0x3201:00 MISSED_LOG_MAX (R243). -/
def missedLogMax : Ent :=
  { i := 0x3201, s := 0, name := "MISSED_LOG_MAX", ty := .u16, acc := .rw, pers := .saved, dflt := 10, hi := 1000,
    maxLen := 2 }
/-- 0x3202:01 STALL_TIME (R243). -/
def stallTime : Ent :=
  { i := 0x3202, s := 1, n := 8, name := "STALL_TIME", ty := .u32, acc := .rws, pers := .saved, dflt := 5000000,
    lo := 10000, hi := 1000000000, maxLen := 4, wr := .integrate }
/-- 0x3210:01 STRING_SELECT (R243). -/
def stringSelect : Ent :=
  { i := 0x3210, s := 1, name := "STRING_SELECT", ty := .u8, acc := .rw, hi := 15, maxLen := 1, wr := .view }
/-- 0x3211:01 STRING_ENABLE (R243). -/
def stringEnable : Ent :=
  { i := 0x3211, s := 1, name := "STRING_ENABLE", ty := .bool, acc := .rws, pers := .saved, hi := 1, maxLen := 1,
    wr := .integrate, sel := .string }
/-- 0x3211:02 STRING_BITS (R243). -/
def stringBits : Ent :=
  { i := 0x3211, s := 2, name := "STRING_BITS", ty := .u16, acc := .rws, pers := .saved, dflt := 256, lo := 8,
    hi := 256, step := 8, maxLen := 2, wr := .integrate, sel := .string }
/-- 0x3211:03 SHIFT_PERIOD (R243). -/
def shiftPeriod : Ent :=
  { i := 0x3211, s := 3, name := "SHIFT_PERIOD", ty := .u8, acc := .rws, pers := .saved, dflt := 2, lo := 2,
    hi := 100, step := 2, maxLen := 1, wr := .integrate, sel := .string }
/-- 0x3211:04 LATCH_GAP (R243). -/
def latchGap : Ent :=
  { i := 0x3211, s := 4, name := "LATCH_GAP", ty := .u32, acc := .rws, pers := .saved, dflt := 8000, lo := 8000,
    hi := 1000000, maxLen := 4, wr := .integrate, sel := .string }
/-- 0x3211:05 STRING_ENCODER (R243). -/
def stringEncoder : Ent :=
  { i := 0x3211, s := 5, name := "STRING_ENCODER", ty := .u8, acc := .rws, pers := .saved, hi := 7, maxLen := 1,
    wr := .integrate, sel := .string }
/-- 0x3211:06 PULSE_MIN (R243). -/
def pulseMin : Ent :=
  { i := 0x3211, s := 6, name := "PULSE_MIN", ty := .u32, acc := .rw, pers := .saved, hi := 1000000, maxLen := 4,
    sel := .string }
/-- 0x3211:07 PULSE_MAX (R243). -/
def pulseMax : Ent :=
  { i := 0x3211, s := 7, name := "PULSE_MAX", ty := .u32, acc := .rw, pers := .saved, dflt := 100000, lo := 1000,
    hi := 10000000, maxLen := 4, sel := .string }
/-- 0x3211:08 REFRESH_PERIOD (R243). -/
def refreshPeriod : Ent :=
  { i := 0x3211, s := 8, name := "REFRESH_PERIOD", ty := .u32, acc := .rw, pers := .saved, dflt := 1000,
    hi := 1000000, maxLen := 4, sel := .string }
/-- 0x3212:00 VALVE_MASK (R243). -/
def valveMask : Ent :=
  { i := 0x3212, s := 0, name := "VALVE_MASK", ty := .octets, acc := .rw, pers := .saved,
    dfltB := List.replicate 32 0xFF, maxLen := 32, sel := .string }
/-- 0x3213:01 LATCH_COUNT (R243). -/
def latchCount : Ent :=
  { i := 0x3213, s := 1, name := "LATCH_COUNT", ty := .u64, acc := .ro, hi := 18446744073709551615, maxLen := 8,
    wr := .integrate, sel := .string }
/-- 0x3213:02 ECHO_ERROR_COUNT (R243). -/
def echoErrorCount : Ent :=
  { i := 0x3213, s := 2, name := "ECHO_ERROR_COUNT", ty := .u64, acc := .ro, hi := 18446744073709551615,
    maxLen := 8, wr := .integrate, sel := .string }
/-- 0x3213:03 DRIVER_FAULT_COUNT (R243). -/
def driverFaultCount : Ent :=
  { i := 0x3213, s := 3, name := "DRIVER_FAULT_COUNT", ty := .u64, acc := .ro, hi := 18446744073709551615,
    maxLen := 8, wr := .integrate, sel := .string }
/-- 0x3213:04 PULSE_CAPPED_COUNT (R243). -/
def pulseCappedCount : Ent :=
  { i := 0x3213, s := 4, name := "PULSE_CAPPED_COUNT", ty := .u64, acc := .ro, hi := 18446744073709551615,
    maxLen := 8, wr := .integrate, sel := .string }
/-- 0x3213:05 MASKED_BIT_COUNT (R243). -/
def maskedBitCount : Ent :=
  { i := 0x3213, s := 5, name := "MASKED_BIT_COUNT", ty := .u64, acc := .ro, hi := 18446744073709551615,
    maxLen := 8, wr := .integrate, sel := .string }
/-- 0x3213:06 LATCH_MOVED_COUNT (R243). -/
def latchMovedCount : Ent :=
  { i := 0x3213, s := 6, name := "LATCH_MOVED_COUNT", ty := .u64, acc := .ro, hi := 18446744073709551615,
    maxLen := 8, wr := .integrate, sel := .string }
/-- 0x3213:07 CURRENT_IMAGE (R243). -/
def currentImage : Ent :=
  { i := 0x3213, s := 7, name := "CURRENT_IMAGE", ty := .octets, acc := .ro, dfltB := List.replicate 32 0,
    maxLen := 32, wr := .integrate, sel := .string }

/-- The entries of R243, in the order of its table. -/
def list10 : List Ent :=
  [ejectMissedCount, ejectPartialCount, ejectCutCount, lateCommitCount, cmdMalformedCount, unpredictedLatches, stallCount, windowsLive] ++
  [windowsAbandoned, missedLogMax, stallTime, stringSelect, stringEnable, stringBits, shiftPeriod, latchGap] ++
  [stringEncoder, pulseMin, pulseMax, refreshPeriod, valveMask, latchCount, echoErrorCount, driverFaultCount] ++
  [pulseCappedCount, maskedBitCount, latchMovedCount, currentImage]

/-! ### R260 -/

/-- 0x3300:01 ENC_SELECT (R260). -/
def encSelect : Ent :=
  { i := 0x3300, s := 1, name := "ENC_SELECT", ty := .u8, acc := .rw, hi := 7, maxLen := 1, wr := .view }
/-- 0x3301:01 ENC_MODE (R260). -/
def encMode : Ent :=
  { i := 0x3301, s := 1, name := "ENC_MODE", ty := .u8, acc := .rws, pers := .saved, det := true, hi := 3,
    maxLen := 1, wr := .integrate, sel := .encoder }
/-- 0x3301:02 COUNT_MULT (R260). -/
def countMult : Ent :=
  { i := 0x3301, s := 2, name := "COUNT_MULT", ty := .u8, acc := .rws, pers := .saved, det := true, dflt := 4,
    lo := 1, hi := 4, oneOf := [1, 2, 4], maxLen := 1, wr := .integrate, sel := .encoder }
/-- 0x3301:03 DIR_INVERT (R260). -/
def dirInvert : Ent :=
  { i := 0x3301, s := 3, name := "DIR_INVERT", ty := .bool, acc := .rws, pers := .saved, det := true, hi := 1,
    maxLen := 1, wr := .integrate, sel := .encoder }
/-- 0x3301:04 EDGE_MIN (R260). -/
def edgeMin : Ent :=
  { i := 0x3301, s := 4, name := "EDGE_MIN", ty := .u16, acc := .rws, pers := .saved, dflt := 20, lo := 10,
    hi := 10000, maxLen := 2, wr := .integrate, sel := .encoder }
/-- 0x3301:05 LINE_FILTER (R260). -/
def lineFilter : Ent :=
  { i := 0x3301, s := 5, name := "LINE_FILTER", ty := .u32, acc := .rws, pers := .saved, dflt := 1000, lo := 100,
    hi := 100000, maxLen := 4, wr := .integrate, sel := .encoder }
/-- 0x3301:06 PERIOD_EDGES (R260). -/
def periodEdges : Ent :=
  { i := 0x3301, s := 6, name := "PERIOD_EDGES", ty := .u8, acc := .rws, pers := .saved, det := true, dflt := 4,
    lo := 1, hi := 64, oneOf := [1, 2, 4, 8, 16, 32, 64], maxLen := 1, wr := .integrate, sel := .encoder }
/-- 0x3301:07 EDGE_FAULT_LIMIT (R260). -/
def edgeFaultLimit : Ent :=
  { i := 0x3301, s := 7, name := "EDGE_FAULT_LIMIT", ty := .u32, acc := .rw, pers := .saved, dflt := 100, lo := 1,
    hi := 1000000, maxLen := 4, sel := .encoder }
/-- 0x3302:01 INDEX_MODE (R260). -/
def indexMode : Ent :=
  { i := 0x3302, s := 1, name := "INDEX_MODE", ty := .u8, acc := .rws, pers := .saved, hi := 2, maxLen := 1,
    wr := .integrate, sel := .encoder }
/-- 0x3302:02 INDEX_VALUE (R260). -/
def indexValue : Ent :=
  { i := 0x3302, s := 2, name := "INDEX_VALUE", ty := .i64, acc := .rws, pers := .saved, lo := -140737488355328,
    hi := 140737488355327, maxLen := 8, wr := .integrate, sel := .encoder }
/-- 0x3302:03 INDEX_ARM (R260). -/
def indexArm : Ent :=
  { i := 0x3302, s := 3, name := "INDEX_ARM", ty := .bool, acc := .rw, hi := 1, maxLen := 1, sel := .encoder }
/-- 0x3302:04 INDEX_POS (R260). -/
def indexPos : Ent :=
  { i := 0x3302, s := 4, name := "INDEX_POS", ty := .i64, acc := .ro, lo := -9223372036854775808,
    hi := 9223372036854775807, maxLen := 8, wr := .integrate, sel := .encoder }
/-- 0x3302:05 INDEX_TIME (R260). -/
def indexTime : Ent :=
  { i := 0x3302, s := 5, name := "INDEX_TIME", ty := .time80, acc := .ro, hi := 1208925819614629174706175,
    maxLen := 10, wr := .integrate, sel := .encoder }
/-- 0x3302:06 INDEX_SUPPRESSED (R260). -/
def indexSuppressed : Ent :=
  { i := 0x3302, s := 6, name := "INDEX_SUPPRESSED", ty := .u64, acc := .ro, hi := 18446744073709551615,
    maxLen := 8, wr := .integrate, sel := .encoder }
/-- 0x3303:01 POSITION (R260). -/
def position : Ent :=
  { i := 0x3303, s := 1, name := "POSITION", ty := .i64, acc := .rws, lo := -140737488355328,
    hi := 140737488355327, maxLen := 8, wr := .integrate, sel := .encoder }
/-- 0x3303:02 SPEED (R260). -/
def speed : Ent :=
  { i := 0x3303, s := 2, name := "SPEED", ty := .f32, acc := .ro, hi := 4294967295, maxLen := 4, wr := .integrate,
    sel := .encoder }
/-- 0x3303:03 PERIOD_VALID (R260). -/
def periodValid : Ent :=
  { i := 0x3303, s := 3, name := "PERIOD_VALID", ty := .bool, acc := .ro, hi := 1, maxLen := 1, wr := .integrate,
    sel := .encoder }
/-- 0x3303:04 EDGE_FAULT_COUNT (R260). -/
def edgeFaultCount : Ent :=
  { i := 0x3303, s := 4, name := "EDGE_FAULT_COUNT", ty := .u64, acc := .ro, hi := 18446744073709551615,
    maxLen := 8, wr := .integrate, sel := .encoder }
/-- 0x3303:05 QUAD_FAULT_COUNT (R260). -/
def quadFaultCount : Ent :=
  { i := 0x3303, s := 5, name := "QUAD_FAULT_COUNT", ty := .u64, acc := .ro, hi := 18446744073709551615,
    maxLen := 8, wr := .integrate, sel := .encoder }
/-- 0x3303:06 LINE_FAULT_COUNT (R260). -/
def lineFaultCount : Ent :=
  { i := 0x3303, s := 6, name := "LINE_FAULT_COUNT", ty := .u64, acc := .ro, hi := 18446744073709551615,
    maxLen := 8, wr := .integrate, sel := .encoder }
/-- 0x3303:07 LINE_STATE (R260). -/
def lineState : Ent :=
  { i := 0x3303, s := 7, name := "LINE_STATE", ty := .u8, acc := .ro, hi := 7, maxLen := 1, wr := .integrate,
    sel := .encoder }
/-- 0x3304:01 SSI_BITS (R260). -/
def ssiBits : Ent :=
  { i := 0x3304, s := 1, name := "SSI_BITS", ty := .u8, acc := .rws, pers := .saved, det := true, dflt := 24,
    lo := 8, hi := 48, maxLen := 1, wr := .integrate, sel := .encoder }
/-- 0x3304:02 SSI_CLOCK (R260). -/
def ssiClock : Ent :=
  { i := 0x3304, s := 2, name := "SSI_CLOCK", ty := .u16, acc := .rws, pers := .saved, dflt := 1000, lo := 100,
    hi := 10000, maxLen := 2, wr := .integrate, sel := .encoder }
/-- 0x3304:03 SSI_CODE (R260). -/
def ssiCode : Ent :=
  { i := 0x3304, s := 3, name := "SSI_CODE", ty := .u8, acc := .rws, pers := .saved, det := true, hi := 1,
    maxLen := 1, wr := .integrate, sel := .encoder }
/-- 0x3304:04 SSI_PARITY (R260). -/
def ssiParity : Ent :=
  { i := 0x3304, s := 4, name := "SSI_PARITY", ty := .u8, acc := .rws, pers := .saved, hi := 2, maxLen := 1,
    wr := .integrate, sel := .encoder }
/-- 0x3304:05 SSI_PERIOD (R260). -/
def ssiPeriod : Ent :=
  { i := 0x3304, s := 5, name := "SSI_PERIOD", ty := .u32, acc := .rws, pers := .saved, dflt := 100, lo := 10,
    hi := 10000, maxLen := 4, wr := .integrate, sel := .encoder }
/-- 0x3304:06 SSI_RECOVERY (R260). -/
def ssiRecovery : Ent :=
  { i := 0x3304, s := 6, name := "SSI_RECOVERY", ty := .u8, acc := .rws, pers := .saved, dflt := 20, lo := 1,
    hi := 64, maxLen := 1, wr := .integrate, sel := .encoder }
/-- 0x3304:07 SSI_MAX_STEP (R260). -/
def ssiMaxStep : Ent :=
  { i := 0x3304, s := 7, name := "SSI_MAX_STEP", ty := .u32, acc := .rws, pers := .saved, dflt := 4096, lo := 1,
    hi := 65536, maxLen := 4, wr := .integrate, sel := .encoder }
/-- 0x3304:08 SSI_FRAME_FAULT_COUNT (R260). -/
def ssiFrameFaultCount : Ent :=
  { i := 0x3304, s := 8, name := "SSI_FRAME_FAULT_COUNT", ty := .u64, acc := .ro, hi := 18446744073709551615,
    maxLen := 8, wr := .integrate, sel := .encoder }
/-- 0x3304:09 SSI_JUMP_COUNT (R260). -/
def ssiJumpCount : Ent :=
  { i := 0x3304, s := 9, name := "SSI_JUMP_COUNT", ty := .u64, acc := .ro, hi := 18446744073709551615, maxLen := 8,
    wr := .integrate, sel := .encoder }

/-- The entries of R260, in the order of its table. -/
def list11 : List Ent :=
  [encSelect, encMode, countMult, dirInvert, edgeMin, lineFilter, periodEdges, edgeFaultLimit] ++
  [indexMode, indexValue, indexArm, indexPos, indexTime, indexSuppressed, position, speed] ++
  [periodValid, edgeFaultCount, quadFaultCount, lineFaultCount, lineState, ssiBits, ssiClock, ssiCode] ++
  [ssiParity, ssiPeriod, ssiRecovery, ssiMaxStep, ssiFrameFaultCount, ssiJumpCount]

/-! ### R276 -/

/-- 0x3400:01 DI_STATE (R276). -/
def diState : Ent :=
  { i := 0x3400, s := 1, name := "DI_STATE", ty := .u32, acc := .ro, hi := 4294967295, maxLen := 4,
    wr := .integrate }
/-- 0x3400:02 DI_BREAK (R276). -/
def diBreak : Ent :=
  { i := 0x3400, s := 2, name := "DI_BREAK", ty := .u32, acc := .ro, hi := 4294967295, maxLen := 4,
    wr := .integrate }
/-- 0x3400:03 DI_TYPE (R276). -/
def diType : Ent :=
  { i := 0x3400, s := 3, name := "DI_TYPE", ty := .u8, acc := .rw, pers := .saved, hi := 15, maxLen := 1,
    wr := .integrate }
/-- 0x3400:04 DI_SUPPLY_OK (R276). -/
def diSupplyOk : Ent :=
  { i := 0x3400, s := 4, name := "DI_SUPPLY_OK", ty := .bool, acc := .ro, hi := 1, maxLen := 1, wr := .integrate }
/-- 0x3401:01 DI_SELECT (R276). -/
def diSelect : Ent :=
  { i := 0x3401, s := 1, name := "DI_SELECT", ty := .u8, acc := .rw, hi := 31, maxLen := 1, wr := .view }
/-- 0x3402:01 DEBOUNCE (R276). -/
def debounce : Ent :=
  { i := 0x3402, s := 1, name := "DEBOUNCE", ty := .u16, acc := .rw, pers := .saved, dflt := 1000, lo := 1,
    hi := 65535, maxLen := 2, sel := .input }
/-- 0x3402:02 WIRE_BREAK_EN (R276). -/
def wireBreakEn : Ent :=
  { i := 0x3402, s := 2, name := "WIRE_BREAK_EN", ty := .bool, acc := .rw, pers := .saved, hi := 1, maxLen := 1,
    wr := .integrate, sel := .input }
/-- 0x3402:03 BREAK_FILTER (R276). -/
def breakFilter : Ent :=
  { i := 0x3402, s := 3, name := "BREAK_FILTER", ty := .u16, acc := .rw, pers := .saved, dflt := 20, lo := 1,
    hi := 10000, maxLen := 2, wr := .integrate, sel := .input }
/-- 0x3402:04 BREAK_VALUE (R276). -/
def breakValue : Ent :=
  { i := 0x3402, s := 4, name := "BREAK_VALUE", ty := .u8, acc := .rw, pers := .saved, hi := 2, maxLen := 1,
    wr := .integrate, sel := .input }
/-- 0x3402:05 DI_LAST_CHANGE (R276). -/
def diLastChange : Ent :=
  { i := 0x3402, s := 5, name := "DI_LAST_CHANGE", ty := .time80, acc := .ro, hi := 1208925819614629174706175,
    maxLen := 10, wr := .integrate, sel := .input }
/-- 0x3402:06 DI_CHANGE_COUNT (R276). -/
def diChangeCount : Ent :=
  { i := 0x3402, s := 6, name := "DI_CHANGE_COUNT", ty := .u64, acc := .ro, hi := 18446744073709551615,
    maxLen := 8, wr := .integrate, sel := .input }
/-- 0x3402:07 DI_BREAK_COUNT (R276). -/
def diBreakCount : Ent :=
  { i := 0x3402, s := 7, name := "DI_BREAK_COUNT", ty := .u64, acc := .ro, hi := 18446744073709551615, maxLen := 8,
    wr := .integrate, sel := .input }
/-- 0x3402:08 DI_CURRENT (R276). -/
def diCurrent : Ent :=
  { i := 0x3402, s := 8, name := "DI_CURRENT", ty := .u16, acc := .ro, hi := 65535, maxLen := 2, wr := .integrate,
    sel := .input }
/-- 0x3500:01 DO_COMMAND (R276). -/
def doCommand : Ent := { i := 0x3500, s := 1, name := "DO_COMMAND", ty := .u16, acc := .rw, hi := 65535, maxLen := 2 }
/-- 0x3500:02 DO_STATE (R276). -/
def doState : Ent :=
  { i := 0x3500, s := 2, name := "DO_STATE", ty := .u16, acc := .ro, hi := 65535, maxLen := 2, wr := .integrate }
/-- 0x3500:03 DO_SAFE_ACTIVE (R276). -/
def doSafeActive : Ent :=
  { i := 0x3500, s := 3, name := "DO_SAFE_ACTIVE", ty := .bool, acc := .ro, hi := 1, maxLen := 1,
    wr := .integrate }
/-- 0x3500:04 SAFE_STATE_RELEASE (R276). -/
def safeStateRelease : Ent :=
  { i := 0x3500, s := 4, name := "SAFE_STATE_RELEASE", ty := .bool, acc := .wo, hi := 1, maxLen := 1 }
/-- 0x3500:05 WATCHDOG_TIME (R276). -/
def watchdogTime : Ent :=
  { i := 0x3500, s := 5, name := "WATCHDOG_TIME", ty := .u32, acc := .rw, pers := .saved, dflt := 100, lo := 1,
    hi := 10000, maxLen := 4, wr := .integrate }
/-- 0x3500:06 WATCHDOG_EXPIRY_COUNT (R276). -/
def watchdogExpiryCount : Ent :=
  { i := 0x3500, s := 6, name := "WATCHDOG_EXPIRY_COUNT", ty := .u64, acc := .ro, hi := 18446744073709551615,
    maxLen := 8, wr := .integrate }
/-- 0x3501:01 DO_SELECT (R276). -/
def doSelect : Ent :=
  { i := 0x3501, s := 1, name := "DO_SELECT", ty := .u8, acc := .rw, hi := 15, maxLen := 1, wr := .view }
/-- 0x3502:01 DO_SAFE_STATE (R276). -/
def doSafeState : Ent :=
  { i := 0x3502, s := 1, name := "DO_SAFE_STATE", ty := .u8, acc := .rw, pers := .saved, hi := 2, maxLen := 1,
    wr := .integrate, sel := .output }
/-- 0x3502:02 DO_SOURCE (R276). -/
def doSource : Ent :=
  { i := 0x3502, s := 2, name := "DO_SOURCE", ty := .u8, acc := .rw, pers := .saved, hi := 2, maxLen := 1,
    wr := .integrate, sel := .output }
/-- 0x3502:03 DO_RESTART (R276). -/
def doRestart : Ent :=
  { i := 0x3502, s := 3, name := "DO_RESTART", ty := .u8, acc := .rw, pers := .saved, hi := 1, maxLen := 1,
    wr := .integrate, sel := .output }
/-- 0x3502:04 DO_FAULT (R276). -/
def doFault : Ent :=
  { i := 0x3502, s := 4, name := "DO_FAULT", ty := .u8, acc := .ro, hi := 7, maxLen := 1, wr := .integrate,
    sel := .output }
/-- 0x3502:05 DO_FAULT_ACK (R276). -/
def doFaultAck : Ent :=
  { i := 0x3502, s := 5, name := "DO_FAULT_ACK", ty := .bool, acc := .wo, hi := 1, maxLen := 1, sel := .output }
/-- 0x3502:06 DO_OVERCURRENT_COUNT (R276). -/
def doOvercurrentCount : Ent :=
  { i := 0x3502, s := 6, name := "DO_OVERCURRENT_COUNT", ty := .u64, acc := .ro, hi := 18446744073709551615,
    maxLen := 8, wr := .integrate, sel := .output }
/-- 0x3502:07 DO_OPEN_LOAD_COUNT (R276). -/
def doOpenLoadCount : Ent :=
  { i := 0x3502, s := 7, name := "DO_OPEN_LOAD_COUNT", ty := .u64, acc := .ro, hi := 18446744073709551615,
    maxLen := 8, wr := .integrate, sel := .output }
/-- 0x3502:08 DO_MISMATCH_COUNT (R276). -/
def doMismatchCount : Ent :=
  { i := 0x3502, s := 8, name := "DO_MISMATCH_COUNT", ty := .u64, acc := .ro, hi := 18446744073709551615,
    maxLen := 8, wr := .integrate, sel := .output }

/-- The entries of R276, in the order of its table. -/
def list12 : List Ent :=
  [diState, diBreak, diType, diSupplyOk, diSelect, debounce, wireBreakEn, breakFilter] ++
  [breakValue, diLastChange, diChangeCount, diBreakCount, diCurrent, doCommand, doState, doSafeActive] ++
  [safeStateRelease, watchdogTime, watchdogExpiryCount, doSelect, doSafeState, doSource, doRestart, doFault] ++
  [doFaultAck, doOvercurrentCount, doOpenLoadCount, doMismatchCount]

end Sys2Proof.Machine.Dict
end

