-- ==== Sys2Proof/Machine/DictB.lean ====
section
/-! DEFINITION. The entries of the object dictionary, chapters 13 to 26 (the tables the rules named below give). -/

namespace Sys2Proof.Machine.Dict

/-! ### R296 -/

/-- 0x4400:01 VSTREAM_SELECT (R296). -/
def vstreamSelect : Ent :=
  { i := 0x4400, s := 1, name := "VSTREAM_SELECT", ty := .u8, acc := .rw, hi := 63, maxLen := 1, wr := .view }
/-- 0x4400:02 REORDER_TIME (R296). -/
def reorderTime : Ent :=
  { i := 0x4400, s := 2, name := "REORDER_TIME", ty := .u16, acc := .rw, pers := .saved, dflt := 20, hi := 200,
    maxLen := 2 }
/-- 0x4400:03 DAMAGE_QUEUE (R296). -/
def damageQueue : Ent :=
  { i := 0x4400, s := 3, name := "DAMAGE_QUEUE", ty := .u16, acc := .rw, pers := .saved, hi := 4095, maxLen := 2 }
/-- 0x4400:04 UNMATCHED_PACKETS (R296). -/
def unmatchedPackets : Ent :=
  { i := 0x4400, s := 4, name := "UNMATCHED_PACKETS", ty := .u64, acc := .ro, hi := 18446744073709551615,
    maxLen := 8, wr := .integrate }
/-- 0x4401:01 VSTREAM_ENABLE (R296). -/
def vstreamEnable : Ent :=
  { i := 0x4401, s := 1, name := "VSTREAM_ENABLE", ty := .bool, acc := .rw, pers := .saved, hi := 1, maxLen := 1,
    sel := .vstream }
/-- 0x4401:02 CODEC (R296). -/
def codec : Ent :=
  { i := 0x4401, s := 2, name := "CODEC", ty := .u8, acc := .rw, pers := .saved, hi := 2, maxLen := 1,
    sel := .vstream }
/-- 0x4401:03 UDP_PORT (R296). -/
def udpPort : Ent :=
  { i := 0x4401, s := 3, name := "UDP_PORT", ty := .u16, acc := .rw, pers := .saved, dflt := 5004, lo := 1024,
    hi := 65535, maxLen := 2, sel := .vstream }
/-- 0x4401:04 PAYLOAD_TYPE (R296). -/
def payloadType : Ent :=
  { i := 0x4401, s := 4, name := "PAYLOAD_TYPE", ty := .u8, acc := .rw, pers := .saved, dflt := 96, lo := 96,
    hi := 127, maxLen := 1, sel := .vstream }
/-- 0x4401:05 SOURCE_IP (R296). -/
def sourceIp : Ent :=
  { i := 0x4401, s := 5, name := "SOURCE_IP", ty := .u32, acc := .rw, pers := .saved, hi := 4294967295,
    maxLen := 4, sel := .vstream }
/-- 0x4401:06 MAX_WIDTH (R296). -/
def maxWidth : Ent :=
  { i := 0x4401, s := 6, name := "MAX_WIDTH", ty := .u16, acc := .rw, pers := .saved, dflt := 1920, lo := 16,
    hi := 4096, maxLen := 2, sel := .vstream }
/-- 0x4401:07 MAX_HEIGHT (R296). -/
def maxHeight : Ent :=
  { i := 0x4401, s := 7, name := "MAX_HEIGHT", ty := .u16, acc := .rw, pers := .saved, dflt := 1080, lo := 16,
    hi := 2304, maxLen := 2, sel := .vstream }
/-- 0x4401:08 MAX_FPS (R296). -/
def maxFps : Ent :=
  { i := 0x4401, s := 8, name := "MAX_FPS", ty := .u8, acc := .rw, pers := .saved, dflt := 30, lo := 1, hi := 60,
    maxLen := 1, sel := .vstream }
/-- 0x4401:09 VD_CORE (R296). -/
def vdCore : Ent :=
  { i := 0x4401, s := 9, name := "VD_CORE", ty := .u8, acc := .rw, pers := .saved, hi := 7, maxLen := 1,
    sel := .vstream }
/-- 0x4401:0A COLOUR (R296). -/
def colour : Ent :=
  { i := 0x4401, s := 10, name := "COLOUR", ty := .u8, acc := .rw, pers := .saved, det := true, dflt := 1, hi := 7,
    maxLen := 1, sel := .vstream }
/-- 0x4401:0B BUDGET_MULT (R296). -/
def budgetMult : Ent :=
  { i := 0x4401, s := 11, name := "BUDGET_MULT", ty := .u8, acc := .rw, pers := .saved, dflt := 8, lo := 2,
    hi := 64, maxLen := 1, sel := .vstream }
/-- 0x4401:0C BUDGET_CEIL (R296). -/
def budgetCeil : Ent :=
  { i := 0x4401, s := 12, name := "BUDGET_CEIL", ty := .u32, acc := .rw, pers := .saved, dflt := 40000, lo := 1000,
    hi := 1000000, maxLen := 4, sel := .vstream }
/-- 0x4401:0D CONCEAL_MAX_AREA (R296). -/
def concealMaxArea : Ent :=
  { i := 0x4401, s := 13, name := "CONCEAL_MAX_AREA", ty := .u8, acc := .rw, pers := .saved, dflt := 50, lo := 1,
    hi := 100, maxLen := 1, sel := .vstream }
/-- 0x4401:0E CONCEAL_MAX_AGE (R296). -/
def concealMaxAge : Ent :=
  { i := 0x4401, s := 14, name := "CONCEAL_MAX_AGE", ty := .u32, acc := .rw, pers := .saved, dflt := 500,
    hi := 10000, maxLen := 4, sel := .vstream }
/-- 0x4401:0F STREAM_TIMEOUT (R296). -/
def streamTimeout : Ent :=
  { i := 0x4401, s := 15, name := "STREAM_TIMEOUT", ty := .u32, acc := .rw, pers := .saved, dflt := 2000,
    lo := 100, hi := 60000, maxLen := 4, sel := .vstream }
/-- 0x4401:10 STREAM_STATE (R296). -/
def streamState : Ent :=
  { i := 0x4401, s := 16, name := "STREAM_STATE", ty := .u8, acc := .ro, hi := 4, maxLen := 1, wr := .integrate,
    sel := .vstream }
/-- 0x4401:11 AVG_DECODE (R296). -/
def avgDecode : Ent :=
  { i := 0x4401, s := 17, name := "AVG_DECODE", ty := .u32, acc := .ro, hi := 4294967295, maxLen := 4,
    wr := .integrate, sel := .vstream }
/-- 0x4402:01 PICTURES_DECODED (R296). -/
def picturesDecoded : Ent :=
  { i := 0x4402, s := 1, name := "PICTURES_DECODED", ty := .u64, acc := .ro, hi := 18446744073709551615,
    maxLen := 8, wr := .integrate, sel := .vstream }
/-- 0x4402:02 PICTURES_CONCEALED (R296). -/
def picturesConcealed : Ent :=
  { i := 0x4402, s := 2, name := "PICTURES_CONCEALED", ty := .u64, acc := .ro, hi := 18446744073709551615,
    maxLen := 8, wr := .integrate, sel := .vstream }
/-- 0x4402:03 PICTURES_MUCKED (R296). -/
def picturesMucked : Ent :=
  { i := 0x4402, s := 3, name := "PICTURES_MUCKED", ty := .u64, acc := .ro, hi := 18446744073709551615,
    maxLen := 8, wr := .integrate, sel := .vstream }
/-- 0x4402:04 BUDGET_OVERRUNS (R296). -/
def budgetOverruns : Ent :=
  { i := 0x4402, s := 4, name := "BUDGET_OVERRUNS", ty := .u64, acc := .ro, hi := 18446744073709551615,
    maxLen := 8, wr := .integrate, sel := .vstream }
/-- 0x4402:05 PACKETS_LOST (R296). -/
def packetsLost : Ent :=
  { i := 0x4402, s := 5, name := "PACKETS_LOST", ty := .u64, acc := .ro, hi := 18446744073709551615, maxLen := 8,
    wr := .integrate, sel := .vstream }
/-- 0x4402:06 PACKETS_LATE (R296). -/
def packetsLate : Ent :=
  { i := 0x4402, s := 6, name := "PACKETS_LATE", ty := .u64, acc := .ro, hi := 18446744073709551615, maxLen := 8,
    wr := .integrate, sel := .vstream }
/-- 0x4402:07 UNSUPPORTED_COUNT (R296). -/
def unsupportedCount : Ent :=
  { i := 0x4402, s := 7, name := "UNSUPPORTED_COUNT", ty := .u64, acc := .ro, hi := 18446744073709551615,
    maxLen := 8, wr := .integrate, sel := .vstream }
/-- 0x4402:08 DAMAGE_RECORDS_DROPPED (R296). -/
def damageRecordsDropped : Ent :=
  { i := 0x4402, s := 8, name := "DAMAGE_RECORDS_DROPPED", ty := .u64, acc := .ro, hi := 18446744073709551615,
    maxLen := 8, wr := .integrate, sel := .vstream }
/-- 0x4410:01 TEMPLATE_SELECT (R296). -/
def templateSelect : Ent :=
  { i := 0x4410, s := 1, name := "TEMPLATE_SELECT", ty := .u8, acc := .rw, hi := 7, maxLen := 1, wr := .view }
/-- 0x4411:01 TEMPLATE_ENABLE (R296). -/
def templateEnable : Ent :=
  { i := 0x4411, s := 1, name := "TEMPLATE_ENABLE", ty := .bool, acc := .rw, pers := .saved, hi := 1, maxLen := 1,
    sel := .template }
/-- 0x4411:02 SLOTS (R296). -/
def slots : Ent :=
  { i := 0x4411, s := 2, name := "SLOTS", ty := .u8, acc := .rw, pers := .saved, dflt := 1, lo := 1, hi := 64,
    maxLen := 1, sel := .template }
/-- 0x4411:03 SLOT_STREAMS (R296). -/
def slotStreams : Ent :=
  { i := 0x4411, s := 3, name := "SLOT_STREAMS", ty := .octets, acc := .rw, pers := .saved,
    dfltB := List.replicate 64 0, maxLen := 64, sel := .template }
/-- 0x4411:04 OUT_WIDTH (R296). -/
def outWidth : Ent :=
  { i := 0x4411, s := 4, name := "OUT_WIDTH", ty := .u16, acc := .rw, pers := .saved, det := true, dflt := 224,
    lo := 16, hi := 1024, maxLen := 2, sel := .template }
/-- 0x4411:05 OUT_HEIGHT (R296). -/
def outHeight : Ent :=
  { i := 0x4411, s := 5, name := "OUT_HEIGHT", ty := .u16, acc := .rw, pers := .saved, det := true, dflt := 224,
    lo := 16, hi := 1024, maxLen := 2, sel := .template }
/-- 0x4411:06 OUT_FORMAT (R296). -/
def outFormat : Ent :=
  { i := 0x4411, s := 6, name := "OUT_FORMAT", ty := .u8, acc := .rw, pers := .saved, det := true, dflt := 3,
    lo := 3, hi := 5, oneOf := [3, 4, 5], maxLen := 1, sel := .template }
/-- 0x4411:07 BUILD_PERIOD (R296). -/
def buildPeriod : Ent :=
  { i := 0x4411, s := 7, name := "BUILD_PERIOD", ty := .u32, acc := .rw, pers := .saved, dflt := 1000, lo := 10,
    hi := 60000, maxLen := 4, sel := .template }
/-- 0x4411:08 SAMPLE_MAX_AGE (R296). -/
def sampleMaxAge : Ent :=
  { i := 0x4411, s := 8, name := "SAMPLE_MAX_AGE", ty := .u32, acc := .rw, pers := .saved, dflt := 200, lo := 1,
    hi := 60000, maxLen := 4, sel := .template }
/-- 0x4412:01 NORM (R296). -/
def normMean : Ent :=
  { i := 0x4412, s := 1, n := 3, name := "NORM", ty := .f32, acc := .rw, pers := .saved, det := true,
    hi := 4294967295, maxLen := 4, sel := .template }
/-- 0x4412:04 NORM (R296). -/
def normScale : Ent :=
  { i := 0x4412, s := 4, n := 3, name := "NORM", ty := .f32, acc := .rw, pers := .saved, det := true,
    dflt := 1065353216, hi := 4294967295, maxLen := 4, sel := .template }
/-- 0x4420:01 DECK_BASE (R296). -/
def deckBase : Ent :=
  { i := 0x4420, s := 1, name := "DECK_BASE", ty := .u64, acc := .rw, pers := .saved, dflt := 68719476736,
    hi := 18446744073709551615, step := 4096, maxLen := 8 }
/-- 0x4420:02 DECK_BATCH_BYTES (R296). -/
def deckBatchBytes : Ent :=
  { i := 0x4420, s := 2, name := "DECK_BATCH_BYTES", ty := .u32, acc := .rw, pers := .saved, dflt := 8388608,
    hi := 4294967295, step := 4096, maxLen := 4 }
/-- 0x4420:03 DECK_DEPTH (R296). -/
def deckDepth : Ent :=
  { i := 0x4420, s := 3, name := "DECK_DEPTH", ty := .u8, acc := .rw, pers := .saved, dflt := 16, lo := 1,
    hi := 64, maxLen := 1 }
/-- 0x4420:04 DECK_LOW_WATER (R296). -/
def deckLowWater : Ent :=
  { i := 0x4420, s := 4, name := "DECK_LOW_WATER", ty := .u8, acc := .rw, pers := .saved, dflt := 2, hi := 63,
    maxLen := 1 }
/-- 0x4420:05 DECK_QUEUE (R296). -/
def deckQueue : Ent :=
  { i := 0x4420, s := 5, name := "DECK_QUEUE", ty := .u16, acc := .rw, pers := .saved, dflt := 1, hi := 4095,
    maxLen := 2 }
/-- 0x4420:06 DECK_READY (R296). -/
def deckReady : Ent :=
  { i := 0x4420, s := 6, name := "DECK_READY", ty := .u8, acc := .ro, hi := 255, maxLen := 1, wr := .integrate }
/-- 0x4420:07 BATCHES_BUILT (R296). -/
def batchesBuilt : Ent :=
  { i := 0x4420, s := 7, name := "BATCHES_BUILT", ty := .u64, acc := .ro, hi := 18446744073709551615, maxLen := 8,
    wr := .integrate }
/-- 0x4420:08 BUILDS_SKIPPED (R296). -/
def buildsSkipped : Ent :=
  { i := 0x4420, s := 8, name := "BUILDS_SKIPPED", ty := .u64, acc := .ro, hi := 18446744073709551615, maxLen := 8,
    wr := .integrate }
/-- 0x4420:09 LOW_WATER_COUNT (R296). -/
def lowWaterCount : Ent :=
  { i := 0x4420, s := 9, name := "LOW_WATER_COUNT", ty := .u64, acc := .ro, hi := 18446744073709551615,
    maxLen := 8, wr := .integrate }

/-- The entries of R296, in the order of its table. -/
def list13 : List Ent :=
  [vstreamSelect, reorderTime, damageQueue, unmatchedPackets, vstreamEnable, codec, udpPort, payloadType] ++
  [sourceIp, maxWidth, maxHeight, maxFps, vdCore, colour, budgetMult, budgetCeil] ++
  [concealMaxArea, concealMaxAge, streamTimeout, streamState, avgDecode, picturesDecoded, picturesConcealed, picturesMucked] ++
  [budgetOverruns, packetsLost, packetsLate, unsupportedCount, damageRecordsDropped, templateSelect, templateEnable, slots] ++
  [slotStreams, outWidth, outHeight, outFormat, buildPeriod, sampleMaxAge, normMean, normScale] ++
  [deckBase, deckBatchBytes, deckDepth, deckLowWater, deckQueue, deckReady, batchesBuilt, buildsSkipped] ++
  [lowWaterCount]

/-! ### R326 -/

/-- 0x4300:01 KV_POOL_BASE (R326). -/
def kvPoolBase : Ent :=
  { i := 0x4300, s := 1, name := "KV_POOL_BASE", ty := .u64, acc := .rws, pers := .saved, dflt := 137438953472,
    hi := 18446744073709551615, maxLen := 8, wr := .integrate }
/-- 0x4300:02 KV_POOL_PAGES (R326). -/
def kvPoolPages : Ent :=
  { i := 0x4300, s := 2, name := "KV_POOL_PAGES", ty := .u32, acc := .rws, pers := .saved, hi := 8388608,
    maxLen := 4, wr := .integrate }
/-- 0x4300:03 KV_SLOT_BYTES (R326). -/
def kvSlotBytes : Ent :=
  { i := 0x4300, s := 3, name := "KV_SLOT_BYTES", ty := .u32, acc := .rws, pers := .saved, dflt := 4096,
    lo := 2048, hi := 32768, oneOf := [2048, 4096, 8192, 16384, 32768], maxLen := 4, wr := .integrate }
/-- 0x4300:04 KV_REF_BASE (R326). -/
def kvRefBase : Ent :=
  { i := 0x4300, s := 4, name := "KV_REF_BASE", ty := .u64, acc := .rws, pers := .saved, dflt := 8858370048,
    hi := 18446744073709551615, step := 4096, maxLen := 8, wr := .integrate }
/-- 0x4300:05 KV_SUMMARY_BASE (R326). -/
def kvSummaryBase : Ent :=
  { i := 0x4300, s := 5, name := "KV_SUMMARY_BASE", ty := .u64, acc := .rws, pers := .saved, dflt := 10737418240,
    hi := 18446744073709551615, step := 4096, maxLen := 8, wr := .integrate }
/-- 0x4300:06 KV_DIR_BASE (R326). -/
def kvDirBase : Ent :=
  { i := 0x4300, s := 6, name := "KV_DIR_BASE", ty := .u64, acc := .rws, pers := .saved, dflt := 8623489024,
    hi := 18446744073709551615, step := 4096, maxLen := 8, wr := .integrate }
/-- 0x4300:07 KV_LAYERS (R326). -/
def kvLayers : Ent :=
  { i := 0x4300, s := 7, name := "KV_LAYERS", ty := .u16, acc := .rws, pers := .saved, dflt := 1, lo := 1,
    hi := 256, maxLen := 2, wr := .integrate }
/-- 0x4300:08 KV_GROUPS (R326). -/
def kvGroups : Ent :=
  { i := 0x4300, s := 8, name := "KV_GROUPS", ty := .u8, acc := .rws, pers := .saved, dflt := 1, lo := 1, hi := 16,
    maxLen := 1, wr := .integrate }
/-- 0x4301:01 KITTY_BASE (R326). -/
def kittyBase : Ent :=
  { i := 0x4301, s := 1, name := "KITTY_BASE", ty := .u64, acc := .rws, pers := .saved, dflt := 8640266240,
    hi := 18446744073709551615, step := 4096, maxLen := 8, wr := .integrate }
/-- 0x4301:02 KITTY_SIZE (R326). -/
def kittySize : Ent :=
  { i := 0x4301, s := 2, name := "KITTY_SIZE", ty := .u32, acc := .rws, pers := .saved, dflt := 4096, lo := 16,
    hi := 65536, maxLen := 4, wr := .integrate }
/-- 0x4301:03 KITTY_LOW_WATER (R326). -/
def kittyLowWater : Ent :=
  { i := 0x4301, s := 3, name := "KITTY_LOW_WATER", ty := .u32, acc := .rw, pers := .saved, dflt := 256,
    hi := 65536, maxLen := 4 }
/-- 0x4301:04 KITTY_LEVEL (R326). -/
def kittyLevel : Ent :=
  { i := 0x4301, s := 4, name := "KITTY_LEVEL", ty := .u32, acc := .ro, hi := 4294967295, maxLen := 4,
    wr := .integrate }
/-- 0x4301:05 KV_RECLAIM (R326). -/
def kvReclaim : Ent :=
  { i := 0x4301, s := 5, name := "KV_RECLAIM", ty := .u8, acc := .rw, pers := .saved, hi := 1, maxLen := 1 }
/-- 0x4301:06 KITTY_EMPTY_COUNT (R326). -/
def kittyEmptyCount : Ent :=
  { i := 0x4301, s := 6, name := "KITTY_EMPTY_COUNT", ty := .u64, acc := .ro, hi := 18446744073709551615,
    maxLen := 8, wr := .integrate }
/-- 0x4301:07 KV_RECLAIMED (R326). -/
def kvReclaimed : Ent :=
  { i := 0x4301, s := 7, name := "KV_RECLAIMED", ty := .u64, acc := .ro, hi := 18446744073709551615, maxLen := 8,
    wr := .integrate }
/-- 0x4302:01 KV_COARSE_LEN (R326). -/
def kvCoarseLen : Ent :=
  { i := 0x4302, s := 1, name := "KV_COARSE_LEN", ty := .u32, acc := .rws, pers := .saved, det := true,
    dflt := 32768, lo := 16, hi := 1048576, maxLen := 4, wr := .integrate }
/-- 0x4302:02 KV_TOP_PAGES (R326). -/
def kvTopPages : Ent :=
  { i := 0x4302, s := 2, name := "KV_TOP_PAGES", ty := .u16, acc := .rws, pers := .saved, det := true, dflt := 128,
    lo := 1, hi := 256, maxLen := 2, wr := .integrate }
/-- 0x4302:03 KV_RECENT_PAGES (R326). -/
def kvRecentPages : Ent :=
  { i := 0x4302, s := 3, name := "KV_RECENT_PAGES", ty := .u16, acc := .rws, pers := .saved, det := true,
    dflt := 64, lo := 1, hi := 256, maxLen := 2, wr := .integrate }
/-- 0x4302:04 KV_SINK_PAGES (R326). -/
def kvSinkPages : Ent :=
  { i := 0x4302, s := 4, name := "KV_SINK_PAGES", ty := .u8, acc := .rws, pers := .saved, det := true, dflt := 4,
    hi := 4, maxLen := 1, wr := .integrate }
/-- 0x4303:01 LAB_HITS (R326). -/
def labHits : Ent :=
  { i := 0x4303, s := 1, name := "LAB_HITS", ty := .u64, acc := .ro, hi := 18446744073709551615, maxLen := 8,
    wr := .integrate, sel := .station }
/-- 0x4303:02 LAB_MISSES (R326). -/
def labMisses : Ent :=
  { i := 0x4303, s := 2, name := "LAB_MISSES", ty := .u64, acc := .ro, hi := 18446744073709551615, maxLen := 8,
    wr := .integrate, sel := .station }
/-- 0x4303:03 COW_COPIES (R326). -/
def cowCopies : Ent :=
  { i := 0x4303, s := 3, name := "COW_COPIES", ty := .u64, acc := .ro, hi := 18446744073709551615, maxLen := 8,
    wr := .integrate, sel := .station }
/-- 0x4303:04 COW_IN_PLACE (R326). -/
def cowInPlace : Ent :=
  { i := 0x4303, s := 4, name := "COW_IN_PLACE", ty := .u64, acc := .ro, hi := 18446744073709551615, maxLen := 8,
    wr := .integrate, sel := .station }
/-- 0x4303:05 COARSE_ROWS (R326). -/
def coarseRows : Ent :=
  { i := 0x4303, s := 5, name := "COARSE_ROWS", ty := .u64, acc := .ro, hi := 18446744073709551615, maxLen := 8,
    wr := .integrate, sel := .station }
/-- 0x4303:06 EMPTY_ROWS (R326). -/
def emptyRows : Ent :=
  { i := 0x4303, s := 6, name := "EMPTY_ROWS", ty := .u64, acc := .ro, hi := 18446744073709551615, maxLen := 8,
    wr := .integrate, sel := .station }
/-- 0x4303:07 SEQ_LOCK_WAIT_CYCLES (R326). -/
def seqLockWaitCycles : Ent :=
  { i := 0x4303, s := 7, name := "SEQ_LOCK_WAIT_CYCLES", ty := .u64, acc := .ro, hi := 18446744073709551615,
    maxLen := 8, wr := .integrate, sel := .station }
/-- 0x4303:08 SUMMARIES_WRITTEN (R326). -/
def summariesWritten : Ent :=
  { i := 0x4303, s := 8, name := "SUMMARIES_WRITTEN", ty := .u64, acc := .ro, hi := 18446744073709551615,
    maxLen := 8, wr := .integrate, sel := .station }
/-- 0x4303:09 LAST_FAIL_SEQ (R326). -/
def lastFailSeq : Ent :=
  { i := 0x4303, s := 9, name := "LAST_FAIL_SEQ", ty := .u16, acc := .ro, dflt := 65535, hi := 65535, maxLen := 2,
    wr := .integrate, sel := .station }

/-- The entries of R326, in the order of its table. -/
def list14 : List Ent :=
  [kvPoolBase, kvPoolPages, kvSlotBytes, kvRefBase, kvSummaryBase, kvDirBase, kvLayers, kvGroups] ++
  [kittyBase, kittySize, kittyLowWater, kittyLevel, kvReclaim, kittyEmptyCount, kvReclaimed, kvCoarseLen] ++
  [kvTopPages, kvRecentPages, kvSinkPages, labHits, labMisses, cowCopies, cowInPlace, coarseRows] ++
  [emptyRows, seqLockWaitCycles, summariesWritten, lastFailSeq]

/-! ### R345 -/

/-- 0x4500:01 ADAPT_ENABLE (R345). -/
def adaptEnable : Ent :=
  { i := 0x4500, s := 1, name := "ADAPT_ENABLE", ty := .bool, acc := .rw, pers := .saved, hi := 1, maxLen := 1 }
/-- 0x4500:02 ADAPT_STATE (R345). -/
def adaptState : Ent :=
  { i := 0x4500, s := 2, name := "ADAPT_STATE", ty := .u8, acc := .ro, hi := 7, maxLen := 1, wr := .integrate }
/-- 0x4500:03 ADAPTER_LIVE_ID (R345). -/
def adapterLiveId : Ent :=
  { i := 0x4500, s := 3, name := "ADAPTER_LIVE_ID", ty := .u32, acc := .ro, pers := .saved, det := true,
    hi := 4294967295, maxLen := 4, wr := .integrate }
/-- 0x4500:04 ADAPTER_BANK0_BASE (R345). -/
def adapterBank0Base : Ent :=
  { i := 0x4500, s := 4, name := "ADAPTER_BANK0_BASE", ty := .u64, acc := .rws, pers := .saved, dflt := 8455716864,
    hi := 18446744073709551615, step := 4096, maxLen := 8, wr := .integrate }
/-- 0x4500:05 ADAPTER_BANK_BYTES (R345). -/
def adapterBankBytes : Ent :=
  { i := 0x4500, s := 5, name := "ADAPTER_BANK_BYTES", ty := .u32, acc := .rws, pers := .saved, dflt := 33554432,
    hi := 4294967295, step := 4096, maxLen := 4, wr := .integrate }
/-- 0x4500:06 BANK0_STATE (R345). -/
def bank0State : Ent :=
  { i := 0x4500, s := 6, name := "BANK0_STATE", ty := .u8, acc := .ro, hi := 5, maxLen := 1, wr := .integrate }
/-- 0x4500:07 BANK1_STATE (R345). -/
def bank1State : Ent :=
  { i := 0x4500, s := 7, name := "BANK1_STATE", ty := .u8, acc := .ro, hi := 5, maxLen := 1, wr := .integrate }
/-- 0x4501:01 GOLDEN_FLOOR (R345). -/
def goldenFloor : Ent :=
  { i := 0x4501, s := 1, name := "GOLDEN_FLOOR", ty := .u16, acc := .rw, pers := .saved, dflt := 62259,
    hi := 65535, maxLen := 2, wr := .integrate }
/-- 0x4501:02 REJ_DELTA_MIN (R345). -/
def rejDeltaMin : Ent :=
  { i := 0x4501, s := 2, name := "REJ_DELTA_MIN", ty := .i16, acc := .rw, pers := .saved, dflt := -100,
    lo := -32768, hi := 32767, maxLen := 2, wr := .integrate }
/-- 0x4501:03 REJ_DELTA_MAX (R345). -/
def rejDeltaMax : Ent :=
  { i := 0x4501, s := 3, name := "REJ_DELTA_MAX", ty := .i16, acc := .rw, pers := .saved, dflt := 100,
    lo := -32768, hi := 32767, maxLen := 2, wr := .integrate }
/-- 0x4501:04 ROLLBACK_SLACK (R345). -/
def rollbackSlack : Ent :=
  { i := 0x4501, s := 4, name := "ROLLBACK_SLACK", ty := .u16, acc := .rw, pers := .saved, dflt := 50, hi := 10000,
    maxLen := 2, wr := .integrate }
/-- 0x4501:05 SWAPS_PER_SHIFT (R345). -/
def swapsPerShift : Ent :=
  { i := 0x4501, s := 5, name := "SWAPS_PER_SHIFT", ty := .u8, acc := .rw, pers := .saved, dflt := 1, hi := 16,
    maxLen := 1, wr := .integrate }
/-- 0x4501:06 SHIFT_ORIGIN (R345). -/
def shiftOrigin : Ent :=
  { i := 0x4501, s := 6, name := "SHIFT_ORIGIN", ty := .u32, acc := .rw, pers := .saved, hi := 86399, maxLen := 4,
    wr := .integrate }
/-- 0x4501:07 SHIFT_LENGTH (R345). -/
def shiftLength : Ent :=
  { i := 0x4501, s := 7, name := "SHIFT_LENGTH", ty := .u32, acc := .rw, pers := .saved, dflt := 28800, lo := 3600,
    hi := 86400, maxLen := 4, wr := .integrate }
/-- 0x4501:08 APPROVAL_REQUIRED (R345). -/
def approvalRequired : Ent :=
  { i := 0x4501, s := 8, name := "APPROVAL_REQUIRED", ty := .bool, acc := .rw, pers := .saved, dflt := 1, hi := 1,
    maxLen := 1, wr := .integrate }
/-- 0x4501:09 APPROVAL_TIMEOUT (R345). -/
def approvalTimeout : Ent :=
  { i := 0x4501, s := 9, name := "APPROVAL_TIMEOUT", ty := .u32, acc := .rw, pers := .saved, dflt := 480, lo := 1,
    hi := 10080, maxLen := 4, wr := .integrate }
/-- 0x4501:0A WATCH_TIME (R345). -/
def watchTime : Ent :=
  { i := 0x4501, s := 10, name := "WATCH_TIME", ty := .u32, acc := .rw, pers := .saved, dflt := 1800, lo := 60,
    hi := 86400, maxLen := 4 }
/-- 0x4501:0B WATCH_MIN_VERDICTS (R345). -/
def watchMinVerdicts : Ent :=
  { i := 0x4501, s := 11, name := "WATCH_MIN_VERDICTS", ty := .u32, acc := .rw, pers := .saved, dflt := 100000,
    lo := 1000, hi := 1000000000, maxLen := 4 }
/-- 0x4501:0C BASELINE_VERDICTS (R345). -/
def baselineVerdicts : Ent :=
  { i := 0x4501, s := 12, name := "BASELINE_VERDICTS", ty := .u32, acc := .rw, pers := .saved, dflt := 100000,
    lo := 1000, hi := 1000000000, maxLen := 4 }
/-- 0x4501:0D SWAP_LEAD_CNT (R345). -/
def swapLeadCnt : Ent :=
  { i := 0x4501, s := 13, name := "SWAP_LEAD_CNT", ty := .u32, acc := .rw, pers := .saved, dflt := 40000, lo := 1,
    hi := 1000000000, maxLen := 4 }
/-- 0x4501:0E THRESHOLD_ADAPT (R345). -/
def thresholdAdapt : Ent :=
  { i := 0x4501, s := 14, name := "THRESHOLD_ADAPT", ty := .bool, acc := .rw, pers := .saved, hi := 1,
    maxLen := 1 }
/-- 0x4502:01 LABEL_BATCH (R345). -/
def labelBatch : Ent :=
  { i := 0x4502, s := 1, name := "LABEL_BATCH", ty := .u16, acc := .rw, pers := .saved, dflt := 64, lo := 1,
    hi := 1024, maxLen := 2 }
/-- 0x4502:02 TEACHER_CONF_MIN (R345). -/
def teacherConfMin : Ent :=
  { i := 0x4502, s := 2, name := "TEACHER_CONF_MIN", ty := .u16, acc := .rw, pers := .saved, dflt := 52429,
    hi := 65535, maxLen := 2 }
/-- 0x4502:03 TRAIN_MIN_LABELS (R345). -/
def trainMinLabels : Ent :=
  { i := 0x4502, s := 3, name := "TRAIN_MIN_LABELS", ty := .u32, acc := .rw, pers := .saved, dflt := 2000, lo := 1,
    hi := 10000000, maxLen := 4 }
/-- 0x4502:04 LABEL_DEADLINE (R345). -/
def labelDeadline : Ent :=
  { i := 0x4502, s := 4, name := "LABEL_DEADLINE", ty := .u32, acc := .rw, pers := .saved, dflt := 60, lo := 1,
    hi := 3600, maxLen := 4 }
/-- 0x4502:05 LABELS_PENDING (R345). -/
def labelsPending : Ent :=
  { i := 0x4502, s := 5, name := "LABELS_PENDING", ty := .u32, acc := .ro, hi := 4294967295, maxLen := 4,
    wr := .integrate }
/-- 0x4503:01 ADAPT_APPROVE (R345). -/
def adaptApprove : Ent :=
  { i := 0x4503, s := 1, name := "ADAPT_APPROVE", ty := .u32, acc := .wo, hi := 4294967295, maxLen := 4 }
/-- 0x4503:02 ADAPT_REFUSE (R345). -/
def adaptRefuse : Ent :=
  { i := 0x4503, s := 2, name := "ADAPT_REFUSE", ty := .u32, acc := .wo, hi := 4294967295, maxLen := 4 }
/-- 0x4503:03 ADAPT_ROLLBACK (R345). -/
def adaptRollback : Ent :=
  { i := 0x4503, s := 3, name := "ADAPT_ROLLBACK", ty := .u32, acc := .wo, hi := 4294967295, maxLen := 4 }
/-- 0x4503:04 CANDIDATE_ID (R345). -/
def candidateId : Ent :=
  { i := 0x4503, s := 4, name := "CANDIDATE_ID", ty := .u32, acc := .ro, hi := 4294967295, maxLen := 4,
    wr := .integrate }
/-- 0x4503:05 CANDIDATE_GOLDEN (R345). -/
def candidateGolden : Ent :=
  { i := 0x4503, s := 5, name := "CANDIDATE_GOLDEN", ty := .u16, acc := .ro, hi := 65535, maxLen := 2,
    wr := .integrate }
/-- 0x4503:06 CANDIDATE_DELTA (R345). -/
def candidateDelta : Ent :=
  { i := 0x4503, s := 6, name := "CANDIDATE_DELTA", ty := .i16, acc := .ro, lo := -32768, hi := 32767, maxLen := 2,
    wr := .integrate }
/-- 0x4503:07 SWAPS_THIS_SHIFT (R345). -/
def swapsThisShift : Ent :=
  { i := 0x4503, s := 7, name := "SWAPS_THIS_SHIFT", ty := .u8, acc := .ro, hi := 255, maxLen := 1,
    wr := .integrate }
/-- 0x4503:08 SWAP_LINE (R345). -/
def swapLine : Ent :=
  { i := 0x4503, s := 8, name := "SWAP_LINE", ty := .i64, acc := .ro, lo := -9223372036854775808,
    hi := 9223372036854775807, maxLen := 8, wr := .integrate }
/-- 0x4503:09 WATCH_DELTA (R345). -/
def watchDelta : Ent :=
  { i := 0x4503, s := 9, name := "WATCH_DELTA", ty := .i16, acc := .ro, lo := -32768, hi := 32767, maxLen := 2,
    wr := .integrate }
/-- 0x4503:0A SWAP_COUNT (R345). -/
def swapCount : Ent :=
  { i := 0x4503, s := 10, name := "SWAP_COUNT", ty := .u64, acc := .ro, hi := 18446744073709551615, maxLen := 8,
    wr := .integrate }
/-- 0x4503:0B ROLLBACK_COUNT (R345). -/
def rollbackCount : Ent :=
  { i := 0x4503, s := 11, name := "ROLLBACK_COUNT", ty := .u64, acc := .ro, hi := 18446744073709551615,
    maxLen := 8, wr := .integrate }
/-- 0x4503:0C SWAP_REORDERED (R345). -/
def swapReordered : Ent :=
  { i := 0x4503, s := 12, name := "SWAP_REORDERED", ty := .u64, acc := .ro, hi := 18446744073709551615,
    maxLen := 8, wr := .integrate }

/-- The entries of R345, in the order of its table. -/
def list15 : List Ent :=
  [adaptEnable, adaptState, adapterLiveId, adapterBank0Base, adapterBankBytes, bank0State, bank1State, goldenFloor] ++
  [rejDeltaMin, rejDeltaMax, rollbackSlack, swapsPerShift, shiftOrigin, shiftLength, approvalRequired, approvalTimeout] ++
  [watchTime, watchMinVerdicts, baselineVerdicts, swapLeadCnt, thresholdAdapt, labelBatch, teacherConfMin, trainMinLabels] ++
  [labelDeadline, labelsPending, adaptApprove, adaptRefuse, adaptRollback, candidateId, candidateGolden, candidateDelta] ++
  [swapsThisShift, swapLine, watchDelta, swapCount, rollbackCount, swapReordered]

/-! ### R372 -/

/-- 0x4000:01 TRUMP_ARRAY_MAP (R372). -/
def trumpArrayMap : Ent :=
  { i := 0x4000, s := 1, name := "TRUMP_ARRAY_MAP", ty := .u16, acc := .rws, pers := .saved, det := true,
    dflt := 1, hi := 65535, maxLen := 2, wr := .integrate }
/-- 0x4000:02 TRUMP_SPLIT_MAP (R372). -/
def trumpSplitMap : Ent :=
  { i := 0x4000, s := 2, name := "TRUMP_SPLIT_MAP", ty := .u16, acc := .rws, pers := .saved, det := true,
    hi := 65535, maxLen := 2, wr := .integrate }
/-- 0x4000:03 TRUMP_CONTROL (R372). -/
def trumpControl : Ent :=
  { i := 0x4000, s := 3, name := "TRUMP_CONTROL", ty := .u8, acc := .rw, hi := 1, maxLen := 1 }
/-- 0x4000:04 TRUMP_STATE (R372). -/
def trumpState : Ent :=
  { i := 0x4000, s := 4, name := "TRUMP_STATE", ty := .u8, acc := .ro, hi := 3, maxLen := 1, wr := .integrate }
/-- 0x4000:05 TRUMP_PROGRAM (R372). -/
def trumpProgram : Ent :=
  { i := 0x4000, s := 5, name := "TRUMP_PROGRAM", ty := .domain, acc := .rws, pers := .saved, det := true,
    maxLen := 1073741824, wr := .integrate }
/-- 0x4001:01 JOB_SUBMIT (R372). -/
def jobSubmit : Ent := { i := 0x4001, s := 1, name := "JOB_SUBMIT", ty := .octets, acc := .wo, maxLen := 64 }
/-- 0x4001:02 JOB_ABORT (R372). -/
def jobAbort : Ent :=
  { i := 0x4001, s := 2, name := "JOB_ABORT", ty := .u32, acc := .wo, hi := 4294967295, maxLen := 4 }
/-- 0x4001:03 JOB_QUEUE (R372). -/
def jobQueue : Ent :=
  { i := 0x4001, s := 3, name := "JOB_QUEUE", ty := .u16, acc := .rws, pers := .saved, dflt := 2, hi := 4095,
    maxLen := 2, wr := .integrate }
/-- 0x4001:04 BLOCK_DETECT (R372). -/
def blockDetect : Ent :=
  { i := 0x4001, s := 4, name := "BLOCK_DETECT", ty := .u32, acc := .rw, pers := .saved, dflt := 20, lo := 1,
    hi := 10000, maxLen := 4 }
/-- 0x4002:01 JOB_SELECT (R372). -/
def jobSelect : Ent :=
  { i := 0x4002, s := 1, name := "JOB_SELECT", ty := .u32, acc := .rw, hi := 4294967295, maxLen := 4,
    wr := .view }
/-- 0x4002:02 JOB_STATE (R372). -/
def jobState : Ent :=
  { i := 0x4002, s := 2, name := "JOB_STATE", ty := .u8, acc := .ro, hi := 3, maxLen := 1, wr := .integrate,
    sel := .job }
/-- 0x4002:03 JOB_RESIDENT (R372). -/
def jobResident : Ent :=
  { i := 0x4002, s := 3, name := "JOB_RESIDENT", ty := .bool, acc := .ro, hi := 1, maxLen := 1, wr := .integrate,
    sel := .job }
/-- 0x4002:04 JOB_PINNED (R372). -/
def jobPinned : Ent :=
  { i := 0x4002, s := 4, name := "JOB_PINNED", ty := .bool, acc := .ro, hi := 1, maxLen := 1, wr := .integrate,
    sel := .job }
/-- 0x4003:01 OWNER_JOB (R372). -/
def ownerJob : Ent :=
  { i := 0x4003, s := 1, name := "OWNER_JOB", ty := .u32, acc := .ro, hi := 4294967295, maxLen := 4,
    wr := .integrate }
/-- 0x4003:02 RESIDENT_COUNT (R372). -/
def residentCount : Ent :=
  { i := 0x4003, s := 2, name := "RESIDENT_COUNT", ty := .u8, acc := .ro, hi := 8, maxLen := 1,
    wr := .integrate }
/-- 0x4003:03 STARVATION_COUNT (R372). -/
def starvationCount : Ent :=
  { i := 0x4003, s := 3, name := "STARVATION_COUNT", ty := .u64, acc := .ro, hi := 18446744073709551615,
    maxLen := 8, wr := .integrate }
/-- 0x4003:04 PREEMPT_COUNT (R372). -/
def preemptCount : Ent :=
  { i := 0x4003, s := 4, name := "PREEMPT_COUNT", ty := .u64, acc := .ro, hi := 18446744073709551615, maxLen := 8,
    wr := .integrate }
/-- 0x4003:05 EVICT_COUNT (R372). -/
def evictCount : Ent :=
  { i := 0x4003, s := 5, name := "EVICT_COUNT", ty := .u64, acc := .ro, hi := 18446744073709551615, maxLen := 8,
    wr := .integrate }
/-- 0x4003:06 DEADLINE_MISSED_COUNT (R372). -/
def deadlineMissedCount : Ent :=
  { i := 0x4003, s := 6, name := "DEADLINE_MISSED_COUNT", ty := .u64, acc := .ro, hi := 18446744073709551615,
    maxLen := 8, wr := .integrate }
/-- 0x4003:07 SWITCH_MAX (R372). -/
def switchMax : Ent :=
  { i := 0x4003, s := 7, name := "SWITCH_MAX", ty := .u32, acc := .ro, hi := 4294967295, maxLen := 4,
    wr := .integrate }

/-- The entries of R372, in the order of its table. -/
def list16 : List Ent :=
  [trumpArrayMap, trumpSplitMap, trumpControl, trumpState, trumpProgram, jobSubmit, jobAbort, jobQueue] ++
  [blockDetect, jobSelect, jobState, jobResident, jobPinned, ownerJob, residentCount, starvationCount] ++
  [preemptCount, evictCount, deadlineMissedCount, switchMax]

/-! ### R385 -/

/-- 0x4700:01 QUEUE_POOL_BASE (R385). -/
def queuePoolBase : Ent :=
  { i := 0x4700, s := 1, name := "QUEUE_POOL_BASE", ty := .u64, acc := .rws, pers := .saved, dflt := 8589934592,
    hi := 18446744073709551615, step := 16777216, maxLen := 8, wr := .integrate }
/-- 0x4700:02 TRUMP_CELLS (R385). -/
def trumpCells : Ent :=
  { i := 0x4700, s := 2, name := "TRUMP_CELLS", ty := .u32, acc := .rws, pers := .saved, dflt := 8192, hi := 65536,
    maxLen := 4, wr := .integrate }
/-- 0x4700:03 CELLS_FREE (R385). -/
def cellsFree : Ent :=
  { i := 0x4700, s := 3, name := "CELLS_FREE", ty := .u32, acc := .ro, dflt := 65536, hi := 4294967295,
    maxLen := 4, wr := .integrate }
/-- 0x4701:01 QUEUE_SELECT (R385). -/
def queueSelect : Ent :=
  { i := 0x4701, s := 1, name := "QUEUE_SELECT", ty := .u16, acc := .rw, hi := 4095, maxLen := 2, wr := .view }
/-- 0x4702:01 QUEUE_ENABLE (R385). -/
def queueEnable : Ent :=
  { i := 0x4702, s := 1, name := "QUEUE_ENABLE", ty := .bool, acc := .rw, pers := .saved, hi := 1, maxLen := 1,
    sel := .queue }
/-- 0x4702:02 QUEUE_DOMAIN (R385). -/
def queueDomain : Ent :=
  { i := 0x4702, s := 2, name := "QUEUE_DOMAIN", ty := .u8, acc := .rws, pers := .saved, hi := 1, maxLen := 1,
    wr := .integrate, sel := .queue }
/-- 0x4702:03 QUEUE_CLASS (R385). -/
def queueClass : Ent :=
  { i := 0x4702, s := 3, name := "QUEUE_CLASS", ty := .u8, acc := .rw, pers := .saved, dflt := 1, hi := 1,
    maxLen := 1, sel := .queue }
/-- 0x4702:04 QUEUE_MODE (R385). -/
def queueMode : Ent :=
  { i := 0x4702, s := 4, name := "QUEUE_MODE", ty := .u8, acc := .rw, pers := .saved, hi := 1, maxLen := 1,
    sel := .queue }
/-- 0x4702:05 QUEUE_LIMIT (R385). -/
def queueLimit : Ent :=
  { i := 0x4702, s := 5, name := "QUEUE_LIMIT", ty := .u32, acc := .rw, pers := .saved, dflt := 256, lo := 1,
    hi := 65536, maxLen := 4, sel := .queue }
/-- 0x4702:06 STRIP_CELLS (R385). -/
def stripCells : Ent :=
  { i := 0x4702, s := 6, name := "STRIP_CELLS", ty := .u16, acc := .rw, pers := .saved, dflt := 64, lo := 1,
    hi := 32768, maxLen := 2, sel := .queue }
/-- 0x4702:07 REWIND_ENABLE (R385). -/
def rewindEnable : Ent :=
  { i := 0x4702, s := 7, name := "REWIND_ENABLE", ty := .bool, acc := .rw, hi := 1, maxLen := 1, sel := .queue }
/-- 0x4702:08 QUEUE_FLUSH (R385). -/
def queueFlush : Ent :=
  { i := 0x4702, s := 8, name := "QUEUE_FLUSH", ty := .bool, acc := .wo, hi := 1, maxLen := 1, sel := .queue }
/-- 0x4702:09 QUEUE_RESET (R385). -/
def queueReset : Ent :=
  { i := 0x4702, s := 9, name := "QUEUE_RESET", ty := .bool, acc := .wo, hi := 1, maxLen := 1, sel := .queue }
/-- 0x4703:01 Q_CELLS (R385). -/
def qCells : Ent :=
  { i := 0x4703, s := 1, name := "Q_CELLS", ty := .u32, acc := .ro, hi := 4294967295, maxLen := 4,
    wr := .integrate, sel := .queue }
/-- 0x4703:02 Q_UNREAD (R385). -/
def qUnread : Ent :=
  { i := 0x4703, s := 2, name := "Q_UNREAD", ty := .u32, acc := .ro, hi := 4294967295, maxLen := 4,
    wr := .integrate, sel := .queue }
/-- 0x4703:03 Q_HELD (R385). -/
def qHeld : Ent :=
  { i := 0x4703, s := 3, name := "Q_HELD", ty := .u32, acc := .ro, hi := 4294967295, maxLen := 4, wr := .integrate,
    sel := .queue }
/-- 0x4703:04 Q_PEAK_CELLS (R385). -/
def qPeakCells : Ent :=
  { i := 0x4703, s := 4, name := "Q_PEAK_CELLS", ty := .u32, acc := .ro, hi := 4294967295, maxLen := 4,
    wr := .integrate, sel := .queue }
/-- 0x4703:05 Q_INCARN (R385). -/
def qIncarn : Ent :=
  { i := 0x4703, s := 5, name := "Q_INCARN", ty := .u8, acc := .ro, hi := 15, maxLen := 1, wr := .integrate,
    sel := .queue }
/-- 0x4703:06 Q_FLUSHED (R385). -/
def qFlushed : Ent :=
  { i := 0x4703, s := 6, name := "Q_FLUSHED", ty := .u64, acc := .ro, hi := 18446744073709551615, maxLen := 8,
    wr := .integrate, sel := .queue }
/-- 0x4703:07 Q_RESETS (R385). -/
def qResets : Ent :=
  { i := 0x4703, s := 7, name := "Q_RESETS", ty := .u64, acc := .ro, hi := 18446744073709551615, maxLen := 8,
    wr := .integrate, sel := .queue }
/-- 0x4703:08 Q_RESET_LOST (R385). -/
def qResetLost : Ent :=
  { i := 0x4703, s := 8, name := "Q_RESET_LOST", ty := .u64, acc := .ro, hi := 18446744073709551615, maxLen := 8,
    wr := .integrate, sel := .queue }
/-- 0x4703:09 Q_PARITY_COUNT (R385). -/
def qParityCount : Ent :=
  { i := 0x4703, s := 9, name := "Q_PARITY_COUNT", ty := .u64, acc := .ro, hi := 18446744073709551615, maxLen := 8,
    wr := .integrate, sel := .queue }
/-- 0x4703:0A Q_FULL_COUNT (R385). -/
def qFullCount : Ent :=
  { i := 0x4703, s := 10, name := "Q_FULL_COUNT", ty := .u64, acc := .ro, hi := 18446744073709551615, maxLen := 8,
    wr := .integrate, sel := .queue }
/-- 0x4703:0B Q_WAIT_CYCLES (R385). -/
def qWaitCycles : Ent :=
  { i := 0x4703, s := 11, name := "Q_WAIT_CYCLES", ty := .u64, acc := .ro, hi := 18446744073709551615, maxLen := 8,
    wr := .integrate, sel := .queue }

/-- The entries of R385, in the order of its table. -/
def list17 : List Ent :=
  [queuePoolBase, trumpCells, cellsFree, queueSelect, queueEnable, queueDomain, queueClass, queueMode] ++
  [queueLimit, stripCells, rewindEnable, queueFlush, queueReset, qCells, qUnread, qHeld] ++
  [qPeakCells, qIncarn, qFlushed, qResets, qResetLost, qParityCount, qFullCount, qWaitCycles]

/-! ### R412 -/

/-- 0x4600:01 FAB_DOMAIN_ID (R412). -/
def fabDomainId : Ent :=
  { i := 0x4600, s := 1, name := "FAB_DOMAIN_ID", ty := .u8, acc := .rws, pers := .saved, hi := 127, maxLen := 1,
    wr := .integrate }
/-- 0x4600:02 FAB_MODULE_ID (R412). -/
def fabModuleId : Ent :=
  { i := 0x4600, s := 2, name := "FAB_MODULE_ID", ty := .u8, acc := .rws, pers := .saved, hi := 127, maxLen := 1,
    wr := .integrate }
/-- 0x4600:03 FAB_TIMEOUT (R412). -/
def fabTimeout : Ent :=
  { i := 0x4600, s := 3, name := "FAB_TIMEOUT", ty := .u32, acc := .rw, pers := .saved, dflt := 200, lo := 10,
    hi := 10000, maxLen := 4 }
/-- 0x4600:04 FAB_TTL (R412). -/
def fabTtl : Ent :=
  { i := 0x4600, s := 4, name := "FAB_TTL", ty := .u8, acc := .rw, pers := .saved, dflt := 64, lo := 1, hi := 255,
    maxLen := 1 }
/-- 0x4600:05 FAB_STREAM_CREDITS (R412). -/
def fabStreamCredits : Ent :=
  { i := 0x4600, s := 5, name := "FAB_STREAM_CREDITS", ty := .u8, acc := .rws, pers := .saved, dflt := 8, lo := 2,
    hi := 64, maxLen := 1, wr := .integrate }
/-- 0x4600:06 FAB_LAND_DMA (R412). -/
def fabLandDma : Ent :=
  { i := 0x4600, s := 6, name := "FAB_LAND_DMA", ty := .u8, acc := .rws, pers := .saved, hi := 7, maxLen := 1,
    wr := .integrate }
/-- 0x4600:07 FAB_ROUTE (R412). -/
def fabRoute : Ent :=
  { i := 0x4600, s := 7, name := "FAB_ROUTE", ty := .domain, acc := .rws, pers := .saved,
    dfltB := List.replicate 256 0xFF, maxLen := 256, wr := .integrate }
/-- 0x4600:08 FAB_TRUMP_LINKS (R412). -/
def fabTrumpLinks : Ent :=
  { i := 0x4600, s := 8, name := "FAB_TRUMP_LINKS", ty := .u8, acc := .rws, pers := .saved, hi := 255, maxLen := 1,
    wr := .integrate }
/-- 0x4600:09 FAB_DISCARD_FRAMES (R412). -/
def fabDiscardFrames : Ent :=
  { i := 0x4600, s := 9, name := "FAB_DISCARD_FRAMES", ty := .u64, acc := .ro, hi := 18446744073709551615,
    maxLen := 8, wr := .integrate }
/-- 0x4600:0A FAB_TIMEOUT_COUNT (R412). -/
def fabTimeoutCount : Ent :=
  { i := 0x4600, s := 10, name := "FAB_TIMEOUT_COUNT", ty := .u64, acc := .ro, hi := 18446744073709551615,
    maxLen := 8, wr := .integrate }
/-- 0x4600:0B FAB_TTL_DROP (R412). -/
def fabTtlDrop : Ent :=
  { i := 0x4600, s := 11, name := "FAB_TTL_DROP", ty := .u64, acc := .ro, hi := 18446744073709551615, maxLen := 8,
    wr := .integrate }
/-- 0x4601:01 BRIDGE_ENABLE (R412). -/
def bridgeEnable : Ent :=
  { i := 0x4601, s := 1, name := "BRIDGE_ENABLE", ty := .bool, acc := .rws, pers := .saved, hi := 1, maxLen := 1,
    wr := .integrate }
/-- 0x4601:02 FAB_BRIDGE_MODULE (R412). -/
def fabBridgeModule : Ent :=
  { i := 0x4601, s := 2, name := "FAB_BRIDGE_MODULE", ty := .u8, acc := .rws, pers := .saved, hi := 127,
    maxLen := 1, wr := .integrate }
/-- 0x4601:03 BRIDGE_PEERS (R412). -/
def bridgePeers : Ent :=
  { i := 0x4601, s := 3, name := "BRIDGE_PEERS", ty := .domain, acc := .rws, pers := .saved,
    dfltB := List.replicate 512 0, maxLen := 512, wr := .integrate }
/-- 0x4601:04 BRIDGE_DROP (R412). -/
def bridgeDrop : Ent :=
  { i := 0x4601, s := 4, name := "BRIDGE_DROP", ty := .u64, acc := .ro, hi := 18446744073709551615, maxLen := 8,
    wr := .integrate }
/-- 0x4602:01 LINK_SELECT (R412). -/
def linkSelect : Ent :=
  { i := 0x4602, s := 1, name := "LINK_SELECT", ty := .u8, acc := .rw, hi := 7, maxLen := 1, wr := .view }
/-- 0x4603:01 LINK_ENABLE (R412). -/
def linkEnable : Ent :=
  { i := 0x4603, s := 1, name := "LINK_ENABLE", ty := .bool, acc := .rw, pers := .saved, hi := 1, maxLen := 1,
    sel := .link }
/-- 0x4603:02 LINK_RATE (R412). -/
def linkRate : Ent :=
  { i := 0x4603, s := 2, name := "LINK_RATE", ty := .u8, acc := .rw, pers := .saved, dflt := 6, hi := 6,
    maxLen := 1, sel := .link }
/-- 0x4603:03 LINK_STATE (R412). -/
def linkState : Ent :=
  { i := 0x4603, s := 3, name := "LINK_STATE", ty := .u8, acc := .ro, hi := 2, maxLen := 1, wr := .integrate,
    sel := .link }
/-- 0x4603:04 LINK_PEER (R412). -/
def linkPeer : Ent :=
  { i := 0x4603, s := 4, name := "LINK_PEER", ty := .u32, acc := .ro, hi := 4294967295, maxLen := 4,
    wr := .integrate, sel := .link }
/-- 0x4603:05 TX_SLEEP_EN (R412). -/
def txSleepEn : Ent :=
  { i := 0x4603, s := 5, name := "TX_SLEEP_EN", ty := .bool, acc := .rw, pers := .saved, hi := 1, maxLen := 1,
    sel := .link }
/-- 0x4603:06 RX_SLEEP_EN (R412). -/
def rxSleepEn : Ent :=
  { i := 0x4603, s := 6, name := "RX_SLEEP_EN", ty := .bool, acc := .rw, pers := .saved, hi := 1, maxLen := 1,
    sel := .link }
/-- 0x4603:07 SLEEP_IDLE (R412). -/
def sleepIdle : Ent :=
  { i := 0x4603, s := 7, name := "SLEEP_IDLE", ty := .u32, acc := .rw, pers := .saved, dflt := 100, lo := 1,
    hi := 1000000, maxLen := 4, sel := .link }
/-- 0x4603:08 REPLAY_TIMEOUT (R412). -/
def replayTimeout : Ent :=
  { i := 0x4603, s := 8, name := "REPLAY_TIMEOUT", ty := .u32, acc := .rw, pers := .saved, dflt := 50, lo := 20,
    hi := 1000, maxLen := 4, sel := .link }
/-- 0x4603:09 REPLAY_LIMIT (R412). -/
def replayLimit : Ent :=
  { i := 0x4603, s := 9, name := "REPLAY_LIMIT", ty := .u8, acc := .rw, pers := .saved, dflt := 8, lo := 1,
    hi := 255, maxLen := 1, sel := .link }
/-- 0x4603:0A AUTO_RETRAIN (R412). -/
def autoRetrain : Ent :=
  { i := 0x4603, s := 10, name := "AUTO_RETRAIN", ty := .bool, acc := .rw, pers := .saved, dflt := 1, hi := 1,
    maxLen := 1, sel := .link }
/-- 0x4603:0B SLEEP_STATE (R412). -/
def sleepState : Ent :=
  { i := 0x4603, s := 11, name := "SLEEP_STATE", ty := .u8, acc := .ro, hi := 3, maxLen := 1, wr := .integrate,
    sel := .link }
/-- 0x4603:0C DESKEW (R412). -/
def deskew : Ent :=
  { i := 0x4603, s := 12, name := "DESKEW", ty := .u8, acc := .ro, hi := 8, maxLen := 1, wr := .integrate,
    sel := .link }
/-- 0x4603:0D REPLAY_COUNT (R412). -/
def replayCount : Ent :=
  { i := 0x4603, s := 13, name := "REPLAY_COUNT", ty := .u64, acc := .ro, hi := 18446744073709551615, maxLen := 8,
    wr := .integrate, sel := .link }
/-- 0x4603:0E CRC_ERROR_COUNT (R412). -/
def crcErrorCount : Ent :=
  { i := 0x4603, s := 14, name := "CRC_ERROR_COUNT", ty := .u64, acc := .ro, hi := 18446744073709551615,
    maxLen := 8, wr := .integrate, sel := .link }
/-- 0x4603:0F FRAME_BAD_COUNT (R412). -/
def frameBadCount : Ent :=
  { i := 0x4603, s := 15, name := "FRAME_BAD_COUNT", ty := .u64, acc := .ro, hi := 18446744073709551615,
    maxLen := 8, wr := .integrate, sel := .link }
/-- 0x4603:10 LINK_DOWN_COUNT (R412). -/
def linkDownCount : Ent :=
  { i := 0x4603, s := 16, name := "LINK_DOWN_COUNT", ty := .u64, acc := .ro, hi := 18446744073709551615,
    maxLen := 8, wr := .integrate, sel := .link }
/-- 0x4603:11 FRAMES_LOST_LINK (R412). -/
def framesLostLink : Ent :=
  { i := 0x4603, s := 17, name := "FRAMES_LOST_LINK", ty := .u64, acc := .ro, hi := 18446744073709551615,
    maxLen := 8, wr := .integrate, sel := .link }
/-- 0x4604:01 LANE_SELECT (R412). -/
def laneSelect : Ent :=
  { i := 0x4604, s := 1, name := "LANE_SELECT", ty := .u8, acc := .rw, hi := 31, maxLen := 1, wr := .view }
/-- 0x4605:01 RX_PEAK (R412). -/
def rxPeak : Ent :=
  { i := 0x4605, s := 1, name := "RX_PEAK", ty := .u8, acc := .rw, pers := .saved, dflt := 6, hi := 18,
    maxLen := 1, sel := .lane }
/-- 0x4605:02 TX_PRE (R412). -/
def txPre : Ent :=
  { i := 0x4605, s := 2, name := "TX_PRE", ty := .u8, acc := .rw, pers := .saved, hi := 15, maxLen := 1,
    sel := .lane }
/-- 0x4605:03 TX_MAIN (R412). -/
def txMain : Ent :=
  { i := 0x4605, s := 3, name := "TX_MAIN", ty := .u8, acc := .rw, pers := .saved, dflt := 63, lo := 32, hi := 63,
    maxLen := 1, sel := .lane }
/-- 0x4605:04 TX_POST (R412). -/
def txPost : Ent :=
  { i := 0x4605, s := 4, name := "TX_POST", ty := .u8, acc := .rw, pers := .saved, hi := 31, maxLen := 1,
    sel := .lane }
/-- 0x4605:05 BIT_SLIP (R412). -/
def bitSlip : Ent :=
  { i := 0x4605, s := 5, name := "BIT_SLIP", ty := .bool, acc := .wo, hi := 1, maxLen := 1, sel := .lane }
/-- 0x4605:06 LANE_STATUS (R412). -/
def laneStatus : Ent :=
  { i := 0x4605, s := 6, name := "LANE_STATUS", ty := .u8, acc := .ro, hi := 7, maxLen := 1, wr := .integrate,
    sel := .lane }
/-- 0x4605:07 SYNC_ERROR_COUNT (R412). -/
def syncErrorCount : Ent :=
  { i := 0x4605, s := 7, name := "SYNC_ERROR_COUNT", ty := .u64, acc := .ro, hi := 18446744073709551615,
    maxLen := 8, wr := .integrate, sel := .lane }

/-- The entries of R412, in the order of its table. -/
def list18 : List Ent :=
  [fabDomainId, fabModuleId, fabTimeout, fabTtl, fabStreamCredits, fabLandDma, fabRoute, fabTrumpLinks] ++
  [fabDiscardFrames, fabTimeoutCount, fabTtlDrop, bridgeEnable, fabBridgeModule, bridgePeers, bridgeDrop, linkSelect] ++
  [linkEnable, linkRate, linkState, linkPeer, txSleepEn, rxSleepEn, sleepIdle, replayTimeout] ++
  [replayLimit, autoRetrain, sleepState, deskew, replayCount, crcErrorCount, frameBadCount, linkDownCount] ++
  [framesLostLink, laneSelect, rxPeak, txPre, txMain, txPost, bitSlip, laneStatus] ++
  [syncErrorCount]

/-! ### R439 -/

/-- 0x1000:01 VENDOR (R439). -/
def vendor : Ent :=
  { i := 0x1000, s := 1, name := "VENDOR", ty := .str, acc := .ro, pers := .factory, dfltB := [0x46, 0x72, 0x61,
    0x64, 0x75, 0x72, 0x6F, 0x74, 0x68, 0x20, 0x53, 0x65, 0x6D, 0x69, 0x63, 0x6F, 0x6E, 0x64, 0x75, 0x63, 0x74,
    0x6F, 0x72], maxLen := 255, wr := .integrate }
/-- 0x1000:02 PART_NUMBER (R439). -/
def partNumber : Ent :=
  { i := 0x1000, s := 2, name := "PART_NUMBER", ty := .str, acc := .ro, pers := .factory, dfltB := [0x53, 0x4B,
    0x4D, 0x2D, 0x37, 0x31, 0x36, 0x30], maxLen := 255, wr := .integrate }
/-- 0x1000:03 SERIAL (R439). -/
def serial : Ent :=
  { i := 0x1000, s := 3, name := "SERIAL", ty := .str, acc := .ro, pers := .factory, maxLen := 16,
    wr := .integrate }
/-- 0x1000:04 DEVICE_ID (R439). -/
def deviceId : Ent :=
  { i := 0x1000, s := 4, name := "DEVICE_ID", ty := .octets, acc := .ro, pers := .factory,
    dfltB := List.replicate 16 0, maxLen := 16, wr := .integrate }
/-- 0x1000:05 COMPUTE_STEPPING (R439). -/
def computeStepping : Ent :=
  { i := 0x1000, s := 5, name := "COMPUTE_STEPPING", ty := .str, acc := .ro, pers := .factory, dfltB := [0x42,
    0x31], maxLen := 255, wr := .integrate }
/-- 0x1000:06 IO_STEPPING (R439). -/
def ioStepping : Ent :=
  { i := 0x1000, s := 6, name := "IO_STEPPING", ty := .str, acc := .ro, pers := .factory, dfltB := [0x42, 0x31],
    maxLen := 255, wr := .integrate }
/-- 0x1000:07 FIRMWARE_RELEASE (R439). -/
def firmwareRelease : Ent :=
  { i := 0x1000, s := 7, name := "FIRMWARE_RELEASE", ty := .str, acc := .ro, dfltB := [0x31, 0x2E, 0x33],
    maxLen := 255, wr := .integrate }
/-- 0x1000:08 GENERATION (R439). -/
def generation : Ent :=
  { i := 0x1000, s := 8, name := "GENERATION", ty := .u8, acc := .ro, pers := .factory, dflt := 1, hi := 255,
    maxLen := 1, wr := .integrate }
/-- 0x1001:01 FDP_VERSION_MIN (R439). -/
def fdpVersionMin : Ent :=
  { i := 0x1001, s := 1, name := "FDP_VERSION_MIN", ty := .u8, acc := .ro, pers := .factory, dflt := 1, hi := 255,
    maxLen := 1, wr := .integrate }
/-- 0x1001:02 FDP_VERSION_MAX (R439). -/
def fdpVersionMax : Ent :=
  { i := 0x1001, s := 2, name := "FDP_VERSION_MAX", ty := .u8, acc := .ro, pers := .factory, dflt := 1, hi := 255,
    maxLen := 1, wr := .integrate }
/-- 0x1002:00 D_DIGEST (R439). -/
def dDigest : Ent :=
  { i := 0x1002, s := 0, name := "D_DIGEST", ty := .octets, acc := .ro, maxLen := 32, wr := .integrate }
/-- 0x1010:01 STORE_NOW (R439). -/
def storeNow : Ent := { i := 0x1010, s := 1, name := "STORE_NOW", ty := .bool, acc := .wo, hi := 1, maxLen := 1 }
/-- 0x1010:02 RESTORE_DEFAULTS (R439). -/
def restoreDefaults : Ent :=
  { i := 0x1010, s := 2, name := "RESTORE_DEFAULTS", ty := .bool, acc := .wo, hi := 1, maxLen := 1,
    wr := .integrate }
/-- 0x1010:03 STORE_STATE (R439). -/
def storeState : Ent :=
  { i := 0x1010, s := 3, name := "STORE_STATE", ty := .u8, acc := .ro, hi := 2, maxLen := 1, wr := .integrate }
/-- 0x1010:04 STORE_COUNT (R439). -/
def storeCount : Ent :=
  { i := 0x1010, s := 4, name := "STORE_COUNT", ty := .u64, acc := .ro, hi := 18446744073709551615, maxLen := 8,
    wr := .integrate }
/-- 0x1100:01 KEY_VIEW (R439). -/
def keyView : Ent :=
  { i := 0x1100, s := 1, name := "KEY_VIEW", ty := .octets, acc := .wo, pers := .saved,
    dfltB := List.replicate 32 0, maxLen := 32, wr := .integrate }
/-- 0x1100:02 KEY_OPERATE (R439). -/
def keyOperate : Ent :=
  { i := 0x1100, s := 2, name := "KEY_OPERATE", ty := .octets, acc := .wo, pers := .saved,
    dfltB := List.replicate 32 0, maxLen := 32, wr := .integrate }
/-- 0x1100:03 KEY_INTEGRATE (R439). -/
def keyIntegrate : Ent :=
  { i := 0x1100, s := 3, name := "KEY_INTEGRATE", ty := .octets, acc := .wo, pers := .saved,
    dfltB := List.replicate 32 0, maxLen := 32, wr := .integrate }
/-- 0x1100:04 KEYS_SET (R439). -/
def keysSet : Ent :=
  { i := 0x1100, s := 4, name := "KEYS_SET", ty := .u8, acc := .ro, dflt := 8, hi := 255, maxLen := 1,
    wr := .integrate }
/-- 0x1100:05 INTEGRATE_KEY_ENROL (R439). -/
def integrateKeyEnrol : Ent :=
  { i := 0x1100, s := 5, name := "INTEGRATE_KEY_ENROL", ty := .octets, acc := .wo, maxLen := 32,
    wr := .view }
/-- 0x1101:01 SESSION_TIMEOUT (R439). -/
def sessionTimeout : Ent :=
  { i := 0x1101, s := 1, name := "SESSION_TIMEOUT", ty := .u16, acc := .rw, pers := .saved, dflt := 10, lo := 2,
    hi := 600, maxLen := 2, wr := .integrate }
/-- 0x1101:02 SESSIONS_OPEN (R439). -/
def sessionsOpen : Ent :=
  { i := 0x1101, s := 2, name := "SESSIONS_OPEN", ty := .u8, acc := .ro, hi := 8, maxLen := 1,
    wr := .integrate }
/-- 0x1101:03 SESSION_ROLE (R439). -/
def sessionRole : Ent :=
  { i := 0x1101, s := 3, name := "SESSION_ROLE", ty := .u8, acc := .ro, hi := 255, maxLen := 1, wr := .integrate }
/-- 0x1200:01 I3C_ENABLE (R439). -/
def i3cEnable : Ent :=
  { i := 0x1200, s := 1, name := "I3C_ENABLE", ty := .bool, acc := .rw, pers := .saved, dflt := 1, hi := 1,
    maxLen := 1, wr := .integrate }
/-- 0x1200:02 I3C_STATIC_ADDR (R439). -/
def i3cStaticAddr : Ent :=
  { i := 0x1200, s := 2, name := "I3C_STATIC_ADDR", ty := .u8, acc := .rws, pers := .saved, dflt := 72, lo := 8,
    hi := 119, maxLen := 1, wr := .integrate }
/-- 0x1200:03 I3C_DYN_ADDR (R439). -/
def i3cDynAddr : Ent :=
  { i := 0x1200, s := 3, name := "I3C_DYN_ADDR", ty := .u8, acc := .ro, hi := 255, maxLen := 1, wr := .integrate }
/-- 0x1200:04 I3C_PID (R439). -/
def i3cPid : Ent :=
  { i := 0x1200, s := 4, name := "I3C_PID", ty := .u64, acc := .ro, hi := 281474976710655, maxLen := 8,
    wr := .integrate }
/-- 0x1200:05 I3C_INSTANCE (R439). -/
def i3cInstance : Ent :=
  { i := 0x1200, s := 5, name := "I3C_INSTANCE", ty := .u8, acc := .rws, pers := .saved, hi := 15, maxLen := 1,
    wr := .integrate }
/-- 0x1200:06 I3C_ROLE (R439). -/
def i3cRole : Ent :=
  { i := 0x1200, s := 6, name := "I3C_ROLE", ty := .u8, acc := .rws, pers := .saved, hi := 1, maxLen := 1,
    wr := .integrate }
/-- 0x1200:07 I3C_HDR_EN (R439). -/
def i3cHdrEn : Ent :=
  { i := 0x1200, s := 7, name := "I3C_HDR_EN", ty := .bool, acc := .rws, pers := .saved, dflt := 1, hi := 1,
    maxLen := 1, wr := .integrate }
/-- 0x1200:08 I3C_EVENT_MASK (R439). -/
def i3cEventMask : Ent :=
  { i := 0x1200, s := 8, name := "I3C_EVENT_MASK", ty := .u32, acc := .rw, pers := .saved, dflt := 1, hi := 15,
    maxLen := 4 }
/-- 0x1200:09 I3C_CRC_ERRORS (R439). -/
def i3cCrcErrors : Ent :=
  { i := 0x1200, s := 9, name := "I3C_CRC_ERRORS", ty := .u64, acc := .ro, hi := 18446744073709551615, maxLen := 8,
    wr := .integrate }
/-- 0x1200:0A I3C_EVENTS_DROPPED (R439). -/
def i3cEventsDropped : Ent :=
  { i := 0x1200, s := 10, name := "I3C_EVENTS_DROPPED", ty := .u64, acc := .ro, hi := 18446744073709551615,
    maxLen := 8, wr := .integrate }
/-- 0x1300:01 FDP_ENABLE (R439). -/
def fdpEnable : Ent :=
  { i := 0x1300, s := 1, name := "FDP_ENABLE", ty := .bool, acc := .rw, pers := .saved, dflt := 1, hi := 1,
    maxLen := 1, wr := .integrate }
/-- 0x1300:02 FDP_PORTS (R439). -/
def fdpPorts : Ent :=
  { i := 0x1300, s := 2, name := "FDP_PORTS", ty := .u8, acc := .rw, pers := .saved, dflt := 3, hi := 3,
    maxLen := 1, wr := .integrate }
/-- 0x1300:03 FDP_UDP_PORT (R439). -/
def fdpUdpPort : Ent :=
  { i := 0x1300, s := 3, name := "FDP_UDP_PORT", ty := .u16, acc := .ro, pers := .factory, dflt := 47810,
    hi := 65535, maxLen := 2, wr := .integrate }
/-- 0x1300:04 FDP_LOCKOUT_TIME (R439). -/
def fdpLockoutTime : Ent :=
  { i := 0x1300, s := 4, name := "FDP_LOCKOUT_TIME", ty := .u16, acc := .rw, pers := .saved, dflt := 10, lo := 1,
    hi := 3600, maxLen := 2, wr := .integrate }
/-- 0x1300:05 FDP_EVENT_RATE (R439). -/
def fdpEventRate : Ent :=
  { i := 0x1300, s := 5, name := "FDP_EVENT_RATE", ty := .u16, acc := .rw, pers := .saved, dflt := 100, lo := 1,
    hi := 1000, maxLen := 2 }
/-- 0x1300:06 FDP_EVENT_MASK (R439). -/
def fdpEventMask : Ent :=
  { i := 0x1300, s := 6, name := "FDP_EVENT_MASK", ty := .u32, acc := .ro, hi := 4294967295, maxLen := 4,
    wr := .integrate }
/-- 0x1300:07 FDP_AUTH_FAIL_COUNT (R439). -/
def fdpAuthFailCount : Ent :=
  { i := 0x1300, s := 7, name := "FDP_AUTH_FAIL_COUNT", ty := .u64, acc := .ro, hi := 18446744073709551615,
    maxLen := 8, wr := .integrate }
/-- 0x1300:08 FDP_LOCKOUTS (R439). -/
def fdpLockouts : Ent :=
  { i := 0x1300, s := 8, name := "FDP_LOCKOUTS", ty := .u64, acc := .ro, hi := 18446744073709551615, maxLen := 8,
    wr := .integrate }
/-- 0x1300:09 FDP_DUPLICATES (R439). -/
def fdpDuplicates : Ent :=
  { i := 0x1300, s := 9, name := "FDP_DUPLICATES", ty := .u64, acc := .ro, hi := 18446744073709551615, maxLen := 8,
    wr := .integrate }
/-- 0x1300:0A FDP_EVENTS_DROPPED (R439). -/
def fdpEventsDropped : Ent :=
  { i := 0x1300, s := 10, name := "FDP_EVENTS_DROPPED", ty := .u64, acc := .ro, hi := 18446744073709551615,
    maxLen := 8, wr := .integrate }

/-- The entries of R439, in the order of its table. -/
def list19 : List Ent :=
  [vendor, partNumber, serial, deviceId, computeStepping, ioStepping, firmwareRelease, generation] ++
  [fdpVersionMin, fdpVersionMax, dDigest, storeNow, restoreDefaults, storeState, storeCount, keyView] ++
  [keyOperate, keyIntegrate, keysSet, integrateKeyEnrol, sessionTimeout, sessionsOpen, sessionRole, i3cEnable] ++
  [i3cStaticAddr, i3cDynAddr, i3cPid, i3cInstance, i3cRole, i3cHdrEn, i3cEventMask, i3cCrcErrors] ++
  [i3cEventsDropped, fdpEnable, fdpPorts, fdpUdpPort, fdpLockoutTime, fdpEventRate, fdpEventMask, fdpAuthFailCount] ++
  [fdpLockouts, fdpDuplicates, fdpEventsDropped]

/-! ### R456 -/

/-- 0x5000:01 ETH_SELECT (R456). -/
def ethSelect : Ent :=
  { i := 0x5000, s := 1, name := "ETH_SELECT", ty := .u8, acc := .rw, hi := 1, maxLen := 1, wr := .view }
/-- 0x5001:01 ETH_MODE (R456). -/
def ethMode : Ent :=
  { i := 0x5001, s := 1, name := "ETH_MODE", ty := .u8, acc := .rw, pers := .saved, dflt := 1, hi := 2,
    maxLen := 1, wr := .integrate, sel := .eth }
/-- 0x5001:02 ETH_LINK (R456). -/
def ethLink : Ent :=
  { i := 0x5001, s := 2, name := "ETH_LINK", ty := .bool, acc := .ro, hi := 1, maxLen := 1, wr := .integrate,
    sel := .eth }
/-- 0x5001:03 ETH_RX_DELAY (R456). -/
def ethRxDelay : Ent :=
  { i := 0x5001, s := 3, name := "ETH_RX_DELAY", ty := .u16, acc := .rw, pers := .saved, hi := 1000, maxLen := 2,
    wr := .integrate, sel := .eth }
/-- 0x5001:04 ETH_TX_DELAY (R456). -/
def ethTxDelay : Ent :=
  { i := 0x5001, s := 4, name := "ETH_TX_DELAY", ty := .u16, acc := .rw, pers := .saved, hi := 1000, maxLen := 2,
    wr := .integrate, sel := .eth }
/-- 0x5001:05 RX_FRAMES (R456). -/
def rxFrames : Ent :=
  { i := 0x5001, s := 5, name := "RX_FRAMES", ty := .u64, acc := .ro, hi := 18446744073709551615, maxLen := 8,
    wr := .integrate, sel := .eth }
/-- 0x5001:06 TX_FRAMES (R456). -/
def txFrames : Ent :=
  { i := 0x5001, s := 6, name := "TX_FRAMES", ty := .u64, acc := .ro, hi := 18446744073709551615, maxLen := 8,
    wr := .integrate, sel := .eth }
/-- 0x5001:07 RX_ERRORS (R456). -/
def rxErrors : Ent :=
  { i := 0x5001, s := 7, name := "RX_ERRORS", ty := .u64, acc := .ro, hi := 18446744073709551615, maxLen := 8,
    wr := .integrate, sel := .eth }
/-- 0x5001:08 ETH_LINK_DOWN_COUNT (R456). -/
def ethLinkDownCount : Ent :=
  { i := 0x5001, s := 8, name := "ETH_LINK_DOWN_COUNT", ty := .u64, acc := .ro, hi := 18446744073709551615,
    maxLen := 8, wr := .integrate, sel := .eth }
/-- 0x5010:01 MAC_ADDRESS (R456). -/
def macAddress : Ent :=
  { i := 0x5010, s := 1, name := "MAC_ADDRESS", ty := .octets, acc := .ro, pers := .factory,
    dfltB := List.replicate 6 0, maxLen := 6, wr := .integrate }
/-- 0x5010:02 IPV4_ADDRESS (R456). -/
def ipv4Address : Ent :=
  { i := 0x5010, s := 2, name := "IPV4_ADDRESS", ty := .u32, acc := .rw, pers := .saved, dflt := 3232253706,
    hi := 4294967295, maxLen := 4, wr := .integrate }
/-- 0x5010:03 NETMASK (R456). -/
def netmask : Ent :=
  { i := 0x5010, s := 3, name := "NETMASK", ty := .u32, acc := .rw, pers := .saved, dflt := 4294967040,
    hi := 4294967295, maxLen := 4, wr := .integrate }
/-- 0x5010:04 GATEWAY (R456). -/
def gateway : Ent :=
  { i := 0x5010, s := 4, name := "GATEWAY", ty := .u32, acc := .rw, pers := .saved, hi := 4294967295, maxLen := 4,
    wr := .integrate }
/-- 0x5010:05 MAC_TABLE_AGE (R456). -/
def macTableAge : Ent :=
  { i := 0x5010, s := 5, name := "MAC_TABLE_AGE", ty := .u16, acc := .rw, pers := .saved, dflt := 300, lo := 10,
    hi := 3600, maxLen := 2, wr := .integrate }
/-- 0x5010:06 RX_LIMIT (R456). -/
def rxLimit : Ent :=
  { i := 0x5010, s := 6, name := "RX_LIMIT", ty := .u32, acc := .rw, pers := .saved, dflt := 50000, lo := 1000,
    hi := 1000000, maxLen := 4, wr := .integrate }
/-- 0x5010:07 RX_LIMIT_DROPS (R456). -/
def rxLimitDrops : Ent :=
  { i := 0x5010, s := 7, name := "RX_LIMIT_DROPS", ty := .u64, acc := .ro, hi := 18446744073709551615, maxLen := 8,
    wr := .integrate }
/-- 0x5010:08 MCAST_GROUPS (R456). -/
def mcastGroups : Ent :=
  { i := 0x5010, s := 8, name := "MCAST_GROUPS", ty := .domain, acc := .rw, pers := .saved, maxLen := 256,
    wr := .integrate }
/-- 0x5010:09 TC_CORRECTED_COUNT (R456). -/
def tcCorrectedCount : Ent :=
  { i := 0x5010, s := 9, name := "TC_CORRECTED_COUNT", ty := .u64, acc := .ro, hi := 18446744073709551615,
    maxLen := 8, wr := .integrate }
/-- 0x5010:0A TC_MAX_RESIDENCE (R456). -/
def tcMaxResidence : Ent :=
  { i := 0x5010, s := 10, name := "TC_MAX_RESIDENCE", ty := .u32, acc := .ro, hi := 4294967295, maxLen := 4,
    wr := .integrate }
/-- 0x5100:01 DEVICE_TIME (R456). -/
def deviceTime : Ent :=
  { i := 0x5100, s := 1, name := "DEVICE_TIME", ty := .time80, acc := .ro, hi := 1208925819614629174706175,
    maxLen := 10, wr := .integrate }
/-- 0x5100:02 TIME_STATE (R456). -/
def timeState : Ent :=
  { i := 0x5100, s := 2, name := "TIME_STATE", ty := .u8, acc := .ro, hi := 3, maxLen := 1, wr := .integrate }
/-- 0x5100:03 INCREMENT (R456). -/
def increment : Ent :=
  { i := 0x5100, s := 3, name := "INCREMENT", ty := .u32, acc := .ro, dflt := 268435456, hi := 4294967295,
    maxLen := 4, wr := .integrate }
/-- 0x5100:04 TB_COUNT (R456). -/
def tbCount : Ent :=
  { i := 0x5100, s := 4, name := "TB_COUNT", ty := .u64, acc := .ro, hi := 18446744073709551615, maxLen := 8,
    wr := .integrate }
/-- 0x5100:05 TIME_SET (R456). -/
def timeSet : Ent :=
  { i := 0x5100, s := 5, name := "TIME_SET", ty := .time80, acc := .wo, hi := 1208925819614629174706175,
    maxLen := 10 }
/-- 0x5101:01 PTP_ENABLE (R456). -/
def ptpEnable : Ent :=
  { i := 0x5101, s := 1, name := "PTP_ENABLE", ty := .bool, acc := .rw, pers := .saved, dflt := 1, hi := 1,
    maxLen := 1, wr := .integrate }
/-- 0x5101:02 PTP_DOMAIN (R456). -/
def ptpDomain : Ent :=
  { i := 0x5101, s := 2, name := "PTP_DOMAIN", ty := .u8, acc := .rw, pers := .saved, hi := 127, maxLen := 1,
    wr := .integrate }
/-- 0x5101:03 PTP_PORTS (R456). -/
def ptpPorts : Ent :=
  { i := 0x5101, s := 3, name := "PTP_PORTS", ty := .u8, acc := .rw, pers := .saved, dflt := 3, hi := 3,
    maxLen := 1, wr := .integrate }
/-- 0x5101:04 STEP_LIMIT (R456). -/
def stepLimit : Ent :=
  { i := 0x5101, s := 4, name := "STEP_LIMIT", ty := .u32, acc := .rw, pers := .saved, dflt := 1000000, lo := 1000,
    hi := 1000000000, maxLen := 4, wr := .integrate }
/-- 0x5101:05 SLEW_MAX (R456). -/
def slewMax : Ent :=
  { i := 0x5101, s := 5, name := "SLEW_MAX", ty := .u16, acc := .rw, pers := .saved, dflt := 500, lo := 1,
    hi := 1000, maxLen := 2, wr := .integrate }
/-- 0x5101:06 STEP_OVERRIDE (R456). -/
def stepOverride : Ent :=
  { i := 0x5101, s := 6, name := "STEP_OVERRIDE", ty := .bool, acc := .wo, hi := 1, maxLen := 1,
    wr := .integrate }
/-- 0x5101:07 OVERRIDE_ARMED (R456). -/
def overrideArmed : Ent :=
  { i := 0x5101, s := 7, name := "OVERRIDE_ARMED", ty := .bool, acc := .ro, hi := 1, maxLen := 1,
    wr := .integrate }
/-- 0x5101:08 OVERRIDE_WINDOW (R456). -/
def overrideWindow : Ent :=
  { i := 0x5101, s := 8, name := "OVERRIDE_WINDOW", ty := .u16, acc := .rw, pers := .saved, dflt := 60, lo := 1,
    hi := 3600, maxLen := 2, wr := .integrate }
/-- 0x5102:01 OFFSET (R456). -/
def offset : Ent :=
  { i := 0x5102, s := 1, name := "OFFSET", ty := .i64, acc := .ro, lo := -9223372036854775808,
    hi := 9223372036854775807, maxLen := 8, wr := .integrate }
/-- 0x5102:02 MEAN_PATH_DELAY (R456). -/
def meanPathDelay : Ent :=
  { i := 0x5102, s := 2, name := "MEAN_PATH_DELAY", ty := .u32, acc := .ro, hi := 4294967295, maxLen := 4,
    wr := .integrate }
/-- 0x5102:03 GM_IDENTITY (R456). -/
def gmIdentity : Ent :=
  { i := 0x5102, s := 3, name := "GM_IDENTITY", ty := .octets, acc := .ro, dfltB := List.replicate 8 0,
    maxLen := 8, wr := .integrate }
/-- 0x5102:04 STEP_COUNT (R456). -/
def stepCount : Ent :=
  { i := 0x5102, s := 4, name := "STEP_COUNT", ty := .u64, acc := .ro, hi := 18446744073709551615, maxLen := 8,
    wr := .integrate }
/-- 0x5102:05 STEP_REFUSED_COUNT (R456). -/
def stepRefusedCount : Ent :=
  { i := 0x5102, s := 5, name := "STEP_REFUSED_COUNT", ty := .u64, acc := .ro, hi := 18446744073709551615,
    maxLen := 8, wr := .integrate }

/-- The entries of R456, in the order of its table. -/
def list20 : List Ent :=
  [ethSelect, ethMode, ethLink, ethRxDelay, ethTxDelay, rxFrames, txFrames, rxErrors] ++
  [ethLinkDownCount, macAddress, ipv4Address, netmask, gateway, macTableAge, rxLimit, rxLimitDrops] ++
  [mcastGroups, tcCorrectedCount, tcMaxResidence, deviceTime, timeState, increment, tbCount, timeSet] ++
  [ptpEnable, ptpDomain, ptpPorts, stepLimit, slewMax, stepOverride, overrideArmed, overrideWindow] ++
  [offset, meanPathDelay, gmIdentity, stepCount, stepRefusedCount]

/-! ### R467 -/

/-- 0x2300:01 COUT_SELECT (R467). -/
def coutSelect : Ent :=
  { i := 0x2300, s := 1, name := "COUT_SELECT", ty := .u8, acc := .rw, hi := 3, maxLen := 1, wr := .view }
/-- 0x2301:01 COUT_ENABLE (R467). -/
def coutEnable : Ent :=
  { i := 0x2301, s := 1, name := "COUT_ENABLE", ty := .bool, acc := .rw, pers := .saved, hi := 1, maxLen := 1,
    sel := .cout }
/-- 0x2301:02 COUT_LANES (R467). -/
def coutLanes : Ent :=
  { i := 0x2301, s := 2, name := "COUT_LANES", ty := .u8, acc := .rw, pers := .saved, dflt := 4, lo := 1, hi := 4,
    oneOf := [1, 2, 4], maxLen := 1, sel := .cout }
/-- 0x2301:03 COUT_LANE_RATE (R467). -/
def coutLaneRate : Ent :=
  { i := 0x2301, s := 3, name := "COUT_LANE_RATE", ty := .u16, acc := .rw, pers := .saved, dflt := 2500, lo := 80,
    hi := 4500, maxLen := 2, sel := .cout }
/-- 0x2301:04 OUT_MAX_RATE (R467). -/
def outMaxRate : Ent :=
  { i := 0x2301, s := 4, name := "OUT_MAX_RATE", ty := .u16, acc := .rw, pers := .saved, dflt := 1000, lo := 1,
    hi := 2250, maxLen := 2, sel := .cout }
/-- 0x2302:01 CROP_CAMS (R467). -/
def cropCams : Ent :=
  { i := 0x2302, s := 1, name := "CROP_CAMS", ty := .u16, acc := .rw, pers := .saved, hi := 65535, maxLen := 2,
    sel := .cout }
/-- 0x2302:02 CROP_VERDICTS (R467). -/
def cropVerdicts : Ent :=
  { i := 0x2302, s := 2, name := "CROP_VERDICTS", ty := .u8, acc := .rw, pers := .saved, dflt := 2, hi := 255,
    maxLen := 1, sel := .cout }
/-- 0x2302:03 CROP_MAX_RATE (R467). -/
def cropMaxRate : Ent :=
  { i := 0x2302, s := 3, name := "CROP_MAX_RATE", ty := .u16, acc := .rw, pers := .saved, dflt := 10, lo := 1,
    hi := 1000, maxLen := 2, sel := .cout }
/-- 0x2302:04 CROP_MAX_AGE (R467). -/
def cropMaxAge : Ent :=
  { i := 0x2302, s := 4, name := "CROP_MAX_AGE", ty := .u16, acc := .rw, pers := .saved, dflt := 500, lo := 10,
    hi := 10000, maxLen := 2, sel := .cout }
/-- 0x2302:05 CROP_VC (R467). -/
def cropVc : Ent :=
  { i := 0x2302, s := 5, name := "CROP_VC", ty := .u8, acc := .rw, pers := .saved, hi := 15, maxLen := 1,
    sel := .cout }
/-- 0x2303:01 OVL_CAM (R467). -/
def ovlCam : Ent :=
  { i := 0x2303, s := 1, name := "OVL_CAM", ty := .u8, acc := .rw, pers := .saved, dflt := 255, hi := 255,
    maxLen := 1, sel := .cout }
/-- 0x2303:02 OVL_DECIMATE (R467). -/
def ovlDecimate : Ent :=
  { i := 0x2303, s := 2, name := "OVL_DECIMATE", ty := .u8, acc := .rw, pers := .saved, dflt := 8, lo := 1,
    hi := 8, oneOf := [1, 2, 4, 8], maxLen := 1, sel := .cout }
/-- 0x2303:03 OVL_LINES (R467). -/
def ovlLines : Ent :=
  { i := 0x2303, s := 3, name := "OVL_LINES", ty := .u16, acc := .rw, pers := .saved, dflt := 1024, lo := 16,
    hi := 4096, maxLen := 2, sel := .cout }
/-- 0x2303:04 OVL_RGB (R467). -/
def ovlRgb : Ent :=
  { i := 0x2303, s := 4, name := "OVL_RGB", ty := .u8, acc := .rw, pers := .saved, dflt := 36, hi := 63,
    maxLen := 1, sel := .cout }
/-- 0x2303:05 OVL_SHIFT (R467). -/
def ovlShift : Ent :=
  { i := 0x2303, s := 5, name := "OVL_SHIFT", ty := .u8, acc := .rw, pers := .saved, dflt := 4, hi := 8,
    maxLen := 1, sel := .cout }
/-- 0x2303:06 OVL_VC (R467). -/
def ovlVc : Ent :=
  { i := 0x2303, s := 6, name := "OVL_VC", ty := .u8, acc := .rw, pers := .saved, dflt := 1, hi := 15, maxLen := 1,
    sel := .cout }
/-- 0x2304:01 MOSAIC_QUEUE (R467). -/
def mosaicQueue : Ent :=
  { i := 0x2304, s := 1, name := "MOSAIC_QUEUE", ty := .u16, acc := .rw, pers := .saved, dflt := 65535,
    hi := 65535, maxLen := 2, sel := .cout }
/-- 0x2304:02 MOSAIC_MAX_AGE (R467). -/
def mosaicMaxAge : Ent :=
  { i := 0x2304, s := 2, name := "MOSAIC_MAX_AGE", ty := .u16, acc := .rw, pers := .saved, dflt := 1000, lo := 10,
    hi := 60000, maxLen := 2, sel := .cout }
/-- 0x2304:03 MOSAIC_VC (R467). -/
def mosaicVc : Ent :=
  { i := 0x2304, s := 3, name := "MOSAIC_VC", ty := .u8, acc := .rw, pers := .saved, dflt := 2, hi := 15,
    maxLen := 1, sel := .cout }
/-- 0x2305:01 FRAMES_SENT (R467). -/
def framesSent : Ent :=
  { i := 0x2305, s := 1, name := "FRAMES_SENT", ty := .u64, acc := .ro, hi := 18446744073709551615, maxLen := 8,
    wr := .integrate, sel := .cout }
/-- 0x2305:02 CROPS_DROPPED (R467). -/
def cropsDropped : Ent :=
  { i := 0x2305, s := 2, name := "CROPS_DROPPED", ty := .u64, acc := .ro, hi := 18446744073709551615, maxLen := 8,
    wr := .integrate, sel := .cout }
/-- 0x2305:03 OVL_DROPPED (R467). -/
def ovlDropped : Ent :=
  { i := 0x2305, s := 3, name := "OVL_DROPPED", ty := .u64, acc := .ro, hi := 18446744073709551615, maxLen := 8,
    wr := .integrate, sel := .cout }
/-- 0x2305:04 MOSAIC_DROPPED (R467). -/
def mosaicDropped : Ent :=
  { i := 0x2305, s := 4, name := "MOSAIC_DROPPED", ty := .u64, acc := .ro, hi := 18446744073709551615, maxLen := 8,
    wr := .integrate, sel := .cout }
/-- 0x2305:05 COUT_LINES_LOST_COUNT (R467). -/
def coutLinesLostCount : Ent :=
  { i := 0x2305, s := 5, name := "COUT_LINES_LOST_COUNT", ty := .u64, acc := .ro, hi := 18446744073709551615,
    maxLen := 8, wr := .integrate, sel := .cout }

/-- The entries of R467, in the order of its table. -/
def list21 : List Ent :=
  [coutSelect, coutEnable, coutLanes, coutLaneRate, outMaxRate, cropCams, cropVerdicts, cropMaxRate] ++
  [cropMaxAge, cropVc, ovlCam, ovlDecimate, ovlLines, ovlRgb, ovlShift, ovlVc] ++
  [mosaicQueue, mosaicMaxAge, mosaicVc, framesSent, cropsDropped, ovlDropped, mosaicDropped, coutLinesLostCount]

/-! ### R481 -/

/-- 0x6000:01 PD_STATE (R481). -/
def pdState : Ent :=
  { i := 0x6000, s := 1, name := "PD_STATE", ty := .u64, acc := .ro, dflt := 9223372036854775808,
    hi := 18446744073709551615, maxLen := 8, wr := .integrate }
/-- 0x6000:02 PD_AUTO (R481). -/
def pdAuto : Ent :=
  { i := 0x6000, s := 2, name := "PD_AUTO", ty := .u64, acc := .rws, pers := .saved, dflt := 1125899906842623,
    hi := 18446744073709551615, maxLen := 8, wr := .integrate }
/-- 0x6000:03 PD_REFUSED_COUNT (R481). -/
def pdRefusedCount : Ent :=
  { i := 0x6000, s := 3, name := "PD_REFUSED_COUNT", ty := .u64, acc := .ro, hi := 18446744073709551615,
    maxLen := 8, wr := .integrate }
/-- 0x6001:01 POWER_CAP (R481). -/
def powerCap : Ent :=
  { i := 0x6001, s := 1, name := "POWER_CAP", ty := .u16, acc := .rw, pers := .saved, dflt := 470, lo := 200,
    hi := 470, maxLen := 2, wr := .integrate }
/-- 0x6001:02 CAP_WINDOW (R481). -/
def capWindow : Ent :=
  { i := 0x6001, s := 2, name := "CAP_WINDOW", ty := .u16, acc := .rw, pers := .saved, dflt := 1000, lo := 100,
    hi := 100000, maxLen := 2, wr := .integrate }
/-- 0x6001:03 POWER_NOW (R481). -/
def powerNow : Ent :=
  { i := 0x6001, s := 3, name := "POWER_NOW", ty := .u16, acc := .ro, hi := 65535, maxLen := 2, wr := .integrate }
/-- 0x6001:04 CAP_UNMET (R481). -/
def capUnmet : Ent :=
  { i := 0x6001, s := 4, name := "CAP_UNMET", ty := .bool, acc := .ro, hi := 1, maxLen := 1, wr := .integrate }
/-- 0x6001:05 CAP_STEPS (R481). -/
def capSteps : Ent :=
  { i := 0x6001, s := 5, name := "CAP_STEPS", ty := .u64, acc := .ro, hi := 18446744073709551615, maxLen := 8,
    wr := .integrate }
/-- 0x6100:01 ISLAND_SELECT (R481). -/
def islandSelect : Ent :=
  { i := 0x6100, s := 1, name := "ISLAND_SELECT", ty := .u8, acc := .rw, hi := 40, maxLen := 1, wr := .view }
/-- 0x6101:01 ISLAND_FREQ_NOW (R481). -/
def islandFreqNow : Ent :=
  { i := 0x6101, s := 1, name := "ISLAND_FREQ_NOW", ty := .u16, acc := .ro, hi := 65535, maxLen := 2,
    wr := .integrate, sel := .island }
/-- 0x6101:02 ISLAND_VOLT_NOW (R481). -/
def islandVoltNow : Ent :=
  { i := 0x6101, s := 2, name := "ISLAND_VOLT_NOW", ty := .u16, acc := .ro, hi := 65535, maxLen := 2,
    wr := .integrate, sel := .island }
/-- 0x6101:03 ISLAND_POINT (R481). -/
def islandPoint : Ent :=
  { i := 0x6101, s := 3, name := "ISLAND_POINT", ty := .u8, acc := .ro, hi := 255, maxLen := 1, wr := .integrate,
    sel := .island }
/-- 0x6101:04 POINT_FREQ (R481). -/
def pointFreq : Ent :=
  { i := 0x6101, s := 4, n := 8, name := "POINT_FREQ", ty := .u16, acc := .ro, pers := .factory, hi := 65535,
    maxLen := 2, wr := .integrate, sel := .island }
/-- 0x6101:0C POINT_VOLT (R481). -/
def pointVolt : Ent :=
  { i := 0x6101, s := 12, n := 8, name := "POINT_VOLT", ty := .u16, acc := .ro, hi := 65535, maxLen := 2,
    wr := .integrate, sel := .island }
/-- 0x6200:01 AGE_PERIOD (R481). -/
def agePeriod : Ent :=
  { i := 0x6200, s := 1, name := "AGE_PERIOD", ty := .u16, acc := .rw, pers := .saved, dflt := 168, lo := 24,
    hi := 720, maxLen := 2, wr := .service }
/-- 0x6200:02 GUARD_PS (R481). -/
def guardPs : Ent :=
  { i := 0x6200, s := 2, name := "GUARD_PS", ty := .u8, acc := .ro, pers := .factory, dflt := 12, hi := 255,
    maxLen := 1, wr := .integrate }
/-- 0x6200:03 PLAN_SEQ (R481). -/
def planSeq : Ent :=
  { i := 0x6200, s := 3, name := "PLAN_SEQ", ty := .u32, acc := .ro, hi := 4294967295, maxLen := 4,
    wr := .integrate }
/-- 0x6200:04 PLAN_STATE (R481). -/
def planState : Ent :=
  { i := 0x6200, s := 4, name := "PLAN_STATE", ty := .u8, acc := .ro, dflt := 3, lo := 1, hi := 3, maxLen := 1,
    wr := .integrate }
/-- 0x6200:05 MARGIN_WARN_YEARS (R481). -/
def marginWarnYears : Ent :=
  { i := 0x6200, s := 5, name := "MARGIN_WARN_YEARS", ty := .u16, acc := .rw, pers := .saved, dflt := 20,
    hi := 200, maxLen := 2, wr := .integrate }
/-- 0x6201:01 DEGRADATION (R481). -/
def degradation : Ent :=
  { i := 0x6201, s := 1, name := "DEGRADATION", ty := .u32, acc := .ro, hi := 4294967295, maxLen := 4,
    wr := .integrate, sel := .island }
/-- 0x6201:02 SLACK (R481). -/
def slack : Ent :=
  { i := 0x6201, s := 2, name := "SLACK", ty := .i16, acc := .ro, lo := -32768, hi := 32767, maxLen := 2,
    wr := .integrate, sel := .island }
/-- 0x6201:03 MARGIN_MV (R481). -/
def marginMv : Ent :=
  { i := 0x6201, s := 3, name := "MARGIN_MV", ty := .u16, acc := .ro, hi := 65535, maxLen := 2, wr := .integrate,
    sel := .island }
/-- 0x6201:04 MARGIN_YEARS (R481). -/
def marginYears : Ent :=
  { i := 0x6201, s := 4, name := "MARGIN_YEARS", ty := .u16, acc := .ro, dflt := 65535, hi := 65535, maxLen := 2,
    wr := .integrate, sel := .island }
/-- 0x6201:05 POINTS_RETIRED (R481). -/
def pointsRetired : Ent :=
  { i := 0x6201, s := 5, name := "POINTS_RETIRED", ty := .u8, acc := .ro, hi := 255, maxLen := 1, wr := .integrate,
    sel := .island }

/-- The entries of R481, in the order of its table. -/
def list22 : List Ent :=
  [pdState, pdAuto, pdRefusedCount, powerCap, capWindow, powerNow, capUnmet, capSteps] ++
  [islandSelect, islandFreqNow, islandVoltNow, islandPoint, pointFreq, pointVolt, agePeriod, guardPs] ++
  [planSeq, planState, marginWarnYears, degradation, slack, marginMv, marginYears, pointsRetired]

/-! ### R501 -/

/-- 0x7000:01 SECURITY_STATE (R501). -/
def securityState : Ent :=
  { i := 0x7000, s := 1, name := "SECURITY_STATE", ty := .u8, acc := .ro, hi := 2, maxLen := 1,
    wr := .integrate }
/-- 0x7001:00 IDENTITY_CERT (R501). -/
def identityCert : Ent :=
  { i := 0x7001, s := 0, name := "IDENTITY_CERT", ty := .domain, acc := .ro, pers := .factory,
    maxLen := 1073741824, wr := .integrate }
/-- 0x7002:00 GRADE_CERT (R501). -/
def gradeCert : Ent :=
  { i := 0x7002, s := 0, name := "GRADE_CERT", ty := .domain, acc := .ro, pers := .factory, maxLen := 1073741824,
    wr := .integrate }
/-- 0x7003:01 INTEGRATOR_KEY0 (R501). -/
def integratorKey0 : Ent :=
  { i := 0x7003, s := 1, name := "INTEGRATOR_KEY0", ty := .octets, acc := .rw, pers := .saved,
    dfltB := List.replicate 60 0, maxLen := 60, wr := .integrate }
/-- 0x7003:02 INTEGRATOR_KEY1 (R501). -/
def integratorKey1 : Ent :=
  { i := 0x7003, s := 2, name := "INTEGRATOR_KEY1", ty := .octets, acc := .rw, pers := .saved,
    dfltB := List.replicate 60 0, maxLen := 60, wr := .integrate }
/-- 0x7004:01 INT_VERSION_MIN (R501). -/
def intVersionMin : Ent :=
  { i := 0x7004, s := 1, n := 4, name := "INT_VERSION_MIN", ty := .u32, acc := .rw, pers := .saved,
    hi := 4294967295, maxLen := 4, wr := .integrate }
/-- 0x7005:01 ATTEST_NONCE (R501). -/
def attestNonce : Ent := { i := 0x7005, s := 1, name := "ATTEST_NONCE", ty := .octets, acc := .wo, maxLen := 32 }
/-- 0x7005:02 ATTEST_REPORT (R501). -/
def attestReport : Ent :=
  { i := 0x7005, s := 2, name := "ATTEST_REPORT", ty := .domain, acc := .ro, maxLen := 2096, wr := .integrate }
/-- 0x7005:03 MARKS_BURNT (R501). -/
def marksBurnt : Ent :=
  { i := 0x7005, s := 3, name := "MARKS_BURNT", ty := .u16, acc := .ro, hi := 4096, maxLen := 2,
    wr := .integrate }
/-- 0x7005:04 ATTEST_LEAVES_LEFT (R501). -/
def attestLeavesLeft : Ent :=
  { i := 0x7005, s := 4, name := "ATTEST_LEAVES_LEFT", ty := .u32, acc := .ro, hi := 4294967295, maxLen := 4,
    wr := .integrate }
/-- 0x7005:05 ATTEST_COUNT (R501). -/
def attestCount : Ent :=
  { i := 0x7005, s := 5, name := "ATTEST_COUNT", ty := .u64, acc := .ro, hi := 18446744073709551615, maxLen := 8,
    wr := .integrate }
/-- 0x7006:01 DEBUG_CHALLENGE (R501). -/
def debugChallenge : Ent :=
  { i := 0x7006, s := 1, name := "DEBUG_CHALLENGE", ty := .octets, acc := .ro, maxLen := 32, rd := .service,
    wr := .integrate }
/-- 0x7006:02 DEBUG_TOKEN (R501). -/
def debugToken : Ent :=
  { i := 0x7006, s := 2, name := "DEBUG_TOKEN", ty := .domain, acc := .wo, maxLen := 1073741824, wr := .service }
/-- 0x7007:01 TAMPER_COUNT (R501). -/
def tamperCount : Ent :=
  { i := 0x7007, s := 1, name := "TAMPER_COUNT", ty := .u64, acc := .ro, hi := 18446744073709551615, maxLen := 8,
    wr := .integrate }
/-- 0x7007:02 SIG_FAIL_COUNT (R501). -/
def sigFailCount : Ent :=
  { i := 0x7007, s := 2, name := "SIG_FAIL_COUNT", ty := .u64, acc := .ro, hi := 18446744073709551615, maxLen := 8,
    wr := .integrate }

/-- The entries of R501, in the order of its table. -/
def list23 : List Ent :=
  [securityState, identityCert, gradeCert, integratorKey0, integratorKey1, intVersionMin, attestNonce, attestReport] ++
  [marksBurnt, attestLeavesLeft, attestCount, debugChallenge, debugToken, tamperCount, sigFailCount]

/-! ### R519 -/

/-- 0x8000:01 REC_NEWEST_SEQ (R519). -/
def recNewestSeq : Ent :=
  { i := 0x8000, s := 1, name := "REC_NEWEST_SEQ", ty := .u32, acc := .ro, hi := 4294967295, maxLen := 4,
    wr := .integrate }
/-- 0x8000:02 REC_OLDEST_SEQ (R519). -/
def recOldestSeq : Ent :=
  { i := 0x8000, s := 2, name := "REC_OLDEST_SEQ", ty := .u32, acc := .ro, hi := 4294967295, maxLen := 4,
    wr := .integrate }
/-- 0x8000:03 REC_FIRST_USED (R519). -/
def recFirstUsed : Ent :=
  { i := 0x8000, s := 3, name := "REC_FIRST_USED", ty := .u16, acc := .ro, hi := 1024, maxLen := 2,
    wr := .integrate }
/-- 0x8000:04 REC_KEY_USED (R519). -/
def recKeyUsed : Ent :=
  { i := 0x8000, s := 4, name := "REC_KEY_USED", ty := .u16, acc := .ro, hi := 256, maxLen := 2,
    wr := .integrate }
/-- 0x8000:05 REC_BACKLOG (R519). -/
def recBacklog : Ent :=
  { i := 0x8000, s := 5, name := "REC_BACKLOG", ty := .u32, acc := .ro, hi := 4294967295, maxLen := 4,
    wr := .integrate }
/-- 0x8000:06 REC_DROPPED (R519). -/
def recDropped : Ent :=
  { i := 0x8000, s := 6, name := "REC_DROPPED", ty := .u64, acc := .ro, hi := 18446744073709551615, maxLen := 8,
    wr := .integrate }
/-- 0x8000:07 REC_FLASH_ERRORS (R519). -/
def recFlashErrors : Ent :=
  { i := 0x8000, s := 7, name := "REC_FLASH_ERRORS", ty := .u64, acc := .ro, hi := 18446744073709551615,
    maxLen := 8, wr := .integrate }
/-- 0x8000:08 REC_KEY_FULL (R519). -/
def recKeyFull : Ent :=
  { i := 0x8000, s := 8, name := "REC_KEY_FULL", ty := .u64, acc := .ro, hi := 18446744073709551615, maxLen := 8,
    wr := .integrate }
/-- 0x8000:09 REC_CLEAR (R519). -/
def recClear : Ent :=
  { i := 0x8000, s := 9, name := "REC_CLEAR", ty := .bool, acc := .wo, hi := 1, maxLen := 1, wr := .service }
/-- 0x8000:0A OP_HOURS_NOW (R519). -/
def opHoursNow : Ent :=
  { i := 0x8000, s := 10, name := "OP_HOURS_NOW", ty := .u32, acc := .ro, hi := 4294967295, maxLen := 4,
    wr := .integrate }
/-- 0x8000:0B POWER_CYCLES_NOW (R519). -/
def powerCyclesNow : Ent :=
  { i := 0x8000, s := 11, name := "POWER_CYCLES_NOW", ty := .u32, acc := .ro, hi := 4294967295, maxLen := 4,
    wr := .integrate }
/-- 0x8001:01 REC_AREA_SELECT (R519). -/
def recAreaSelect : Ent :=
  { i := 0x8001, s := 1, name := "REC_AREA_SELECT", ty := .u8, acc := .rw, hi := 2, maxLen := 1, wr := .view }
/-- 0x8001:02 REC_CURSOR_SELECT (R519). -/
def recCursorSelect : Ent :=
  { i := 0x8001, s := 2, name := "REC_CURSOR_SELECT", ty := .u32, acc := .rw, hi := 4294967295, maxLen := 4,
    wr := .view }
/-- 0x8002:01 REC_WINDOW (R519). -/
def recWindow : Ent :=
  { i := 0x8002, s := 1, n := 16, name := "REC_WINDOW", ty := .octets, acc := .ro, maxLen := 64,
    wr := .integrate }
/-- 0x8100:01 COUNTER_PERIOD (R519). -/
def counterPeriod : Ent :=
  { i := 0x8100, s := 1, name := "COUNTER_PERIOD", ty := .u32, acc := .rw, pers := .saved, dflt := 1000, lo := 100,
    hi := 10000000, maxLen := 4, wr := .integrate }
/-- 0x8100:02 COUNTER_PAGE_BASE (R519). -/
def counterPageBase : Ent :=
  { i := 0x8100, s := 2, name := "COUNTER_PAGE_BASE", ty := .u64, acc := .rws, pers := .saved, dflt := 8606711808,
    hi := 18446744073709551615, step := 65536, maxLen := 8, wr := .integrate }
/-- 0x8100:03 SNAP_SEQ (R519). -/
def snapSeq : Ent :=
  { i := 0x8100, s := 3, name := "SNAP_SEQ", ty := .u32, acc := .ro, hi := 4294967295, maxLen := 4,
    wr := .integrate }
/-- 0x8100:04 COUNTER_PAGE (R519). -/
def counterPage : Ent :=
  { i := 0x8100, s := 4, name := "COUNTER_PAGE", ty := .domain, acc := .ro, maxLen := 65536, rd := .operate,
    wr := .integrate }
/-- 0x8100:05 BLOCK_SELECT (R519). -/
def blockSelect : Ent :=
  { i := 0x8100, s := 5, name := "BLOCK_SELECT", ty := .u16, acc := .rw, hi := 417, maxLen := 2, wr := .view }
/-- 0x8101:01 PC_EVENT (R519). -/
def pcEvent : Ent :=
  { i := 0x8101, s := 1, n := 8, name := "PC_EVENT", ty := .u8, acc := .rw, pers := .saved, hi := 255, maxLen := 1,
    wr := .integrate, sel := .block }
/-- 0x8101:09 PC_CHAIN (R519). -/
def pcChain : Ent :=
  { i := 0x8101, s := 9, name := "PC_CHAIN", ty := .u8, acc := .rw, pers := .saved, hi := 15, maxLen := 1,
    wr := .integrate, sel := .block }
/-- 0x8102:01 PC_VALUE (R519). -/
def pcValue : Ent :=
  { i := 0x8102, s := 1, n := 8, name := "PC_VALUE", ty := .u64, acc := .ro, hi := 18446744073709551615,
    maxLen := 8, rd := .operate, wr := .integrate, sel := .block }
/-- 0x8103:01 DISCARD_PILE (R519). -/
def discardPile : Ent :=
  { i := 0x8103, s := 1, name := "DISCARD_PILE", ty := .u64, acc := .ro, hi := 18446744073709551615, maxLen := 8,
    wr := .integrate }
/-- 0x8103:02 DISCARD_TILES (R519). -/
def discardTiles : Ent :=
  { i := 0x8103, s := 2, name := "DISCARD_TILES", ty := .u64, acc := .ro, hi := 18446744073709551615, maxLen := 8,
    wr := .integrate }
/-- 0x8103:03 DISCARD_RETURNS (R519). -/
def discardReturns : Ent :=
  { i := 0x8103, s := 3, name := "DISCARD_RETURNS", ty := .u64, acc := .ro, hi := 18446744073709551615,
    maxLen := 8, wr := .integrate }
/-- 0x8103:04 DISCARD_WRITES (R519). -/
def discardWrites : Ent :=
  { i := 0x8103, s := 4, name := "DISCARD_WRITES", ty := .u64, acc := .ro, hi := 18446744073709551615, maxLen := 8,
    wr := .integrate }
/-- 0x8103:05 DISCARD_FABRIC (R519). -/
def discardFabric : Ent :=
  { i := 0x8103, s := 5, name := "DISCARD_FABRIC", ty := .u64, acc := .ro, hi := 18446744073709551615, maxLen := 8,
    wr := .integrate }

/-- The entries of R519, in the order of its table. -/
def list24 : List Ent :=
  [recNewestSeq, recOldestSeq, recFirstUsed, recKeyUsed, recBacklog, recDropped, recFlashErrors, recKeyFull] ++
  [recClear, opHoursNow, powerCyclesNow, recAreaSelect, recCursorSelect, recWindow, counterPeriod, counterPageBase] ++
  [snapSeq, counterPage, blockSelect, pcEvent, pcChain, pcValue, discardPile, discardTiles] ++
  [discardReturns, discardWrites, discardFabric]

/-! ### R537 -/

/-- 0x8200:01 DRAIN_TIMEOUT (R537). -/
def drainTimeout : Ent :=
  { i := 0x8200, s := 1, name := "DRAIN_TIMEOUT", ty := .u32, acc := .rw, pers := .saved, dflt := 1000, lo := 10,
    hi := 100000, maxLen := 4, wr := .integrate }
/-- 0x8200:02 HEARTBEAT_TIMEOUT (R537). -/
def heartbeatTimeout : Ent :=
  { i := 0x8200, s := 2, name := "HEARTBEAT_TIMEOUT", ty := .u16, acc := .rw, pers := .saved, dflt := 10, lo := 2,
    hi := 1000, maxLen := 2, wr := .integrate }
/-- 0x8200:03 AUTO_RESET (R537). -/
def autoReset : Ent :=
  { i := 0x8200, s := 3, name := "AUTO_RESET", ty := .bool, acc := .rw, pers := .saved, dflt := 1, hi := 1,
    maxLen := 1, wr := .integrate }
/-- 0x8200:04 RESET_AFTER (R537). -/
def resetAfter : Ent :=
  { i := 0x8200, s := 4, name := "RESET_AFTER", ty := .u16, acc := .rw, pers := .saved, dflt := 1000, lo := 100,
    hi := 60000, maxLen := 2, wr := .integrate }
/-- 0x8200:05 FAULT_LIMIT (R537). -/
def faultLimit : Ent :=
  { i := 0x8200, s := 5, name := "FAULT_LIMIT", ty := .u8, acc := .rw, pers := .saved, dflt := 3, lo := 1,
    hi := 255, maxLen := 1, wr := .integrate }
/-- 0x8200:06 COOLANT_WARN (R537). -/
def coolantWarn : Ent :=
  { i := 0x8200, s := 6, name := "COOLANT_WARN", ty := .u8, acc := .rw, pers := .saved, dflt := 40, lo := 10,
    hi := 70, maxLen := 1, wr := .integrate }
/-- 0x8200:07 ESCALATION_LEVEL (R537). -/
def escalationLevel : Ent :=
  { i := 0x8200, s := 7, name := "ESCALATION_LEVEL", ty := .u8, acc := .ro, hi := 3, maxLen := 1,
    wr := .integrate }
/-- 0x8200:08 ESCALATION_CAUSE (R537). -/
def escalationCause : Ent :=
  { i := 0x8200, s := 8, name := "ESCALATION_CAUSE", ty := .u32, acc := .ro, hi := 4294967295, maxLen := 4,
    wr := .integrate }
/-- 0x8200:09 UNIT_RELEASE (R537). -/
def unitRelease : Ent :=
  { i := 0x8200, s := 9, name := "UNIT_RELEASE", ty := .u32, acc := .wo, hi := 4294967295, maxLen := 4,
    wr := .service }
/-- 0x8201:01 TRUMP_FAULT_STOPS (R537). -/
def trumpFaultStops : Ent :=
  { i := 0x8201, s := 1, name := "TRUMP_FAULT_STOPS", ty := .u64, acc := .ro, hi := 18446744073709551615,
    maxLen := 8, wr := .integrate }
/-- 0x8201:02 DRAIN_POISONED (R537). -/
def drainPoisoned : Ent :=
  { i := 0x8201, s := 2, name := "DRAIN_POISONED", ty := .u64, acc := .ro, hi := 18446744073709551615, maxLen := 8,
    wr := .integrate }
/-- 0x8201:03 DRAIN_INPUT_DROPPED (R537). -/
def drainInputDropped : Ent :=
  { i := 0x8201, s := 3, name := "DRAIN_INPUT_DROPPED", ty := .u64, acc := .ro, hi := 18446744073709551615,
    maxLen := 8, wr := .integrate }
/-- 0x8201:04 HEARTBEAT_LOSSES (R537). -/
def heartbeatLosses : Ent :=
  { i := 0x8201, s := 4, name := "HEARTBEAT_LOSSES", ty := .u64, acc := .ro, hi := 18446744073709551615,
    maxLen := 8, wr := .integrate }
/-- 0x8201:05 UNITS_HELD (R537). -/
def unitsHeld : Ent :=
  { i := 0x8201, s := 5, name := "UNITS_HELD", ty := .u16, acc := .ro, hi := 65535, maxLen := 2,
    wr := .integrate }
/-- 0x8202:01 SENSOR_SELECT (R537). -/
def sensorSelect : Ent :=
  { i := 0x8202, s := 1, name := "SENSOR_SELECT", ty := .u8, acc := .rw, hi := 72, maxLen := 1, wr := .view }
/-- 0x8203:01 SENSOR_VALUE (R537). -/
def sensorValue : Ent :=
  { i := 0x8203, s := 1, name := "SENSOR_VALUE", ty := .i32, acc := .ro, lo := -2147483648, hi := 2147483647,
    maxLen := 4, wr := .integrate, sel := .sensor }
/-- 0x8203:02 SENSOR_STATE (R537). -/
def sensorState : Ent :=
  { i := 0x8203, s := 2, name := "SENSOR_STATE", ty := .u8, acc := .ro, hi := 5, maxLen := 1, wr := .integrate,
    sel := .sensor }
/-- 0x8203:03 SENSOR_PEAK (R537). -/
def sensorPeak : Ent :=
  { i := 0x8203, s := 3, name := "SENSOR_PEAK", ty := .i32, acc := .ro, lo := -2147483648, hi := 2147483647,
    maxLen := 4, wr := .integrate, sel := .sensor }

/-- The entries of R537, in the order of its table. -/
def list25 : List Ent :=
  [drainTimeout, heartbeatTimeout, autoReset, resetAfter, faultLimit, coolantWarn, escalationLevel, escalationCause] ++
  [unitRelease, trumpFaultStops, drainPoisoned, drainInputDropped, heartbeatLosses, unitsHeld, sensorSelect, sensorValue] ++
  [sensorState, sensorPeak]

/-! ### R557 -/

/-- 0x1020:01 MODULE_PHASE (R557). -/
def modulePhase : Ent :=
  { i := 0x1020, s := 1, name := "MODULE_PHASE", ty := .u8, acc := .ro, hi := 4, maxLen := 1, wr := .integrate }
/-- 0x1020:02 PHASE_REQUEST (R557). -/
def phaseRequest : Ent :=
  { i := 0x1020, s := 2, name := "PHASE_REQUEST", ty := .u8, acc := .wo, lo := 1, hi := 3, maxLen := 1,
    wr := .integrate }
/-- 0x1020:03 RESET_REQUEST (R557). -/
def resetRequest : Ent :=
  { i := 0x1020, s := 3, name := "RESET_REQUEST", ty := .u8, acc := .wo, lo := 1, hi := 2, maxLen := 1,
    wr := .integrate }
/-- 0x1020:04 LAST_RESET_CAUSE (R557). -/
def lastResetCause : Ent :=
  { i := 0x1020, s := 4, name := "LAST_RESET_CAUSE", ty := .u8, acc := .ro, lo := 1, hi := 5, maxLen := 1,
    wr := .integrate }
/-- 0x1020:05 TRUMP_AUTOSTART (R557). -/
def trumpAutostart : Ent :=
  { i := 0x1020, s := 5, name := "TRUMP_AUTOSTART", ty := .bool, acc := .rw, pers := .saved, hi := 1, maxLen := 1,
    wr := .integrate }
/-- 0x1021:00 FW_STAGE (R557). -/
def fwStage : Ent :=
  { i := 0x1021, s := 0, name := "FW_STAGE", ty := .domain, acc := .wo, maxLen := 1073741824, wr := .integrate }
/-- 0x1022:01 FW_RUNNING_SLOT (R557). -/
def fwRunningSlot : Ent :=
  { i := 0x1022, s := 1, name := "FW_RUNNING_SLOT", ty := .u8, acc := .ro, hi := 1, maxLen := 1,
    wr := .integrate }
/-- 0x1022:02 FW_COMMITTED_SLOT (R557). -/
def fwCommittedSlot : Ent :=
  { i := 0x1022, s := 2, name := "FW_COMMITTED_SLOT", ty := .u8, acc := .ro, hi := 1, maxLen := 1,
    wr := .integrate }
/-- 0x1022:03 FW_ATTEMPTS (R557). -/
def fwAttempts : Ent :=
  { i := 0x1022, s := 3, name := "FW_ATTEMPTS", ty := .u8, acc := .ro, hi := 3, maxLen := 1, wr := .integrate }
/-- 0x1022:04 FW_FALLBACKS (R557). -/
def fwFallbacks : Ent :=
  { i := 0x1022, s := 4, name := "FW_FALLBACKS", ty := .u64, acc := .ro, hi := 18446744073709551615, maxLen := 8,
    wr := .integrate }
/-- 0x1023:00 MODEL_STAGE (R557). -/
def modelStage : Ent :=
  { i := 0x1023, s := 0, name := "MODEL_STAGE", ty := .domain, acc := .wo, maxLen := 1073741824,
    wr := .integrate }
/-- 0x1024:01 MODEL_COMMIT_STATE (R557). -/
def modelCommitState : Ent :=
  { i := 0x1024, s := 1, name := "MODEL_COMMIT_STATE", ty := .u8, acc := .ro, hi := 4, maxLen := 1,
    wr := .integrate }
/-- 0x1024:02 MODEL_ACTIVATE_MODE (R557). -/
def modelActivateMode : Ent :=
  { i := 0x1024, s := 2, name := "MODEL_ACTIVATE_MODE", ty := .u8, acc := .rw, pers := .saved, hi := 1,
    maxLen := 1, wr := .integrate }
/-- 0x1024:03 MS_COMMITTED_SLOT (R557). -/
def msCommittedSlot : Ent :=
  { i := 0x1024, s := 3, name := "MS_COMMITTED_SLOT", ty := .u8, acc := .ro, dflt := 1, lo := 1, hi := 2, maxLen := 1,
    wr := .integrate }
/-- 0x1024:04 MODEL_STAGED_BYTES (R557). -/
def modelStagedBytes : Ent :=
  { i := 0x1024, s := 4, name := "MODEL_STAGED_BYTES", ty := .u64, acc := .ro, hi := 18446744073709551615,
    maxLen := 8, wr := .integrate }
/-- 0x1024:05 MODEL_HBM_ROOM (R557). -/
def modelHbmRoom : Ent :=
  { i := 0x1024, s := 5, name := "MODEL_HBM_ROOM", ty := .u64, acc := .ro, hi := 18446744073709551615, maxLen := 8,
    wr := .integrate }

/-- The entries of R557, in the order of its table. -/
def list26 : List Ent :=
  [modulePhase, phaseRequest, resetRequest, lastResetCause, trumpAutostart, fwStage, fwRunningSlot, fwCommittedSlot] ++
  [fwAttempts, fwFallbacks, modelStage, modelCommitState, modelActivateMode, msCommittedSlot, modelStagedBytes, modelHbmRoom]

end Sys2Proof.Machine.Dict
end

