-- ==== Sys2Proof/Machine/Dict.lean ====
section
/-! DEFINITION. The whole object dictionary and the finding of an entry by index and sub-index (R413, R438). -/

namespace Sys2Proof.Machine.Dict

/-- Every entry the chapters list. -/
def all : List Ent :=
  list02 ++ list03 ++ list04 ++ list05 ++ list06 ++ list07 ++
  list08 ++ list09 ++ list10 ++ list11 ++ list12 ++
  list13 ++ list14 ++ list15 ++ list16 ++ list17 ++ list18 ++
  list19 ++ list20 ++ list21 ++ list22 ++ list23 ++ list24 ++
  list25 ++ list26

/-- Does the entry list index `i`, sub-index `s`? -/
def covers (e : Ent) (i s : Nat) : Bool := e.i == i && decide (e.s ≤ s) && decide (s < e.s + e.n)

/-- The entry at index `i`, sub-index `s` (R413); none where no chapter lists one (R438). -/
def find (i s : Nat) : Option Ent := all.find? fun e => covers e i s

end Sys2Proof.Machine.Dict
end

