-- ==== Sys2Proof/Machine/TypesBelt.lean ====
section
/-! DEFINITION. The state types of the belt: encoder channels, DEC and TRK, the Dealer and its strings, field I/O
(chapters 9 to 12). -/

namespace Sys2Proof.Machine

/-- One entry of an edge ring (R225, R247): device time in ns, direction (true: forward), position after the edge. -/
structure Edge where
  time : Int
  fwd : Bool
  pos : Int
deriving DecidableEq, Repr

/-- An encoder channel (R244 to R258). `ring` lists the newest edge first; `fresh` counts its newest entries with no
break (R257) behind them; `t16` is T in 1/65,536 ns, valid where `valid`; positions are signed 48-bit counts. `a`, `b`
and `z` are the accepted levels of the three receivers, the switches U, V and W in mode 2 (R250); `frameAt` is the time of
the SSI frame under way and `frameTb` when the last one began (R251); `faults` lists the faults of the last second
(R259). -/
structure Encoder where
  pos : Int := 0
  a : Bool := false
  b : Bool := false
  z : Bool := false
  ring : List Edge := []
  fresh : Nat := 0
  t16 : Nat := 0
  valid : Bool := false
  lineFault : List Nat := []
  magRef : Option Nat := none
  ssiLast : Option Nat := none
  ssiTime : Int := 0
  ssiFails : Nat := 0
  jumpRun : Nat := 0
  jumpLast : Nat := 0
  frameAt : Option Int := none
  frameTb : Option Nat := none
  faults : List Nat := []
  faultTold : Option Nat := none
deriving DecidableEq, Repr

/-- States of a window's part on one string (R232, R227). -/
inductive PartState
  | unopened
  | held (openedAt : Nat)
  | ended
  | missed
  | cut
deriving DecidableEq, Repr

/-- A window's part on one string (R224): the string, its valves by bit, and its state. -/
structure Part where
  string : Nat
  valves : List Nat
  st : PartState := .unopened
deriving DecidableEq, Repr

/-- A window (R221, R222). -/
structure Window where
  id : Nat
  enc : Nat
  start : Int
  stop : Int
  first : Nat
  last : Nat
  parts : List Part := []
  opened : Bool := false
  told : Bool := false
deriving DecidableEq, Repr

/-- A committed latch (R234): when LATCH rises (time-base count and device time), the predicted position at it, the
image; the windows whose part on the string opens at it (with whether that is later than predicted), is missed, or
ends; the valves capped by it, and those that then stay clear (R233); whether it clears a stalled string (R227). -/
structure Latch where
  tb : Nat
  dev : Nat
  pos : Int
  image : BitVec 256
  opens : List (Nat × Bool) := []
  misses : List Nat := []
  ends : List Nat := []
  caps : List Nat := []
  capped : List Nat := []
  stall : Bool := false
deriving DecidableEq, Repr

/-- A valve string (R229 to R240). `committed` lists the latches to come, oldest first; `since` gives, of each valve set,
when it was set; `capped` the valves cleared under R233; `zero` the all-zero latch it owes (R240). -/
structure VString where
  image : BitVec 256 := 0
  prev : BitVec 256 := 0
  lastLatch : Option Nat := none
  committed : List Latch := []
  since : Tab Nat := []
  capped : List Nat := []
  echoBad : Bool := false
  compared : Bool := false
  zero : Option Latch := none
  silent : Bool := false
  change : Bool := false
deriving DecidableEq, Repr

/-- The Dealer (R221 to R241): a window by slot, windows whose slot was taken while they still close, stalls by
encoder channel, and the per-second limit of EJECT_MISSED records. -/
structure Dealer where
  slots : Tab Window := []
  closing : List Window := []
  strings : Tab VString := []
  stalled : List Nat := []
  missedAt : Nat := 0
  missedCount : Nat := 0
deriving DecidableEq, Repr

/-- A part of an object at DEC, or a whole one (R200, R203). -/
structure Detect where
  port : Nat
  edgeL : Bool := false
  edgeR : Bool := false
  colFirst : Nat
  colLast : Nat
  posFirst : Int
  posLast : Int
  area : Nat
  scores : List Nat
  poisoned : Bool := false
  late : Bool := false
  incomplete : Bool := false
  deadline : Nat := 0
  group : Nat := 0
deriving DecidableEq, Repr

/-- A token bucket: its level in billionths of a token, and when it was last filled. -/
structure Bucket where
  level : Nat := 0
  at_ : Nat := 0
deriving DecidableEq, Repr

/-- A crop ring (R211): lines written since the Trump domain started, and of the line in each slot its position stamp and
its arrival in device time. -/
structure CropRing where
  lines : Nat := 0
  stamps : Tab Int := []
  times : Tab Nat := []
deriving DecidableEq, Repr

/-- A verdict as the samples, the crops and the overlays use it (R212, R460, R461): its port, columns, positions and
track context. -/
structure Verdict where
  port : Nat
  colFirst : Nat
  colLast : Nat
  posFirst : Int
  posLast : Int
  ctx : BitVec 512
deriving DecidableEq, Repr

/-- DEC (R200 to R212): partials, oldest first; UNSURE verdicts whose sample is to be tried; issued verdicts whose
lines a crop ring still holds; the sample bucket; crop rings by port; crop slots in use, with the queue cell that
holds each one's record, and the next slot. -/
structure Decide where
  partials : List Detect := []
  samples : List Verdict := []
  issued : List Verdict := []
  nextGroup : Nat := 1
  bucket : Option Bucket := none
  rings : Tab CropRing := []
  slotsUsed : Tab Nat := []
  nextSlot : Nat := 0
deriving DecidableEq, Repr

/-- TRK (R213 to R217): the contexts, their reuse counts, the order in which they were taken and when. -/
structure Tracks where
  ctx : Tab (BitVec 512) := []
  reuse : Tab Nat := []
  order : Tab Nat := []
  born : Tab Nat := []
  next : Nat := 0
deriving DecidableEq, Repr

/-- Raw and accepted classes of a field input (R261). -/
inductive DiClass | off | on | brk
deriving DecidableEq, Repr

/-- A field input (R261 to R264): raw class of the last sample, the start of its run (time-base count and device
time), what is accepted, and whether it is in BREAK. -/
structure Input where
  raw : DiClass := .off
  since : Nat := 0
  sinceDev : Nat := 0
  on : Bool := false
  brk : Bool := false
deriving DecidableEq, Repr

/-- A field output (R266, R267): the level asked of it, the level driven, whether overcurrent holds it off and whether
for good, failed retries, when it went off, and when the last retry was. -/
structure Output where
  asked : Bool := false
  driven : Bool := false
  tripped : Bool := false
  latched : Bool := false
  retries : Nat := 0
  offAt : Nat := 0
  retryAt : Option Nat := none
deriving DecidableEq, Repr

/-- The field interface (R261 to R273). The field side: its power, inputs and outputs, whether its supply has been good
and whether it is low, DI_STATE as frozen when the supply went low, DO_SAFE_STATE of each output, whether it has had an
intact frame, the levels hold keeps (of the last intact frame before a SAFE one), when the last intact frame came, whether
it has lost the link. The logic side: frames sent, whether it flags them SAFE, when the watchdog reaches zero, whether it was kicked since it did. -/
structure Field where
  powered : Bool := false
  inputs : Tab Input := []
  outputs : Tab Output := []
  supplyGood : Bool := false
  low : Bool := false
  frozen : Nat := 0
  safeStates : Tab Nat := []
  gotFrame : Bool := false
  intact : Nat := 0
  lastFrame : Nat := 0
  linkLost : Bool := false
  count : Nat := 0
  safe : Bool := true
  deadline : Option Nat := none
  kicked : Bool := false
deriving DecidableEq, Repr

end Sys2Proof.Machine
end

