-- ==== Sys2Proof/Machine/TypesHost.lean ====
section
/-! DEFINITION. The state types of the host paths: FDP sessions and the I3C target (chapter 19). -/

namespace Sys2Proof.Machine

/-- A segmented transfer (R422): the entry and instance, its direction, total length, next segment number, the bytes
(of a read, the consistent copy; of a write, what has arrived), and when it was last moved. -/
structure Xfer where
  idx : Nat
  sub : Nat
  inst : Nat := 0
  write : Bool := false
  total : Nat := 0
  next : Nat := 0
  data : List Byte := []
  last : Nat := 0
deriving DecidableEq, Repr

/-- An FDP session (R425 to R431): its role and key; when it opened and last had a message with a good TAG, whether it has
had one; the SEQ of the last request executed and that request's response; its selectors and subscription; the number of
its next event, and how many it has been sent since when; its transfer, and whether time has cancelled one. -/
structure Session where
  role : Role
  key : List Byte := []
  openedAt : Nat := 0
  lastGood : Nat := 0
  seen : Bool := false
  lastSeq : Word := 0
  kept : List Byte := []
  selectors : Tab Int := []
  mask : Word := 0
  evSeq : Word := 0
  evAt : Nat := 0
  evCount : Nat := 0
  xfer : Option Xfer := none
  timedOut : Bool := false
deriving DecidableEq, Repr

/-- The I3C target (R432 to R436): its dynamic address (0 none), whether IBIs are enabled, its events, the result of the
last private write, since when, whether it has no time limit (a DOMAIN segment, SEG_END), whether it is ready; its
selectors and transfer; the write and read lengths in force; whether the bus is in HDR-DDR. -/
structure I3c where
  addr : Nat := 0
  ibi : Bool := false
  events : List (List Byte) := []
  result : Option (List Byte) := none
  writtenAt : Nat := 0
  slow : Bool := false
  ready : Bool := false
  selectors : Tab Int := []
  xfer : Option Xfer := none
  timedOut : Bool := false
  mwl : Nat := 72
  mrl : Nat := 264
  hdr : Bool := false
deriving DecidableEq, Repr

/-- An OPEN_REQ nonce answered within the last 10 s (R425). -/
structure Nonce where
  nonce : List Byte
  time : Nat
  resp : List Byte
deriving DecidableEq, Repr

/-- Bad datagrams of one source address (R429): their times within the last second, and until when it is ignored. -/
structure Lockout where
  bad : List Nat := []
  until_ : Nat := 0
deriving DecidableEq, Repr

/-- The host paths: sessions by number, nonces answered, lockouts by source, the I3C target. The role keys stand in their
entries; the Service key is a factory value (R430). -/
structure HostPaths where
  sessions : Tab Session := []
  nonces : List Nonce := []
  lockouts : Tab Lockout := []
  i3c : I3c := {}
deriving DecidableEq, Repr

end Sys2Proof.Machine
end

