-- ==== Sys2Proof/Machine/TypesImage.lean ====
section
/-! DEFINITION. The state types of the camera ports, the develop lanes and the sliding-window stations (chapters 7
and 8). -/

namespace Sys2Proof.Machine

/-- A tile retained by a sliding-window station (R185, R189): its row sequence, first line and lines in it, first
column and columns. -/
structure FeTile where
  seq : Nat
  row : Nat
  lines : Nat
  col : Nat
  cols : Nat
  item : Item
  told : Bool := false
deriving DecidableEq, Repr

/-- An input port of a sliding-window station: retained tiles, the SEQ of the next, where it falls (sequence, line, column
within the band, band of the producer), and the number of lines of each ended sequence, with whether a line timeout ended
it (R186). -/
structure FePort where
  tiles : List FeTile := []
  at_ : Word := 0
  seq : Nat := 0
  row : Nat := 0
  col : Nat := 0
  band : Nat := 0
  lines : Nat := 1
  ends : Tab (Nat × Bool) := []
deriving DecidableEq, Repr

/-- A sliding-window station (R182 to R196): the weight store (format, shape, weights, bias, whether to be trusted),
the input ports, the next output row of each step of its table, as (sequence, row), and, by output port, how many row
sequences have ended on it (R186). -/
structure Front where
  fmt : Nat := 0
  cin : Nat := 0
  cout : Nat := 0
  kh : Nat := 0
  kw : Nat := 0
  weights : List Nat := []
  bias : List Nat := []
  bad : Bool := false
  ports : Tab FePort := []
  rows : Tab (Nat × Nat) := []
  ended : Tab Nat := []
deriving DecidableEq, Repr

/-- What a port hands to its develop lane (R164, R167, R169): an image line, the end of a frame, or a line timeout. -/
inductive RawKind | line | frameEnd | timeout
deriving DecidableEq, Repr

/-- A raw line at a develop lane (R165, R167, R169): channel, line of its frame, virtual channel, codes by column and
the RAW width, belt position, arrival (device ns, time-base count), and how it came about. -/
structure RawLine where
  kind : RawKind := .line
  channel : Nat := 0
  row : Nat := 0
  vc : Nat := 0
  codes : List Nat := []
  raw : Nat := 12
  pos : Int := 0
  dev : Nat := 0
  at_ : Nat := 0
  substituted : Bool := false
  dropped : Bool := false
deriving DecidableEq, Repr

/-- A developed line: its stamps, virtual channel, flags and UQ16 codes by channel. -/
structure DevLine where
  pos : Int := 0
  deadline : Nat := 0
  vc : Nat := 0
  substituted : Bool := false
  dropped : Bool := false
  chans : List (List Nat) := []
deriving DecidableEq, Repr

/-- The statistics window under way (R175): lines counted and left out, histogram bins by channel, zone sums (in the
units of the lane's exact values) and counts by channel and zone, and whether it has ended. -/
structure StatsWindow where
  lines : Nat := 0
  excluded : Nat := 0
  hist : List (Tab Nat) := []
  sums : List (Tab Nat) := []
  counts : Tab Nat := []
  full : Bool := false
deriving DecidableEq, Repr

/-- A camera port and its develop lane (R164 to R179): whether it takes lines; the frame; the last frame number; the
next channel and the line of the frame; the last good line and the last arrival by channel; overflow; what awaits
develop; the lines kept for alignment and neighbours, newest first, by channel; lines that wait for their group; the
statistics; and the gains computed and not yet applied, by window, oldest first, with the window's end (0 exposure, 1 to
4 white balance), the references of R179. -/
structure Cam where
  live : Bool := false
  frameOpen : Bool := false
  lastNumber : Option (BitVec 16) := none
  next : Nat := 0
  row : Nat := 0
  good : Tab (List Nat) := []
  last : Tab Nat := []
  lastLine : Nat := 0
  overflow : Bool := false
  told : Bool := false
  raw : List RawLine := []
  history : Tab (List RawLine) := []
  group : List DevLine := []
  sot : Bool := true
  s2d : List DevLine := []
  win : StatsWindow := {}
  hist : List Byte := []
  zones : List Byte := []
  pending : List (Nat × Tab Nat) := []
  refs : Tab Nat := []
  clampAt : Tab Nat := []
deriving DecidableEq, Repr

end Sys2Proof.Machine
end

