-- ==== Sys2Proof/Machine/TypesOut.lean ====
section
/-! DEFINITION. The state types of the image output ports (chapter 21). -/

namespace Sys2Proof.Machine

/-- A crop request (R460): its verdict, when it was queued, and the ring's lines of the crop: the first, and how many. -/
structure CropReq where
  verdict : Verdict
  at_ : Nat
  first : Nat
  lines : Nat
deriving DecidableEq, Repr

/-- An outline of an overlay (R461): first and last row and column of the frame, and its red, green and blue. -/
structure Outline where
  y0 : Nat
  y1 : Nat
  x0 : Nat
  x1 : Nat
  colour : Nat × Nat × Nat
deriving DecidableEq, Repr

/-- A frame that a port is sending (R459): kind (0 crop, 1 overlay, 2 mosaic), camera port, virtual channel, pixels a
line, image packets in all and sent; of a crop or overlay the ring's first line, the first column, the packets of a
line, the decimation, the lines lost and the last line found lost; the outlines of an overlay, earliest first; of a
mosaic its format, row bytes, address, and its queue and packet. -/
structure OutFrame where
  kind : Nat
  cam : Nat := 0
  vc : Nat := 0
  width : Nat := 0
  packets : Nat := 0
  sent : Nat := 0
  line : Nat := 0
  col : Nat := 0
  per : Nat := 1
  step : Nat := 1
  lost : Nat := 0
  lostLine : Option Nat := none
  marks : List Outline := []
  fmt : Nat := 0
  rowBytes : Nat := 0
  addr : Nat := 0
  queue : Nat := 0
  packet : Nat := 0
deriving DecidableEq, Repr

/-- An image output port (R457 to R465): crop requests waiting, the ring line that the pending overlay begins at, where
the next overlay may begin, the buckets of requests and of bytes, the frame under way, what was dropped of each source
since its last frame, and the last frame number by virtual channel. -/
structure Cout where
  crops : List CropReq := []
  overlay : Option Nat := none
  nextOverlay : Nat := 0
  cropBucket : Option Bucket := none
  lineBucket : Option Bucket := none
  frame : Option OutFrame := none
  dropped : List Nat := [0, 0, 0]
  numbers : Tab Nat := []
deriving DecidableEq, Repr

end Sys2Proof.Machine
end

