-- ==== Sys2Proof/Machine/State.lean ====
section
/-! DEFINITION. The state of the block, plain data; the reasons a step can stop; the state after reset. -/

namespace Sys2Proof.Machine

/-- Reasons to stop with a fault. No meaning of this model answers with one: the spec describes what the module does
with every command. -/
inductive Fault
  /-- Raised by no command (safe). -/
  | unused
deriving DecidableEq, Repr

/-- Reasons a command has no meaning. -/
inductive Refusal
  /-- Raised by the arm of a command that has no meaning yet, naming it (safe: nothing can be proved of it). -/
  | notModelled (mnemonic : String)
deriving DecidableEq, Repr

/-- What a command put on the module's wires or answered (log 4): the outside takes it; the next command clears it. -/
inductive Out
  /-- The answer to a command: 0, or the status word or abort code (R420, R520). -/
  | answer (w : Word)
  /-- A tile sent to its consumer (R27). -/
  | tile (d : Desc)
  /-- A status word sent to another module's station (R17, R42). -/
  | returned (addr : Nat) (w : Word)
  /-- An FDP datagram of a session (0: none opened): header, body and TAG (R423). -/
  | fdp (session : Nat) (message : List Byte)
  /-- An IBI payload of the I3C target (R436). -/
  | ibi (payload : List Byte)
  /-- The bytes an I3C private read or CCC returns (R432 to R434). -/
  | i3c (bytes : List Byte)
  /-- The I3C target refuses or does not acknowledge (R432, R434). -/
  | nack
  /-- The clock periods that an SSI channel drives (R251). -/
  | ssi (encoder clocks : Nat)
  /-- A frame shifted on a valve string: DATA by period, CLK rising at the middle of each; DATA then holds the last bit
  (R236). -/
  | frame (string : Nat) (bits : List Bool)
  /-- The image a valve string takes at LATCH (R236). -/
  | latch (string : Nat) (image : BitVec 256)
  /-- An output frame across the isolation barrier (R266): the outputs' levels, SAFE, the sequence count, the CRC-8. -/
  | field (levels : BitVec 16) (safe : Bool) (count : Nat) (crc : BitVec 8)
  /-- What a fabric link sends: the blocks of its four lanes, a frame's or those of training and waking (R387, R395). -/
  | fabric (link : Nat) (lanes : List (List Block))
  /-- A frame sent on an Ethernet port: 0, 1, or 2 for the internal port (R441). -/
  | eth (port : Nat) (bytes : List Byte)
  /-- An IGMPv2 membership report for a group sent on a port (R441). -/
  | igmp (port group : Nat)
  /-- A UDP datagram sent to an IPv4 address: the address, source and destination port, the payload (R410). -/
  | udp (ip sport dport : Nat) (bytes : List Byte)
  /-- A CSI-2 packet sent on an image output port (R457, R459): its virtual channel, data type (0 frame start and 1 frame
  end, with the frame number) and payload. -/
  | csi (port vc type : Nat) (bytes : List Byte)
  /-- A packet delivered by a queue's POP, with its poison tag (R377, R380). -/
  | packet (bytes : List Byte) (poison : Bool)
  /-- The values that a station's access read. -/
  | data (sid : Nat) (bytes : List Byte)
  /-- A bank's answer to the requests of a cycle: which were granted (R113). -/
  | grant (granted : List Bool)
deriving DecidableEq, Repr

/-- The state of the block. `pending`, `out`, `free`, and the time operand's `tb` are told of in the assumption log. -/
structure State where
  pending : List Instr := []
  out : List Out := []
  free : Nat := 0
  tb : Nat := 0
  clk : Clock := {}
  regs : Regs := {}
  boot : Boot := {}
  sec : Security := {}
  sup : Tab Supply := []
  power : Power := {}
  guard : Guard := {}
  recorder : Recorder := {}
  counters : Tab CounterBlock := []
  host : HostPaths := {}
  errq : Tab (List Word) := []
  stations : Tab Station := []
  streams : Tab Stream := []
  groups : Tab Group := []
  banks : Tab Bank := []
  mem : Memory := {}
  queues : Queues := {}
  trump : Trump := {}
  sched : Sched := {}
  paths : Tab Datapath := []
  arrays : Tab ArrayShared := []
  enc : Tab Encoder := []
  dec : Decide := {}
  trk : Tracks := {}
  dealer : Dealer := {}
  field : Field := {}
  fab : Fabric := {}
  attn : Attn := {}
  video : Video := {}
  fronts : Tab Front := []
  breaks : List (Nat × Word × Bool) := []
  cams : Tab Cam := []
  couts : Tab Cout := []
  adapt : Adapt := {}
  net : Net := {}
deriving DecidableEq, Repr

/-- The block right after reset: no power given yet, so nothing booted (R538, R541), and nothing queued. -/
def State.reset : State := {}

end Sys2Proof.Machine
end

