-- ==== Sys2Proof/Machine/Ops.lean ====
section
/-! DEFINITION. Shared operations: time, the dictionary's values, free values, reports and records, sessions' events,
stations and their domains. -/

namespace Sys2Proof.Machine

/-! ### Time -/

/-- Units of device time in one nanosecond: the fraction has 32 bits (R446). -/
def fracNs : Nat := 4294967296

/-- Nanoseconds in a second. -/
def nsPerS : Nat := 1000000000

/-- The clock after `d` cycles of the time base (R447): each adds INCREMENT, in units of 2^-28 ns. -/
def Clock.run (c : Clock) (d : Nat) : Clock := { c with dev := c.dev + d * c.inc * 16 }

/-- The state at time-base count `t` (R449): time never runs back; what the last command put out is gone. The
supervisor's operating time runs with it (R508). -/
def State.at (s : State) (t : Nat) : State :=
  let d := t - s.tb
  { s with
    out := []
    tb := s.tb + d
    clk := s.clk.run d
    recorder := { s.recorder with opNs := s.recorder.opNs + d } }

/-- Whole nanoseconds of device time. -/
def State.devNs (s : State) : Nat := s.clk.dev / fracNs

/-- Is device time valid (R448)? -/
def State.timeValid (s : State) : Bool := s.clk.st != .unset

/-- Seconds of device time as a stamp carries them: zero while not valid (R448, R502). -/
def State.sec' (s : State) : Nat := if s.timeValid then (s.devNs / nsPerS) % 281474976710656 else 0

/-- Nanoseconds of device time as a stamp carries them: zero while not valid. -/
def State.ns' (s : State) : Nat := if s.timeValid then s.devNs % nsPerS else 0

/-- The ten bytes of a TIME80 of device time (R413). -/
def State.time80 (s : State) : List Byte := leBytes 6 s.sec' ++ leBytes 4 s.ns'

/-! ### Free values -/

/-- Draw a free value of `w` bits (log 3). -/
def State.draw (s : State) (w : Nat) : BitVec w × State := (Config.freeBits w s.free, { s with free := s.free + 1 })

/-! ### The dictionary's values -/

/-- The number at entry `e`, sub-index offset `j`, instance `k`. -/
def State.numAt (s : State) (e : Ent) (j k : Nat) : Int := (s.regs.store e.pers).num e j k

/-- The number at entry `e`, instance `k`. -/
def State.num (s : State) (e : Ent) (k : Nat := 0) : Int := s.numAt e 0 k

/-- The same as a natural number (0 where negative). -/
def State.nat (s : State) (e : Ent) (k : Nat := 0) : Nat := (s.num e k).toNat

/-- Is the BOOL entry 1? -/
def State.flag (s : State) (e : Ent) (k : Nat := 0) : Bool := s.num e k != 0

/-- The bytes of entry `e`, sub-index offset `j`, instance `k`. -/
def State.blob (s : State) (e : Ent) (j : Nat := 0) (k : Nat := 0) : List Byte := (s.regs.store e.pers).blob e j k

/-- Set the number at entry `e`, sub-index offset `j`, instance `k`. -/
def State.setNumAt (s : State) (e : Ent) (j k : Nat) (v : Int) : State :=
  { s with regs := s.regs.mapStore e.pers fun r => r.setNum e j k v }

/-- Set the number at entry `e`, instance `k`. -/
def State.setNum (s : State) (e : Ent) (v : Int) (k : Nat := 0) : State := s.setNumAt e 0 k v

/-- Set the bytes of entry `e`. -/
def State.setBlob (s : State) (e : Ent) (j k : Nat) (v : List Byte) : State :=
  { s with regs := s.regs.mapStore e.pers fun r => r.setBlob e j k v }

/-- Add `n` to the counter at sub-index offset `j` of entry `e`, instance `k`, modulo its width. -/
def State.bumpAt (s : State) (e : Ent) (j k n : Nat) : State :=
  s.setNumAt e j k ((s.numAt e j k + n) % ((2 : Int) ^ (8 * e.ty.size)))

/-- Add `n` to the counter `e`, instance `k`. -/
def State.bump (s : State) (e : Ent) (k : Nat := 0) (n : Nat := 1) : State := s.bumpAt e 0 k n

/-! ### Wires, queues of errors -/

/-- Put `o` on the wires. -/
def State.emit (s : State) (o : Out) : State := { s with out := s.out ++ [o] }

/-- Answer a command with a status word (0: success). -/
def State.answer (s : State) (w : Word) : State := s.emit (.answer w)

/-- Append a status word to the error queue of a station (R17, R129, R156) or of a job (R371), by its key. -/
def State.toErr (s : State) (k : Nat) (w : Word) : State := { s with errq := s.errq.put [] k (s.errq.val [] k ++ [w]) }

/-- The key of the management cluster's error queue: station 0x70 (R14). -/
def mgt : Nat := 0x70

/-- The key under which the words of queue `q` (a job's ERROR_QUEUE, R371) are kept. -/
def jobErr (q : Nat) : Nat := 0x1000 + q

/-- A status word with its source byte set (R51, R520). -/
def withSrc (w : Word) (ss : Nat) : Word := setFld w 23 16 ss

/-! ### Event records (R502 to R506) -/

/-- Is a record of the permanent class (R506): PSRAM_FAIL, PUF_FAIL, DEBUG_UNLOCKED, TAMPER, REC_CLEARED? -/
def permanent (w : Word) : Bool :=
  w == 0x06921708 || w == 0x06981502 || w == 0x06981504 || w == 0x06981505 || w == 0x07911603

/-- DATA of a record (R505): UNIT, three zero bytes, then the values, cut to 28 bytes and padded with zeros. -/
def recData (unit : Nat) (vals : List Byte) : List Byte :=
  let v := vals.take 28
  BitVec.ofNat 8 unit :: 0 :: 0 :: 0 :: (v ++ List.replicate (28 - v.length) 0)

/-- Operating seconds (R508). -/
def State.opSec (s : State) : Nat := s.recorder.opNs / nsPerS

/-- The 64 bytes of an event record (R502), stamped now. -/
def State.mkRecord (s : State) (seq : Nat) (w : Word) (unit : Nat) (vals : List Byte) : BitVec 512 :=
  let body : Nat :=
    (1 <<< 508) + ((permanent w).toNat <<< 507) + (s.timeValid.toNat <<< 506) + ((seq % 4294967296) <<< 468)
      + (((s.opSec / 3600) % 16777216) <<< 444) + ((s.opSec % 3600) <<< 432)
      + ((s.recorder.powerCycles % 4294967296) <<< 400) + (s.sec' <<< 352) + (s.ns' <<< 320) + (w.toNat <<< 288)
      + (leNat (recData unit vals) <<< 32)
  BitVec.ofNat 512 (body + crc32 ((leBytes 64 body).drop 4))

/-- How many records the recorder's queue holds (R510). -/
def recCap : Nat := 125000

/-- A record with another REC_SEQ, and its REC_CRC. -/
def withSeq (r : BitVec 512) (seq : Nat) : BitVec 512 :=
  let r := setFld r 499 468 seq
  setFld r 31 0 (crc32 ((wordBytes r).drop 4))

/-- The source byte of a record's STATUS. -/
def recSource (r : BitVec 512) : Nat := fld r 311 304

/-- Records of one cycle, of which the first holds `seq`, with one more: they take REC_SEQ in ascending order of the source
byte (R503). -/
def sameCycle (seq : Nat) (l : List (BitVec 512)) (r : BitVec 512) : List (BitVec 512) :=
  if l.all fun x => decide (recSource x ≤ recSource r) then l ++ [r]
  else
    let at_ := (l.takeWhile fun x => decide (recSource x ≤ recSource r)).length
    (l.take at_ ++ r :: l.drop at_).zipIdx.map fun p => withSeq p.1 (seq + p.2)

/-- How many of the queue's last records were written in this cycle. -/
def State.recsNow (s : State) : Nat :=
  if s.recorder.cycle.1 = s.tb then min s.recorder.cycle.2 s.recorder.queue.length else 0

/-- What is written from here on falls in a later cycle (R503). -/
def State.settle (s : State) : State := { s with recorder := { s.recorder with cycle := (s.tb, 0) } }

/-- Write an event record into the recorder's queue (R503, R510): dropped and counted where the queue is full. -/
def State.record (s : State) (w : Word) (unit : Nat := 255) (vals : List Byte := []) : State :=
  if recCap ≤ s.recorder.queue.length then
    { s.bump Dict.recDropped with recorder := { s.recorder with dropped := s.recorder.dropped + 1 } }
  else
    let n := s.recorder.nextSeq
    let k := s.recsNow
    let old := s.recorder.queue.length - k
    { s with
      recorder := { s.recorder with
        nextSeq := n + 1
        queue := s.recorder.queue.take old ++ sameCycle (n - k) (s.recorder.queue.drop old) (s.mkRecord n w unit vals)
        cycle := (s.tb, k + 1) } }

/-! ### Events to hosts (R431, R436) -/

/-- The body of an EVENT (R431): status word, device time, detail. -/
def State.eventBody (s : State) (w : Word) (detail : Nat) : List Byte :=
  leBytes 4 w.toNat ++ s.time80 ++ leBytes 4 detail

/-- The FDP header (R423) and body as bytes; the header's bytes are little-endian over its 128 bits. -/
def fdpMessage (kind : Nat) (resp : Bool) (version session : Nat) (seq : Word) (status : Word) (body : List Byte) :
    List Byte :=
  leBytes 16 ((1 <<< 124) + (kind <<< 120) + (resp.toNat <<< 119) + (version <<< 104) + (session <<< 88)
    + (seq.toNat <<< 56) + ((body.length % 65536) <<< 40) + status.toNat) ++ body

/-- A whole datagram of the module (R423): header, body and TAG under a key. -/
def fdpDatagram (key : List Byte) (kind version session : Nat) (seq status : Word) (body : List Byte) : List Byte :=
  let m := fdpMessage kind true version session seq status body
  m ++ hmac256 key m

/-- Send an EVENT to one session that subscribes to bit `b`, at most FDP_EVENT_RATE in a second (R431). -/
def State.eventTo (s : State) (b : Nat) (w : Word) (detail : Nat) (num : Nat) (ses : Session) : State :=
  if ses.mask.getLsbD b then
    let fresh := decide (s.tb - ses.evAt ≥ nsPerS) || ses.evCount == 0
    let count := if fresh then 0 else ses.evCount
    if count < s.nat Dict.fdpEventRate then
      let ses' := { ses with
        evAt := if fresh then s.tb else ses.evAt
        evCount := count + 1
        evSeq := ses.evSeq + 1 }
      let s' := { s with host := { s.host with sessions := s.host.sessions.ins num ses' } }
      s'.emit (.fdp num (fdpDatagram ses.key 9 1 num ses.evSeq 0 (s.eventBody w detail)))
    else s.bump Dict.fdpEventsDropped
  else s

/-- Queue an event at the I3C target where I3C_EVENT_MASK selects it (R436). -/
def State.eventI3c (s : State) (b : Nat) (w : Word) (detail : Nat) : State :=
  if inMap (s.nat Dict.i3cEventMask) b then
    if s.host.i3c.events.length < 32 then
      { s with host := { s.host with i3c := { s.host.i3c with
        events := s.host.i3c.events ++ [s.eventBody w detail] } } }
    else s.bump Dict.i3cEventsDropped
  else s

/-- Send an event of subscription bit `b` to every session and to the I3C target (R431, R436). -/
def State.event (s : State) (b : Nat) (w : Word) (detail : Nat := 0) : State :=
  (s.host.sessions.foldl (fun s p => s.eventTo b w detail p.1 p.2) s).eventI3c b w detail

/-! ### Reports -/

/-- Report a status word (R520, R531): to the management cluster's error queue, to the hosts that subscribe, and,
for faults and reports (classes 0x04 and 0x06), as an event record with `unit` and `vals`. -/
def State.report (s : State) (w : Word) (unit : Nat := 255) (vals : List Byte := []) : State :=
  let cls := fld w 31 24
  let s := s.toErr mgt w
  if cls == 6 then (s.event 0 w).record w unit vals
  else if cls == 4 then (s.event 1 w).record w unit vals
  else if cls == 2 && fld w 23 16 == 0x70 then s.event 3 w
  else s

/-- The same, at most once in `period` ns for this word and `key`, the unit where nothing else is said. -/
def State.reportEvery (s : State) (period : Nat) (w : Word) (unit : Nat := 255) (vals : List Byte := [])
    (key : Nat := unit) : State :=
  let k := w.toNat * 65536 + key
  match s.recorder.lastRep.look k with
  | some t0 =>
    if s.tb < t0 + period then s
    else { s.report w unit vals with
      recorder := { (s.report w unit vals).recorder with lastRep := s.recorder.lastRep.ins k s.tb } }
  | none => { s.report w unit vals with
      recorder := { (s.report w unit vals).recorder with lastRep := s.recorder.lastRep.ins k s.tb } }

/-- A refusal of a command: the refusal goes to the management cluster's error queue and is the answer (R352). -/
def State.refuse (s : State) (w : Word) : State := (s.report w).answer w

/-! ### Stations and domains -/

/-- A station by its ID. -/
def State.station (s : State) (sid : Nat) : Station := s.stations.val {} sid

/-- Change a station. -/
def State.mapStation (s : State) (sid : Nat) (f : Station → Station) : State :=
  { s with stations := s.stations.upd {} sid f }

/-- Is array `n` enabled (R3, R108)? -/
def State.arrayEnabled (s : State) (n : Nat) : Bool := decide (n < 16) && inMap (s.nat Dict.arrayEnableMap) n

/-- Is array `n` split (R103)? -/
def State.arraySplit (s : State) (n : Nat) : Bool := inMap (s.nat Dict.arraySplitMap) n

/-- Kinds of station (R14). -/
inductive Kind | ma | vu | mve | atu | fe | vd | dev | dec | trk | dealer | dma | mgt | half | none
deriving DecidableEq, Repr

/-- The kind of a station ID (R14). -/
def kindOf (sid : Nat) : Kind :=
  if sid < 0x10 then .ma else if sid < 0x20 then .vu else if sid < 0x24 then .mve else if sid < 0x26 then .atu
  else if sid < 0x2A then .fe else if sid < 0x32 then .vd else if sid < 0x40 then .none else if sid < 0x50 then .dev
  else if sid = 0x50 then .dec else if sid = 0x51 then .trk else if sid = 0x52 then .dealer
  else if sid < 0x60 then .none else if sid < 0x68 then .dma else if sid = 0x70 then .mgt
  else if sid < 0x80 then .none else if sid < 0xA0 then .half else .none

/-- The array a station ID belongs to, for arrays, vector units and halves. -/
def arrayOf (sid : Nat) : Nat :=
  match kindOf sid with
  | .ma => sid
  | .vu => sid - 0x10
  | .half => (sid - 0x80) / 2
  | _ => 0

/-- Is the station an array or a half? -/
def isArray (sid : Nat) : Bool := kindOf sid == .ma || kindOf sid == .half

/-- Does the ID name a station (R14, R15, R3): disabled arrays do not, a split array answers to its halves only? -/
def State.exists' (s : State) (sid : Nat) : Bool :=
  match kindOf sid with
  | .ma => s.arrayEnabled sid && !s.arraySplit sid
  | .vu => s.arrayEnabled (sid - 0x10)
  | .half => s.arrayEnabled (arrayOf sid) && s.arraySplit (arrayOf sid)
  | .none => false
  | _ => true

/-- Does a station belong to the Trump domain (R10, R123, R347)? -/
def State.isTrump (s : State) (sid : Nat) : Bool :=
  match kindOf sid with
  | .ma | .vu | .half => inMap (s.nat Dict.trumpArrayMap) (arrayOf sid)
  | .fe | .dev | .dec | .trk | .dealer => true
  | .dma => inMap (s.nat Dict.dmaOwnerMap) (sid - 0x60)
  | _ => false

/-- The power domain of a station (R11). The table of R11 names none for DEC, TRK and the DMA engines: the model has them
in PD62, which holds what is not switched off by itself (DESIGN CHOICE, log 97). -/
def pdOf (sid : Nat) : Nat :=
  match kindOf sid with
  | .ma | .vu | .half => arrayOf sid
  | .mve => 40 + (sid - 0x20)
  | .atu => 44 + (sid - 0x24)
  | .fe => 46 + (sid - 0x26)
  | .vd => if sid < 0x2E then 50 else 51
  | .dev => 52 + (sid - 0x40) / 4
  | .dealer => 63
  | .dec | .trk | .dma | .mgt => 62
  | .none => 64

/-- Every station ID of R14 that can run a step table. -/
def stationIds : List Nat :=
  (List.range 0x32) ++ (List.range 0x10).map (· + 0x40) ++ [0x50, 0x51, 0x52] ++ (List.range 8).map (· + 0x60)
    ++ (List.range 0x20).map (· + 0x80)

/-- Is a unit busy: its sequencer in any state but OFF or IDLE? -/
def State.busy (s : State) (sid : Nat) : Bool := !((s.station sid).seq == .off || (s.station sid).seq == .idle)

/-- The Trump domain runs: any state but STOPPED (R346). -/
def State.trumpRuns (s : State) : Bool := s.trump.st != .stopped

/-- The address of a local station (R16). -/
def State.addrOf (s : State) (sid : Nat) : Nat :=
  s.nat Dict.fabDomainId * 32768 + s.nat Dict.fabModuleId * 256 + sid

/-- DOMAIN of a station address (R16); its reserved bits are ignored (R8). -/
def addrDomain (a : Nat) : Nat := a / 32768 % 128

/-- MODULE of a station address (R16). -/
def addrModule (a : Nat) : Nat := a / 256 % 128

/-- Does a station address name this module (R16)? Its reserved bits are ignored (R8). -/
def State.isLocal (s : State) (addr : Nat) : Bool :=
  addrDomain addr == addrDomain (s.addrOf 0) && addrModule addr == addrModule (s.addrOf 0)

/-- The role epoch after a role change (R41): wraps from 0xFFFF to 0x0001. -/
def bumpEpoch (e : BitVec 16) : BitVec 16 := if e = 0xFFFF then 1 else e + 1

/-- Raise the role epoch of a station (R41). -/
def State.roleChange (s : State) (sid : Nat) : State := s.mapStation sid fun x => { x with epoch := bumpEpoch x.epoch }

/-! ### Image output ports (R465) -/

/-- An image output port. -/
def State.cout (s : State) (n : Nat) : Cout := s.couts.val {} n

/-- Change an image output port. -/
def State.mapCout (s : State) (n : Nat) (f : Cout → Cout) : State := { s with couts := s.couts.upd {} n f }

/-- A drop of a source (0 crop, 1 overlay, 2 mosaic): its counter, the next frame's DROPPED, and COUT_DROP once a
minute (R465). -/
def State.coutDrop (s : State) (n src : Nat) : State :=
  let c := if src = 0 then Dict.cropsDropped else if src = 1 then Dict.ovlDropped else Dict.mosaicDropped
  let s := (s.bump c n).mapCout n fun x => { x with dropped := x.dropped.set src (min 65535 (x.dropped.getD src 0 + 1)) }
  s.reportEvery 60000000000 (BitVec.ofNat 32 (0x06A01301 + n * 65536)) n

/-- The domain stops: every pending crop and overlay of the ports is dropped; a frame begun goes on (R462). -/
def State.coutStop (s : State) : State :=
  (List.range 4).foldl (fun s n =>
    let c := s.cout n
    let s := c.crops.foldl (fun s _ => s.coutDrop n 0) s
    let s := if c.overlay.isSome then s.coutDrop n 1 else s
    s.mapCout n fun x => { x with crops := [], overlay := none, nextOverlay := 0 }) s

end Sys2Proof.Machine
end

