-- ==== Sys2Proof/Machine/AddrMap.lean ====
section
/-! DEFINITION. The module address space (R111, R132): where an address lies. -/

namespace Sys2Proof.Machine

/-- Base of the HBM region (R132). -/
def hbmBase : Nat := 0x100000000000
/-- Length of the HBM region (R132): 144 GiB. -/
def hbmLen : Nat := 0x2400000000

/-- Where an address lies: a buffer group (0 to 15 array buffers, 16 to 23 shared groups, R111, R130), an HBM offset,
or nowhere. -/
inductive Place
  | group (g : Nat)
  | hbm (off : Nat)
  | nowhere
deriving DecidableEq, Repr

/-- The region of an address (R111, R132). -/
def placeOf (a : Nat) : Place :=
  if a < 0x06000000 then .group (a / 0x600000)
  else if 0x08000000 ≤ a ∧ a < 0x0C000000 then .group (16 + (a - 0x08000000) / 0x800000)
  else if hbmBase ≤ a ∧ a < hbmBase + hbmLen then .hbm (a - hbmBase)
  else .nowhere

/-- The bank code (R130) of a buffer address: MAn bank b is n × 16 + b, shared bank b is 0x100 + b (R111). -/
def bankOf (a : Nat) : Nat :=
  if a < 0x06000000 then
    let n := a / 0x600000
    let o := a % 0x600000
    n * 16 + 4 * (o / 0x180000) + (o / 256) % 4
  else
    let g := (a - 0x08000000) / 0x800000
    let o := (a - 0x08000000) % 0x800000
    0x100 + 8 * g + (o / 256) % 8

/-- The row of a buffer address within its bank (R111). -/
def rowOf (a : Nat) : Nat :=
  if a < 0x06000000 then ((a % 0x600000) % 0x180000) / 1024 else ((a - 0x08000000) % 0x800000) / 2048

/-- First address and length of a buffer group (R111). -/
def groupBase (g : Nat) : Nat := if g < 16 then g * 0x600000 else 0x08000000 + (g - 16) * 0x800000
/-- Length of a buffer group (R110). -/
def groupLen (g : Nat) : Nat := if g < 16 then 0x600000 else 0x800000

/-- The channel of an HBM offset (R132). -/
def channelOf (off : Nat) : Nat := (off / 256) % 128
/-- The address within the channel of an HBM offset (R132). -/
def inChannel (off : Nat) : Nat := off / 32768 * 256 + off % 256

end Sys2Proof.Machine
end

