-- ==== Sys2Proof/Machine/Cache.lean ====
section
/-! DEFINITION. The memory-side cache and the detection of streams (R143 to R146). -/

namespace Sys2Proof.Machine

/-! ### The memory-side cache (R143 to R145) -/

/-- A line of the cache is 128 bytes: its number by HBM offset. -/
def lineOf (off : Nat) : Nat := off / 128

/-- The slice and set of a line as one number: the set is the low bits of the line's number in its channel (log 25). -/
def setOf (line : Nat) : Nat := channelOf (line * 128) * 256 + inChannel (line * 128) / 128 % 256

/-- The key of a way of a set. -/
def wayKey (set way : Nat) : Nat := set * 12 + way

/-- The key of the way that holds a line. -/
def State.cacheFind (s : State) (line : Nat) : Option Nat :=
  ((List.range 12).map (wayKey (setOf line))).find? fun k => (s.mem.cache.look k).elim false (·.line == line)

/-- The ways in which the domain allocates (R144). -/
def State.waysOf (s : State) (trump : Bool) : List Nat :=
  let n := s.nat Dict.cacheTrumpWays
  if trump then List.range n else (List.range (12 - n)).map (· + n)

/-- The least recently used way of a group: an empty one first. -/
def State.lruWay (s : State) (set : Nat) : List Nat → Option Nat
  | [] => none
  | w :: r =>
    let age := fun v => (s.mem.cache.look (wayKey set v)).elim 0 (·.used + 1)
    match s.lruWay set r with
    | none => some w
    | some v => if age v < age w then some v else some w

/-- Allocate a line in a way of the domain, evicting what stood there (R144); with hint 1 it is least recently used. -/
def State.cacheFill (s : State) (trump : Bool) (line : Nat) (dirty lru ahead : Bool) : State :=
  match s.lruWay (setOf line) (s.waysOf trump) with
  | none => s
  | some w =>
    let n := s.mem.useCount + 1
    { s with mem := { s.mem with
      useCount := n
      cache := s.mem.cache.ins (wayKey (setOf line) w)
        { line := line, dirty := dirty, ahead := ahead, used := if lru then 0 else n } } }

/-- A line that is held is used: a prefetched line read for the first time counts (R147). -/
def State.cacheUse (s : State) (k : Nat) (write : Bool) : State :=
  match s.mem.cache.look k with
  | none => s
  | some c =>
    let n := s.mem.useCount + 1
    let s := if c.ahead && !write then s.bump Dict.pfUsed else s
    { s with mem := { s.mem with
      useCount := n
      cache := s.mem.cache.ins k { c with dirty := c.dirty || write, ahead := c.ahead && write, used := n } } }

/-- The lines that [off, off + n) touches. -/
def linesOf (off n : Nat) : List Nat :=
  if n = 0 then [] else (List.range (lineOf (off + n - 1) - lineOf off + 1)).map (· + lineOf off)

/-- One line of an access through the cache under a hint (R143, R145). -/
def State.cacheLine (s : State) (trump write : Bool) (hint line : Nat) : State :=
  match s.cacheFind line with
  | some k => s.cacheUse k write
  | none => if hint = 2 then s else s.cacheFill trump line write (hint == 1) false

/-- Are all lines of an access held? -/
def State.cacheHit (s : State) (off n : Nat) : Bool := (linesOf off n).all fun l => (s.cacheFind l).isSome

/-- A line of stack `k` written back. -/
def CacheLine.cleaned (c : CacheLine) (k : Nat) : CacheLine :=
  if channelOf (c.line * 128) / 32 = k then { c with dirty := false } else c

/-- The cache writes back every dirty line of stack `k` (R134). -/
def State.cacheClean (s : State) (k : Nat) : State :=
  { s with mem := { s.mem with cache := s.mem.cache.map fun p => (p.1, p.2.cleaned k) } }

/-! ### Prefetchers (R146, R147) -/

/-- The prefetchers that serve a station's domain (R146). -/
def State.pfOf (s : State) (sid : Nat) : List Nat :=
  let n := s.nat Dict.pfTrumpCount
  if s.isTrump sid then List.range n else (List.range (256 - n)).map (· + n)

/-- A prefetcher. -/
def State.pf (s : State) (i : Nat) : Prefetcher := s.mem.pf.val {} i

/-- Change a prefetcher. -/
def State.setPf (s : State) (i : Nat) (p : Prefetcher) : State := { s with mem := { s.mem with pf := s.mem.pf.put {} i p } }

/-- The prefetcher longest unused of a list. -/
def State.oldestPf (s : State) : List Nat → Option Nat
  | [] => none
  | i :: r =>
    match s.oldestPf r with
    | none => some i
    | some j => if (s.pf j).used < (s.pf i).used then some j else some i

/-- The prefetcher to assign: a free one, else the one longest unused (R146). -/
def State.choosePf (s : State) (sid : Nat) : Option Nat :=
  match (s.pfOf sid).find? fun i => !(s.pf i).live with
  | some i => some i
  | none => s.oldestPf (s.pfOf sid)

/-- Assign a prefetcher to a stream of a station. -/
def State.assignPf (s : State) (sid base : Nat) (stride : Int) (stop : Option Nat) : State :=
  match s.choosePf sid with
  | none => s
  | some i =>
    s.setPf i { station := sid, base := base, stride := stride, next := base + stride, last := base, stop := stop
                used := s.tb, live := true }

/-- A read by the station seen by one of its prefetchers (R147): it follows the stride, or is a miss; 256 misses in a
row end a detected stream. -/
def Prefetcher.see (p : Prefetcher) (sid off t : Nat) : Prefetcher :=
  if p.live && p.station == sid then
    if (off : Int) = p.last + p.stride then { p with last := off, misses := 0, used := t }
    else if p.misses + 1 = 256 ∧ p.stop = none then { p with live := false, misses := 0 }
    else { p with misses := p.misses + 1 }
  else p

/-- Follow a read for the detection of strides (R146): three reads in a row at a constant stride start a stream. -/
def State.detect (s : State) (sid off : Nat) : State :=
  let follows := s.mem.pf.any fun p => p.2.live && p.2.station == sid && (off : Int) == p.2.last + p.2.stride
  let s := { s with mem := { s.mem with pf := s.mem.pf.map fun (q : Nat × Prefetcher) => (q.1, q.2.see sid off s.tb) } }
  let d : Stride := s.mem.detect.val {} sid
  let step : Int := (off : Int) - d.last
  let fits := step != 0 && decide (step.natAbs ≤ 1048576)
  let d' : Stride :=
    if d.run = 0 ∨ !fits then { last := off, stride := 0, run := 1 }
    else if d.run = 1 ∨ d.stride ≠ step then { last := off, stride := step, run := 2 }
    else { last := off, stride := step, run := 3 }
  let s := { s with mem := { s.mem with detect := s.mem.detect.put {} sid d' } }
  if d'.run = 3 && d.run != 3 && !follows then s.assignPf sid off step none else s

/-- A stream named by a step or a descriptor starts at once (R146). -/
def State.declare (s : State) (sid base : Nat) (stride : Int) (length : Nat) : State :=
  match s.choosePf sid with
  | none => s
  | some i =>
    s.setPf i { station := sid, base := base, stride := stride, next := base, last := base
                stop := some length, used := s.tb, live := true }

/-! ### An access passes through (R143, R146) -/

/-- An access of up to 256 bytes passes through the cache as one of its domain, a hit or a miss (R144, R157). -/
def State.cacheAccessAs (s : State) (trump write : Bool) (hint off n : Nat) : State :=
  let s := s.bump (if s.cacheHit off n then Dict.cacheHitCount else Dict.cacheMissCount)
  (linesOf off n).foldl (fun s l => s.cacheLine trump write hint l) s

/-- An access of a station. -/
def State.cacheAccess (s : State) (sid : Nat) (write : Bool) (hint off n : Nat) : State :=
  s.cacheAccessAs (s.isTrump sid) write hint off n

/-- The accesses that [off, off + n) makes (R148): of up to 256 bytes each, in one channel. -/
def accessesOf (off n : Nat) : List (Nat × Nat) :=
  if n = 0 then []
  else (List.range ((off + n - 1) / 256 - off / 256 + 1)).map fun i =>
    let a := max off ((off / 256 + i) * 256)
    (a, min (off + n) ((off / 256 + i + 1) * 256) - a)

/-- A transfer at an address of the HBM passes through the cache of its channels under a hint (R143, R145), its reads
watched for a stride (R146). -/
def State.passCache (s : State) (sid : Nat) (write : Bool) (hint a n : Nat) : State :=
  match placeOf a with
  | .hbm off =>
    (accessesOf off n).foldl (fun s p =>
      let s := s.cacheAccess sid write hint p.1 p.2
      if write then s else s.detect sid p.1) s
  | _ => s

/-- A transfer of the queue manager passes through the cache as one of its queue's domain (R373). -/
def State.passCells (s : State) (trump write : Bool) (a n : Nat) : State :=
  match placeOf a with
  | .hbm off => (accessesOf off n).foldl (fun s p => s.cacheAccessAs trump write 0 p.1 p.2) s
  | _ => s

end Sys2Proof.Machine
end

