-- ==== Sys2Proof/Machine/Mem.lean ====
section
/-! DEFINITION. The memories: ownership, reads and writes by a station (R123 to R137). -/

namespace Sys2Proof.Machine

/-- Does the Trump domain own a buffer group (R123)? -/
def State.groupTrump (s : State) (g : Nat) : Bool :=
  if g < 16 then inMap (s.nat Dict.trumpArrayMap) g else inMap (s.nat Dict.sharedOwnerMap) (g - 16)

/-- A buffer group. -/
def State.group (s : State) (g : Nat) : Group := s.groups.val {} g

/-- Is the buffer group at an address being zero-filled: requests wait (R125, R126)? -/
def State.fillingAt (s : State) (a : Nat) : Bool :=
  match placeOf a with
  | .group g => (s.groups.val {} g).filling || (s.groups.val {} g).st == .clearing
  | _ => false

/-- Change a buffer group. -/
def State.mapGroup (s : State) (g : Nat) (f : Group → Group) : State := { s with groups := s.groups.upd {} g f }

/-- Is `x` in [b, b + l)? -/
def within (x b l : Nat) : Bool := decide (b ≤ x) && decide (x < b + l)

/-- Is the HBM offset in the Trump region (R136)? -/
def State.inTrumpRegion (s : State) (o : Nat) : Bool :=
  within o (s.nat Dict.trumpHbmBase) (s.nat Dict.trumpHbmLength)
/-- Is the HBM offset in the adapter staging window (R136)? -/
def State.inStaging (s : State) (o : Nat) : Bool :=
  within o (s.nat Dict.adapterStageBase) (s.nat Dict.adapterStageLength)
/-- Is the HBM offset in the queue cell pool (R373)? -/
def State.inPool (s : State) (o : Nat) : Bool := within o (s.nat Dict.queuePoolBase) 0x1000000
/-- Is the HBM offset in the two counter pages (R516, R517)? -/
def State.inCounterPages (s : State) (o : Nat) : Bool := within o (s.nat Dict.counterPageBase) 0x20000
/-- Is the HBM offset in adapter bank `b` (R327)? -/
def State.inBank (s : State) (b o : Nat) : Bool :=
  within o (s.nat Dict.adapterBank0Base + b * s.nat Dict.adapterBankBytes) (s.nat Dict.adapterBankBytes)

/-- A field of a job descriptor (R351). -/
def Job.map (j : Job) (hi lo : Nat) : Nat := fld j.desc hi lo

/-- Does a job name a station by its maps (R351)? Job-owned DMA engines serve every job (log 12). -/
def Job.names (j : Job) (sid : Nat) : Bool :=
  match kindOf sid with
  | .ma | .vu => inMap (j.map 303 288) (arrayOf sid)
  | .half => inMap (j.map 303 288) (arrayOf sid) && inMap (j.map 287 272) (arrayOf sid)
      && (!bit j.desc 507 || (sid % 2 == (bit j.desc 506).toNat))
  | .mve => inMap (j.map 263 260) (sid - 0x20)
  | .atu => inMap (j.map 259 258) (sid - 0x24)
  | .dma => true
  | _ => false

/-- A job by its ID. -/
def State.job? (s : State) (id : Nat) : Option Job := s.sched.jobs.look id

/-- Does the owner of the job domain name the station and may its code read the counters (R517)? -/
def State.countersOpen (s : State) (sid : Nat) : Bool :=
  sid == mgt || s.sched.owner.any fun id =>
    match s.job? id with
    | some j => bit j.desc 505 && j.names sid
    | none => false

/-- May a station reach the HBM offset (R137, R329, R373, R517)? -/
def State.hbmAllowed (s : State) (sid : Nat) (write : Bool) (o : Nat) : Bool :=
  if s.inPool o then false
  else if s.inCounterPages o then !write && !s.isTrump sid && s.countersOpen sid
  else if s.isTrump sid then !write || s.inTrumpRegion o
  else if s.inTrumpRegion o then
    s.inStaging o && !(write && ((s.inBank 0 o && s.adapt.bank0 != .loading)
      || (s.inBank 1 o && s.adapt.bank1 != .loading)))
  else true

/-- Has a station a port to the banks of a buffer group (R112): an array to its own buffer, a vector unit also to the shared
buffer, a front engine to that alone, every other station to all? -/
def portTo (sid g : Nat) : Bool :=
  match kindOf sid with
  | .ma | .half => g == arrayOf sid
  | .vu => decide (16 ≤ g) || g == arrayOf sid
  | .fe => decide (16 ≤ g)
  | _ => true

/-- The status an access by a station to an address completes with; none where it is served (R124, R127, R137). Memory to
which the station has no port is none to it: the access completes as one to an address that is not mapped (log 91). -/
def State.accessStatus (s : State) (sid : Nat) (write : Bool) (a : Nat) : Option Word :=
  match placeOf a with
  | .nowhere => some (withSrc 0x05000403 sid)
  | .hbm o => if s.hbmAllowed sid write o then none else some (withSrc 0x05000501 sid)
  | .group g =>
    if g < 16 && !s.arrayEnabled g then some (withSrc 0x05000403 sid)
    else if s.groupTrump g != s.isTrump sid then some (withSrc 0x05000402 sid)
    else if !portTo sid g then some (withSrc 0x05000403 sid)
    else match (s.group g).st with
      | .off | .poweringDown => some (withSrc 0x05000404 sid)
      | .clearing | .on => none

/-- The one form of a memory: in each of its tables addresses strictly rise, and nothing is listed that reads the same
unlisted. -/
abbrev Memory.wf (m : Memory) : Prop :=
  Tab.Canon m.bytes 0 ∧ Tab.Canon m.poison false ∧ Tab.Canon m.store 0

/-- The byte at an address: what was written last, else zero (R126 zero-fills buffers, R135 clears the HBM). -/
def State.byteAt (s : State) (a : Nat) : Byte := s.mem.bytes.val 0 a

/-- The bytes at an address, unchecked. -/
def State.rawRead (s : State) (a : Nat) : Nat → List Byte
  | 0 => []
  | n + 1 => s.byteAt a :: s.rawRead (a + 1) n

/-- Write bytes into a table of bytes. -/
def putBytes (m : Tab Byte) (a : Nat) : List Byte → Tab Byte
  | [] => m
  | b :: r => putBytes (m.put 0 a b) (a + 1) r

/-- Clear the poison of the 32-byte units that a write of `n` bytes covers whole (R133). -/
def clearPoison (p : Tab Bool) (a n : Nat) : Tab Bool :=
  p.filter fun e => !(decide (a ≤ e.1 * 32) && decide (e.1 * 32 + 32 ≤ a + n))

/-- Write bytes at an address, unchecked. -/
def State.rawWrite (s : State) (a : Nat) (l : List Byte) : State :=
  { s with mem := { s.mem with
    bytes := putBytes s.mem.bytes a l
    poison := clearPoison s.mem.poison a l.length } }

/-- Write bytes for the management cluster, which moves its own data (queue packets, counter pages, adapters): unchecked,
in the HBM behind the cache (R143). -/
def State.putHbm (s : State) (a : Nat) (l : List Byte) : State := (s.passCache mgt true 0 a l.length).rawWrite a l

/-- Bytes read for the management cluster, in the HBM behind the cache (R143). -/
def State.getHbm (s : State) (a n : Nat) : List Byte × State := (s.rawRead a n, s.passCache mgt false 0 a n)

/-- Set the memory range [a, a + n) to zero: it lists nothing there. -/
def State.zeroRange (s : State) (a n : Nat) : State :=
  { s with mem := { s.mem with
    bytes := s.mem.bytes.filter fun e => !within e.1 a n
    poison := s.mem.poison.filter fun e => !within (e.1 * 32) a n } }

/-- Is any 32-byte unit of the range poisoned (R133)? -/
def State.poisonedRange (s : State) (a n : Nat) : Bool :=
  s.mem.poison.any fun e => decide (e.1 * 32 < a + n) && decide (a < e.1 * 32 + 32)

/-- The first status an access to [a, a + n) meets, byte by byte in address order. -/
def State.rangeStatus (s : State) (sid : Nat) (write : Bool) (a : Nat) : Nat → Option Word
  | 0 => none
  | n + 1 =>
    match s.accessStatus sid write a with
    | some w => some w
    | none => s.rangeStatus sid write (a + 1) n

/-- The bytes a station reads: zero where the access is refused (R124, R127, R137). -/
def State.readBytes (s : State) (sid a : Nat) : Nat → List Byte
  | 0 => []
  | n + 1 =>
    (if (s.accessStatus sid false a).isSome then 0 else s.byteAt a) :: s.readBytes sid (a + 1) n

/-- The bytes of `l` that a station's write lands, each where its access is served. -/
def State.landBytes (s : State) (sid : Nat) (m : Tab Byte) (a : Nat) : List Byte → Tab Byte
  | [] => m
  | b :: r =>
    s.landBytes sid (if (s.accessStatus sid true a).isSome then m else m.put 0 a b) (a + 1) r

/-- A completion with an error (R129, R156): its status word to the issuing station's error queue. -/
def State.complete (s : State) (sid : Nat) (w : Option Word) : State :=
  match w with
  | some w => s.toErr sid w
  | none => s

/-- An uncorrectable read of a station: counted at the channel of the HBM, and the completion (R133). -/
def State.uncorrectable (s : State) (sid a : Nat) : State :=
  (match placeOf a with
    | .hbm off => s.bump Dict.hbmUncorrectableCount (channelOf off)
    | _ => s).toErr sid (withSrc 0x05000502 sid)

/-- A read by a station: the bytes, whether the tile they feed is poisoned, and the state with the completion sent
(R124, R127, R133, R137), the HBM's behind the cache (R143) under a hint. A group that is being zero-filled already reads
as zero: what waits for the fill to end reads the same (R125, R126, log 103). -/
def State.memRead (s : State) (sid a n : Nat) (hint : Nat := 0) : List Byte × Bool × State :=
  let st := s.rangeStatus sid false a n
  let bad := s.poisonedRange a n
  let s1 := if st.isNone then s.passCache sid false hint a n else s.complete sid st
  let s2 := if bad && st.isNone then s1.uncorrectable sid a else s1
  (if bad && st.isNone then List.replicate n 0 else s.readBytes sid a n, st.isSome || bad, s2)

/-- A write by a station: refused bytes are discarded and the access completes with the status (R124, R127, R137); the
HBM's behind the cache (R143). -/
def State.memWrite (s : State) (sid a : Nat) (l : List Byte) (hint : Nat := 0) : State :=
  let st := s.rangeStatus sid true a l.length
  let s := if st.isNone then s.passCache sid true hint a l.length else s
  let s1 := { s with mem := { s.mem with
    bytes := s.landBytes sid s.mem.bytes a l
    poison := if st.isNone then clearPoison s.mem.poison a l.length else s.mem.poison } }
  s1.complete sid st

end Sys2Proof.Machine
end

