-- ==== Sys2Proof/Machine/FabSend.lean ====
section
/-! DEFINITION. Sending on the fabric: tags, frames, links, routes, bridging, tile transfers and credits (R148, R393 to
R404, R410). -/

namespace Sys2Proof.Machine

/-! ### In-flight tags (R148, R149) -/

/-- Tags of the module (R148). -/
def tagCount : Nat := 4096

/-- The station whose turn it is for a freed shared tag (R149): of those that wait and still work, the next after the last
that took one, in round-robin order of station. -/
def State.tagTurn (s : State) : Option Nat :=
  let w := s.mem.tagWait.filter s.busy
  match (w.filter fun x => decide (s.mem.tagLast < x)).min? with
  | some x => some x
  | none => w.min?

/-- Has a station a tag to issue with, under its cap, and, outside the Trump domain, in the shared part, in its turn
(R149)? -/
def State.mayIssue (s : State) (sid : Nat) : Bool :=
  decide ((s.station sid).tags < (s.station sid).cap)
    && (s.isTrump sid || (decide (s.mem.tagsShared < tagCount - s.nat Dict.trumpTagReserve)
      && (s.tagTurn.getD sid == sid)))

/-- A station cannot issue its request this cycle (R149): at its cap the cycle is counted; an array freezes (R91), another
station's sequencer waits in BLOCKED; without a shared tag it waits for its turn. -/
def State.capStall (s : State) (sid : Nat) : State :=
  let full := decide ((s.station sid).cap ≤ (s.station sid).tags)
  let s := if full then s.bump Dict.capStallCycles sid
    else { s with mem := { s.mem with tagWait := if s.mem.tagWait.contains sid then s.mem.tagWait else s.mem.tagWait ++ [sid] } }
  if isArray sid then
    if full then (s.bump Dict.freezeCycles (arrayOf sid)).bump Dict.dummyCycles (arrayOf sid) else s
  else s.mapStation sid fun x => if x.seq = .run then x.block s.tb else x

/-- A station takes a tag; one that stood in BLOCKED for want of it goes on. -/
def State.takeTag (s : State) (sid : Nat) : State :=
  let s := s.mapStation sid fun x => { x with
    tags := x.tags + 1, seq := if x.seq = .blocked ∧ x.running.isSome then .run else x.seq }
  if s.isTrump sid then s
  else { s with mem := { s.mem with
    tagsShared := s.mem.tagsShared + 1, tagWait := s.mem.tagWait.filter (· != sid), tagLast := sid } }

/-- A station gives a tag back. -/
def State.giveTag (s : State) (sid : Nat) : State :=
  let s := s.mapStation sid fun x => { x with tags := x.tags - 1 }
  if s.isTrump sid then s else { s with mem := { s.mem with tagsShared := s.mem.tagsShared - 1 } }

/-- The job that owns a station now (0: none). -/
def State.ownerOf (s : State) (sid : Nat) : Nat :=
  (s.sched.owner.find? fun id => (s.job? id).elim false (·.names sid)).getD 0

/-! ### Frames (R395, R396) -/

/-- KIND of a frame. -/
def Frame.kind (f : Frame) : Nat := fld f.hdr 251 248
/-- TC: the Trump class. -/
def Frame.tc (f : Frame) : Bool := bit f.hdr 247
/-- LAST. -/
def Frame.last (f : Frame) : Bool := bit f.hdr 246
/-- LSEQ. -/
def Frame.lseq (f : Frame) : BitVec 12 := BitVec.ofNat 12 (fld f.hdr 239 228)
/-- DST, but for its reserved bits (R8, R16). -/
def Frame.dst (f : Frame) : Nat := fld f.hdr 213 192
/-- SRC, but for its reserved bits. -/
def Frame.src (f : Frame) : Nat := fld f.hdr 189 168
/-- TXN. -/
def Frame.txn (f : Frame) : Nat := fld f.hdr 167 152
/-- EPOCH. -/
def Frame.epoch (f : Frame) : Nat := fld f.hdr 151 136
/-- TTL. -/
def Frame.ttl (f : Frame) : Nat := fld f.hdr 135 128
/-- ADDR. -/
def Frame.addr (f : Frame) : Nat := fld f.hdr 127 80
/-- RLEN. -/
def Frame.rlen (f : Frame) : Nat := fld f.hdr 79 64
/-- STATUS. -/
def Frame.status (f : Frame) : Word := BitVec.ofNat 32 (fld f.hdr 63 32)
/-- Is the frame sequenced and replayed (R396)? -/
def Frame.sequenced (f : Frame) : Bool := decide (f.kind < 8)
/-- The bytes of a frame. -/
def Frame.bytes (f : Frame) : List Byte := wordBytes f.hdr ++ f.payload
/-- The blocks of a frame on the link's lanes (R395). -/
def Frame.blocks (f : Frame) : List (List Block) := laneBlocks f.bytes
/-- The CRC over header bytes 4 to 31 and the payload (R395). -/
def Frame.crc (f : Frame) : Nat := crc32 ((wordBytes f.hdr).drop 4 ++ f.payload)
/-- Does FCRC pass? -/
def Frame.crcOk (f : Frame) : Bool := fld f.hdr 31 0 == f.crc
/-- Set FCRC. -/
def Frame.seal (f : Frame) : Frame := { f with hdr := setFld f.hdr 31 0 f.crc }

/-- The payload filled up with zeros to units of 32 bytes. -/
def padUnits (l : List Byte) : List Byte := l ++ List.replicate ((32 - l.length % 32) % 32) 0

/-- A frame without LSEQ, sealed. -/
def mkFrame (kind : Nat) (tc last : Bool) (dst src txn epoch ttl addr rlen : Nat) (status : Word) (payload : List Byte) :
    Frame :=
  let p := padUnits payload
  Frame.seal { hdr := BitVec.ofNat 256 ((1 <<< 252) + ((kind % 16) <<< 248) + (tc.toNat <<< 247) + (last.toNat <<< 246)
      + ((p.length / 32 % 128) <<< 221) + ((dst % 16777216) <<< 192) + ((src % 16777216) <<< 168) + ((txn % 65536) <<< 152)
      + ((epoch % 65536) <<< 136) + ((ttl % 256) <<< 128) + ((addr % 281474976710656) <<< 80) + ((rlen % 65536) <<< 64)
      + (status.toNat <<< 32)),
               payload := p }

/-! ### Transmitters (R393, R398 to R400) -/

/-- A link. -/
def State.link (s : State) (k : Nat) : Link := s.fab.links.val {} k
/-- Change a link. -/
def State.mapLink (s : State) (k : Nat) (f : Link → Link) : State :=
  { s with fab := { s.fab with links := s.fab.links.upd {} k f } }

/-- Is the transmitter powered and ready? -/
def Link.awake (l : Link) : Bool := !l.txAsleep && l.waking.isNone

/-- Bytes of a class sent and not acknowledged. -/
def Link.held' (l : Link) (tc : Bool) : Nat :=
  (l.unacked.filter fun f => f.tc == tc).foldl (fun a f => a + 32 + f.payload.length) 0

/-- May the frame be sent now: 32 KiB of unacknowledged frames per class at most (R399)? -/
def Link.room (l : Link) (f : Frame) : Bool := !f.sequenced || decide (l.held' f.tc + 32 + f.payload.length ≤ 32768)

/-- Put a frame on the wire; a sequenced one takes its number and is kept until acknowledged (R398, R399). -/
def State.transmit (s : State) (k : Nat) (f : Frame) : State :=
  let l := s.link k
  if f.sequenced then
    let f := Frame.seal { f with hdr := setFld f.hdr 239 228 l.nextSeq.toNat }
    (s.mapLink k fun l =>
      { l with nextSeq := l.nextSeq + 1, ackAt := (if l.unacked.isEmpty then s.tb else l.ackAt),
               unacked := l.unacked ++ [f], sentAt := s.tb }).emit (.fabric k f.blocks)
  else (s.mapLink k fun l => { l with sentAt := s.tb }).emit (.fabric k f.blocks)

/-- The frames queued on a link come from ten sources (R400): the input links, this module, the link's own control
frames. -/
def ownFrames : Nat := 8
/-- The source of the link's control frames. -/
def controlFrames : Nat := 9

/-- The frame of a class to send next (R400): round-robin over the sources from the one served last on, the oldest of the
first that has one that may go. -/
def Link.pickOf (l : Link) (tc : Bool) : Option (Nat × Frame) :=
  let last := if tc then l.servedT else l.servedJ
  ((List.range 10).map fun i => (last + 1 + i) % 10).findSome? fun src =>
    (l.txq.find? fun f => f.1 == src && f.2.tc == tc).filter fun f => l.room f.2

/-- The frame to send next: of the Trump class before any of the job class. -/
def Link.pick (l : Link) : Option (Nat × Frame) :=
  match l.pickOf true with
  | some f => some f
  | none => l.pickOf false

/-- A queued frame is taken to be sent. -/
def Link.served (l : Link) (f : Nat × Frame) : Link :=
  { l with
    txq := l.txq.erase f
    servedT := if f.2.tc then f.1 else l.servedT
    servedJ := if f.2.tc then l.servedJ else f.1 }

/-- Send what may be sent of a link's queue, at most `n` frames. -/
def State.drainLink (s : State) (k : Nat) : Nat → State
  | 0 => s
  | n + 1 =>
    let l := s.link k
    if l.awake && l.st == .up then
      match l.pick with
      | some f => ((s.mapLink k fun l => l.served f).transmit k f.2).drainLink k n
      | none => s
    else s

/-- Queue a frame of a source on an UP link; it goes at once where it may. -/
def State.queueFrame (s : State) (k src : Nat) (f : Frame) : State :=
  let s := s.mapLink k fun l => { l with txq := l.txq ++ [(src, f)] }
  s.drainLink k (s.link k).txq.length

/-- A control frame to the neighbour (R396). -/
def State.controlFrame (s : State) (kind addr : Nat) : Frame :=
  mkFrame kind false false 0 (s.addrOf 0) 0 0 0 addr 0 0 []

/-! ### Routes and the bridge (R401, R410) -/

/-- The route entry of module `m`: primary and alternate link, 15 for none. -/
def State.routeOf (s : State) (m : Nat) : Nat × Nat :=
  let b := ((s.blob Dict.fabRoute)[2 * m]?).getD 0xFF
  (b.toNat % 16, b.toNat / 16)

/-- Is link `k` there and UP? -/
def State.linkUp (s : State) (k : Nat) : Bool := decide (k < 8) && (s.link k).st == .up

/-- The link for a destination module, and whether it is the alternate one (R401). -/
def State.route (s : State) (m : Nat) : Option (Nat × Bool) :=
  let (p, a) := s.routeOf m
  let recent := match s.fab.altAt.look m with
    | some t => decide (s.tb < t + s.nat Dict.fabTimeout * 1000)
    | none => false
  if s.linkUp p && !(recent && s.linkUp a) then some (p, false)
  else if s.linkUp a then some (a, true)
  else none

/-- Queue a frame of a source toward a module of this domain; whether there was a link. -/
def State.sendToward (s : State) (m src : Nat) (f : Frame) : Bool × State :=
  match s.route m with
  | some (k, alt) =>
    let s := if alt then { s with fab := { s.fab with altAt := s.fab.altAt.ins m s.tb } } else s
    (true, s.queueFrame k src f)
  | none => (false, s)

/-- Is this module the bridge of its domain (R410)? -/
def State.isBridge (s : State) : Bool :=
  s.flag Dict.bridgeEnable && s.nat Dict.fabBridgeModule == s.nat Dict.fabModuleId

/-- Bridge a frame to another domain over Ethernet (R410). -/
def State.bridgeOut (s : State) (f : Frame) : Bool × State :=
  let d := addrDomain f.dst
  if f.tc then (false, s.bump Dict.bridgeDrop)
  else
    let ip := leNat (((s.blob Dict.bridgePeers).drop (4 * d)).take 4)
    let n := s.fab.bseqOut.val 0 d + 1
    let s := { s with fab := { s.fab with bseqOut := s.fab.bseqOut.put 0 d (n % 4294967296) } }
    (true, s.emit (.udp ip 47812 47812
      (leBytes 8 ((1 <<< 60) + ((s.nat Dict.fabDomainId % 128) <<< 53) + n % 4294967296) ++ f.bytes)))

/-- Send a frame, of this module or of the input link `src`, toward its destination (R401); whether it found a way. -/
def State.sendFrame (s : State) (f : Frame) (src : Nat := ownFrames) : Bool × State :=
  if addrDomain f.dst == s.nat Dict.fabDomainId then s.sendToward (addrModule f.dst) src f
  else if s.isBridge then s.bridgeOut f
  else s.sendToward (s.nat Dict.fabBridgeModule) src f

/-! ### Transactions (R402, R408) -/

/-- The lowest in-flight tag no transaction holds. -/
def State.freeTag (s : State) : Nat :=
  ((List.range (s.fab.trans.length + 1)).find? fun k => (s.fab.trans.look k).isNone).getD 0

/-- Begin a transaction: its TXN, and the state with its tag taken. -/
def State.beginTrans (s : State) (x : Trans) : Nat × State :=
  let tag := s.freeTag
  let reuse := s.fab.reuse.val 0 tag
  let x := { x with
    reuse := reuse
    job := s.ownerOf x.station
    start := s.tb
    epoch := (s.station x.station).epoch }
  let s := s.takeTag x.station
  (reuse % 16 * 4096 + tag, { s with fab := { s.fab with trans := s.fab.trans.ins tag x } })

/-- A transaction ends: its tag is free. -/
def State.endTrans (s : State) (tag : Nat) : State :=
  match s.fab.trans.look tag with
  | some x => (({ s with fab := { s.fab with trans := s.fab.trans.del tag } } : State)).giveTag x.station
  | none => s

/-- Payload bytes a frame to a module may carry (R402, R410). -/
def State.frameMax (s : State) (dst : Nat) : Nat := if addrDomain dst == s.nat Dict.fabDomainId then 2048 else 1408

/-- Cut a byte list into pieces of `n`, each with its offset from `o`. -/
def pieces (n o : Nat) (l : List Byte) : Nat → List (Nat × List Byte)
  | 0 => []
  | k + 1 => if l.isEmpty then [] else (o, l.take n) :: pieces n (o + n) (l.drop n) k

/-- Send the frames of a transaction; the first that finds no way fails it with FAB_NO_ROUTE (R401). -/
def State.sendAll (s : State) (sid tag : Nat) (fs : List Frame) : Bool × State :=
  match fs with
  | [] => (true, s)
  | f :: r =>
    match s.sendFrame f with
    | (true, s) => s.sendAll sid tag r
    | (false, s) => (false, (s.endTrans tag).toErr sid (withSrc 0x05001002 sid))

/-- The frames of a tile transfer: TILE_HEAD with the descriptor and the first bytes, then TILE_DATA (R402). -/
def tileFrames (m : Nat) (tc : Bool) (dst src txn epoch ttl : Nat) (d : Desc) (payload : List Byte) : List Frame :=
  let first := payload.take (m - 64)
  let rest := pieces m (m - 64) (payload.drop (m - 64)) (payload.length / m + 1)
  mkFrame 0 tc rest.isEmpty dst src txn epoch ttl 0 0 0 (wordBytes d ++ first)
    :: (rest.zipIdx.map fun p => mkFrame 1 tc (p.2 + 1 == rest.length) dst src txn epoch ttl p.1.1 0 0 p.1.2)

/-- A tile transfer to a station of another module (R402, R403); whether it found a way. -/
def State.sendTile (s : State) (sid stream dst epoch : Nat) (tc : Bool) (d : Desc) (payload : List Byte) : Bool × State :=
  let r := s.beginTrans { kind := .tile, reuse := 0, station := sid, stream := stream }
  r.2.sendAll sid (r.1 % 4096)
    (tileFrames (s.frameMax dst) tc dst (s.addrOf sid) r.1 epoch (s.nat Dict.fabTtl) d payload)

/-! ### Credits of remote streams (R404) -/

/-- The flow of a remote stream. -/
def State.flow (s : State) (i : Nat) : RemoteFlow := s.fab.flow.val {} i
/-- Change the flow of a remote stream. -/
def State.mapFlow (s : State) (i : Nat) (f : RemoteFlow → RemoteFlow) : State :=
  { s with fab := { s.fab with flow := s.fab.flow.upd {} i f } }

/-- May a CREDIT of the stream be sent now: at most one in a microsecond? -/
def State.creditDue (s : State) (i : Nat) : Bool :=
  match (s.flow i).sentAt with
  | some t => decide (t + 1000 ≤ s.tb)
  | none => true

/-- The CREDIT of a remote stream: its ID, the SEQ after the last tile popped, the credits it grants (R404). -/
def State.creditFrame (s : State) (i prod cons : Nat) (tc : Bool) (epoch : BitVec 16) : Frame :=
  mkFrame 6 tc false prod cons 0 epoch.toNat (s.nat Dict.fabTtl) ((i % 65536) <<< 32 + (s.flow i).popped.toNat)
    (s.nat Dict.fabStreamCredits) 0 []

/-- Send the CREDIT of a remote stream, or owe it. What EPOCH it carries is left open (log 53). -/
def State.sendCredit (s : State) (i prod cons : Nat) (tc : Bool) : State :=
  if s.creditDue i then
    let e := s.draw 16
    let s := e.2.mapFlow i fun x => { x with sentAt := some s.tb, owed := false }
    (s.sendFrame (s.creditFrame i prod cons tc e.1)).2
  else s.mapFlow i fun x => { x with owed := true }

end Sys2Proof.Machine
end

