-- ==== Sys2Proof/Machine/QueueCells.lean ====
section
/-! DEFINITION. The queue manager: cells, link words, and pushing a packet (R373 to R381). -/

namespace Sys2Proof.Machine

/-! ### Queues and cells -/

/-- A queue by number. -/
def State.queue (s : State) (q : Nat) : Queue := s.queues.q.val {} q

/-- Change a queue. -/
def State.mapQueue (s : State) (q : Nat) (f : Queue → Queue) : State :=
  { s with queues := { s.queues with q := s.queues.q.upd {} q f } }

/-- Is the queue enabled (R374)? -/
def State.queueOn (s : State) (q : Nat) : Bool := decide (q < 4096) && s.flag Dict.queueEnable q

/-- Is it a Trump-domain queue (R374)? -/
def State.queueTrump (s : State) (q : Nat) : Bool := s.num Dict.queueDomain q == 1

/-- Is it of class C (R374)? -/
def State.queueC (s : State) (q : Nat) : Bool := s.num Dict.queueClass q == 1

/-- Is it in strip-pair mode (R374)? -/
def State.queueStrip (s : State) (q : Nat) : Bool := s.num Dict.queueMode q == 1

/-- OWNER of a link word (R376). -/
def linkOwner (l : BitVec 64) : Nat := fld l 39 28

/-- The cells of the pool that queue `q` holds, those awaiting a sweep among them (R381). -/
def State.cellsOf (s : State) (q : Nat) : Nat := (s.queues.links.filter fun p => linkOwner p.2 == q).length

/-- The cells that serve a queue: 0 to TRUMP_CELLS - 1 for the Trump domain, the rest for the others (R373). -/
def State.cellRange (s : State) (q : Nat) : Nat × Nat :=
  if s.queueTrump q then (0, s.nat Dict.trumpCells) else (s.nat Dict.trumpCells, 65536)

/-- The first `n` free cells from cell `k` on, looking at `fuel` cells (log 17). -/
def takeFree (links : Tab (BitVec 64)) : Nat → Nat → Nat → List Nat
  | 0, _, _ => []
  | f + 1, k, n =>
    if n = 0 then []
    else if (links.look k).isSome then takeFree links f (k + 1) n
    else k :: takeFree links f (k + 1) (n - 1)

/-- `n` free cells for queue `q`; fewer where the pool has no more. -/
def State.freeCells (s : State) (q n : Nat) : List Nat :=
  let (lo, hi) := s.cellRange q
  takeFree s.queues.links (hi - lo) lo n

/-- HBM address of a cell (R373). -/
def State.cellAddr (s : State) (k : Nat) : Nat := hbmBase + s.nat Dict.queuePoolBase + 256 * k

/-- A link word (R376). -/
def mkLink (first last : Bool) (lenM1 : Nat) (incarn : BitVec 4) (owner next : Nat) : BitVec 64 :=
  BitVec.ofNat 64 ((first.toNat <<< 63) + (last.toNat <<< 62) + ((lenM1 % 131072) <<< 44) + (incarn.toNat <<< 40)
    + ((owner % 4096) <<< 28) + next % 65536)

/-- Set the link word of a cell. -/
def State.setLink (s : State) (k : Nat) (l : BitVec 64) : State :=
  { s with queues := { s.queues with links := s.queues.links.ins k l } }

/-- Point the cell `k` at its follower. -/
def State.linkTo (s : State) (k next : Nat) : State :=
  match s.queues.links.look k with
  | some l => s.setLink k (setFld l 15 0 next)
  | none => s

/-- DECK_READY has fallen below DECK_LOW_WATER: reported, and again only once it has risen to it (R294). -/
def State.deckWatch (s : State) : State :=
  if s.video.armed && decide (s.video.spaces.length < s.nat Dict.deckLowWater) then
    (({ s with video := { s.video with armed := false } } : State).bump Dict.lowWaterCount).report 0x06E00B04
  else s

/-- Give cells back to the pool; what R212 and R292 tie to them is released (R378). -/
def State.giveCells (s : State) (cells : List Nat) : State :=
  ({ s with
    queues := { s.queues with links := s.queues.links.filter fun p => !cells.contains p.1 }
    dec := { s.dec with slotsUsed := s.dec.slotsUsed.filter fun p => !cells.contains p.2 }
    video := { s.video with spaces := s.video.spaces.filter fun p => !cells.contains p.2 } } : State).deckWatch

/-- Free the cells of a packet: to the pool, or, in strip-pair mode, back to their bank (R379). -/
def State.freePacket (s : State) (q : Nat) (cells : List Nat) : State :=
  if s.queueStrip q then
    let s' := s.giveCells cells
    cells.foldl (fun s k => s.setLink k (mkLink false false 0 (s.queue q).incarn q 0)) s'
  else s.giveCells cells

/-- Q_PEAK_CELLS (R385). -/
def State.peakCells (s : State) (q : Nat) : State :=
  if s.nat Dict.qPeakCells q < s.cellsOf q then s.setNum Dict.qPeakCells (s.cellsOf q) q else s

/-! ### Strip-pair banks (R379) -/

/-- The banks exchange roles once the drain bank is empty and the fill bank holds a packet and is full or closed. -/
def Queue.exchange (x : Queue) (force : Bool) : Queue :=
  let used := (x.fill.map fun p => p.cells.length).foldl (· + ·) 0
  if x.unread.isEmpty && x.held.isEmpty &&
      (force || (!x.fill.isEmpty && (x.closed || decide (x.fillCells.length ≤ used)))) then
    { x with unread := x.fill, fill := [], closed := false, fillCells := x.drainCells, drainCells := x.fillCells }
  else x

/-- Exchange the banks of a strip-pair queue if R379 says so. -/
def State.tryExchange (s : State) (q : Nat) : State :=
  if s.queueStrip q then s.mapQueue q fun x => x.exchange false else s

/-- Take the two banks of a strip-pair queue on enabling it. -/
def State.takeBanks (s : State) (q : Nat) : State :=
  let n := s.nat Dict.stripCells q
  let cells := s.freeCells q (2 * n)
  let s := cells.foldl (fun s k => s.setLink k (mkLink false false 0 (s.queue q).incarn q 0)) s
  (s.mapQueue q fun x => { x with fillCells := cells.take n, drainCells := cells.drop n }).peakCells q

/-! ### Reset (R381) -/

/-- Advance INCARN and empty the queue; its cells wait for the sweep. In strip-pair mode the banks stay (log 18). -/
def State.queueClear (s : State) (q : Nat) : State :=
  let x := s.queue q
  let lost := x.unread.length + x.held.length + x.fill.length
  let old := (x.unread ++ x.held ++ x.fill).flatMap (·.cells)
  let s := (s.bump Dict.qResets q).bump Dict.qResetLost q lost
  let x' : Queue := { x with
    unread := [], held := [], fill := [], mark := none, flush := false, closed := false, incarn := x.incarn + 1
    sweep := x.sweep ++ (if s.queueStrip q then [] else old) }
  let s := s.mapQueue q fun _ => x'
  if s.queueStrip q then s.freePacket q (x.fillCells ++ x.drainCells) else s

/-- A class C queue whose copies differ: the reset, the report, and the command's failure (R381). -/
def State.queueMismatch (s : State) (q issuer : Nat) : State :=
  ((s.queueClear q).report 0x06F00F01 255 (leBytes 4 q)).toErr issuer 0x06F00F01

/-- End of the sweep: every cell of the queue with an older INCARN is free. -/
def State.sweepDone (s : State) (q : Nat) : State :=
  let cells := (s.queue q).sweep
  (s.giveCells cells).mapQueue q fun x => { x with sweep := [] }

/-! ### PUSH (R375, R377, R378) -/

/-- Cells of a packet of `n` bytes (R375). -/
def packetCells (n : Nat) : Nat := max 1 (ceilDiv n 256)

/-- A command refused (R384). -/
def State.queueBad (s : State) (issuer : Nat) : State :=
  let w := withSrc 0x02000F04 issuer
  (s.toErr issuer w).answer w

/-- Write the packet's bytes and link words into its cells, from the `i`-th on. -/
def State.fillCells (s : State) (q len : Nat) (tail : BitVec 16) : Nat → List Nat → List Byte → State
  | _, [], _ => s
  | i, k :: r, bytes =>
    let next := match r with
      | n :: _ => n
      | [] => tail.toNat
    let l := bytes.take 256
    let s := ((s.passCells (s.queueTrump q) true (s.cellAddr k) l.length).rawWrite (s.cellAddr k) l).setLink k
      (mkLink (i == 0) r.isEmpty (if i = 0 then len - 1 else 0) (s.queue q).incarn q next)
    s.fillCells q len tail (i + 1) r (bytes.drop 256)

/-- Link a packet into its cells after the tail. -/
def State.linkPacket (s : State) (q : Nat) (cells : List Nat) (bytes : List Byte) (stream close : Bool) : State :=
  let (tail, s) := s.draw 16
  let s := s.fillCells q bytes.length tail 0 cells bytes
  let x := s.queue q
  let before := if s.queueStrip q then x.fill else x.held ++ x.unread
  let s := match before.getLast?, cells with
    | some p, k :: _ => s.linkTo (p.cells.getLastD 0) k
    | _, _ => s
  let pk : Packet := { id := x.nextId, cells := cells, len := bytes.length, stream := stream, posted := s.tb
                       postedDev := s.devNs }
  let s := s.mapQueue q fun x =>
    if s.queueStrip q then { x with fill := x.fill ++ [pk], closed := x.closed || close, nextId := x.nextId + 1 }
    else { x with unread := x.unread ++ [pk], nextId := x.nextId + 1 }
  ((s.mapQueue q fun x => { x with waitSince := none }).peakCells q).tryExchange q

/-- Count the cycles a stream producer has waited (R378): one to the ns, the queue manager running at 1 GHz. -/
def State.countWait (s : State) (q : Nat) : State :=
  match (s.queue q).waitSince with
  | some t0 => s.bump Dict.qWaitCycles q (s.tb - t0)
  | none => s

/-- The cells a PUSH of `n` cells would take; fewer than `n` where it does not fit. -/
def State.pushCells (s : State) (q n : Nat) : List Nat :=
  if s.queueStrip q then
    let x := s.queue q
    if x.closed then [] else (x.fillCells.filter fun k => !(x.fill.any fun p => p.cells.contains k)).take n
  else if s.nat Dict.queueLimit q < s.cellsOf q + n then [] else s.freeCells q n

/-- Is a packet refused whatever the room (R377, R379)? -/
def State.pushTooLong (s : State) (q n : Nat) : Bool :=
  decide (260 < n) || (s.queueStrip q && decide (s.nat Dict.stripCells q < n))

/-- PUSH: whether the packet was taken, and the state. `bad` says that two copies of a class C pointer differ. -/
def State.queuePush (s : State) (issuer q : Nat) (bytes : List Byte) (stream close bad : Bool) : Bool × State :=
  if !s.queueOn q || s.pushTooLong q (packetCells bytes.length) then (false, s.queueBad issuer)
  else if bad && s.queueC q then (false, s.queueMismatch q issuer)
  else
    let n := packetCells bytes.length
    let cells := s.pushCells q n
    if cells.length = n then (true, (s.countWait q).linkPacket q cells bytes stream close)
    else if stream then (false, (s.countWait q).mapQueue q fun x => { x with waitSince := some s.tb })
    else (false, (s.bump Dict.qFullCount q).toErr issuer (withSrc 0x05000F03 issuer))

/-- Post a record (R375): an internal PUSH by the management cluster or a station. -/
def State.post (s : State) (issuer q : Nat) (bytes : List Byte) : Bool × State :=
  s.queuePush issuer q bytes false false false

end Sys2Proof.Machine
end

