-- ==== Sys2Proof/Machine/Tiles.lean ====
section
/-! DEFINITION. Tile descriptors, streams, credits, returns, the discard pile (R18 to R27, R40 to R43, R48). -/

namespace Sys2Proof.Machine

/-- A deadline in ns of device time; 0 is no deadline (R20). -/
def descDeadline (d : Desc) : Nat := fld d 191 144 * nsPerS + fld d 143 112

/-- DESC_CRC of a descriptor: CRC-16 over bytes 2 to 63 (R18). -/
def descCrc (d : Desc) : Nat := crc16 ((wordBytes d).drop 2)

/-- A descriptor with its DESC_CRC written (R18). -/
def sealDesc (d : Desc) : Desc := setFld d 15 0 (descCrc d)

/-- Is DESC_CRC right (R22)? -/
def descCrcOk (d : Desc) : Bool := fld d 15 0 == descCrc d

/-- The signed origin count in TAG[47:0] (R21). -/
def descOrigin (d : Desc) : Int := signed 48 (fld d 95 48)

/-- Rows of a tile (R18). -/
def descRows (d : Desc) : Nat := fld d 383 377 + 1
/-- Columns of a tile (R18). -/
def descCols (d : Desc) : Nat := fld d 376 370 + 1
/-- Elements from one row's start to the next (R18): 0 means the columns. -/
def descStride (d : Desc) : Nat := if fld d 367 352 = 0 then descCols d else fld d 367 352

/-- The fields of a descriptor a station writes (R18, R40: reserved fields zero). -/
def mkDesc (format : Nat) (mx zc poisoned concealed mucked late incomplete sot eot : Bool) (stream epoch : Nat)
    (seq : Word) (src rows cols stride len addr scale deadline tag : Nat) : Desc :=
  sealDesc (BitVec.ofNat 512
    ((1 <<< 508) + ((format % 32) <<< 503) + (mx.toNat <<< 502) + (zc.toNat <<< 501) + (poisoned.toNat <<< 500)
      + (concealed.toNat <<< 499) + (mucked.toNat <<< 498) + (late.toNat <<< 497) + (incomplete.toNat <<< 496)
      + (sot.toNat <<< 495) + (eot.toNat <<< 494) + ((stream % 65536) <<< 464) + ((epoch % 65536) <<< 448)
      + (seq.toNat <<< 416) + ((src % 16777216) <<< 392) + (((rows - 1) % 128) <<< 377)
      + (((cols - 1) % 128) <<< 370) + ((stride % 65536) <<< 352) + ((len % 1048576) <<< 332)
      + ((addr % 281474976710656) <<< 272) + ((scale % 281474976710656) <<< 208)
      + (((deadline / nsPerS) % 281474976710656) <<< 144) + ((deadline % nsPerS) <<< 112)
      + ((tag % 18446744073709551616) <<< 48)))

/-! ### Stream map entries (R26) -/

/-- STREAM_ID of a map entry. -/
def mapStream (e : MapEntry) : Nat := fld e 123 108
/-- PROD_ADDR of a map entry, but for the reserved bits of the address (R8, R16). -/
def mapProd (e : MapEntry) : Nat := fld e 105 84
/-- CONS_ADDR of a map entry, but for the reserved bits of the address. -/
def mapCons (e : MapEntry) : Nat := fld e 81 60
/-- CONS_PORT of a map entry. -/
def mapConsPort (e : MapEntry) : Nat := fld e 59 56
/-- CONS_EPOCH of a map entry. -/
def mapEpoch (e : MapEntry) : Nat := fld e 55 40
/-- PROD_PORT of a map entry. -/
def mapProdPort (e : MapEntry) : Nat := fld e 25 22
/-- Is it a Trump-domain stream? -/
def mapTrump (e : MapEntry) : Bool := bit e 39
/-- Does it pass through a queue? -/
def mapViaQueue (e : MapEntry) : Bool := bit e 38
/-- The queue it passes through. -/
def mapQueue (e : MapEntry) : Nat := fld e 37 26

/-- The streams that leave output port `port` of a local station (R27), by ID. -/
def State.outStreams (s : State) (sid port : Nat) : List (Nat × Stream) :=
  s.streams.filter fun p => s.isLocal (mapProd p.2.entry) && mapProd p.2.entry % 256 == sid
    && mapProdPort p.2.entry == port

/-- Every stream a local station produces. -/
def State.producedBy (s : State) (sid : Nat) : List (Nat × Stream) :=
  s.streams.filter fun p => s.isLocal (mapProd p.2.entry) && mapProd p.2.entry % 256 == sid

/-- The stream that feeds input port `port` of a local station (R27). -/
def State.inStream (s : State) (sid port : Nat) : Option (Nat × Stream) :=
  s.streams.find? fun p => s.isLocal (mapCons p.2.entry) && mapCons p.2.entry % 256 == sid
    && mapConsPort p.2.entry == port

/-- Change a stream of a job's context. -/
def Job.mapStream (j : Job) (id : Nat) (f : Stream → Stream) : Job :=
  match j.streams.look id with
  | some x => { j with streams := j.streams.ins id (f x) }
  | none => j

/-- Change a stream: where it is in force, else in the context of the job that has it. -/
def State.mapStream (s : State) (id : Nat) (f : Stream → Stream) : State :=
  match s.streams.look id with
  | some x => { s with streams := s.streams.ins id (f x) }
  | none => { s with sched := { s.sched with jobs := s.sched.jobs.map fun p => (p.1, p.2.mapStream id f) } }

/-- Does the stream run through a queue between two stations of this module? Its producer's credit is then room in the
queue (R378). -/
def State.queued (s : State) (e : MapEntry) : Bool :=
  mapViaQueue e && s.isLocal (mapCons e) && s.isLocal (mapProd e)

/-- Give `n` credits of a stream back to its producer (R31). -/
def State.giveCredits (s : State) (id n : Nat) : State :=
  s.mapStream id fun x => if s.queued x.entry then x else { x with credits := x.credits + n }

/-- Give a credit of a stream back to its producer. -/
def State.giveCredit (s : State) (id : Nat) : State := s.giveCredits id 1

/-- A stream by its ID: in force, or in the context of a job. -/
def State.streamOf (s : State) (id : Nat) : Option Stream :=
  match s.streams.look id with
  | some x => some x
  | none => s.sched.jobs.findSome? fun p => p.2.streams.look id

/-- Does a stream derive from a camera port (R21)? Its producer is a develop lane, or a station that a stream feeds which
derives from one; of a stream from another module, whose producer wrote TAG, it is taken as given. Looked for over at
most `fuel` stations (log 83). -/
def State.fromCamera (s : State) : Nat → Nat → Bool
  | 0, _ => false
  | fuel + 1, id =>
    match s.streams.look id with
    | some x =>
      mapTrump x.entry &&
        (!s.isLocal (mapProd x.entry)
          || (let p := mapProd x.entry % 256
              kindOf p == .dev || s.streams.any fun y =>
                s.isLocal (mapCons y.2.entry) && mapCons y.2.entry % 256 == p && s.fromCamera fuel y.1))
    | none => false

/-- Does a stream carry an origin in TAG (R21): one that derives from a camera port, or a job-domain stream? -/
def State.carriesTag (s : State) (id : Nat) : Bool :=
  if id < 0x8000 then s.fromCamera 8 id else decide (id < 0xFF00)

/-- TAG of a tile sent on a stream, given that of the tiles behind it (R21). -/
def State.tagOn (s : State) (sid id tag : Nat) : Nat :=
  if !s.carriesTag id then 0
  else if id < 0x8000 then tag % 2 ^ 56
  else s.ownerOf sid * 2 ^ 32 + tag % 2 ^ 32

/-! ### The discard pile and returns -/

/-- Add `n` to the discard pile and to one of its parts (R518). -/
def State.discard (s : State) (part : Ent) (n : Nat := 1) : State := (s.bump Dict.discardPile 0 n).bump part 0 n

/-- Has the sender of a tile changed epoch since it sent it (R43): has its stream gone, or does its epoch differ from the
one in which it sent the tile? -/
def State.senderChanged (s : State) (sid id : Nat) (seq : Word) : Bool :=
  match s.streamOf id with
  | some x => x.sentIn != (s.station sid).epoch || (seq != x.sentFrom && !newer seq x.sentFrom)
  | none => true

/-- Place a returned tile's status in the error queue of the station that sent it; where that names no station or has
changed epoch, the message goes to the discard pile (R43). -/
def State.toSender (s : State) (d : Desc) (w : Word) : State :=
  let sid := fld d 399 392
  if s.exists' sid && !s.senderChanged sid (fld d 479 464) (BitVec.ofNat 32 (fld d 447 416)) then s.toErr sid w
  else s.discard Dict.discardReturns

/-- Return a message to the error queue of the station that sent it (R17, R42), or, where it cannot be delivered,
to the discard pile (R43). The producer's credit is given back and the tile counts as no longer under way. -/
def State.returnTile (s : State) (d : Desc) (w : Word) : State :=
  let src := fld d 413 392
  let s := (s.giveCredit (fld d 479 464)).mapStream (fld d 479 464) fun x => { x with unacc := x.unacc - 1 }
  if s.isLocal src then s.toSender d w else s.emit (.returned src w)

/-! ### Datapaths of the arrays (R75, R93) -/

/-- The datapath of an array, a half or an MVE. -/
def State.path (s : State) (sid : Nat) : Datapath := s.paths.val {} sid

/-- Change a datapath. -/
def State.mapPath (s : State) (sid : Nat) (f : Datapath → Datapath) : State := { s with paths := s.paths.upd {} sid f }

/-- What the halves of an array share. -/
def State.arr (s : State) (n : Nat) : ArrayShared := s.arrays.val {} n

/-- Change what the halves of an array share. -/
def State.mapArr (s : State) (n : Nat) (f : ArrayShared → ArrayShared) : State :=
  { s with arrays := s.arrays.upd {} n f }

/-- The ramp with which work meets an array (R93): the wait equals the time spent ramping down. -/
def Ramp.wake (r : Ramp) (t : Nat) : Ramp :=
  match r with
  | .full => .full
  | .down since => .up (t + min 2000 (t - since))
  | .gated => .up (t + 2000)
  | .up u => .up u

/-- Work arrives at an array. -/
def State.wakeArray (s : State) (n : Nat) : State := s.mapArr n fun a => { a with ramp := a.ramp.wake s.tb, idle := 0 }

/-- A tile arrives at a station: for an array that runs a table it is work (R93). -/
def State.tileWakes (s : State) (sid : Nat) : State :=
  if isArray sid && ((s.station sid).seq == .run || (s.station sid).seq == .blocked) then s.wakeArray (arrayOf sid) else s

/-! ### Receiving (R17, R22, R25, R39, R42, R528) -/

/-- Take a tile, or what is missing before it, into an input port in sequence order (R25). -/
def State.queueTile (s : State) (sid port id : Nat) (x : Stream) (d : Desc) : State :=
  let seq : Word := BitVec.ofNat 32 (fld d 447 416)
  if seq = x.expect ∨ newer seq x.expect then
    let missing := (seq - x.expect).toNat
    let items := (if missing = 0 then [] else [Item.gap missing]) ++ [Item.tile d]
    let s := if missing = 0 then s else s.bump Dict.seqGapCount sid missing
    let s := s.mapStream id fun y => { y with expect := seq + 1, unacc := y.unacc - 1 }
    (s.mapStation sid fun st => { st with inq := st.inq.put [] port (st.inq.val [] port ++ items) }).tileWakes sid
  else (s.mapStream id fun y => { y with unacc := y.unacc - 1 }).discard Dict.discardTiles

/-- A station in DRAIN or FAULT drops a delivered tile and gives its credit back (R528); the sequence goes on as R25
says. -/
def State.dropTile (s : State) (sid id : Nat) (x : Stream) (d : Desc) : State :=
  let seq : Word := BitVec.ofNat 32 (fld d 447 416)
  if seq = x.expect ∨ newer seq x.expect then
    let missing := (seq - x.expect).toNat
    let s := if missing = 0 then s else s.bump Dict.seqGapCount sid missing
    let s := (((s.bump Dict.drainInputDropped).giveCredit id).mapStream id fun y =>
      { y with unacc := y.unacc - 1, expect := seq + 1 })
    s.mapStation sid fun st =>
      { st with drain := st.drain.map fun dr => { dr with dropped := dr.dropped + 1 } }
  else (s.mapStream id fun y => { y with unacc := y.unacc - 1 }).discard Dict.discardTiles

/-- The job, not the owner, in whose context a tile's stream feeds this port. -/
def State.jobOfTile (s : State) (sid port id : Nat) : Option (Nat × Job × Stream) :=
  s.sched.jobs.findSome? fun p =>
    if s.sched.owner.contains p.1 then none
    else match p.2.streams.look id with
      | some x => if s.isLocal (mapCons x.entry) && mapCons x.entry % 256 == sid && mapConsPort x.entry == port
          then some (p.1, p.2, x) else none
      | none => none

/-- Take a tile into the port of a station as a waiting job left it (R358, log 23). -/
def State.queueForJob (s : State) (sid port id : Nat) (jid : Nat) (j : Job) (x : Stream) (d : Desc) : State :=
  let seq : Word := BitVec.ofNat 32 (fld d 447 416)
  if seq = x.expect ∨ newer seq x.expect then
    let missing := (seq - x.expect).toNat
    let items := (if missing = 0 then [] else [Item.gap missing]) ++ [Item.tile d]
    let s := if missing = 0 then s else s.bump Dict.seqGapCount sid missing
    let st := j.ctx.val {} sid
    let j' := { j with
      ctx := j.ctx.ins sid { st with inq := st.inq.put [] port (st.inq.val [] port ++ items) }
      streams := j.streams.ins id { x with expect := seq + 1, unacc := x.unacc - 1 } }
    { s with sched := { s.sched with jobs := s.sched.jobs.ins jid j' } }
  else (s.mapStream id fun y => { y with unacc := y.unacc - 1 }).discard Dict.discardTiles

/-- A tile whose stream feeds no port in force: it waits for its job, or goes to the discard pile. -/
def State.strayTile (s : State) (sid port id : Nat) (d : Desc) : State :=
  match s.jobOfTile sid port id with
  | some (jid, j, x) => s.queueForJob sid port id jid j x d
  | none => s.discard Dict.discardTiles

/-- Count a head tile of an object below the swap line that arrives after the switch: at the first station of the
adapter list (R328, log 46). -/
def State.reordered (s : State) (sid : Nat) (d : Desc) : State :=
  match s.trump.adapter with
  | some a =>
    let armed := match (s.station sid).shadow with
      | .armed _ _ => true
      | _ => false
    if s.adapt.swapped && a.stations.head? == some sid && !armed && decide (ahead48 (descOrigin d) s.adapt.line < 0) then
      s.bump Dict.swapReordered
    else s
  | none => s

/-- A tile reaches a local station's input port: the checks in order (log 13), then the queue. A tile of a stream that
passes through a queue is taken only as it is `popped` from it (R26, R377). -/
def State.receive (s : State) (sid port : Nat) (d : Desc) (popped : Bool := false) : State :=
  let id := fld d 479 464
  if !s.exists' sid then s.returnTile d (withSrc 0x03000205 sid)
  else if !descCrcOk d then (s.bump Dict.descCheckCount sid).returnTile d (withSrc 0x03000203 sid)
  else if fld d 511 508 ≠ 1 then s.returnTile d (withSrc 0x03000202 sid)
  else if BitVec.ofNat 16 (fld d 463 448) ≠ (s.station sid).epoch then
    (s.bump Dict.roleChangedCount sid).returnTile d (withSrc 0x03000201 sid)
  else match s.inStream sid port with
    | some (i, x) =>
      if i ≠ id then s.strayTile sid port id d
      else if mapViaQueue x.entry && !popped then s.discard Dict.discardTiles
      else if (s.station sid).seq = .drain ∨ (s.station sid).seq = .fault then s.dropTile sid i x d
      else (s.reordered sid d).queueTile sid port i x d
    | none => s.strayTile sid port id d

/-! ### Credits of remote streams (R404) -/

/-- Send the CREDIT of every remote stream that `p` picks and this module consumes. -/
def State.credit (s : State) (p : Nat → Stream → Bool) : State :=
  (s.streams.filter fun x => s.isLocal (mapCons x.2.entry) && !s.isLocal (mapProd x.2.entry) && p x.1 x.2).foldl
    (fun s x => s.sendCredit x.1 (mapProd x.2.entry) (mapCons x.2.entry) (mapTrump x.2.entry)) s

/-- Send the CREDITs that were owed and may go now. -/
def State.creditOwed (s : State) : State := s.credit fun i _ => (s.flow i).owed && s.creditDue i

/-- A packet of a queue has been popped: the remote stream it belongs to has come as far (R404). -/
def State.creditPop (s : State) (q : Nat) (d : Desc) : State :=
  let i := fld d 479 464
  match s.streams.look i with
  | some x =>
    if mapViaQueue x.entry && Machine.mapQueue x.entry == q && s.isLocal (mapCons x.entry) && !s.isLocal (mapProd x.entry) then
      (s.mapFlow i fun f => { f with popped := BitVec.ofNat 32 (fld d 447 416) + 1 }).credit fun k _ => k == i
    else s
  | none => s

/-! ### Consuming and emitting (R19, R31, R47, R48) -/

/-- Does an input port hold a tile, or a missing one to be run as zero (R25, R31)? -/
def State.portReady (s : State) (sid port : Nat) : Bool := !((s.station sid).inq.val [] port).isEmpty

/-- The first item of a port, and the port without it: a run of missing tiles gives one. -/
def takeItem : List Item → Option (Item × List Item)
  | [] => none
  | .tile d :: r => some (.tile d, r)
  | .gap n :: r => some (.gap 1, if n ≤ 1 then r else .gap (n - 1) :: r)

/-- Consume the next tile of an input port; its credit goes back to the producer. -/
def State.consume (s : State) (sid port : Nat) : Option Item × State :=
  match takeItem ((s.station sid).inq.val [] port) with
  | none => (none, s)
  | some (it, r) =>
    let s := s.mapStation sid fun st => { st with inq := st.inq.put [] port r }
    match it, s.inStream sid port with
    | .tile _, some (i, _) => (some it, s.giveCredit i)
    | _, _ => (some it, s)

/-- Has a producer a credit of a stream (R31): one of the consumer's, or, where the stream runs through a queue of this
module, room in it (R378)? -/
def State.hasCredit (s : State) (x : Stream) : Bool :=
  if s.queued x.entry then (s.pushCells (Machine.mapQueue x.entry) 1).length == 1 else decide (0 < x.credits)

/-- Has a station a credit from every stream its output port feeds (R31)? -/
def State.creditsReady (s : State) (sid port : Nat) : Bool :=
  (s.outStreams sid port).all fun p => s.hasCredit p.2

/-- The step's flags with those of a consumed item ORed in (R19, R25), its deadline (R47) and its TAG (R21): that of the
first tile of a stream that carries an origin. -/
def Running.absorb (r : Running) (port : Nat) (it : Item) (origin : Bool) : Running :=
  match it with
  | .gap _ => { r with ins := r.ins ++ [(port, it)], used := r.used + 1, poisoned := true }
  | .tile d =>
    { r with
      ins := r.ins ++ [(port, it)]
      used := r.used + 1
      poisoned := r.poisoned || bit d 500
      late := r.late || bit d 497
      incomplete := r.incomplete || bit d 496
      concealed := r.concealed || bit d 499
      mucked := r.mucked || bit d 498
      deadline := max r.deadline (descDeadline d)
      tag := if origin && !r.tagged then fld d 111 48 else r.tag
      tagged := r.tagged || origin }

/-- Does the stream that feeds an input port carry an origin in TAG (R21)? -/
def State.portOrigin (s : State) (sid port : Nat) : Bool :=
  match s.inStream sid port with
  | some (i, _) => s.carriesTag i
  | none => false

/-- Is the output of a step late (R48): the device time now plus RESERVE exceeds the deadline, or an input was late? -/
def State.stepLate (s : State) (r : Running) : Bool :=
  r.late || (r.deadline != 0 && decide (r.deadline < s.devNs + fld r.word 95 76 * 100))

/-- A step that no deadline and no origin has reached (it has consumed missing tiles alone, or none): where a tile must
carry them, a Trump-domain one a deadline (R20), one of a stream with an origin its TAG (R21), they are free values, the
deadline not zero (log 84). -/
def State.fillOrigin (s : State) (sid port : Nat) (r : Running) (o : OutTile) : Running × State :=
  let xs := s.outStreams sid port
  let a := if r.deadline = 0 && xs.any (fun p => mapTrump p.2.entry) then
      let v := s.draw 64
      ({ r with deadline := v.1.toNat + 1 }, v.2)
    else (r, s)
  if !r.tagged && o.tag.isNone && xs.any (fun p => s.carriesTag p.1) then
    let v := a.2.draw 56
    ({ a.1 with tag := v.1.toNat, tagged := true }, v.2)
  else a

/-- The packet of an output tile in a queue: its descriptor and its payload (R375). -/
def OutTile.packet (o : OutTile) (d : Desc) : List Byte := wordBytes d ++ o.bytes

/-- Send an output tile on one stream: SEQ, credit, DST_EPOCH from the map, DESC_CRC (R24, R26, R27, R40); through its
queue where the map says so (R26, R377), a last tile (EOT) ending a strip (log 85). CONCEALED and MUCKED are copied where
one input sample makes the output sample (R19). The end of a row sequence (R186) is noted for the consumer. -/
def State.sendOn (s : State) (sid : Nat) (id : Nat) (x : Stream) (r : Running) (o : OutTile) (addr scale : Nat)
    (sot eot : Bool) : State :=
  let one := decide (r.used = 1)
  let d := mkDesc o.format o.mx o.zc (r.poisoned || o.poisoned) ((r.concealed && one) || o.concealed)
    ((r.mucked && one) || o.mucked) (s.stepLate r) r.incomplete (o.sot.getD sot) (o.eot.getD eot) id (mapEpoch x.entry)
    x.next (s.addrOf sid) o.rows o.cols (if o.zc then 0 else rowStride o.format o.cols) o.bytes.length addr (if o.mx then scale else 0)
    r.deadline (s.tagOn sid id (o.tag.getD r.tag))
  let s := if o.brk then { s with breaks := s.breaks ++ [(id, x.next + 1, true)] } else s
  let epoch := (s.station sid).epoch
  let s := s.mapStream id fun y =>
    { y with
      next := y.next + 1
      credits := if s.queued y.entry then y.credits else y.credits - 1
      unacc := y.unacc + 1
      sentIn := epoch
      sentFrom := if y.sentIn = epoch then y.sentFrom else y.next }
  if s.queued x.entry then (s.queuePush sid (Machine.mapQueue x.entry) (o.packet d) true (o.eot.getD eot) false).2
  else if s.isLocal (mapCons x.entry) then s.emit (.tile d)
  else
    let r := s.sendTile sid id (mapCons x.entry) (mapEpoch x.entry) (mapTrump x.entry) d (o.bytes ++ o.scales)
    if r.1 then r.2 else r.2.mapStream id fun y => { y with unacc := y.unacc - 1 }

/-- Has a station a tag for the tile transfers its output port needs (R149, R402)? -/
def State.tileTags (s : State) (sid port : Nat) : Bool :=
  (s.outStreams sid port).all fun p => s.isLocal (mapCons p.2.entry) || s.mayIssue sid

/-- Is there room for an output tile in every queue its port feeds (R378)? -/
def State.tileRoom (s : State) (sid port : Nat) (o : OutTile) : Bool :=
  let n := packetCells (64 + o.bytes.length)
  (s.outStreams sid port).all fun p =>
    !s.queued p.2.entry || (s.pushCells (Machine.mapQueue p.2.entry) n).length == n

/-- A producer waits for room in the queues its port feeds: what R378 counts begins. -/
def State.waitRoom (s : State) (sid port : Nat) (o : OutTile) : State :=
  let n := packetCells (64 + o.bytes.length)
  (s.outStreams sid port).foldl (fun s p =>
    let q := Machine.mapQueue p.2.entry
    if s.queued p.2.entry && (s.pushCells q n).length != n then
      (s.countWait q).mapQueue q fun x => { x with waitSince := some s.tb }
    else s) s

/-- Emit an output tile of a step on every stream output port `port` feeds (R27); LATE tiles are counted (R52). -/
def State.emitOn (s : State) (sid port : Nat) (r : Running) (o : OutTile) (addr scale : Nat) (sot eot : Bool) : State :=
  let f := s.fillOrigin sid port r o
  let s := if f.2.stepLate f.1 then f.2.bump Dict.lateCount sid else f.2
  (s.outStreams sid port).foldl (fun s p => s.sendOn sid p.1 p.2 f.1 o addr scale sot eot) s

/-- Emit an output tile of a step on the output port its word names. -/
def State.emitTile (s : State) (sid : Nat) (r : Running) (o : OutTile) (addr scale : Nat) (sot eot : Bool) : State :=
  s.emitOn sid (fld r.word 103 100) r o addr scale sot eot

end Sys2Proof.Machine
end

