-- ==== Sys2Proof/Machine/CamPort.lean ====
section
/-! DEFINITION. A camera port's virtual channels and scans, and what its develop lane's sequencer waits for (R31, R161,
R162, R164). -/

namespace Sys2Proof.Machine

/-- A camera port. -/
def State.cam (s : State) (n : Nat) : Cam := s.cams.val {} n

/-- Change a camera port. -/
def State.mapCam (s : State) (n : Nat) (f : Cam → Cam) : State := { s with cams := s.cams.upd {} n f }

/-- The station of a develop lane. -/
def devId (n : Nat) : Nat := 0x40 + n

/-- VC_MAP of a virtual channel (R162). -/
def State.vcMapOf (s : State) (n vc : Nat) : BitVec 16 := BitVec.ofInt 16 (s.numAt Dict.vcMap vc n)

/-- Is a virtual channel an enabled image channel? -/
def State.vcImage (s : State) (n vc : Nat) : Bool := bit (s.vcMapOf n vc) 15 && fld (s.vcMapOf n vc) 14 13 == 0

/-- The framing virtual channel (R164). -/
def State.framingVc (s : State) (n : Nat) : Option Nat := (List.range 16).find? fun vc => s.vcImage n vc

/-- CHANNELS of a port. -/
def State.channels (s : State) (n : Nat) : Nat := s.nat Dict.channels n

/-- HEAD_KIND is 1: one image line carries every channel (R161). -/
def State.interleaved (s : State) (n : Nat) : Bool := s.num Dict.headKind n == 1

/-- HEAD_KIND is 2: area head. -/
def State.area (s : State) (n : Nat) : Bool := s.num Dict.headKind n == 2

/-- How many image lines make a scan (R161). -/
def State.scanLines (s : State) (n : Nat) : Nat := if s.interleaved n then 1 else s.channels n

/-- The image channel a virtual channel carries: 0 on an interleaved head. -/
def State.vcChannel (s : State) (n vc : Nat) : Nat := if s.interleaved n then 0 else fld (s.vcMapOf n vc) 6 5

/-- The virtual channel that carries an image channel. -/
def State.channelVc (s : State) (n ch : Nat) : Nat :=
  ((List.range 16).find? fun vc => s.vcImage n vc && s.vcChannel n vc == ch).getD 0

/-- Bits of a RAW data type (R159). -/
def rawBits (dt : Nat) : Nat :=
  match dt with
  | 0x2B => 10 | 0x2C => 12 | 0x2D => 14 | _ => 16

/-- Bytes of an image line (R167). -/
def State.rawLineBytes (s : State) (n raw : Nat) : Nat := s.nat Dict.lineWidth n * raw / 8

/-- The RAW width of an image channel. -/
def State.channelRaw (s : State) (n ch : Nat) : Nat := rawBits (fld (s.vcMapOf n (s.channelVc n ch)) 12 7)

/-- Has the lane all it needs to develop the scan at the front: its lines, and, where an area head has defects listed,
eight further scans or the frame's end? -/
def State.scanReady (s : State) (n : Nat) : Bool :=
  let raw := (s.cam n).raw
  let k := s.scanLines n
  let mine := raw.take k
  mine.length == k && mine.all (fun l => l.kind == .line)
    && (!s.area n || (s.blob Dict.defectTable 0 n).isEmpty || decide (9 * k ≤ raw.length)
        || raw.any fun l => l.kind != .line)

/-- A step of a develop lane starts once its port's data is present (R31); any other station waits for no camera. -/
def State.lineReady (s : State) (sid : Nat) : Bool :=
  kindOf sid != .dev || (s.trump.st == .running && s.scanReady (sid % 16))

end Sys2Proof.Machine
end

