-- ==== Sys2Proof/Machine/Sequencer.lean ====
section
/-! DEFINITION. The station sequencers: table checks, switching, steps and control opcodes (R28 to R38). -/

namespace Sys2Proof.Machine

/-! ### Step words (R28) and the check at load (R32) -/

/-- The opcode of a step word. -/
def wordOp (w : StepWord) : Nat := fld w 123 118
/-- The arguments of a step word, 76 bits. -/
def wordArgs (w : StepWord) : BitVec 76 := w.extractLsb' 0 76
/-- YIELD of a step word. -/
def wordYield (w : StepWord) : Bool := bit w 117
/-- IN_A. -/
def wordInA (w : StepWord) : Nat := fld w 111 108
/-- IN_B. -/
def wordInB (w : StepWord) : Nat := fld w 107 104
/-- OUT. -/
def wordOut (w : StepWord) : Nat := fld w 103 100

/-- Is a station-specific opcode defined for the station (R77, R107, R189, R195, R201, R214, R221, R297)? Stations whose opcodes the
spec does not list accept every code from 0x10 (log 14). -/
def opDefined (sid op : Nat) : Bool :=
  match kindOf sid with
  | .ma | .half => decide (0x10 ≤ op ∧ op ≤ 0x14)
  | .mve => op == 0x18
  | .fe => decide (0x20 ≤ op ∧ op ≤ 0x22)
  | .atu => op == 0x10 || op == 0x11
  | .dec | .trk | .dealer => op == 0x10
  | .vu => op == 0x30
  | .mgt | .none => false
  | .vd | .dev | .dma => decide (0x10 ≤ op)

/-- The input ports a step names: CHECK and KVOP name none (R77, R319), nor does a step of a develop lane, which its camera
port paces (R31); IN_B counts when it differs from IN_A (R28). -/
def wordInputs (sid : Nat) (w : StepWord) : List Nat :=
  if isArray sid && wordOp w == 0x14 then []
  else if kindOf sid == .atu && wordOp w == 0x11 then []
  else if kindOf sid == .dev then []
  else if wordInA w = wordInB w then [wordInA w] else [wordInA w, wordInB w]

/-- The input ports a step waits on before it starts (R31): not those of an array step with K = 0 (R96), nor those of
the front engines, which take their rows as they come (R189). -/
def wordStarts (sid : Nat) (w : StepWord) : List Nat :=
  if isArray sid || kindOf sid == .mve then
    if wordOp w == 0x10 && fld w 69 61 == 0 then []
    else if wordOp w == 0x11 && fld w 48 40 == 0 then (if fld w 51 50 == 2 then [wordInB w] else [])
    else if (wordOp w == 0x12 || wordOp w == 0x18) && fld w 35 11 == 0 then []
    else wordInputs sid w
  else if kindOf sid == .fe && wordOp w != 0x20 then []
  else wordInputs sid w

/-- Does a step have an output port: WLOAD, BLOAD, CHECK, FWLOAD and KVOP have none (R77, R189, R319)? -/
def wordHasOut (sid : Nat) (w : StepWord) : Bool :=
  match kindOf sid with
  | .ma | .half => !(wordOp w == 0x10 || wordOp w == 0x13 || wordOp w == 0x14)
  | .fe => wordOp w != 0x20
  | .atu => wordOp w != 0x11
  | _ => true

/-- May the ports of a station's steps be unbound: those of the stations whose opcodes, and so whose use of ports, the
spec does not list (log 14)? -/
def portsOptional (sid : Nat) : Bool := kindOf sid == .vd || kindOf sid == .dma

/-- The nesting of loops over a table: the depth left open at its end, none where unbalanced or deeper than 4 (R30). -/
def loopDepth (d : Nat) : List StepWord → Option Nat
  | [] => some d
  | w :: r =>
    if wordOp w = 1 then (if d = 4 then none else loopDepth (d + 1) r)
    else if wordOp w = 2 then (if d = 0 then none else loopDepth (d - 1) r)
    else loopDepth d r

/-- Is a control step well formed: IN_A, IN_B, OUT, RESERVE and the unused ARGS bits zero (R29)? -/
def controlOk (w : StepWord) : Bool :=
  fld w 111 100 == 0 && fld w 95 76 == 0 &&
  (if wordOp w == 1 then fld w 75 24 == 0 else if wordOp w == 4 then fld w 75 1 == 0 else fld w 75 0 == 0)

/-- Does the chapter of the station's opcodes accept the station's table? The checks of each chapter stand with its
opcodes; what they refuse is refused at load with TABLE_MALFORMED (R32). -/
abbrev ArgCheck := Nat → List StepWord → Bool

/-- Is a step of a table in order for the station (R29, R32)? -/
def State.stepOk (s : State) (sid : Nat) (w : StepWord) : Bool :=
  if wordOp w < 0x10 then decide (wordOp w ≤ 4) && controlOk w
  else opDefined sid (wordOp w) &&
    (portsOptional sid ||
      ((wordInputs sid w).all (fun p => (s.inStream sid p).isSome)
        && (!wordHasOut sid w || !(s.outStreams sid (wordOut w)).isEmpty)))

/-- The check of a table at load (R32, R39): none where it passes, else the refusal's status word. -/
def State.tableCheck (s : State) (args : ArgCheck) (sid : Nat) (tbl : List StepWord) : Option Word :=
  if tbl.any fun w => fld w 127 124 != 1 then some (withSrc 0x02000202 sid)
  else if tbl.length = 0 ∨ 4096 < tbl.length ∨ !(tbl.any fun w => wordOp w == 4) ∨ loopDepth 0 tbl ≠ some 0
      ∨ !(tbl.all fun w => s.stepOk sid w) ∨ !(args sid tbl) then some (withSrc 0x02000210 sid)
  else none

/-! ### Switching (R35 to R38) -/

/-- The word the sequencer stands at. -/
def Station.word (st : Station) : Option StepWord := st.active[st.pc]?

/-- Make the shadow table active at step 0, loops closed, the rounding generator to be reloaded
(R68); the old table moves to the shadow slot, LOADED (R36). -/
def Station.switch (st : Station) (tbl : List StepWord) : Station :=
  { st with
    active := tbl
    shadow := if st.active.isEmpty then .empty else .loaded st.active
    pc := 0
    loops := []
    yielded := false
    rng := none }

/-- Complete a step: on to the next, or to an armed table where the step yields under AT_YIELD (R35). A yield is kept over
the control steps and steps without inputs behind it: up to the step that consumes the next tile (R37). -/
def Station.advance (st : Station) (w : StepWord) : Station :=
  if wordYield w then
    match st.shadow with
    | .armed t .atYield => st.switch t
    | _ => { st with pc := st.pc + 1, yielded := true }
  else { st with pc := st.pc + 1, yielded := st.yielded && decide (wordOp w < 0x10) }

/-- The next tile that an input port gives, behind those that are missing (R37, log 86). -/
def nextTile : List Item → Option Desc
  | [] => none
  | .tile d :: _ => some d
  | .gap _ :: r => nextTile r

/-- The input ports of the next step that consumes tiles: those of the step the station stands at, or, at the end of the
table, of the first such step of the table `t` that is to take over. -/
def Station.nextInputs (st : Station) (sid : Nat) (t : List StepWord) : List Nat :=
  match st.word with
  | some w =>
    if 0x10 ≤ wordOp w then wordInputs sid w
    else if wordOp w = 4 then ((t.find? fun w => decide (0x10 ≤ wordOp w)).map (wordInputs sid)).getD []
    else []
  | none => []

/-- Is the swap line reached (R37): a yield step is done, and the next input tile of a stream with an origin count lies at
or beyond the line? -/
def State.swapDue (s : State) (sid : Nat) (t : List StepWord) (line : Int) : Bool :=
  let st := s.station sid
  st.yielded && (st.nextInputs sid t).any fun p =>
    s.portOrigin sid p && (match nextTile (st.inq.val [] p) with
      | some d => decide (0 ≤ ahead48 (descOrigin d) line)
      | none => false)

/-- Is a sequencer in RUN or BLOCKED at a step boundary? That of an array hands its steps over and runs on (R84). -/
def Station.between (st : Station) (sid : Nat) : Bool :=
  (st.seq == .run || st.seq == .blocked) && (isArray sid || st.running.isNone)

/-- Switch at a swap line (R37): between two steps, before the station consumes the tile. -/
def State.swapCheck (s : State) (sid : Nat) : State :=
  let st := s.station sid
  match st.shadow with
  | .armed t (.atSwap line) =>
    if st.between sid && s.swapDue sid t line then s.mapStation sid fun x => { x.switch t with seq := .run } else s
  | _ => s

/-! ### Steps (R31, R33) -/

/-- Consume the named input ports in order into the step in flight. -/
def State.consumeAll (s : State) (sid : Nat) (r : Running) : List Nat → Running × State
  | [] => (r, s)
  | p :: ps =>
    match s.consume sid p with
    | (some it, s) => s.consumeAll sid (r.absorb p it (s.portOrigin sid p)) ps
    | (none, s) => s.consumeAll sid r ps

/-- The input ports of a step that some stream feeds: those a start waits on (R31). -/
def State.boundInputs (s : State) (sid : Nat) (w : StepWord) : List Nat :=
  (wordStarts sid w).filter fun p => (s.inStream sid p).isSome

/-- Start the step at the sequencer's place (R31): consume its inputs, or wait in BLOCKED (R33). -/
def State.startStep (s : State) (sid : Nat) (w : StepWord) : State :=
  let ins := s.boundInputs sid w
  if ins.all (s.portReady sid) && s.lineReady sid && (!wordHasOut sid w || s.creditsReady sid (wordOut w)) then
    let (r, s) := s.consumeAll sid { word := w } ins
    s.mapStation sid fun st => { st with seq := .run, running := some r }
  else s.mapStation sid (Station.block s.tb)

/-! ### The units of an array (R84 to R86, R103) -/

/-- The sequencer of an array goes on behind a step it has handed over; the step itself is not yet complete. -/
def Station.handed (st : Station) (w : StepWord) : Station :=
  { st with seq := .run, pc := st.pc + 1, yielded := wordYield w || (st.yielded && wordOp w == 0x14) }

/-- Is the unit that a step is for idle: neither running nor holding one? The weight loader takes a WLOAD only while the
shadow registers are empty (R85). -/
def State.unitIdle (s : State) (sid op : Nat) : Bool :=
  let p := s.path sid
  if op = 0x10 then (s.arr (arrayOf sid)).loads.isEmpty && p.shadow.isNone
  else if op = 0x13 then p.biasing.isNone && p.biasNext.isNone
  else (s.station sid).running.isNone && p.next.isNone

/-- Has the unit room for another step: each holds one queued beyond the one it runs (R84)? -/
def State.unitRoom (s : State) (sid op : Nat) : Bool :=
  let p := s.path sid
  if op = 0x10 then decide ((s.arr (arrayOf sid)).loads.length < 2) && p.loadNext.isNone
  else if op = 0x13 then p.biasNext.isNone
  else p.next.isNone

/-- Have a step's input ports a tile each, and its output port its credits (R31)? -/
def State.stepReady (s : State) (sid : Nat) (w : StepWord) : Bool :=
  (s.boundInputs sid w).all (s.portReady sid) && (!wordHasOut sid w || s.creditsReady sid (wordOut w))

/-- Queue a step at its unit, numbered in the order of issue. -/
def State.queueStep (s : State) (sid : Nat) (w : StepWord) : State :=
  let q : Running := { word := w, order := (s.path sid).issued }
  if wordOp w = 0x10 then
    (s.mapPath sid fun p => { p with issued := p.issued + 1, loadNext := some q }).mapArr (arrayOf sid) fun a =>
      { a with loads := a.loads ++ [sid] }
  else if wordOp w = 0x13 then s.mapPath sid fun p => { p with issued := p.issued + 1, biasNext := some q }
  else s.mapPath sid fun p => { p with issued := p.issued + 1, next := some q }

/-- Is a step issued before `n`? -/
def Running.before (n : Nat) : Option Running → Bool
  | some r => decide (r.order < n)
  | none => false

/-- The multiply path starts its queued step: not before the BLOADs issued before it are done; it keeps the bias it starts
with (R86). -/
def State.startMult (s : State) (sid : Nat) : State :=
  let p := s.path sid
  match (s.station sid).running, p.next with
  | none, some q =>
    if !Running.before q.order p.biasing && !Running.before q.order p.biasNext && s.stepReady sid q.word then
      let q := { q with bias := p.bias, biasFmt := p.biasFmt, biasBad := p.biasBad }
      let (r, s) := s.consumeAll sid q (s.boundInputs sid q.word)
      ((s.mapPath sid fun p => { p with next := none }).mapStation sid fun st =>
        { st with running := some r }).wakeArray (arrayOf sid)
    else s
  | _, _ => s

/-- The bias register's unit starts its queued step. -/
def State.startBias (s : State) (sid : Nat) : State :=
  let p := s.path sid
  match p.biasing, p.biasNext with
  | none, some q =>
    if s.stepReady sid q.word then
      let (r, s) := s.consumeAll sid q (s.boundInputs sid q.word)
      (s.mapPath sid fun p => { p with biasing := some r, biasNext := none }).wakeArray (arrayOf sid)
    else s
  | _, _ => s

/-- The weight loader starts its queued step, in the order of issue over the halves (R103), while the shadow registers are
empty (R85). -/
def State.startWload (s : State) (sid : Nat) : State :=
  let p := s.path sid
  match p.loading, p.loadNext with
  | none, some q =>
    if (s.arr (arrayOf sid)).loads.head? == some sid && p.shadow.isNone && s.stepReady sid q.word then
      let (r, s) := s.consumeAll sid q (s.boundInputs sid q.word)
      (s.mapPath sid fun p => { p with loading := some r, loadNext := none }).wakeArray (arrayOf sid)
    else s
  | _, _ => s

/-- The units of an array start what they hold queued and may start. -/
def State.startUnits (s : State) (sid : Nat) : State :=
  if (s.station sid).seq == .run || (s.station sid).seq == .blocked then ((s.startWload sid).startBias sid).startMult sid
  else s

/-- The sequencer of an array hands a step to its unit, which starts it as soon as it may; it waits in BLOCKED where the
unit is idle and an input or a credit is absent, in RUN where the unit has no room (R31, R33, R84). -/
def State.issueStep (s : State) (sid : Nat) (w : StepWord) : State :=
  if !s.unitRoom sid (wordOp w) then s
  else if s.unitIdle sid (wordOp w) && !s.stepReady sid w then s.mapStation sid (Station.block s.tb)
  else ((s.queueStep sid w).mapStation sid fun st => st.handed w).startUnits sid

/-- Has an array handed over a step that is not yet complete? -/
def State.unitsBusy (s : State) (sid : Nat) : Bool :=
  let p := s.path sid
  isArray sid && ((s.station sid).running.isSome || p.next.isSome || p.loading.isSome || p.loadNext.isSome
    || p.biasing.isSome || p.biasNext.isSome)

/-- STEP_START: a station in RUN or BLOCKED at a step boundary starts the station-specific step it stands at; one of an
array is handed to its unit. -/
def State.stepStart (s : State) (sid : Nat) : State :=
  let s := s.swapCheck sid
  let s := if isArray sid then s.startUnits sid else s
  let st := s.station sid
  if st.between sid then
    match st.word with
    | some w =>
      if wordOp w < 0x10 then s else if isArray sid then s.issueStep sid w else s.startStep sid w
    | none => s
  else s

/-- The sequence locks that the step of an ATU holds are gone (R308). -/
def State.unlockUnit (s : State) (sid : Nat) : State :=
  let j := s.ownerOf sid
  { s with attn := { s.attn with locks := s.attn.locks.filter fun l => l.2 != (j, sid) } }

/-- A step of a unit of an array is complete: one that yields hands over to a table armed for that (R35). -/
def Station.unitDone (st : Station) (w : StepWord) : Station :=
  let st : Station := { st with drain := st.drain.map fun dr => { dr with completed := dr.completed + 1 } }
  match st.shadow with
  | .armed t .atYield =>
    if wordYield w && (st.seq == .run || st.seq == .blocked) then { st.switch t with seq := .run } else st
  | _ => st

/-- Complete the step in flight: its counts in a drain, its locks (R308), and the sequencer's advance (R33); that of an
array's multiply path, whose next step may then start. -/
def State.finishStep (s : State) (sid : Nat) (r : Running) : State :=
  if isArray sid then
    (s.mapStation sid fun st => Station.unitDone { st with running := none } r.word).startUnits sid
  else
    (if kindOf sid = .atu then s.unlockUnit sid else s).mapStation sid fun st =>
      let st := { st with
        running := none
        drain := st.drain.map fun dr => { dr with completed := dr.completed + 1 } }
      if st.seq = .run ∨ st.seq = .blocked then { st.advance r.word with seq := .run } else st

/-- TILE_EMIT: a step that has computed output emits its next output tile, its payload written at `addr`; after the
last one the step completes (R19, R31). Where a queue that the tile goes through has no room, or its buffer group is being zero-filled, the producer waits (R378,
R125, R126). -/
def State.tileEmit (s : State) (sid addr scale : Nat) (sot eot : Bool) : State :=
  match (s.station sid).running with
  | some r =>
    match r.outs with
    | [] => s
    | o :: rest =>
      if !s.tileTags sid (wordOut r.word) then s.capStall sid
      else if s.fillingAt addr then s
      else if !s.tileRoom sid (wordOut r.word) o then s.waitRoom sid (wordOut r.word) o
      else
      let s := s.memWrite sid addr o.bytes
      let s := if o.mx then s.memWrite sid scale o.scales else s
      let s := s.emitTile sid r o addr scale sot eot
      let r' := { r with outs := rest }
      if rest.isEmpty && r.computed then s.finishStep sid r'
      else s.mapStation sid fun st => { st with running := some r' }
  | none => s

/-! ### Control opcodes (R29) -/

/-- Run a control opcode the sequencer stands at: `f` is its effect on the station, given its word. -/
def State.control (s : State) (sid op : Nat) (f : Station → StepWord → Station) : State :=
  let st := s.station sid
  if st.between sid then
    match st.word with
    | some w => if wordOp w = op then s.mapStation sid fun st => f st w else s
    | none => s
  else s

/-- LOOP: open a loop that runs COUNT_M1 + 1 times. -/
def Station.loop (st : Station) (w : StepWord) : Station :=
  let st' := st.advance w
  { st' with seq := .run, loops := if st'.pc = st.pc + 1 then (st.pc + 1, fld w 23 0) :: st.loops else st'.loops }

/-- ENDLOOP: run the innermost loop again, or close it. -/
def Station.endLoop (st : Station) (w : StepWord) : Station :=
  match st.loops with
  | (start, left) :: r =>
    if left = 0 then { ({ st with loops := r } : Station).advance w with seq := .run }
    else
      let st' := ({ st with loops := (start, left - 1) :: r } : Station).advance w
      { st' with seq := .run, pc := if st'.pc = st.pc + 1 then start else st'.pc }
  | [] => { st.advance w with seq := .run }

/-- END: an armed AT_END or AT_YIELD table takes over; else restart at step 0 (REPEAT) or IDLE (R29, R35). With a table
armed for a swap line the station does not go IDLE (R33): it stands at END in RUN until the switch (log 86). -/
def Station.endTable (st : Station) (w : StepWord) : Station :=
  let yielded := st.yielded || wordYield w
  match st.shadow with
  | .armed t .atEnd => { st.switch t with seq := .run }
  | .armed t .atYield => { st.switch t with seq := .run }
  | .armed _ (.atSwap _) =>
    if bit w 0 then { st with pc := 0, loops := [], seq := .run, yielded := yielded }
    else { st with seq := .run, yielded := yielded }
  | _ =>
    if bit w 0 then { st with pc := 0, loops := [], seq := .run, yielded := yielded }
    else { st with pc := 0, loops := [], seq := .idle, yielded := false }

/-- END: an array whose table ends stays in RUN until the steps it has handed over are complete (log 100). -/
def State.endTable (s : State) (sid : Nat) : State :=
  s.control sid 4 fun st w =>
    let u := st.endTable w
    if u.seq = .idle && s.unitsBusy sid then st else u

/-- Does a switch of the armed table `t` fall between two steps at this moment (R35, R37): the sequencer stands at END, or
at a control step that yields, or the swap line is reached? -/
def State.switchBetween (s : State) (sid : Nat) (t : List StepWord) (c : SwitchCond) : Bool :=
  let st := s.station sid
  st.between sid && (match c, st.word with
    | .atSwap line, _ => s.swapDue sid t line
    | .atEnd, some w => wordOp w == 4
    | .atYield, some w => wordOp w == 4 || (wordYield w && decide (wordOp w < 0x10))
    | _, none => false)

/-- Is the step in flight one that yields to a table armed for that? -/
def State.switchInStep (s : State) (sid : Nat) (c : SwitchCond) : Bool :=
  let st := s.station sid
  (st.seq == .run || st.seq == .blocked) && (match c, st.running with
    | .atYield, some r => wordYield r.word
    | _, _ => false)

/-- Has every tile the station emitted been accepted (R29 FENCE)? The steps that an array has handed over are to be
complete first (log 100). -/
def State.fenceMet (s : State) (sid : Nat) : Bool :=
  !s.unitsBusy sid && (s.producedBy sid).all fun p => p.2.unacc == 0

/-- FENCE: pass where every emitted tile has been accepted, else wait in BLOCKED. -/
def State.fence (s : State) (sid : Nat) : State :=
  s.control sid 3 fun st w => if s.fenceMet sid then { st.advance w with seq := .run } else st.block s.tb

end Sys2Proof.Machine
end

