-- ==== Sys2Proof/Machine/ArrayArgs.lean ====
section
/-! DEFINITION. Operand pairs and the arguments of the array steps, with their load checks (R62, R77 to R82, R107). -/

namespace Sys2Proof.Machine

/-! ### Operand pairs (R62) -/

/-- How a pair of operands is accumulated. -/
inductive AccKind | float | mxFloat | mxInt | int | log
deriving DecidableEq, Repr

/-- FP8, FP6 and FP4 codes. -/
def isFp8 (f : Nat) : Bool := f == 5 || f == 6

/-- An operand pair (R62): its accumulation and the indices each cell row carries (p of R76); none: not allowed. -/
def operandPair (a b : Nat) (mx : Bool) : Option (AccKind × Nat) :=
  if 5 ≤ a ∧ a ≤ 9 ∧ 5 ≤ b ∧ b ≤ 9 then
    some (if mx then .mxFloat else .float, if isFp8 a || isFp8 b then 1 else 2)
  else if a = 0x0E ∧ b = 0x0E ∧ mx then some (.mxInt, 1)
  else if mx then none
  else if (a = 0x0E ∨ a = 0x0F) ∧ (b = 0x0E ∨ b = 0x0F ∨ b = 0x10) then some (.int, 1)
  else if a = 0x10 ∧ b = 0x10 then some (.int, 2)
  else if (a = 0x0A ∨ a = 0x0B) ∧ (b = 0x0A ∨ b = 0x0B) then some (.log, 2)
  else if (a = 3 ∨ a = 4) ∧ (b = 3 ∨ b = 4) then some (.float, 1)
  else if (a = 2 ∧ b = 2) ∨ (a = 1 ∧ b = 1) then some (.float, 1)
  else none

/-- Is the accumulator INT32 (R62)? -/
def AccKind.isInt : AccKind → Bool
  | .int => true | .log => true | _ => false

/-- The most indices a weight format can carry to a cell row; none where it is no array operand. -/
def weightP (b : Nat) (mx : Bool) : Option Nat :=
  ((List.range 0x13).filterMap fun a => (operandPair a b mx).map (·.2)).max?

/-! ### Step arguments (R78 to R80, R82) -/

/-- The arguments an MMUL, OSMUL or MVMUL shares. -/
structure MulArgs where
  fa : Nat
  fb : Nat
  mx : Bool
  out : Nat
  outMx : Bool
  round : Nat
  scale : Nat
  init : Nat
  swap : Bool
  k : Nat
  n : Nat
  m : Nat
deriving DecidableEq, Repr

/-- The arguments of an MMUL (R78). -/
def mmulArgs (w : StepWord) : MulArgs :=
  { fa := fld w 75 71, fb := fld w 70 66, mx := bit w 65, out := fld w 64 60, outMx := bit w 59, round := fld w 58 57
    scale := fld w 56 52, init := fld w 51 50, swap := bit w 49, k := fld w 48 40, n := fld w 39 33 + 1
    m := fld w 32 9 + 1 }

/-- The arguments of an OSMUL or MVMUL (R79, R107). -/
def osmulArgs (w : StepWord) : MulArgs :=
  { fa := fld w 75 71, fb := fld w 70 66, mx := bit w 65, out := fld w 64 60, outMx := bit w 59, round := fld w 58 57
    scale := fld w 56 52, init := fld w 51 50, swap := false, k := fld w 35 11, n := fld w 42 36 + 1
    m := fld w 49 43 + 1 }

/-- Cell rows of a station: 128, or 64 of a half (R103). -/
def cellRows (sid : Nat) : Nat := if kindOf sid == .half then 64 else 128

/-- Is an output format one a drain can write: 0x00, or a listed code other than E8M0 (R53, R66)? -/
def outFormatOk (f : Nat) (mx : Bool) : Bool :=
  (f == 0 || (formatKnown f && f != 0x12)) && (!mx || mxFormat f)

/-- The load check of a product step (R82). -/
def mulOk (sid : Nat) (a : MulArgs) (kBound : Bool) (initMax : Nat) : Bool :=
  match operandPair a.fa a.fb a.mx with
  | none => false
  | some (kind, p) =>
    (!kBound || decide (a.k ≤ cellRows sid * p)) && (kind.isInt || a.scale == 0) && decide (a.round ≤ 1)
      && decide (a.init ≤ initMax) && outFormatOk a.out a.outMx

/-- Is IN_B equal to IN_A, as R77 has it of a step with one input? -/
def oneInput (w : StepWord) : Bool := wordInB w == wordInA w

/-- Is RESERVE zero, as R77 has it of a step without results? -/
def noReserve (w : StepWord) : Bool := fld w 95 76 == 0

/-- The load check of an array's or MVE's step (R77, R82, R107). Beyond the list of R82 it refuses what the layouts of R77
to R80 and R103 rule out (log 93). -/
def arrayArgsOk (sid : Nat) (w : StepWord) : Bool :=
  match wordOp w with
  | 0x10 =>
    (match weightP (fld w 75 71) (bit w 70) with
      | some p => decide (fld w 69 61 ≤ cellRows sid * p)
      | none => false) && oneInput w && noReserve w
  | 0x11 => mulOk sid (mmulArgs w) true 2 && ((mmulArgs w).init == 2 || oneInput w)
  | 0x12 => mulOk sid (osmulArgs w) false 1 && decide ((osmulArgs w).k ≤ 16777216)
      && decide ((osmulArgs w).m ≤ cellRows sid)
  | 0x13 => (fld w 75 71 == 1 || fld w 75 71 == 0x0C) && oneInput w && noReserve w
  | 0x14 => fld w 75 44 != 0 && noReserve w
  | 0x18 => mulOk sid (osmulArgs w) false 1 && decide ((osmulArgs w).k ≤ 16777216) && decide ((osmulArgs w).m ≤ 8)
  | _ => true

/-- The result tile of an output-stationary step cut short by a fault before its last index (R102): none of its elements
is written, so all read as the zero code, as R527 has it of a tile begun. -/
def cutProduct (w : StepWord) : OutTile :=
  let g := osmulArgs w
  let acc := match operandPair g.fa g.fb g.mx with
    | some (kind, _) => if kind.isInt then 0x0C else 0x01
    | none => 0x01
  let f := if g.out = 0 then acc else g.out
  { bytes := (List.replicate g.m (packRow f (List.replicate g.n (zeroCode f)))).flatten
    scales := if g.out != 0 && g.outMx then List.replicate (g.m * ceilDiv g.n 32) 0 else []
    format := f, mx := g.out != 0 && g.outMx, rows := g.m, cols := g.n, poisoned := true }

end Sys2Proof.Machine
end

