-- ==== Sys2Proof/Machine/QueueOps.lean ====
section
/-! DEFINITION. The queue manager: the commands on a queue (R377 to R383). -/

namespace Sys2Proof.Machine

/-! ### Tiles landed from the fabric (R402, R403, R405) -/

/-- A landing or a write being served, by its issuer and TXN. -/
def Frame.key (f : Frame) : Nat := f.src * 65536 + f.txn

/-- Answer a frame: COMPLETE (5) or RETURN (7) to its issuer. -/
def State.answerFrame (s : State) (f : Frame) (kind : Nat) (w : Word) (payload : List Byte) : State :=
  (s.sendFrame (mkFrame kind f.tc false f.src f.dst f.txn f.epoch (s.nat Dict.fabTtl) 0 0 w payload)).2

/-- The stream of this module that a tile belongs to, of the owner or of a waiting job. -/
def State.anyStream (s : State) (i : Nat) : Option Stream :=
  match s.streams.look i with
  | some x => some x
  | none => s.sched.jobs.findSome? fun p => p.2.streams.look i

/-- Change what is kept of a landing. -/
def State.keepLanding (s : State) (key : Nat) (x : Landing) : State :=
  { s with fab := { s.fab with landing := s.fab.landing.ins key x } }

/-- The last payload byte has come: the tile is pushed into its stream's queue, and COMPLETE follows (R403, R405); where
the queue has no room the landed tile waits for it (R378). -/
def State.landTile (s : State) (f : Frame) (d : Desc) (data : List Byte) : State :=
  let s := { s with fab := { s.fab with landing := s.fab.landing.del f.key } }
  match s.anyStream (fld d 479 464) with
  | some x =>
    let n := if bit d 502 then data.length else min data.length (fld d 351 332)
    let r := s.queuePush (f.dst % 256) (Machine.mapQueue x.entry) (wordBytes d ++ data.take n) true false false
    if r.1 then r.2.answerFrame f 5 0 [] else r.2.keepLanding f.key { desc := some d, data := data, whole := some f }
  | none => s.discard Dict.discardTiles

/-- Cells of a queue are free: the landed tiles that wait are tried again, in the order of their keys. -/
def State.landWaiting (s : State) : State :=
  s.fab.landing.foldl (fun s p => match p.2.whole, p.2.desc with
    | some f, some d => s.landTile f d p.2.data
    | _, _ => s) s

/-! ### POP, RELEASE -/

/-- The bytes of a packet, read from its cells. -/
def State.packetBytes (s : State) (p : Packet) : List Byte :=
  (p.cells.flatMap fun k => s.rawRead (s.cellAddr k) 256).take p.len

/-- A stream packet whose parity failed carries POISONED in its descriptor (R380). -/
def poisonPacket (l : List Byte) : List Byte :=
  wordBytes (sealDesc (setFld (bytesWord 512 (l.take 64)) 500 500 1)) ++ l.drop 64

/-- A stream packet popped by the station it is for: its payload lies where its descriptor says, and the tile reaches the
station's port (R26, R375, R377). -/
def State.deliverPopped (s : State) (issuer q : Nat) (l : List Byte) : State :=
  let d := bytesWord 512 (l.take 64)
  match s.streams.look (fld d 479 464) with
  | some x =>
    if mapViaQueue x.entry && Machine.mapQueue x.entry == q && s.isLocal (mapCons x.entry)
        && mapCons x.entry % 256 == issuer then
      (s.memWrite issuer (fld d 319 272) (l.drop 64)).receive issuer (mapConsPort x.entry) d true
    else s
  | none => s

/-- POP (R377, R380): the oldest unread packet is delivered and held. `parity` says that a word's parity fails. -/
def State.queuePop (s : State) (issuer q : Nat) (bad parity : Bool) : State :=
  if !s.queueOn q then s.queueBad issuer
  else if bad && s.queueC q then s.queueMismatch q issuer
  else match (s.queue q).unread with
    | [] => s
    | p :: r =>
      let l := s.packetBytes p
      let s := if parity then (s.bump Dict.qParityCount q).reportEvery nsPerS 0x06F00F02 255 (leBytes 4 q) q else s
      let s := p.cells.foldl (fun s k => s.passCells (s.queueTrump q) false (s.cellAddr k) 256) s
      let s := s.mapQueue q fun x => { x with unread := r, held := x.held ++ [p] }
      let s := if p.stream then s.creditOwed.creditPop q (bytesWord 512 (l.take 64)) else s.creditOwed
      let l := if parity && p.stream then poisonPacket l else l
      let s := s.emit (.packet l (parity && !p.stream))
      if p.stream then s.deliverPopped issuer q l else s

/-- RELEASE (R377): the cells of the oldest held packet are free; its mark goes. -/
def State.queueRelease (s : State) (issuer q : Nat) (bad : Bool) : State :=
  if !s.queueOn q then s.queueBad issuer
  else if bad && s.queueC q then s.queueMismatch q issuer
  else match (s.queue q).held with
    | [] => s.queueBad issuer
    | p :: r =>
      let s := s.mapQueue q fun x => { x with held := r, mark := if x.mark = some p.id then none else x.mark }
      ((s.freePacket q p.cells).tryExchange q).landWaiting

/-! ### FLUSH (R382) -/

/-- FLUSH: requested for the queue's next packet boundary; a second one before it merges with the first. -/
def State.queueFlush (s : State) (issuer q : Nat) (bad : Bool) : State :=
  if !s.queueOn q then s.queueBad issuer
  else if bad && s.queueC q then s.queueMismatch q issuer
  else s.mapQueue q fun x => { x with flush := true, mark := none }

/-- The packet boundary: every unread packet is discarded and its cells are free. -/
def State.flushBoundary (s : State) (q : Nat) : State :=
  let x := s.queue q
  if x.flush then
    let gone := x.unread ++ x.fill
    let s := s.bump Dict.qFlushed q gone.length
    let s := s.mapQueue q fun x => { x with unread := [], fill := [], flush := false, mark := none, closed := false }
    let s := s.freePacket q (gone.flatMap (·.cells))
    (if s.queueStrip q then s.mapQueue q fun x => x.exchange true else s).landWaiting
  else s

/-! ### MARK and REWIND (R383) -/

/-- Are MARK and REWIND accepted: REWIND_ENABLE and a phase of START_UP, TEST or RECOVERY (R383, R541)? -/
def State.markAllowed (s : State) (q : Nat) : Bool :=
  s.flag Dict.rewindEnable q &&
    (s.boot.phase == .startUp || s.boot.phase == .test || s.boot.phase == .recovery)

/-- Refused in service (R383). -/
def State.notInService (s : State) (issuer : Nat) : State :=
  let w := withSrc 0x02000F05 issuer
  (s.toErr issuer w).answer w

/-- MARK: the oldest unreleased packet is the mark; with no packet there is none to mark. -/
def State.queueMark (s : State) (issuer q : Nat) (bad : Bool) : State :=
  if !s.queueOn q then s.queueBad issuer
  else if !s.markAllowed q then s.notInService issuer
  else if bad && s.queueC q then s.queueMismatch q issuer
  else s.mapQueue q fun x => { x with mark := (x.held ++ x.unread).head?.map (·.id) }

/-- REWIND: every held packet from the mark on returns to the head of the unread list. -/
def State.queueRewind (s : State) (issuer q : Nat) (bad : Bool) : State :=
  if !s.queueOn q then s.queueBad issuer
  else if !s.markAllowed q then s.notInService issuer
  else if bad && s.queueC q then s.queueMismatch q issuer
  else match (s.queue q).mark with
    | none => s.queueBad issuer
    | some m => s.mapQueue q fun x =>
      let keep := x.held.takeWhile fun p => p.id != m
      { x with held := keep, unread := x.held.drop keep.length ++ x.unread }

/-- RESET by the management cluster (R381): steps 2 to 4, reporting nothing. -/
def State.queueReset (s : State) (issuer q : Nat) : State :=
  if !s.queueOn q then s.queueBad issuer else s.queueClear q

/-- Disabling a queue: its packets and banks are gone (log 19). -/
def State.queueDisable (s : State) (q : Nat) : State :=
  let x := s.queue q
  let cells := (x.unread ++ x.held ++ x.fill).flatMap (·.cells) ++ x.fillCells ++ x.drainCells ++ x.sweep
  (s.giveCells cells).mapQueue q fun x => { incarn := x.incarn, nextId := x.nextId }

end Sys2Proof.Machine
end

