-- ==== Sys2Proof/Machine/Lifecycle.lean ====
section
/-! DEFINITION. Disabling and draining a station, power to a station, splits (R33, R34, R103, R527 to R529). -/

namespace Sys2Proof.Machine

/-- The tiles a list of items holds. -/
def itemTiles : List Item → Nat
  | [] => 0
  | .tile _ :: r => itemTiles r + 1
  | .gap _ :: r => itemTiles r

/-- Drop every tile held in a station's ports, giving its credit back (R528). -/
def State.dropHeld (s : State) (sid : Nat) : State :=
  let st := s.station sid
  let s := st.inq.foldl (fun s p =>
    match s.inStream sid p.1 with
    | some (i, _) => s.giveCredits i (itemTiles p.2)
    | none => s) s
  let n := ((st.inq.map fun p => itemTiles p.2)).foldl (· + ·) 0
  (s.bump Dict.drainInputDropped 0 n).mapStation sid fun x =>
    { x with inq := [], drain := x.drain.map fun d => { d with dropped := d.dropped + n } }

/-- Drop the steps queued in the units of an array and not started (R84, R527). -/
def State.dropQueued (s : State) (sid : Nat) : State :=
  if isArray sid then
    (s.mapPath sid fun p => { p with next := none, loadNext := none, biasNext := none }).mapArr (arrayOf sid) fun a =>
      { a with loads := a.loads.filter (· != sid) ++ (if (s.path sid).loading.isSome then [sid] else []) }
  else s

/-- Drop every step of the units of an array but the one in flight at its multiply path. -/
def State.dropLoads (s : State) (sid : Nat) : State :=
  if isArray sid then
    ((s.dropQueued sid).mapPath sid fun p => { p with loading := none, biasing := none }).mapArr (arrayOf sid) fun a =>
      { a with loads := a.loads.filter (· != sid) }
  else s

/-- Has a step started: it has consumed an input, computed, or names no input (R527)? -/
def Running.started (sid : Nat) (r : Running) : Bool := decide (0 < r.used) || !r.outs.isEmpty || (wordInputs sid r.word).isEmpty

/-- A disable of a station (R527): to DRAIN from RUN or BLOCKED; steps not started are dropped, and what its ports
hold. In IDLE, OFF, DRAIN and FAULT it has no further effect (R529). -/
def State.disable (s : State) (sid : Nat) : State :=
  let st := s.station sid
  if st.seq = .run ∨ st.seq = .blocked then
    (s.mapStation sid fun x => { x with
      seq := .drain
      drain := some { since := s.tb }
      running := x.running.filter (·.started sid) }).dropQueued sid |>.dropHeld sid
  else s

/-- The station is drained: it enters IDLE (or stays in FAULT, R529) and reports its counts (R527). -/
def State.drainReport (s : State) (sid : Nat) : State :=
  let st := s.station sid
  match st.drain with
  | some d =>
    if st.running.isNone then
      let s := (s.dropLoads sid).mapStation sid fun x => { x with
        drain := none
        seq := if x.seq = .drain then .idle else x.seq
        pc := if x.seq = .drain then 0 else x.pc
        loops := if x.seq = .drain then [] else x.loops }
      s.report (withSrc 0x06000220 sid) sid (leBytes 4 d.completed ++ leBytes 4 d.poisoned ++ leBytes 4 d.dropped)
    else s
  | none => s

/-- A begun output tile cut short: what is written stays, the rest reads as the zero code (R527). -/
def OutTile.cut (o : OutTile) (written : Nat) : OutTile :=
  let zeros := (List.replicate o.rows (packRow o.format (List.replicate o.cols (zeroCode o.format)))).flatten
  { o with bytes := o.bytes.take written ++ (zeros.drop written).take (o.bytes.length - written), poisoned := true }

/-- Emit the begun output tile of the step in flight with POISONED set, and end the step (R527). -/
def State.emitBegun (s : State) (sid addr scale written : Nat) : State :=
  match (s.station sid).running with
  | some r =>
    match r.outs with
    | o :: _ =>
      let o := o.cut written
      let s := s.memWrite sid addr o.bytes
      let s := if o.mx then s.memWrite sid scale o.scales else s
      let s := (s.emitTile sid r o addr scale false false).bump Dict.drainPoisoned
      s.mapStation sid fun x => { x with
        running := none, drain := x.drain.map fun d => { d with poisoned := d.poisoned + 1 } }
    | [] => s.mapStation sid fun x => { x with running := none }
  | none => s

/-- DRAIN_TIMEOUT after the request a step still running stops (R527). -/
def State.drainTimeout (s : State) (sid addr scale written : Nat) : State :=
  match (s.station sid).drain with
  | some d => if d.since + s.nat Dict.drainTimeout * 1000 ≤ s.tb then s.emitBegun sid addr scale written else s
  | none => s

/-! ### Power to a station (R33, R34) -/

/-- A station's power domain is switched on: OFF to IDLE. -/
def Station.powerOn (st : Station) : Station := if st.seq = .off then { st with seq := .idle } else st

/-- A station's power domain is switched off: IDLE to OFF; its tables go with its power (log 20). -/
def Station.powerOff (st : Station) : Station :=
  if st.seq = .idle then { epoch := st.epoch, faults := st.faults, held := st.held } else st

/-- The stations of a power domain. -/
def stationsOf (pd : Nat) : List Nat := stationIds.filter fun sid => pdOf sid == pd

/-- Switch the stations of a power domain on. -/
def State.stationsOn (s : State) (pd : Nat) : State :=
  (stationsOf pd).foldl (fun s sid => s.mapStation sid Station.powerOn) s

/-- Switch the stations of a power domain off; the registers of an array and the weight store of a front engine go with
their power (log 90). -/
def State.stationsOff (s : State) (pd : Nat) : State :=
  (stationsOf pd).foldl (fun s sid =>
    let s := s.mapStation sid Station.powerOff
    if (s.station sid).seq == .off then { s with paths := s.paths.del sid, fronts := s.fronts.del sid } else s) s

/-! ### Splitting an array (R15, R41, R103) -/

/-- The two halves of array `n` (R14). -/
def halvesOf (n : Nat) : List Nat := [0x80 + 2 * n, 0x81 + 2 * n]

/-- Are the array's whole station, or both its half stations, IDLE (R103)? -/
def State.splitIdle (s : State) (n : Nat) : Bool :=
  if s.arraySplit n then (halvesOf n).all fun h => (s.station h).seq == .idle else (s.station n).seq == .idle

/-- Split array `n` or join its halves: a role change of the array (R15, R41). The stations take their power state from
what they were. -/
def State.setSplit (s : State) (n : Nat) (split : Bool) : State :=
  if s.arrayEnabled n && s.arraySplit n != split then
    let on := if split then (s.station n).seq else (s.station (0x80 + 2 * n)).seq
    let m := s.nat Dict.arraySplitMap
    let s := s.setNum Dict.arraySplitMap (if split then m + 2 ^ n else m - 2 ^ n : Int)
    let s := ([n] ++ halvesOf n).foldl (fun s sid => s.roleChange sid) s
    let s := { s with paths := ((s.paths.del n).del (0x80 + 2 * n)).del (0x81 + 2 * n) }
    ([n] ++ halvesOf n).foldl (fun s sid => s.mapStation sid fun x =>
      { x with seq := if on = .off then .off else .idle, active := [], shadow := .empty, pc := 0, loops := [] }) s
  else s

end Sys2Proof.Machine
end

