-- ==== Sys2Proof/Machine/JobOps.lean ====
section
/-! DEFINITION. The job scheduler: ranking, residence, pre-emption, ends (R353 to R370). -/

namespace Sys2Proof.Machine

/-! ### Jobs and their units -/

/-- Change a job. -/
def State.mapJob (s : State) (id : Nat) (f : Job → Job) : State :=
  match s.job? id with
  | some j => { s with sched := { s.sched with jobs := s.sched.jobs.ins id (f j) } }
  | none => s

/-- Is a job accepted and not ended? -/
def State.live (s : State) (id : Nat) : Bool :=
  match s.job? id with
  | some j => j.st != .ended
  | none => false

/-- The deadline of a job in ns of device time; none where it has none (R351). -/
def Job.deadline (j : Job) : Option Nat :=
  let d := j.map 431 384 * nsPerS + j.map 383 352
  if d = 0 then none else some d

/-- A job's partner in its group. -/
def Job.partner (j : Job) : Nat := j.map 463 432

/-- The jobs that count as one with `id`: it and its live partner in a group, else it alone (R366). -/
def State.members (s : State) (id : Nat) : List Nat :=
  match s.job? id with
  | some j => if bit j.desc 507 && j.paired && s.live j.partner then [id, j.partner] else [id]
  | none => []

/-- Two optional deadlines: the earlier; no deadline comes last. -/
def earlier (a b : Option Nat) : Option Nat :=
  match a, b with
  | some x, some y => some (min x y)
  | some x, none => some x
  | none, y => y

/-- The earliest deadline among the jobs that wait on a sequence lock `id` holds (R356). -/
def State.waiterDeadline (s : State) (id : Nat) : Option Nat :=
  (s.sched.jobs.filter fun p => p.2.st == .blocked && p.2.awaits.any fun n =>
      match s.attn.locks.look n with
      | some l => l.1 == id
      | none => false).foldl (fun a p => earlier a p.2.deadline) none

/-- The rank of a job: its deadline, its partner's or a waiter's if earlier, and its order of submission (R356). -/
def State.rank (s : State) (id : Nat) : Option Nat × Nat :=
  (s.members id).foldl (fun a m =>
    match s.job? m with
    | some j => (earlier a.1 (earlier j.deadline (s.waiterDeadline m)), min a.2 j.order)
    | none => a) (none, (s.job? id).elim 0 (·.order))

/-- Does rank `a` come before rank `b`: the earlier deadline, then the earlier submission (R356)? -/
def rankBefore (a b : Option Nat × Nat) : Bool :=
  match a.1, b.1 with
  | some x, some y => decide (x < y) || (x == y && decide (a.2 < b.2))
  | some _, none => true
  | none, some _ => false
  | none, none => decide (a.2 < b.2)

/-- The first job of a list by rank. -/
def State.firstByRank (s : State) : List Nat → Option Nat
  | [] => none
  | id :: r =>
    match s.firstByRank r with
    | some b => if rankBefore (s.rank b) (s.rank id) then some b else some id
    | none => some id

/-- The stations a job names (R351). -/
def Job.stations (j : Job) : List Nat := stationIds.filter fun sid => kindOf sid != .dma && j.names sid

/-- Is a unit the job names in FAULT (R533)? -/
def State.unitFaulted (s : State) (j : Job) : Bool := j.stations.any fun sid => (s.station sid).seq == .fault

/-- Is a unit the job names held (R533)? -/
def State.unitHeld (s : State) (j : Job) : Bool := j.stations.any fun sid => (s.station sid).held

/-- May the job be chosen: READY or the owner, its group complete, none of its units faulted (R356, R365, R533)? -/
def State.eligible (s : State) (id : Nat) : Bool :=
  match s.job? id with
  | some j => (j.st == .ready || j.st == .owner) && (!bit j.desc 507 || j.paired) && !s.unitFaulted j
  | none => false

/-- The candidates. -/
def State.candidates (s : State) : List Nat := (s.sched.jobs.map (·.1)).filter s.eligible

/-- Does a sensor cause at level 2 or above stand, while which no job is chosen (R531)? -/
def State.sensorStop (s : State) : Bool := s.guard.causes.any fun c => decide (2 ≤ c.1) && c.2.1 == 0x06921705

/-- Are jobs kept out: the service state (R540), or a sensor cause (R531)? -/
def State.jobsBarred (s : State) : Bool := s.sensorStop || s.sec.serviceState

/-! ### Reports -/

/-- A status word of a job to its ERROR_QUEUE (R371); class 0x06 words are events and event records besides (R531). -/
def State.jobReport (s : State) (id : Nat) (w : Word) : State :=
  let q := (s.job? id).elim 0 fun j => j.map 255 244
  let s := s.toErr (jobErr q) w
  if fld w 31 24 == 6 then (s.event 0 w).record w 255 (leBytes 4 id) else s

/-! ### Footprints (R358) -/

/-- The groups and KiB of a job's footprint: ABUF_KIB in each array buffer of ARRAY_MAP; SBUF_KIB spread evenly over
the groups of SG_MAP (log 21). -/
def Job.footprint (j : Job) : List (Nat × Nat) :=
  let sg := (List.range 8).filter fun g => inMap (j.map 271 264) g
  (((List.range 16).filter fun n => inMap (j.map 303 288) n).map fun n => (n, j.map 135 120))
    ++ sg.map fun g => (16 + g, ceilDiv (j.map 119 104) sg.length)

/-- The resident jobs. -/
def State.residents (s : State) : List (Nat × Job) := s.sched.jobs.filter fun p => p.2.resident || p.2.loading

/-- What is placed in group `g`: base and length in KiB of each resident footprint but those of `out`. -/
def State.placed (s : State) (out : List Nat) (g : Nat) : List (Nat × Nat) :=
  (s.residents.filter fun p => !out.contains p.1).filterMap fun p => p.2.place.look g

/-- The first base at which `len` KiB fit group `g` beside what is placed. -/
def fitBase (g len : Nat) (placed : List (Nat × Nat)) : Option Nat :=
  let cap := groupLen g / 1024
  let ok (b : Nat) : Bool := decide (b + len ≤ cap) && placed.all fun p => decide (b + len ≤ p.1 ∨ p.1 + p.2 ≤ b)
  (0 :: placed.map fun p => p.1 + p.2).foldl (fun a b =>
    if ok b then (match a with
      | some x => some (min x b)
      | none => some b) else a) none

/-- Place a footprint beside what is resident, the jobs of `out` taken away; none where it does not fit. -/
def State.placeFor (s : State) (out : List Nat) (extra : Tab (Nat × Nat)) : List (Nat × Nat) → Option (Tab (Nat × Nat))
  | [] => some extra
  | (g, len) :: r =>
    let mine := match extra.look g with
      | some p => [p]
      | none => []
    match fitBase g len (s.placed out g ++ mine) with
    | some b => s.placeFor out (extra.ins g (b, len)) r
    | none => none

/-- How many contexts are resident, a group counting once (R358, R366). -/
def State.contexts (s : State) (out : List Nat) : Nat :=
  ((s.residents.filter fun p => !out.contains p.1).filter fun p =>
    (s.members p.1).all fun m => decide (p.1 ≤ m) || !(s.job? m).elim false fun j => j.resident || j.loading).length

/-- The places of a job's and its partner's footprints (R366), or none. -/
def State.fits (s : State) (id : Nat) (out : List Nat) : Option (List (Nat × Tab (Nat × Nat))) :=
  if 8 ≤ s.contexts out then none
  else match s.members id with
    | [a] => ((s.job? a).bind fun j => s.placeFor out [] j.footprint).map fun p => [(a, p)]
    | [a, b] =>
      match s.job? a, s.job? b with
      | some ja, some jb =>
        let both := ja.footprint.map fun x => (x.1, x.2 + if x.1 < 16 then jb.map 135 120 else 0)
        (s.placeFor out [] (both ++ jb.footprint.filter fun x => decide (16 ≤ x.1))).map fun p =>
          [(a, p.filterMap fun x => (Tab.look ja.footprint x.1).map fun n => (x.1, (x.2.1, n))),
            (b, p.filterMap fun x => (Tab.look jb.footprint x.1).map fun n => (x.1, (x.2.1 + x.2.2 - n, n)))]
      | _, _ => none
    | _ => none

/-- Is a job pinned: a fabric transaction it issued holds a tag (R361)? -/
def State.pinned (s : State) (id : Nat) : Bool := s.fab.trans.any fun t => t.2.job == id

/-- May a resident job be a victim for the candidate, and in which class (R360): 0 BLOCKED, 1 READY with a later
deadline? -/
def State.victimClass (s : State) (cand : Nat) (p : Nat × Job) : Option Nat :=
  if !p.2.resident || (s.members p.1).any s.pinned || (s.members cand).contains p.1 || s.sched.owner.contains p.1 then none
  else if p.2.st == .blocked then some 0
  else if p.2.st == .ready && (match (s.rank p.1).1, (s.rank cand).1 with
      | none, some _ => true
      | some x, some y => decide (y < x)
      | _, none => false) then some 1
  else none

/-- Sort job IDs, latest deadline first. -/
def State.latestFirst (s : State) (l : List Nat) : List Nat :=
  l.foldr (fun x acc =>
    let before := acc.takeWhile fun y => rankBefore (s.rank x) (s.rank y)
    before ++ x :: acc.drop before.length) []

/-- The victims in the order of R360. -/
def State.victims (s : State) (cand : Nat) : List Nat :=
  let of (c : Nat) : List Nat := (s.sched.jobs.filter fun p => s.victimClass cand p == some c).map (·.1)
  s.latestFirst (of 0) ++ s.latestFirst (of 1)

/-- Only as many victims as placing the candidate needs: the shortest run that makes room. -/
def State.room (s : State) (cand : Nat) (out : List Nat) : List Nat → Option (List Nat × List (Nat × Tab (Nat × Nat)))
  | [] => (s.fits cand out).map fun p => (out, p)
  | v :: r =>
    match s.fits cand out with
    | some p => some (out, p)
    | none => s.room cand (out ++ s.members v) r

/-! ### Ownership (R354, R362, R363) -/

/-- The fields of a station that stay with the unit, taken from the unit as it stands. -/
def Station.onUnit (saved cur : Station) : Station :=
  { saved with epoch := cur.epoch, faults := cur.faults, held := cur.held, checkPassed := cur.checkPassed }

/-- The unit as a station with no job's table: IDLE, the cap of a station nobody names (R149). -/
def Station.bare (cur : Station) : Station :=
  { seq := .idle, epoch := cur.epoch, faults := cur.faults, held := cur.held, checkPassed := cur.checkPassed }

/-- Keep the datapath of an owner's array in its context, with the steps its units hold: what a resume replays of its
WLOADs and BLOADs (R363). -/
def State.savePath (s : State) (id sid : Nat) : State :=
  if isArray sid then
    let p := s.path sid
    (({ s with paths := s.paths.del sid } : State).mapArr (arrayOf sid) fun a =>
      { a with loads := a.loads.filter (· != sid) }).mapJob id fun j => { j with paths := j.paths.put {} sid p }
  else s

/-- Put a job's datapath back into its array (R363). -/
def State.loadPath (s : State) (j : Job) (sid : Nat) : State :=
  if isArray sid then
    let p := j.paths.val {} sid
    (s.mapPath sid fun _ => p).mapArr (arrayOf sid) fun a =>
      { a with loads := a.loads ++ (if p.loading.isSome then [sid] else []) ++ if p.loadNext.isSome then [sid] else [] }
  else s

/-- Save the stations of an owner into its context and leave them IDLE (R362). Stations in DRAIN, FAULT or OFF stay. -/
def State.saveStations (s : State) (id : Nat) : State :=
  match s.job? id with
  | some j => j.ctx.foldl (fun s p =>
      let cur := s.station p.1
      if cur.seq = .run ∨ cur.seq = .blocked ∨ cur.seq = .idle then
        ((s.mapJob id fun j => { j with ctx := j.ctx.ins p.1 cur }).mapStation p.1 Station.bare).savePath id p.1
      else s) s
  | none => s

/-- Keep the streams of a job as they stand and take them out of force. -/
def State.saveStreams (s : State) (id : Nat) : State :=
  match s.job? id with
  | some j =>
    let kept : Tab Stream := j.streams.map fun p => (p.1, (s.streams.look p.1).getD p.2)
    let s := s.mapJob id fun j => { j with streams := kept }
    { s with streams := s.streams.filter fun p => !(kept.any fun k => k.1 == p.1) }
  | none => s

/-- Add the time a job has been owner (R368). -/
def State.accrue (s : State) (id : Nat) : State :=
  s.mapJob id fun j => { j with ownNs := j.ownNs + (s.tb - j.ownSince), ownSince := s.tb }

/-- Take the domain from its owner: contexts saved, members in state `st` (R362). -/
def State.suspend (s : State) (st : JobState) : State :=
  let s := s.sched.owner.foldl (fun s id =>
    ((s.saveStations id).saveStreams id |>.accrue id).mapJob id fun j =>
      { j with st := if j.st = .owner then st else j.st }) s
  { s with sched := { s.sched with owner := [] } }

/-- Split and join the arrays as the job's SPLIT_MAP asks (R363). -/
def State.splitFor (s : State) (j : Job) : State :=
  (List.range 16).foldl (fun s n =>
    if inMap (j.map 303 288) n && s.splitIdle n then s.setSplit n (inMap (j.map 287 272) n) else s) s

/-- Put a job's streams in force, each entry with its local consumer's present role epoch (R363). -/
def State.loadStreams (s : State) (j : Job) : State :=
  j.streams.foldl (fun s p =>
    let c := mapCons p.2.entry
    let e := if s.isLocal c then setFld p.2.entry 55 40 (s.station (c % 256)).epoch.toNat else p.2.entry
    { s with streams := s.streams.ins p.1 { p.2 with entry := e } }) s

/-- Take out of force the job streams that touch a station the job names. -/
def State.clearStreams (s : State) (j : Job) : State :=
  { s with streams := s.streams.filter fun p =>
      !(decide (0x8000 ≤ p.1 ∧ p.1 < 0xFF00) &&
        ((s.isLocal (mapProd p.2.entry) && (j.ctx.any fun c => c.1 == mapProd p.2.entry % 256))
          || (s.isLocal (mapCons p.2.entry) && (j.ctx.any fun c => c.1 == mapCons p.2.entry % 256)))) }

/-- Give the domain to a job: its splits, streams and saved stations (R354, R363). -/
def State.resume (s : State) (id : Nat) : State :=
  match s.job? id with
  | some j =>
    let s := ((s.splitFor j).clearStreams j).loadStreams j
    let s := j.ctx.foldl (fun s p => (s.mapStation p.1 fun cur => { p.2.onUnit cur with blockedAt := s.tb }).loadPath j p.1) s
    let s := s.mapJob id fun j => { j with st := .owner, ownSince := s.tb, starved := false }
    { s with sched := { s.sched with owner := s.sched.owner ++ [id] } }
  | none => s

/-- Are the stations of a job free of work of others: none in RUN, BLOCKED or DRAIN? -/
def State.unitsFree (s : State) (id : Nat) : Bool :=
  match s.job? id with
  | some j => j.ctx.all fun p => !((s.station p.1).seq == .drain || s.busy p.1 && s.sched.owner.isEmpty)
  | none => false

/-- Hand the domain over: at once where it has no owner and the units are free, else at the owner's boundary. -/
def State.handOver (s : State) (ids : List Nat) : State :=
  if s.sched.owner.isEmpty && ids.all s.unitsFree then
    let s := ids.foldl (fun s id => s.resume id) s
    { s with sched := { s.sched with switching := none } }
  else { s with sched := { s.sched with switching := some ids } }

/-! ### Residence (R359, R360) -/

/-- Evict a job: its state is saved, it keeps READY or BLOCKED. -/
def State.evict (s : State) (id : Nat) : State :=
  (s.mapJob id fun j => { j with resident := false, place := [], evictions := j.evictions + 1 }).bump Dict.evictCount

/-- Begin to make a candidate resident: its victims evicted, its footprint placed; or none where there is no room. -/
def State.startLoad (s : State) (id : Nat) : Option State :=
  (s.room id [] (s.victims id)).map fun r =>
    let s := r.1.foldl (fun s v => s.evict v) s
    r.2.foldl (fun s p => s.mapJob p.1 fun j => { j with loading := true, place := p.2 }) s

/-- The candidate finds no room: counted at each event, reported once a wait (R360). -/
def State.starve (s : State) (id : Nat) : State :=
  let told := (s.job? id).elim false (·.starved)
  let s := (s.bump Dict.starvationCount).mapJob id fun j => { j with starved := true }
  if told then s else s.jobReport id 0x06700E0C

/-- Let a resident job own the domain: nothing where it does already. -/
def State.own (s : State) (id : Nat) : State :=
  if s.sched.owner.contains id then { s with sched := { s.sched with switching := none } }
  else s.handOver (s.members id)

/-- Is a job, with its partner in a group, resident and the load complete (R366)? -/
def State.isResident (s : State) (id : Nat) : Bool :=
  (s.members id).all fun m => (s.job? m).elim false (·.resident)

/-- The choice of a candidate at an event (R356, R359, R360). -/
def State.schedule (s : State) : State :=
  if s.jobsBarred then s
  else match s.firstByRank s.candidates with
    | none => s
    | some c =>
      if s.isResident c then s.own c
      else if (s.members c).any fun m => (s.job? m).elim false (·.loading) then s
      else match s.startLoad c with
        | some s => s
        | none =>
          let s := s.starve c
          match s.firstByRank (s.candidates.filter s.isResident) with
          | some r => s.own r
          | none => s

/-! ### Ends (R368 to R370) -/

/-- The done record (R368). -/
def State.doneRecord (s : State) (id : Nat) (j : Job) (w : Word) : List Byte :=
  leBytes 64 ((1 <<< 508) + ((id % 4294967296) <<< 448) + (w.toNat <<< 416) + (s.sec' <<< 368) + (s.ns' <<< 336)
    + ((j.ownNs % 18446744073709551616) <<< 272) + ((min j.preempts 16777215) <<< 248)
    + ((min j.evictions 16777215) <<< 224))

/-- Fence every fabric transaction of a job: its tags are free, their reuse counts advance (R370, R408). -/
def State.fenceJob (s : State) (id : Nat) : State :=
  let s := s.fab.trans.foldl (fun s t => if t.2.job = id then s.giveTag t.2.station else s) s
  { s with fab := { s.fab with
    reuse := s.fab.trans.foldl (fun r t => if t.2.job = id then r.put 0 t.1 ((t.2.reuse + 1) % 16) else r) s.fab.reuse
    trans := s.fab.trans.filter fun t => t.2.job != id } }

/-- Release the sequence locks of a job (R370). -/
def State.unlockJob (s : State) (id : Nat) : State :=
  { s with attn := { s.attn with locks := s.attn.locks.filter fun l => l.2.1 != id } }

/-- The stations of an ending owner: those at rest are left bare, the others follow the disable sequence (R370). -/
def State.stopStations (s : State) (id : Nat) : State :=
  match s.job? id with
  | some j =>
    if s.sched.owner.contains id then
      j.ctx.foldl (fun s p =>
        if (s.station p.1).seq = .idle then s.mapStation p.1 Station.bare else s.disable p.1) s
    else s
  | none => s

/-- End a job with a status: fences, locks, stations, the done record, the status word, and the next choice. -/
def State.endJob (s : State) (id : Nat) (w : Word) : State :=
  if s.live id then
    let s := if s.sched.owner.contains id then s.accrue id else s
    let s := ((s.fenceJob id).unlockJob id).stopStations id
    let s := match s.job? id with
      | some j => (s.post mgt (j.map 243 232) (s.doneRecord id j w)).2
      | none => s
    let s := s.jobReport id w
    let s := s.mapJob id fun j => { j with
      st := .ended, resident := false, loading := false, ctx := [], streams := [], paths := []
      place := [], awaits := [] }
    let s := { s with sched := { s.sched with owner := s.sched.owner.filter (· != id) } }
    s.schedule
  else s

/-- End every job of a list. -/
def State.endJobs (s : State) (ids : List Nat) (w : Word) : State := ids.foldl (fun s id => s.endJob id w) s

/-- The live jobs that name any unit satisfying `p`. -/
def State.jobsNaming (s : State) (p : Job → Bool) : List Nat :=
  (s.sched.jobs.filter fun e => e.2.st != .ended && p e.2).map (·.1)

/-- Pre-empt the owner at once where it names a unit that leaves, then end the jobs that name it (R347, R370). -/
def State.endNaming (s : State) (p : Job → Bool) : State :=
  let ids := s.jobsNaming p
  let s := if s.sched.owner.any fun id => ids.contains id then s.suspend .ready else s
  s.endJobs ids 0x02700E03

end Sys2Proof.Machine
end

