-- ==== Sys2Proof/Machine/StringTime.lean ====
section
/-! DEFINITION. The times of a valve string's latches, and the all-zero latch that it owes (R229, R230, R234, R240). -/

namespace Sys2Proof.Machine

/-- A valve string. -/
def State.vstring (s : State) (v : Nat) : VString := s.dealer.strings.val {} v

/-- Change a valve string. -/
def State.mapString (s : State) (v : Nat) (f : VString → VString) : State :=
  { s with dealer := { s.dealer with strings := s.dealer.strings.upd {} v f } }

/-- t_frame of a string, ns (R229). -/
def State.tFrame (s : State) (v : Nat) : Nat := s.nat Dict.stringBits v * (s.nat Dict.shiftPeriod v * 10)

/-- The effective gap of a string, ns (R229). -/
def State.latchGapOf (s : State) (v : Nat) : Nat := max (s.nat Dict.latchGap v) (s.tFrame v + 40)

/-- A time rounded up to a multiple of 10 ns (R230). -/
def up10 (t : Int) : Int := (t + 9) / 10 * 10

/-- The last latch of a string, the committed ones counted. -/
def VString.last (x : VString) : Option Nat :=
  match x.committed.getLast? with
  | some l => some l.dev
  | none => x.lastLatch

/-- The first legal time of the next latch (R230). -/
def State.legalTime (s : State) (v : Nat) : Int :=
  let a : Int := (s.devNs : Int) + 2000 + s.tFrame v
  up10 (match (s.vstring v).last with
    | some l => max a (l + s.latchGapOf v)
    | none => a)

/-- The time-base count at which the time base has run from now to device time `t` (R234). -/
def State.tbOf (s : State) (t : Int) : Nat :=
  let d := (t * 4294967296 - s.clk.dev).toNat
  s.tb + (d + s.clk.inc * 16 - 1) / (s.clk.inc * 16)

/-- String `v` owes the all-zero latch, at the first legal time (R240): an enabled string that sends frames. -/
def State.oweZero (s : State) (v : Nat) : State :=
  let x := s.vstring v
  if s.flag Dict.stringEnable v && !x.silent && x.zero.isNone then
    let t := s.legalTime v
    s.mapString v fun x => { x with zero := some { tb := s.tbOf t, dev := t.toNat, pos := 0, image := 0 } }
  else s

/-- The windows that the Dealer holds go, counted (R240). -/
def State.abandonWindows (s : State) : State :=
  let s := s.bump Dict.windowsAbandoned 0 (s.dealer.slots.length + s.dealer.closing.length)
  { s with dealer := { s.dealer with slots := [], closing := [] } }

/-- Every valve string owes the all-zero latch (R240); where none is enabled, no latch is to wait for and the windows go at
once (log 116). -/
def State.zeroStrings (s : State) : State :=
  let s := (List.range 16).foldl (fun s v => s.oweZero v) s
  if (List.range 16).any fun v => (s.vstring v).zero.isSome then s else s.abandonWindows

/-- STRING_ENABLE is written: a string enabled anew has no frame to compare with, one disabled owes no latch (R237,
R240). -/
def State.setStringEnable (s : State) (v : Nat) (x : Int) : State :=
  let changed := s.num Dict.stringEnable v != x
  let s := s.setNum Dict.stringEnable x v
  if changed then s.mapString v fun y => { y with compared := false, echoBad := false, zero := none } else s

end Sys2Proof.Machine
end

