-- ==== Sys2Proof/Machine/Reset.lean ====
section
/-! DEFINITION. What a reset leaves (R542 to R544), the stop of the Trump domain (R346, R350), escalation and station
faults (R531 to R535). -/

namespace Sys2Proof.Machine

/-! ### Resets -/

/-- What every reset keeps of start-up and update: what lies in the flashes and the model store, and whether a model
commit in stage 1 or 2 was cut short (R555). -/
def Boot.kept (b : Boot) (cause : Nat) : Boot :=
  { powered := b.powered, cause := cause, held := b.held, fwRing := b.fwRing, modelRing := b.modelRing
    fwImages := b.fwImages, interrupted := b.interrupted || b.commitStage == 1 || b.commitStage == 2
    savedA := b.savedA, savedB := b.savedB, keysA := b.keysA, keysB := b.keysB }

/-- What every reset keeps of security: burnt marks and what is told of tamper; debug is locked and the open attestation
block closed (R492, R496, R543). -/
def Security.kept (x : Security) : Security :=
  { marksBurnt := x.marksBurnt, tamperOps := x.tamperOps, tamperHeld := x.tamperHeld, tamperOwed := x.tamperOwed
    tampers := x.tampers }

/-- What a reset keeps of the recorder: the flash, and the queue in the PSRAM (R510, R543). -/
def Recorder.kept (r : Recorder) : Recorder := { r with dropped := 0, lastRep := [], stopped := false }

/-- What a reset keeps of power and ageing: the certificate, the plan copies and the commit record, the history of the
plans (R477, R479). -/
def Power.kept (p : Power) : Power :=
  { cert := p.cert, planA := p.planA, planB := p.planB, commitB := p.commitB
    islands := p.islands.mapVal {} fun x => { tops := x.tops } }

/-- The safe state of an output, where hold keeps its bit of `intact` (R269). -/
def Field.safeLevel (f : Field) (intact k : Nat) : Bool :=
  match f.safeStates.val 0 k with
  | 0 => false
  | 1 => true
  | _ => inMap intact k

/-- What a reset keeps of the field side, which the plant's supply powers, and the settings of its safe states; all else
is at its reset value (R543). The outputs are in their safe states, hold reading as off (R270, R539), or off where no frame
has come since its power-up (R271). -/
def Field.kept (f : Field) : Field :=
  let level (k : Nat) : Bool := f.powered && !f.low && f.gotFrame && f.safeLevel 0 k
  { powered := f.powered, low := f.low, safeStates := f.safeStates, gotFrame := f.gotFrame
    outputs := ((List.range 16).filter level).map fun k => (k, { asked := true, driven := true }) }

/-- What a reset keeps of adaptation: partitions 3 and 5, and the candidate a watch cut short names (R342). -/
def Adapt.kept (a : Adapt) : Adapt :=
  { images := a.images, labels := a.labels
    voided := if a.st = .watch then a.cand.map (·.id) else a.voided }

/-- The module after a reset that clears PD63, before its start-up (R542, R543): the volatile and the saved entries
read their defaults until step 5 of R538. -/
def State.resetModule (s : State) (cause : Nat) : State :=
  { pending := s.pending
    out := s.out
    free := s.free
    regs := { fac := s.regs.fac }
    boot := s.boot.kept cause
    sec := s.sec.kept
    power := s.power.kept
    recorder := s.recorder.kept
    field := s.field.kept
    adapt := s.adapt.kept
    mem := { store := s.mem.store, psram0 := s.mem.psram0, psram1 := s.mem.psram1 } }

/-- Is a dictionary key of an entry in PD63, which a management restart keeps (R544): encoders and field interface
(0x3200 to 0x35FF), time (0x5000 to 0x51FF), the recorder (0x8000 to 0x8002) and the discard pile (0x8103)? -/
def pd63Key (k : Nat) : Bool :=
  let i := k / 1099511627776
  decide ((0x3200 ≤ i ∧ i ≤ 0x35FF) ∨ (0x5000 ≤ i ∧ i ≤ 0x51FF) ∨ (0x8000 ≤ i ∧ i ≤ 0x8002) ∨ i = 0x8103)

/-- The PD63 entries of a store. -/
def Store.pd63 (r : Store) : Store :=
  { nums := r.nums.filter fun p => pd63Key p.1, blobs := r.blobs.filter fun p => pd63Key p.1 }

/-- The module after a management restart, before steps 6 to 9 (R544): PD00 to PD62 and the cluster are reset. -/
def State.restartModule (s : State) : State :=
  let d := s.resetModule 5
  let sec : Security := { d.sec with
    attestRefused := s.sec.attestRefused, serviceState := s.sec.serviceState, salt := s.sec.salt, pufBad := s.sec.pufBad
    serviceReported := s.sec.serviceReported }
  { d with
    boot := { d.boot with running := s.boot.running, saveDirtyAt := s.boot.saveDirtyAt }
    sec := sec
    tb := s.tb
    clk := s.clk
    net := s.net
    regs := { vol := s.regs.vol.pd63, sav := s.regs.sav, fac := s.regs.fac }
    sup := s.sup
    power := { s.power with pd := [(63, { st := .on })] }
    guard := s.guard
    recorder := { s.recorder with lastRep := s.recorder.lastRep }
    enc := s.enc
    dealer := s.dealer
    field := s.field }

/-! ### The stop of the Trump domain -/

/-- The stations of the Trump domain. -/
def State.trumpStations (s : State) : List Nat := stationIds.filter fun sid => s.isTrump sid && s.exists' sid

/-- Enter STOPPED: TRUMP_CONTROL is written 0 (R346); a stop that hung has ended (R535); no program runs, so the caps of
the domain's stations are 64 (R149). -/
def State.trumpStopped (s : State) : State :=
  let s := s.trumpStations.foldl (fun s sid => s.mapStation sid fun x => { x with cap := 64 }) s
  ({ s with
    trump := { s.trump with st := .stopped }
    guard := { s.guard with causes := s.guard.causes.filter fun c => c.2.1 != 0x06921702 } } : State).setNum
      Dict.trumpControl 0

/-! ### A stop during a swap or a watch (R338, R342) -/

/-- Set the state of adapter bank 0 or 1 (R329). -/
def Adapt.setBank (a : Adapt) (b : Nat) (st : BankState) : Adapt :=
  if b = 0 then { a with bank0 := st } else { a with bank1 := st }

/-- The state of adapter bank 0 or 1. -/
def Adapt.bank (a : Adapt) (b : Nat) : BankState := if b = 0 then a.bank0 else a.bank1

/-- The candidate goes: its bank is EMPTY and the cycle IDLE (R336). Its image stays in partition 3. -/
def Adapt.discard (a : Adapt) : Adapt :=
  match a.cand with
  | some c => { a.setBank c.bank .empty with cand := none, st := .idle, rolling := false, before := none }
  | none => { a with st := .idle }

/-- An armed shadow slot goes back to LOADED (R338). -/
def Station.disarm (st : Station) : Station :=
  match st.shadow with
  | .armed t _ => { st with shadow := .loaded t }
  | _ => st

/-- Adaptation at a stop of the domain: an armed candidate returns to GATED and its slots to LOADED (R338); a watch is
void (R342). -/
def State.adaptStop (s : State) : State :=
  let slots := match s.trump.adapter with
    | some a => a.stations
    | none => []
  match s.adapt.st, s.adapt.cand with
  | .armed, some c =>
    let s := slots.foldl (fun s sid => s.mapStation sid Station.disarm) s
    { s with adapt := { s.adapt.setBank c.bank .sealed with st := .gated } }
  | .watch, some c =>
    let s := slots.foldl (fun s sid => s.mapStation sid Station.disarm) s
    let s := { s with adapt := s.adapt.discard }
    s.report 0x06700D03 255 (leBytes 4 c.id)
  | _, _ => s

/-- The domain stops: a window in progress is discarded; one that has ended is still published (R175, R176). -/
def Cam.stopped (c : Cam) : Cam := if c.win.full then c else { c with win := {} }

/-- Stop the domain (R346, R350): a start is ended; a running domain enters STOPPING, its stations draining and its
strings latching zeros; the lanes' statistics end. -/
def State.trumpStop (s : State) : State :=
  match s.trump.st with
  | .starting => s.trumpStopped
  | .running =>
    let s := ({ s with
      trump := { s.trump with st := .stopping, stoppingSince := s.tb }
      cams := s.cams.mapVal {} Cam.stopped } : State).coutStop
    (((s.adaptStop.trumpStations.foldl (fun s sid => s.disable sid) s.adaptStop)).setNum Dict.trumpControl 0).zeroStrings
  | _ => s

/-! ### Escalation (R531, R535) -/

/-- Level 2: the domain stops; the phase IN_SERVICE goes to RECOVERY (R541). A sensor cause also takes the job domain
from its owner. -/
def State.level2 (s : State) (w : Word) : State :=
  let s := s.trumpStop.setNum Dict.trumpControl 0
  let s := if s.boot.phase = .inService then { s with boot := { s.boot with phase := .recovery } } else s
  if w = 0x06921705 then s.suspend .ready else s

/-- A cause of level `n` arises: it stands until it clears, and each level takes the actions of those below (R531,
R535); at the safe state the valve strings owe the all-zero latch (R240). -/
def State.raise (s : State) (n : Nat) (w : Word) (who : Nat) : State :=
  if s.guard.causes.any fun c => c.1 == n && c.2.1 == w && c.2.2 == who then s
  else
    let s := { s with guard := { s.guard with causes := s.guard.causes ++ [(n, w, who)] } }
    let s := if 2 ≤ n then s.level2 w else s
    let s := if 3 ≤ n then s.zeroStrings else s
    if 4 ≤ n then s.resetModule (if w = 0x06981505 then 4 else 3) else s

/-- The causes that `p` picks clear. -/
def State.clearCauses (s : State) (p : Nat × Word × Nat → Bool) : State :=
  { s with guard := { s.guard with causes := s.guard.causes.filter fun c => !p c } }

/-- The highest standing level (R535). -/
def State.level (s : State) : Nat := s.guard.causes.foldl (fun a c => max a c.1) 0

/-- ESCALATION_CAUSE: the first cause of the highest standing level; 0 where none stands. -/
def State.levelCause (s : State) : Word :=
  match s.guard.causes.find? fun c => c.1 == s.level with
  | some c => c.2.1
  | none => 0

/-! ### Station faults (R33, R102, R532, R533) -/

/-- A day of operating time in ns (R533). -/
def dayNs : Nat := 86400000000000

/-- A step in flight at a fault: its results in flight are to be emitted with POISONED set, that of an output-stationary
step of an array among them (R102); with none it ends. -/
def Running.faulted (r : Running) (sid : Nat) : Option Running :=
  if !r.outs.isEmpty then some { r with poisoned := true, computed := true }
  else if isArray sid && wordOp r.word == 0x12 then
    some { r with outs := [cutProduct r.word], poisoned := true, computed := true }
  else none

/-- The unit's part of a fault: FAULT, its begun results poisoned, its faults of the last 24 operating hours. -/
def Station.fault (st : Station) (sid op : Nat) : Station :=
  { st with
    seq := .fault
    checkPassed := false
    faults := (st.faults.filter fun f => decide (op < f + dayNs)) ++ [op]
    running := st.running.bind (·.faulted sid) }

/-- The ramp of an array that is to ramp down at time `t` (R93): one ramping up goes down from the level it has reached. -/
def Ramp.fall (r : Ramp) (t : Nat) : Ramp :=
  match r with
  | .full => .down t
  | .up u => .down (t - (u - t))
  | x => x

/-- The array of a station ramps down (R102). -/
def State.rampFall (s : State) (sid : Nat) : State := s.mapArr (arrayOf sid) fun a => { a with ramp := a.ramp.fall s.tb }

/-- A unit that reached FAULT_LIMIT is held, and jobs that name it end (R533). -/
def State.holdUnit (s : State) (sid : Nat) : State :=
  let st := s.station sid
  if s.nat Dict.faultLimit ≤ st.faults.length ∧ st.held = false then
    ((s.mapStation sid fun x => { x with held := true }).report (withSrc 0x04000221 sid) sid).endNaming (·.names sid)
  else s

/-- A fault of a job-domain unit: level 1, and the owner that names it ends (R367, R533). -/
def State.jobFault (s : State) (sid : Nat) (w : Word) : State :=
  let s := s.raise 1 w sid
  let ids := s.sched.owner.filter fun id => (s.job? id).elim false (·.names sid)
  s.endJobs ids 0x06700E0A

/-- A fault of a Trump-domain unit: level 2, which reports TRUMP_FAULT_STOP where it stops the domain (R532). -/
def State.trumpFault (s : State) (sid : Nat) (w : Word) : State :=
  let ran := s.trump.st == .running || s.trump.st == .starting
  let s := s.raise 2 w sid
  let s := if sid = 0x52 then s.zeroStrings else s
  if ran then (s.bump Dict.trumpFaultStops).report 0x06921701 sid else s

/-- A station finds a fault and enters FAULT (R33): its report, the ramp-down of an array (R102), escalation. -/
def State.faultStation (s : State) (sid : Nat) (w : Word) : State :=
  let st := s.station sid
  if st.seq = .off ∨ st.seq = .fault ∨ !s.exists' sid then s
  else
    let s := ((s.mapStation sid fun x => x.fault sid s.recorder.opNs).dropLoads sid).report w sid
    let s := if isArray sid then s.toErr sid w else s
    let s := if kindOf sid = .ma then s.rampFall sid else s
    let s := if st.seq = .run ∨ st.seq = .blocked then s.dropHeld sid else s
    let s := if s.isTrump sid then s.trumpFault sid w else s.jobFault sid w
    s.holdUnit sid

/-- A fault in what the halves of an array share, its clock enable or its weight loader ahead of the split point, faults
both, each under R102 (R105). -/
def State.faultHalves (s : State) (sid : Nat) (w : Word) : State :=
  ((halvesOf (arrayOf sid)).foldl (fun s h => s.faultStation h (withSrc w h)) s).rampFall sid

/-- May the management cluster clear a faulted station (R532, R533): not while held; one of the Trump domain only in
STOPPED; a job-domain one once no owner names it; a whole array only after a CHECK step on it passed? -/
def State.mayClear (s : State) (sid : Nat) : Bool :=
  let st := s.station sid
  st.seq == .fault && !st.held
    && (if s.isTrump sid then s.trump.st == .stopped
        else !(s.sched.owner.any fun id => (s.job? id).elim false (·.names sid)))
    && (kindOf sid != .ma || st.checkPassed)

/-- Clear a faulted station: IDLE, its epoch raised (R33, R41); a half's fence lifts with zero weights (R106). -/
def State.clearStation (s : State) (sid : Nat) : State :=
  if s.mayClear sid then
    let s := s.mapStation sid fun x =>
      { x with seq := .idle, epoch := bumpEpoch x.epoch, running := none, drain := none, pc := 0, loops := []
               checkPassed := false }
    let s := if kindOf sid = .half then { s with paths := s.paths.del sid } else s.dropLoads sid
    (s.clearCauses fun c => c.2.2 == sid && (c.1 == 1 || c.1 == 2) && fld c.2.1 31 24 == 4).schedule
  else s

/-- A Service write of a unit's address releases it (R533). -/
def State.releaseUnit (s : State) (addr : Nat) : State :=
  if s.isLocal addr && (s.station (addr % 256)).held then
    s.mapStation (addr % 256) fun x => { x with held := false, faults := [] }
  else s

end Sys2Proof.Machine
end

