-- ==== Sys2Proof/Machine/ArrayOps.lean ====
section
/-! DEFINITION. Reading tiles, and the arithmetic of the matrix arrays and matrix-vector engines (R62 to R65, R78 to
R100). -/

namespace Sys2Proof.Machine

/-! ### Reading a tile's payload -/

/-- A tile's payload as codes and block scales, by row; `bad` says that the outputs it feeds are POISONED. -/
structure TileData where
  rows : List (List Nat) := []
  scales : List (List Nat) := []
  bad : Bool := false
deriving DecidableEq, Repr

/-- A payload of zeros. -/
def zeroData (f rows cols : Nat) (mx bad : Bool) : TileData :=
  { rows := List.replicate rows (List.replicate cols (zeroCode f))
    scales := if mx then List.replicate rows (List.replicate (ceilDiv cols 32) 0) else []
    bad := bad }

/-- May a format be zero-compressed (R121): 4 to 16 bits, MX = 0? -/
def zcFormat (f : Nat) (mx : Bool) : Bool := !mx && decide (4 ≤ storeBits f ∧ storeBits f ≤ 16)

/-- Read `n` rows of packed codes from `addr` on, `step` bytes from row to row. -/
def State.readRows (s : State) (sid f cols addr step : Nat) : Nat → List (List Nat) × Bool × State
  | 0 => ([], false, s)
  | n + 1 =>
    let (b, bad, s) := s.memRead sid addr (ceilDiv (cols * storeBits f) 8)
    let (r, bad', s) := s.readRows sid f cols (addr + step) step n
    (unpackRow f b cols :: r, bad || bad', s)

/-- Read `n` rows of block scales (R56). -/
def State.readScales (s : State) (sid cols addr : Nat) : Nat → List (List Nat) × Bool × State
  | 0 => ([], false, s)
  | n + 1 =>
    let (b, bad, s) := s.memRead sid addr (ceilDiv cols 32)
    let (r, bad', s) := s.readScales sid cols (addr + ceilDiv cols 32) n
    (b.map (·.toNat) :: r, bad || bad', s)

/-- The sums of integer weights over the loaded columns, by reduction index (R98). -/
def weightSums (f k : Nat) (cols : List (List Nat)) : List Int :=
  (List.range k).map fun i => cols.foldl (fun a c => a + (decodeElem f (c.getD i (zeroCode f))).toInt) 0

/-- Read the payload of a consumed item for a step that wants format `f` with MX = `mx`, where ZC tiles are taken when
`zc` says so. A tile of another kind reads as zero and is counted (R83); a MUCKED or missing one reads as zero (R19,
R25). Gives the data and whether the tile mismatched. -/
def State.readTile (s : State) (sid f : Nat) (mx zc : Bool) (it : Item) (rows cols : Nat) : TileData × Bool × State :=
  match it with
  | .gap _ => (zeroData f rows cols mx true, false, s)
  | .tile d =>
    let dz := bit d 501
    let fits := fld d 507 503 == f && bit d 502 == mx && (!dz || (zc && zcFormat f mx))
    if !fits then (zeroData f (descRows d) (descCols d) mx true, true, s)
    else if bit d 498 then (zeroData f (descRows d) (descCols d) mx false, false, s)
    else if dz then
      let (b, bad, s) := s.memRead sid (fld d 319 272) (fld d 351 332)
      ({ rows := unpackZc f (descCols d) b (descRows d), bad := bad }, false, s)
    else
      let (r, bad, s) := s.readRows sid f (descCols d) (fld d 319 272) (rowBytes f (descStride d)) (descRows d)
      if mx then
        let (x, bad', s) := s.readScales sid (descCols d) (fld d 255 208) (descRows d)
        ({ rows := r, scales := x, bad := bad || bad' }, false, s)
      else ({ rows := r, bad := bad }, false, s)

/-! ### Products and sums (R63 to R65) -/

/-- A product rounded to FP32 (R63). -/
def prod32 (fa fb a b : Nat) : Num := round32 (mulExact (decodeElem fa a) (decodeElem fb b))

/-- Add the products of a row and a column to a float accumulator, in index order (R63). -/
def floatSum (fa fb : Nat) (acc : Num) : List Nat → List Nat → Num
  | a :: ra, b :: rb => floatSum fa fb (add32 acc (prod32 fa fb a b)) ra rb
  | _, _ => acc

/-- The sum of a block's products in FP32, from the first product on (R63). -/
def blockSum (fa fb : Nat) : List Nat → List Nat → Num
  | a :: ra, b :: rb => floatSum fa fb (prod32 fa fb a b) ra rb
  | _, _ => .zero

/-- The exact integer sum of products. -/
def intSum (fa fb : Nat) : List Nat → List Nat → Int
  | a :: ra, b :: rb => (decodeElem fa a).toInt * (decodeElem fb b).toInt + intSum fa fb ra rb
  | _, _ => 0

/-- The exact sum of log products (R64, R65). -/
def logSum (scale fa fb : Nat) : List Nat → List Nat → Int
  | a :: ra, b :: rb => logProduct scale fa a fb b + logSum scale fa fb ra rb
  | _, _ => 0

/-- Add the blocks of MX operands to an accumulator (R58, R63): `fuel` bounds the blocks. -/
def mxSum (kind : AccKind) (fa fb : Nat) (acc : Num) : Nat → List Nat → List Nat → List Nat → List Nat → Num
  | 0, _, _, _, _ => acc
  | f + 1, a, b, xa, xb =>
    if a.isEmpty then acc
    else
      let sa := xa.headD 0
      let sb := xb.headD 0
      let v := if sa = 255 ∨ sb = 255 then Num.nan
        else if kind = .mxInt then
          round32 (scale2 ((sa : Int) + sb - 254 - 12) (round32 (.ofInt (intSum fa fb (a.take 32) (b.take 32)) 0)))
        else round32 (scale2 ((sa : Int) + sb - 254) (blockSum fa fb (a.take 32) (b.take 32)))
      mxSum kind fa fb (add32 acc v) f (a.drop 32) (b.drop 32) (xa.drop 1) (xb.drop 1)

/-- An accumulator: a float one, or an INT32 one with the sum of the run under way (R65, R90). -/
inductive Acc32
  | flt (v : Num)
  | int (v : Int) (run : Int)
deriving DecidableEq, Repr

/-- Add the products of a row and a column of operands. -/
def Acc32.mac (kind : AccKind) (g : MulArgs) (a b xa xb : List Nat) : Acc32 → Acc32
  | .flt v =>
    match kind with
    | .float => .flt (floatSum g.fa g.fb v a b)
    | _ => .flt (mxSum kind g.fa g.fb v 9 a b xa xb)
  | .int v run =>
    match kind with
    | .log => .int v (run + logSum g.scale g.fa g.fb a b)
    | _ => .int v (run + intSum g.fa g.fb a b)

/-- End a run: the 41-bit sum, saturated, and whether it saturated (R65). -/
def Acc32.endRun : Acc32 → Acc32 × Bool
  | .int v run => (.int (sat32 (v + run)).1 0, (sat32 (v + run)).2)
  | x => (x, false)

/-- The value the drain reads (R78). -/
def Acc32.value (scale : Nat) : Acc32 → Num
  | .flt v => v
  | .int v _ => .ofInt v (-(scale : Int))

/-- The 32-bit code of an accumulator. -/
def Acc32.code : Acc32 → Nat
  | .flt v => encode32 v
  | .int v _ => wrap 32 v

/-- An accumulator from its 32-bit code. -/
def accOf (kind : AccKind) (c : Nat) : Acc32 :=
  if kind.isInt then .int (signed 32 c) 0 else .flt (decodeElem 1 c)

/-! ### The drain -/

/-- The state of a station's generator (R68): loaded from ROUND_SEED where it was not drawn from since. -/
def State.gen (s : State) (sid : Nat) : Word :=
  (s.station sid).rng.getD (BitVec.ofNat 32 (s.nat Dict.roundSeed sid))

/-- Take over the generator and the counts of a run of conversions (R66, R68). -/
def State.afterConv (s : State) (sid : Nat) (r : ConvRun) : State :=
  (((s.mapStation sid fun x => { x with rng := some r.gen }).bump Dict.convSatCount sid r.sats).bump
    Dict.nanZeroCount sid r.nans)

/-- Convert rows of values into an output tile (R57, R66, R69). -/
def State.writeRows (s : State) (sid f : Nat) (mx stoch zc : Bool) (rows : List (List Num)) (cols : Nat) :
    OutTile × State :=
  let r0 : ConvRun := { gen := s.gen sid }
  let step (acc : (List (List Nat) × List (List Nat)) × ConvRun) (row : List Num) :=
    let r := { acc.2 with codes := [] }
    if mx then
      let (x, r) := mxRow f stoch r row
      ((acc.1.1 ++ [r.codes], acc.1.2 ++ [x]), r)
    else
      let r := convertRow f stoch r row
      ((acc.1.1 ++ [r.codes], acc.1.2), r)
  let ((codes, scales), r) := rows.foldl step (([], []), r0)
  ({ bytes := codes.flatMap (if zc then packZcRow f else packRow f)
     scales := scales.flatMap fun x => x.map (BitVec.ofNat 8)
     format := f, mx := mx, zc := zc, rows := rows.length, cols := cols }, s.afterConv sid r)

/-- The result tile of accumulator rows (R78, R81): OUT_FMT 0 writes the accumulator format unconverted. -/
def State.drainRows (s : State) (sid : Nat) (kind : AccKind) (g : MulArgs) (rows : List (List Acc32)) : OutTile × State :=
  if g.out = 0 then
    ({ bytes := rows.flatMap fun r => r.flatMap fun a => leBytes 4 a.code
       format := if kind.isInt then 0x0C else 0x01, rows := rows.length, cols := g.n }, s)
  else s.writeRows sid g.out g.outMx (g.round == 1) false (rows.map fun r => r.map (·.value g.scale)) g.n

/-! ### Datapaths -/

/-- Does the array take operands: its current ramp is full (R93)? -/
def State.warm (s : State) (sid : Nat) : Bool := !isArray sid || (s.arr (arrayOf sid)).ramp == .full

/-- Count the idle and frozen cycles of a run (R91, R92). -/
def State.countRun (s : State) (sid : Nat) (idle frozen : Nat) : State :=
  let n := arrayOf sid
  ((s.bump Dict.freezeCycles n frozen).bump Dict.dummyCycles n (idle + frozen)).mapArr n fun a => { a with idle := 0 }

/-- Count an array fault by its code (R101, R109). -/
def State.countFault (s : State) (sid code : Nat) : State :=
  if code = 1 then s.bump Dict.checksumFailCount (arrayOf sid)
  else if code = 2 then s.bump Dict.checkStepFailCount (arrayOf sid)
  else if code = 3 then s.bump Dict.parityFaultCount (arrayOf sid)
  else s

/-- A half is contained: fenced and counted (R104). -/
def State.contain (s : State) (sid : Nat) : State :=
  if kindOf sid == .half then
    (s.mapPath sid fun p => { p with fenced := true }).bump Dict.halfFenceCount (arrayOf sid)
  else s

/-- An array fault (R101): its counter and the station's fault; one in a half's own units is contained (R104). -/
def State.arrayFault (s : State) (sid : Nat) (code : Nat) : State :=
  ((s.countFault sid code).contain sid).faultStation sid (withSrc (BitVec.ofNat 32 (0x04000300 + code)) sid)

/-- A parity fault of the weight loader, which the halves share (R100, R105). -/
def State.loaderFault (s : State) (sid : Nat) : State :=
  if kindOf sid == .half then (s.countFault sid 3).faultHalves sid 0x04000303 else s.arrayFault sid 3

/-! ### Feeding a step -/

/-- The next item of a port for the step in flight: one consumed at its start and not used, else one from the port. -/
def State.feed (s : State) (sid port : Nat) (r : Running) : Option (Item × Running × State) :=
  match r.ins.find? fun p => p.1 == port with
  | some (_, it) => some (it, { r with ins := r.ins.erase (port, it) }, s)
  | none =>
    match s.consume sid port with
    | (some it, s) =>
      let r' := r.absorb port it (s.portOrigin sid port)
      some (it, { r' with ins := r'.ins.erase (port, it) }, s)
    | (none, _) => none

/-- The next `n` items of a port. -/
def State.feedN (s : State) (sid port : Nat) (r : Running) : Nat → Option (List Item × Running × State)
  | 0 => some ([], r, s)
  | n + 1 =>
    match s.feed sid port r with
    | none => none
    | some (it, r, s) =>
      match s.feedN sid port r n with
      | none => none
      | some (l, r, s) => some (it :: l, r, s)

/-- Put a step back in flight. -/
def State.keep (s : State) (sid : Nat) (r : Running) : State := s.mapStation sid fun x => { x with running := some r }

/-- Rows of an item: of a missing tile, `n`. -/
def itemRows (n : Nat) : Item → Nat
  | .tile d => descRows d
  | .gap _ => n

/-- The payloads of the items of a reduction set side by side (R81), read as the step wants them. -/
def State.readSide (s : State) (sid f : Nat) (mx zc : Bool) (rows k : Nat) : List Item → TileData × State
  | [] => ({ rows := List.replicate rows [], scales := if mx then List.replicate rows [] else [] }, s)
  | it :: rest =>
    let c := min k 128
    let (d, mis, s) := s.readTile sid f mx zc it rows c
    let s := if mis && isArray sid then s.bump Dict.formatMismatchCount (arrayOf sid) else s
    let (e, s) := s.readSide sid f mx zc rows (k - c) rest
    let pad (l : List Nat) : List Nat := (l ++ List.replicate c (zeroCode f)).take c
    let row (i : Nat) : List Nat := pad (d.rows.getD i [])
    ({ rows := (List.range rows).map fun i => row i ++ e.rows.getD i []
       scales := if mx then (List.range rows).map fun i => d.scales.getD i [] ++ e.scales.getD i [] else []
       bad := d.bad || e.bad }, s)

/-! ### The steps -/

/-- Load weights of a WLOAD step with its tiles (R80, R81). -/
def State.loadWeights (s : State) (sid : Nat) (r : Running) : Option (Weights × Running × State) :=
  let w := r.word
  let f := fld w 75 71
  let mx := bit w 70
  let k := fld w 69 61
  let n := fld w 60 54 + 1
  match s.feedN sid (wordInA w) r (ceilDiv k 128) with
  | none => none
  | some (items, r, s) =>
    let (d, s) := s.readSide sid f mx false n k items
    some ({ format := f, mx := mx, k := k, n := n, cols := d.rows, scales := d.scales
            sums := if (0x0E ≤ f ∧ f ≤ 0x10) ∧ !mx then weightSums f k d.rows else [], bad := d.bad || r.poisoned }, r, s)

/-- WLOAD (R80, R84 to R86): the weight loader loads the shadow registers and is free for the next. -/
def State.wload (s : State) (sid : Nat) (run : ArrayRun) : State :=
  let s := s.startUnits sid
  match (s.path sid).loading with
  | some r =>
    if s.warm sid then
      match s.loadWeights sid r with
      | some (w, r, s) =>
        let s := (s.mapPath sid fun y => { y with shadow := some w, loading := none }).mapArr (arrayOf sid) fun a =>
          { a with loads := a.loads.erase sid }
        let s := ((s.countRun sid run.idle run.frozen).mapStation sid (·.unitDone r.word)).startUnits sid
        if run.parity then s.loaderFault sid else s
      | none => s
    else s
  | none => s

/-- BLOAD (R80, R86): one row of bias accumulators. Steps issued before it have started, and keep the bias they started
with. -/
def State.bload (s : State) (sid : Nat) (run : ArrayRun) : State :=
  let s := s.startUnits sid
  match (s.path sid).biasing with
  | some r =>
    if s.warm sid && !Running.before r.order (s.path sid).next then
      let f := fld r.word 75 71
      let n := fld r.word 70 64 + 1
      match s.feed sid (wordInA r.word) r with
      | none => s
      | some (it, r, s) =>
        let (d, s) := s.readSide sid f false false 1 n [it]
        let s := s.mapPath sid fun y =>
          { y with bias := d.rows.headD [], biasFmt := f, biasBad := d.bad || r.poisoned, biasing := none }
        let s := ((s.countRun sid run.idle run.frozen).mapStation sid (·.unitDone r.word)).startUnits sid
        if run.parity then s.arrayFault sid 3 else s
    else s
  | none => s

/-- Initial accumulators of `m` rows (R78, R96): zero, the bias row on every row, or partial sums. Gives them and
whether they are not to be trusted. -/
def initRows (kind : AccKind) (g : MulArgs) (m : Nat) (bias : List Nat) (part : List (List Nat)) : List (List Acc32) :=
  let zero := accOf kind 0
  if g.init = 0 then List.replicate m (List.replicate g.n zero)
  else if g.init = 1 then List.replicate m ((List.range g.n).map fun i => accOf kind (bias.getD i 0))
  else (List.range m).map fun r => (List.range g.n).map fun i => accOf kind ((part.getD r []).getD i 0)

/-- Add the products of activation rows with weight columns. -/
def macRows (kind : AccKind) (g : MulArgs) (a : TileData) (cols scales : List (List Nat)) (acc : List (List Acc32)) :
    List (List Acc32) :=
  acc.mapIdx fun r row => row.mapIdx fun n x =>
    x.mac kind g (a.rows.getD r []) (cols.getD n []) (a.scales.getD r []) (scales.getD n [])

/-- Disturb the runs of integer sums (R98). -/
def disturb (ups : List (Nat × Nat × Int)) (acc : List (List Acc32)) : List (List Acc32) :=
  ups.foldl (fun acc u => acc.modify u.1 fun row => row.modify u.2.1 fun x =>
    match x with
    | .int v run => .int v (run + u.2.2)
    | y => y) acc

/-- The run of an integer accumulator: its column sum before saturation (R65, R98). -/
def Acc32.runOf : Acc32 → Int
  | .int _ run => run
  | .flt _ => 0

/-- The exact sum of the products of an activation row with the weight sums (R98). -/
def checkSum (fa : Nat) : List Nat → List Int → Int
  | a :: ra, w :: rw => (decodeElem fa a).toInt * w + checkSum fa ra rw
  | _, _ => 0

/-- Does the checksum column of an MMUL find a mismatch in some row (R98): integer pairs that are no log pairs, the
weights' sums over all loaded columns, the column sums of the N drained? `acc` holds the runs before saturation. -/
def checksumBad (kind : AccKind) (g : MulArgs) (a : TileData) (sums : List Int) (acc : List (List Acc32)) : Bool :=
  kind == .int && acc.zipIdx.any fun x =>
    checkSum g.fa (a.rows.getD x.2 []) sums != x.1.foldl (fun t y => t + y.runOf) 0

/-- The same of an OSMUL, whose weights no WLOAD brings: the checksum column covers it with the sums of its weight tiles, at
every pair of tiles (log 95). A disturbance is what it can find. -/
def upsetsBad (kind : AccKind) (m n : Nat) (ups : List (Nat × Nat × Int)) : Bool :=
  kind == .int && (List.range m).any fun r =>
    (ups.filter fun u => u.1 == r && decide (u.2.1 < n)).foldl (fun a u => a + u.2.2) 0 != 0

/-- End the run of every accumulator, with the number that saturated. -/
def endRuns (acc : List (List Acc32)) : List (List Acc32) × Nat :=
  (acc.map fun r => r.map fun x => x.endRun.1,
   (acc.map fun r => (r.filter fun x => x.endRun.2).length).foldl (· + ·) 0)

/-- The accumulators of a product whose weights were loaded in another format than its step names: the spec gives no
result, so every one is a free value (log 22). -/
def State.freeRows (s : State) (kind : AccKind) (m n : Nat) : List (List Acc32) × State :=
  (List.range m).foldl (fun acc _ =>
    let (row, s) := (List.range n).foldl (fun (x : List Acc32 × State) _ =>
      let (v, s) := x.2.draw 32
      (x.1 ++ [accOf kind v.toNat], s)) ([], acc.2)
    (acc.1 ++ [row], s)) ([], s)

/-- Make the shadow weights active (R86). -/
def Datapath.swap (p : Datapath) : Datapath :=
  match p.shadow with
  | some w => { p with active := w, shadow := none }
  | none => p

/-- The flags that a result tile copies from the activation tile or pair it maps (R19). -/
def itemFlag (items : List Item) (i : Nat) : Bool :=
  items.any fun it => match it with
    | .tile d => bit d i
    | .gap _ => false

/-- TAG of a result tile: that of the first of its tiles that carries an origin; of missing tiles alone a free value where
one must (R21, log 84). -/
def State.itemTag (s : State) (sid : Nat) (items : List (Nat × Item)) : Option Nat × State :=
  let own := items.filter fun p => s.portOrigin sid p.1
  match own.findSome? fun p => match p.2 with
      | .tile d => some (fld d 111 48)
      | .gap _ => none with
  | some t => (some t, s)
  | none =>
    if own.isEmpty then (none, s)
    else
      let v := s.draw 56
      (some v.1.toNat, v.2)

/-- MMUL (R78, R81, R86): the next activation tile or pair, its initial accumulators, its products, its result tile. With
neither activations nor partial sums, rows come in tiles of up to 128 (log 96). A bias of another format than the
accumulators reads as zero, and the results are POISONED (log 92). -/
def State.mmulTile (s : State) (sid : Nat) (run : ArrayRun) (r : Running) (g : MulArgs) (kind : AccKind) : State :=
  match s.feedN sid (wordInA r.word) r (ceilDiv g.k 128) with
  | none => s
  | some (items, r, s) =>
    match s.feedN sid (wordInB r.word) r (if g.init = 2 then 1 else 0) with
    | none => s
    | some (parts, r, s) =>
      let left := g.m - r.done
      let rows := min left (match items, parts with
        | it :: _, _ => itemRows (min 128 left) it
        | [], it :: _ => itemRows (min 128 left) it
        | [], [] => min 128 left)
      let flags := if items.isEmpty then parts else items
      let (tag, s) := s.itemTag sid (items.map (fun x => (wordInA r.word, x)) ++ parts.map fun x => (wordInB r.word, x))
      let s := if g.swap && r.done == 0 then s.mapPath sid Datapath.swap else s
      let p := s.path sid
      let (a, s) := s.readSide sid g.fa g.mx true rows g.k items
      let accFmt := if kind.isInt then 0x0C else 0x01
      let (pt, s) := s.readSide sid accFmt false false rows g.n parts
      let biasOk := g.init != 1 || r.biasFmt == accFmt || r.bias.isEmpty
      let acc := initRows kind g rows (if biasOk then r.bias else []) pt.rows
      let wOk := g.k == 0 || p.active.cols.isEmpty || (p.active.format == g.fb && p.active.mx == g.mx)
      let acc := disturb run.upsets (macRows kind g a p.active.cols p.active.scales acc)
      let bad := wOk && checksumBad kind g a (if g.k == 0 then [] else p.active.sums) acc
      let (acc, sats) := endRuns acc
      let (acc, s) := if wOk then (acc, s) else s.freeRows kind rows g.n
      let s := s.bump Dict.accSatCount sid sats
      let (o, s) := s.drainRows sid kind g acc
      let poisoned := a.bad || pt.bad || !biasOk || (g.init == 1 && r.biasBad) || (g.k != 0 && p.active.bad)
      let o := { o with
        poisoned := poisoned, concealed := itemFlag flags 499, mucked := itemFlag flags 498, tag := tag }
      let r := { r with done := r.done + rows, outs := r.outs ++ [o] }
      let r := { r with computed := decide (g.m ≤ r.done) }
      let s := (s.countRun sid run.idle run.frozen).keep sid r
      if bad then s.arrayFault sid 1 else if run.parity then s.arrayFault sid 3 else s

/-- Is a WLOAD issued before the step still to be completed (R86)? -/
def Datapath.loadBefore (p : Datapath) (n : Nat) : Bool := Running.before n p.loading || Running.before n p.loadNext

/-- MMUL: nothing while the array ramps, or while the WLOAD whose weights WSWAP makes active is incomplete. -/
def State.mmul (s : State) (sid : Nat) (run : ArrayRun) : State :=
  let s := s.startUnits sid
  match (s.station sid).running with
  | some r =>
    let g := mmulArgs r.word
    let p := s.path sid
    if wordOp r.word = 0x11 && s.warm sid && !r.computed
        && !(g.swap && r.done == 0 && p.shadow.isNone && p.loadBefore r.order) then
      match operandPair g.fa g.fb g.mx with
      | some (kind, _) => s.mmulTile sid run r g kind
      | none => s
    else s
  | none => s

/-- The accumulators of an output-stationary step from its kept codes: the accumulators, then the runs. -/
def keptRows (kind : AccKind) (g : MulArgs) (l : List Nat) : List (List Acc32) :=
  (List.range g.m).map fun r => (List.range g.n).map fun n =>
    let i := r * g.n + n
    match accOf kind (l.getD i 0) with
    | .int v _ => .int v (signed 64 (l.getD (g.m * g.n + i) 0))
    | x => x

/-- The codes kept of an output-stationary step's accumulators. -/
def keepRows (acc : List (List Acc32)) : List Nat :=
  (acc.flatMap fun r => r.map (·.code)) ++ acc.flatMap fun r => r.map fun x =>
    match x with
    | .int _ run => wrap 64 run
    | .flt _ => 0

/-- Cut a tile's rows to the indices from `o` on, `n` of them; of block-scaled ones the blocks of 32 besides. -/
def TileData.slice (d : TileData) (o n : Nat) : TileData :=
  { d with rows := d.rows.map fun r => (r.drop o).take n
           scales := d.scales.map fun r => (r.drop (o / 32)).take (ceilDiv n 32) }

/-- Add the products of up to 128 indices behind the first `done`, a run of `len` indices ending at each multiple and at
`k` (R90): the accumulators, and how many saturated. `fuel` bounds the runs. -/
def macRuns (kind : AccKind) (g : MulArgs) (len done : Nat) (a b : TileData) (acc : List (List Acc32)) (sats : Nat) :
    Nat → Nat → List (List Acc32) × Nat
  | 0, _ => (acc, sats)
  | fuel + 1, o =>
    let n := min len (min 128 (g.k - done) - o)
    if n = 0 then (acc, sats)
    else
      let acc := macRows kind g (a.slice o n) (b.slice o n).rows (b.slice o n).scales acc
      let at_ := done + o + n
      let e := if at_ % len = 0 ∨ at_ = g.k then endRuns acc else (acc, 0)
      macRuns kind g len done a b e.1 (sats + e.2) fuel (o + n)

/-- The weight stream of an MVMUL is declared to a prefetcher (R146) from its first tile: one tile after the other, as many
as the product takes (log 107). -/
def State.declareWeights (s : State) (sid : Nat) (g : MulArgs) (ws : List Item) : State :=
  match ws with
  | .tile d :: _ =>
    match placeOf (fld d 319 272) with
    | .hbm off => s.declare sid off (max 1 (fld d 351 332) : Nat) (ceilDiv g.k 128 * fld d 351 332)
    | _ => s
  | _ => s

/-- OSMUL and MVMUL (R79, R90, R107): the next pair of tiles, up to 128 indices; a run ends each `len` indices and at
the last. -/
def State.osmulTile (s : State) (sid : Nat) (run : ArrayRun) (r : Running) (g : MulArgs) (kind : AccKind) (len : Nat) :
    State :=
  let first := r.state.isEmpty
  let accFmt := if kind.isInt then 0x0C else 0x01
  let biasOk := g.init != 1 || r.biasFmt == accFmt || r.bias.isEmpty
  let acc0 := if first then initRows kind g g.m (if biasOk then r.bias else []) [] else keptRows kind g r.state
  let left := g.k - r.done
  let need := if left = 0 then 0 else 1
  match s.feedN sid (wordInA r.word) r need with
  | none => s
  | some (as', r, s) =>
    match s.feedN sid (wordInB r.word) r need with
    | none => s
    | some (bs, r, s) =>
      let s := if first && kindOf sid == .mve then s.declareWeights sid g bs else s
      let c := min left 128
      let (a, s) := s.readSide sid g.fa g.mx true g.m c as'
      let (b, s) := s.readSide sid g.fb g.mx (kindOf sid == .mve) g.n c bs
      let (acc, sats) := if left = 0 then endRuns acc0
        else macRuns kind g len r.done a b (disturb run.upsets acc0) 0 128 0
      let s := (s.bump Dict.accSatCount sid sats).countRun sid run.idle run.frozen
      let bad := a.bad || b.bad || (first && (!biasOk || (g.init == 1 && r.biasBad)))
      let r := { r with done := r.done + c, state := keepRows acc, poisoned := r.poisoned || bad }
      let (r, s) := if r.done = g.k then
          let d := s.drainRows sid kind g acc
          ({ r with outs := [d.1], computed := true }, d.2)
        else (r, s)
      let s := s.keep sid r
      if upsetsBad kind g.m g.n run.upsets && isArray sid then s.arrayFault sid 1
      else if run.parity && isArray sid then s.arrayFault sid 3 else s

/-- An output-stationary step with opcode `op`. -/
def State.osmul (s : State) (sid op : Nat) (run : ArrayRun) : State :=
  let s := if isArray sid then s.startUnits sid else s
  match (s.station sid).running with
  | some r =>
    let g := osmulArgs r.word
    if wordOp r.word = op && s.warm sid && !r.computed then
      match operandPair g.fa g.fb g.mx with
      | some (kind, p) => s.osmulTile sid run r g kind (cellRows sid * p)
      | none => s
    else s
  | none => s

/-! ### CHECK (R99) -/

/-- `n` draws of the generator: the low bytes of u in order, and the generator after. -/
def drawBytes : Nat → Word → List Nat × Word
  | 0, g => ([], g)
  | n + 1, g =>
    let g := genNext g
    let (l, g') := drawBytes n g
    (genDraw g % 256 :: l, g')

/-- The results of the built-in check (R99), as bytes: weights by cell row, then activation rows. -/
def checkResults (seed : Word) (ups : List (Nat × Nat × Int)) : List Byte :=
  let (w, g) := drawBytes 16384 seed
  let (a, _) := drawBytes 16384 g
  let wr := chunks 128 128 w
  let ar := chunks 128 128 a
  let col (n : Nat) : List Nat := wr.map fun r => r.getD n 0
  let g : MulArgs := { fa := 0x0E, fb := 0x0E, mx := false, out := 0, outMx := false, round := 0, scale := 0, init := 0
                       swap := false, k := 128, n := 128, m := 128 }
  let acc := initRows .int g 128 [] []
  let acc := disturb ups (macRows .int g { rows := ar } ((List.range 128).map col) [] acc)
  (endRuns acc).1.flatMap fun r => r.flatMap fun x => leBytes 4 x.code

/-- The CRC-32 over the results of the built-in check (R99). -/
def checkCrc (seed : Word) (ups : List (Nat × Nat × Int)) : Nat := crc32 (checkResults seed ups)

/-- CHECK: weights and bias become zero; a mismatch with EXPECT is a fault, which a faulted array notes as not passed. A
half runs the same check as a whole array (log 96). -/
def State.check (s : State) (sid : Nat) (run : ArrayRun) (word : Option StepWord) : State :=
  let s := s.startUnits sid
  let st := s.station sid
  let go (w : StepWord) (s : State) : Bool × State :=
    let ok := checkCrc (BitVec.ofNat 32 (fld w 75 44)) run.upsets == fld w 43 12
    let s := s.mapPath sid fun y => { y with shadow := none, active := {}, bias := [], biasFmt := 0, biasBad := false }
    (ok, s.countRun sid run.idle run.frozen)
  match word, st.running with
  | some w, _ =>
    if st.seq = .fault ∧ wordOp w = 0x14 then
      let (ok, s) := go w s
      let s := if ok then s else s.countFault sid 2
      s.mapStation sid fun x => { x with checkPassed := ok }
    else s
  | none, some r =>
    if wordOp r.word = 0x14 && s.warm sid then
      let (ok, s) := go r.word s
      let s := s.finishStep sid r
      if !ok then s.arrayFault sid 2 else if run.parity then s.arrayFault sid 3 else s
    else s
  | none, none => s

/-! ### Ramps (R93, R94) -/

/-- Does an array stay out of ramp-down (R94): a Trump one while the domain runs, a job one under JOB_HOLD_WARM? A
faulted array ramps down whatever its domain (R102). -/
def State.holdsWarm (s : State) (n : Nat) : Bool :=
  !(if s.arraySplit n then (halvesOf n).all fun h => (s.station h).seq == .fault else (s.station n).seq == .fault) &&
    (if inMap (s.nat Dict.trumpArrayMap) n then s.trumpRuns else s.flag Dict.jobHoldWarm)

/-- The ramp-down begins, after 256 frozen or idle cycles, or completes (R93). -/
def State.rampDown (s : State) (n cycles : Nat) (completed : Bool) : State :=
  match (s.arr n).ramp, completed with
  | .full, false =>
    if 256 ≤ cycles ∧ s.holdsWarm n = false then
      (s.bump Dict.dummyCycles n cycles).mapArr n fun a => { a with ramp := .down s.tb, idle := 0 }
    else s
  | .full, true =>
    if 256 ≤ cycles ∧ s.holdsWarm n = false then
      ((s.bump Dict.dummyCycles n cycles).bump Dict.rampDownCount n).mapArr n fun a => { a with ramp := .gated, idle := 0 }
    else s
  | .down _, true => (s.bump Dict.rampDownCount n).mapArr n fun a => { a with ramp := .gated }
  | _, _ => s

/-- The ramp-up ends (R93). -/
def State.rampUpDone (s : State) (n : Nat) : State :=
  match (s.arr n).ramp with
  | .up u => if u ≤ s.tb then s.mapArr n fun a => { a with ramp := .full } else s
  | _ => s

end Sys2Proof.Machine
end

