-- ==== Sys2Proof/Machine/EncOps.lean ====
section
/-! DEFINITION. Encoder channels: positions, edge rings, periods, the three modes, index and wire watch (R225, R226,
R244 to R259). -/

namespace Sys2Proof.Machine

/-! ### Counts (R246) -/

/-- How far the fixed-point position `a` (16 fraction bits) lies ahead of `b`, the counts being serial. -/
def ahead16 (a b : Int) : Int := signed 64 (wrap 64 (a - b))

/-- A count with 16 fraction bits. -/
def fix16 (c : Int) : Int := c * 65536

/-! ### Channels -/

/-- An encoder channel. -/
def State.encoder (s : State) (ch : Nat) : Encoder := s.enc.val {} ch

/-- Change an encoder channel. -/
def State.mapEnc (s : State) (ch : Nat) (f : Encoder → Encoder) : State := { s with enc := s.enc.upd {} ch f }

/-- ENC_MODE of a channel (R244). -/
def State.encModeOf (s : State) (ch : Nat) : Nat := s.nat Dict.encMode ch

/-- The direction a step of +1 before DIR_INVERT takes (R246). -/
def State.dirOf (s : State) (ch : Nat) (d : Int) : Int := if s.flag Dict.dirInvert ch then -d else d

/-- Whether an entry's age (ns) exceeds 2 × T (R258); T is held in 1/65,536 ns. -/
def tooOld (age t16 : Nat) : Bool := decide (2 * t16 < age * 65536)

/-- Is T valid now (R258)? -/
def State.encValid (s : State) (ch : Nat) : Bool :=
  let e := s.encoder ch
  e.valid && match e.ring with
    | k :: _ => !tooOld (s.devNs - k.time).toNat e.t16
    | [] => false

/-- Take T over the newest entries (R257): all of one direction, no break between them, the span above zero, no pair in
LINE_FAULT (R256). -/
def Encoder.measure (e : Encoder) (n : Nat) : Encoder :=
  match e.ring, e.ring[n]? with
  | k :: _, some o =>
    if n + 1 ≤ e.fresh ∧ o.time < k.time ∧ e.lineFault = [] then
      { e with valid := true, t16 := ((k.time - o.time) * 65536 / n).toNat }
    else { e with valid := false }
  | _, _ => { e with valid := false }

/-- Write an entry into the ring (R225, R257): the newest 65,536 stay; a change of direction starts a new run. -/
def Encoder.push (e : Encoder) (k : Edge) : Encoder :=
  { e with
    ring := (k :: e.ring).take 65536
    fresh := match e.ring with
      | o :: _ => if o.fwd = k.fwd then min (e.fresh + 1) 65 else 1
      | [] => 1
    pos := k.pos }

/-- Break the run of entries over which T is taken; T is invalid (R249, R250, R252, R253, R256). -/
def Encoder.snap (e : Encoder) : Encoder := { e with fresh := 0, valid := false }

/-- Count a step of `d` (before DIR_INVERT) at a time (R247). -/
def State.countEdge (s : State) (ch : Nat) (d : Int) (time : Int) : State :=
  let d := s.dirOf ch d
  s.mapEnc ch fun e =>
    (e.push { time := time, fwd := decide (0 < d), pos := count48 (e.pos + d) }).measure (s.nat Dict.periodEdges ch)

/-- Break the run of a channel. -/
def State.encBreak (s : State) (ch : Nat) : State := s.mapEnc ch Encoder.snap

/-! ### Position at a device time (R225, R226) -/

/-- P(t) from the held edges, newest first: `newer` is the edge after the head. -/
def posIn (valid : Bool) (t16 : Nat) (pos : Int) (t : Int) (newer : Option Edge) : List Edge → Int
  | [] =>
    match newer with
    | some o => fix16 (count48 (o.pos - if o.fwd then 1 else -1))
    | none => fix16 pos
  | k :: r =>
    if k.time ≤ t then
      let d : Int := if k.fwd then 1 else -1
      match newer with
      | none =>
        if valid && t16 != 0 then fix16 k.pos + d * min ((t - k.time) * 4294967296 / t16) 65535 else fix16 k.pos
      | some n =>
        if k.fwd = n.fwd ∧ k.pos ≠ n.pos then fix16 k.pos + d * ((t - k.time) * 65536 / (n.time - k.time))
        else fix16 k.pos
    else posIn valid t16 pos t (some k) r

/-- P(t), 16 fraction bits (R225). -/
def State.posAt (s : State) (ch : Nat) (t : Int) : Int :=
  let e := s.encoder ch
  posIn (s.encValid ch) e.t16 e.pos t none e.ring

/-- An integer position: floor of P(t). -/
def floor16 (p : Int) : Int := count48 (p / 65536)

/-- The predicted device time of count `c`, in 1/65,536 ns (R226). -/
def Encoder.predict (e : Encoder) (k : Edge) (c : Int) : Int := k.time * 65536 + ahead48 c k.pos * e.t16

/-- The predicted position at a time, 16 fraction bits, unbounded (R226). -/
def Encoder.predictPos (e : Encoder) (k : Edge) (t : Int) : Int :=
  if e.t16 = 0 then fix16 k.pos else fix16 k.pos + (t - k.time) * 4294967296 / e.t16

/-! ### Faults and reports (R256, R259) -/

/-- A status word of an encoder channel: its source byte is 0xC0 + n (R259). -/
def encWord (code ch : Nat) : Word := BitVec.ofNat 32 (0x06C00000 + ch * 65536 + code)

/-- A fault under R248 to R250: more than EDGE_FAULT_LIMIT in one second are reported, at most once a second (R259). -/
def State.encFault (s : State) (ch : Nat) : State :=
  let e := s.encoder ch
  let lim := s.nat Dict.edgeFaultLimit ch
  let l := s.tb :: (e.faults.take lim).filter fun t => decide (s.tb < t + nsPerS)
  let past := decide (lim < l.length) && e.faultTold.all fun t => decide (t + nsPerS ≤ s.tb)
  let s := s.mapEnc ch fun e => { e with faults := l, faultTold := if past then some s.tb else e.faultTold }
  if past then s.report (encWord 0x0902 ch) ch else s

/-- A change that counts nothing (R249, R250). -/
def State.quadFault (s : State) (ch : Nat) : State :=
  ((s.bump Dict.quadFaultCount ch).encBreak ch).encFault ch

/-- A raw pulse shorter than EDGE_MIN (R248). -/
def State.edgeFault (s : State) (ch : Nat) : State :=
  if s.encModeOf ch = 1 ∨ s.encModeOf ch = 2 then (s.bump Dict.edgeFaultCount ch).encFault ch else s

/-- The pairs of a channel that are watched (R256): 0 A, 1 B, 2 Z. -/
def State.watched (s : State) (ch pair : Nat) : Bool :=
  match s.encModeOf ch with
  | 1 => pair == 0 || pair == 1 || (pair == 2 && s.num Dict.indexMode ch != 0)
  | 3 => pair == 0
  | _ => false

/-- A pair enters LINE_FAULT (R256); an SSI frame under way is not read. -/
def State.lineFault (s : State) (ch pair : Nat) : State :=
  if s.watched ch pair && !(s.encoder ch).lineFault.contains pair then
    let s := s.mapEnc ch fun e => { e.snap with
      lineFault := e.lineFault ++ [pair], frameAt := if pair = 0 then none else e.frameAt }
    (s.bump Dict.lineFaultCount ch).report (encWord 0x0901 ch) ch (leBytes 1 pair)
  else s

/-- A pair leaves LINE_FAULT, or is no longer watched (R256): T stays invalid until R258 is met. -/
def State.lineClear (s : State) (ch pair : Nat) : State :=
  s.mapEnc ch fun e => if e.lineFault.contains pair then
    { e.snap with lineFault := e.lineFault.filter (· != pair) } else e

/-! ### Mode 1 (R247 to R249) -/

/-- The place of a pair of levels in the forward order 00, 01, 11, 10, written BA (R247). -/
def quadPlace (a b : Bool) : Nat :=
  match b, a with
  | false, false => 0 | false, true => 1 | true, true => 2 | true, false => 3

/-- The direction of a change of one line: none where COUNT_MULT does not count it (R247). -/
def quadStep (mult : Nat) (a0 b0 a b : Bool) : Option Int :=
  if mult = 4 then some (if (quadPlace a0 b0 + 1) % 4 = quadPlace a b then 1 else -1)
  else if mult = 2 then (if a != a0 then some (if b != a then 1 else -1) else none)
  else if a && !a0 then some (if b then -1 else 1) else none

/-- The device time of an edge that the filter accepts now: EDGE_MIN ago (R245). -/
def State.edgeTime (s : State) (ch : Nat) : Int := (s.devNs : Int) - s.num Dict.edgeMin ch

/-- A pair is in LINE_FAULT: its edges are not counted. -/
def Encoder.faulted (e : Encoder) (pair : Nat) : Bool := e.lineFault.contains pair

/-- Accepted edges of A and B in mode 1 (R247, R249): those of a pair in LINE_FAULT are not counted (R256). -/
def State.quadEdge (s : State) (ch : Nat) (e : Encoder) (a b : Bool) : State :=
  let a0 := if e.faulted 0 then a else e.a
  let b0 := if e.faulted 1 then b else e.b
  if a0 != a && b0 != b then s.quadFault ch
  else if a0 == a && b0 == b then s
  else match quadStep (s.nat Dict.countMult ch) a0 b0 a b with
    | some d => s.countEdge ch d (s.edgeTime ch)
    | none => s

/-! ### Mode 2 (R250) -/

/-- The place of the switches U, V and W in the forward order 100, 110, 010, 011, 001, 101; none of 000 and 111. -/
def magPlace (u v w : Bool) : Option Nat :=
  match u, v, w with
  | true, false, false => some 0
  | true, true, false => some 1
  | false, true, false => some 2
  | false, true, true => some 3
  | false, false, true => some 4
  | true, false, true => some 5
  | _, _, _ => none

/-- The switches change in mode 2 (R250). -/
def State.magStep (s : State) (ch : Nat) (u v w : Bool) : State :=
  let ref := (s.encoder ch).magRef
  let s := s.mapEnc ch fun e => { e with magRef := magPlace u v w }
  match magPlace u v w, ref with
  | none, _ => s.quadFault ch
  | some _, none => s
  | some p, some q =>
    if (q + 1) % 6 = p then s.countEdge ch 1 (s.edgeTime ch)
    else if (p + 1) % 6 = q then s.countEdge ch (-1) (s.edgeTime ch)
    else s.quadFault ch

/-- The accepted levels of the three receivers from now on (R245, R247, R250); every mode holds them. -/
def State.levels (s : State) (ch : Nat) (a b z : Bool) : State :=
  let e := s.encoder ch
  let s := s.mapEnc ch fun e => { e with a := a, b := b, z := z }
  if e.a = a ∧ e.b = b ∧ e.z = z then s
  else match s.encModeOf ch with
    | 1 => s.quadEdge ch e a b
    | 2 => s.magStep ch a b z
    | _ => s

/-! ### Mode 3 (R251 to R253) -/

/-- Gray code to binary. -/
def ungray : Nat → Nat → Nat
  | 0, x => x
  | n + 1, x => x ^^^ ungray n (x / 2)

/-- Are there an odd number of ones among the low `n` bits? -/
def oddOnes : Nat → Nat → Bool
  | 0, _ => false
  | n + 1, x => (x % 2 == 1) != oddOnes n (x / 2)

/-- The clock periods of a frame (R251). -/
def State.ssiClocks (s : State) (ch : Nat) : Nat := s.nat Dict.ssiBits ch + if s.nat Dict.ssiParity ch = 0 then 0 else 1

/-- How long the clocks of a frame run, ns (R251). -/
def State.ssiClockNs (s : State) (ch : Nat) : Nat := s.ssiClocks ch * 1000000 / max 1 (s.nat Dict.ssiClock ch)

/-- May a frame begin (R251): none is under way, SSI_PERIOD has passed since the last began, and SSI_RECOVERY since its
clocks ended? -/
def State.ssiDue (s : State) (ch : Nat) : Bool :=
  let e := s.encoder ch
  e.frameAt.isNone && e.frameTb.all fun t =>
    decide (t + max (s.nat Dict.ssiPeriod ch * 1000) (s.ssiClockNs ch + s.nat Dict.ssiRecovery ch * 1000) ≤ s.tb)

/-- A frame starts: the clock runs, and the value is taken at its first falling edge, now (R251). -/
def State.ssiStart (s : State) (ch : Nat) : State :=
  if s.encModeOf ch = 3 ∧ !(s.encoder ch).faulted 0 ∧ s.ssiDue ch then
    (s.mapEnc ch fun e => { e with frameAt := some s.devNs, frameTb := some s.tb }).emit (.ssi ch (s.ssiClocks ch))
  else s

/-- A failed frame (R252, R259). -/
def State.ssiFail (s : State) (ch : Nat) : State :=
  let n := (s.encoder ch).ssiFails + 1
  let s := (s.bump Dict.ssiFrameFaultCount ch).mapEnc ch fun e => { e with ssiFails := n }
  let s := if n = 3 then s.encBreak ch else s
  if n = 16 then s.report (encWord 0x0904 ch) ch else s

/-- `n` entries of one direction, spaced evenly, the last at `t1` (R253). -/
def State.ssiEdges (s : State) (ch : Nat) (d t0 t1 : Int) (n : Nat) : State :=
  (List.range n).foldl (fun s (i : Nat) => s.countEdge ch d (t0 + (t1 - t0) * ((i : Int) + 1) / n)) s

/-- A jump frame (R253): the third of a run becomes the new reference. -/
def State.ssiJump (s : State) (ch v : Nat) (t : Int) (near : Bool) : State :=
  let e := s.encoder ch
  let run := if e.jumpRun != 0 && near then e.jumpRun + 1 else 1
  let s := s.bump Dict.ssiJumpCount ch
  if run < 3 then s.mapEnc ch fun e => { e with jumpRun := run, jumpLast := v }
  else
    let fwd := match e.ring with
      | k :: _ => k.fwd
      | [] => true
    let s := s.mapEnc ch fun e =>
      { (e.snap.push { time := t, fwd := fwd, pos := e.pos }) with
        fresh := 1, valid := false, jumpRun := 0, ssiLast := some v, ssiTime := t }
    s.report (encWord 0x0903 ch) ch

/-- The signed step nearest zero from value `a` to `b` of `bits` bits (R253). -/
def ssiDelta (bits a b : Nat) : Int := signed bits (b + 2 ^ bits - a % 2 ^ bits)

/-- A good frame of value `v` (R253). -/
def State.ssiGood (s : State) (ch v : Nat) (t : Int) : State :=
  let bits := s.nat Dict.ssiBits ch
  let e := s.encoder ch
  let s := s.mapEnc ch fun e => { e with ssiFails := 0 }
  match e.ssiLast with
  | none => s.mapEnc ch fun e => { e with ssiLast := some v, ssiTime := t }
  | some l =>
    let d := ssiDelta bits l v
    let lim := s.nat Dict.ssiMaxStep ch
    if d.natAbs ≤ lim then
      let s := s.ssiEdges ch (if d < 0 then -1 else 1) e.ssiTime t d.natAbs
      s.mapEnc ch fun e => { e with ssiLast := some v, ssiTime := t, jumpRun := 0 }
    else s.ssiJump ch v t (decide ((ssiDelta bits e.jumpLast v).natAbs ≤ lim))

/-- A frame ends, once its clocks have run (R251 to R253): `raw` the data bits as sent, with the parity bit last where
there is one. -/
def State.ssiEnd (s : State) (ch raw : Nat) (notReady recoveryBad : Bool) : State :=
  let e := s.encoder ch
  match e.frameAt with
  | none => s
  | some t =>
    if e.frameTb.any fun t0 => decide (s.tb < t0 + s.ssiClockNs ch) then s
    else
    let s := s.mapEnc ch fun e => { e with frameAt := none }
    let bits := s.nat Dict.ssiBits ch
    let par := s.nat Dict.ssiParity ch
    let odd := oddOnes (bits + 1) raw
    if notReady || recoveryBad || (par == 1 && odd) || (par == 2 && !odd) then s.ssiFail ch
    else
      let v := (if par = 0 then raw else raw / 2) % 2 ^ bits
      s.ssiGood ch (if s.num Dict.ssiCode ch = 1 then ungray bits v else v) t

/-! ### Index, position, period (R246, R254, R255, R258) -/

/-- Is a channel in use by an enabled camera port or valve string while the Trump domain runs (R255)? -/
def State.encUsed (s : State) (ch : Nat) : Bool :=
  s.trumpRuns &&
    ((List.range 16).any fun i =>
      (s.flag Dict.portEnable i && s.nat Dict.encoderChannel i == ch)
        || (s.flag Dict.stringEnable i && s.nat Dict.stringEncoder i == ch))

/-- A device time in ns as a TIME80's number. -/
def time80Of (ns : Nat) : Nat := ns / nsPerS % 281474976710656 + (ns % nsPerS) * 281474976710656

/-- Set the count (R246, R254): the ring empties, T is invalid. -/
def State.setPosition (s : State) (ch : Nat) (v : Int) : State :=
  s.mapEnc ch fun e => { e.snap with pos := v, ring := [] }

/-- A rising edge of Z (R254, R255). -/
def State.indexEdge (s : State) (ch : Nat) : State :=
  let e := s.encoder ch
  if s.encModeOf ch ≠ 1 ∨ e.faulted 2 then s
  else
    let s := (s.setNum Dict.indexPos e.pos ch).setNum Dict.indexTime
      (if s.timeValid then time80Of (s.edgeTime ch).toNat else 0) ch
    let mode := s.nat Dict.indexMode ch
    if mode = 1 ∨ (mode = 2 ∧ s.flag Dict.indexArm ch) then
      if s.encUsed ch then s.bump Dict.indexSuppressed ch
      else
        let s := s.setPosition ch (s.num Dict.indexValue ch)
        if mode = 2 then s.setNum Dict.indexArm 0 ch else s
    else s

/-- The newest entry is older than 2 × T: T is invalid (R258). -/
def State.periodInvalid (s : State) (ch : Nat) : State :=
  if s.encValid ch then s else s.mapEnc ch fun e => { e with valid := false }

/-- A write of ENC_MODE: the channel enters its mode anew; an SSI channel has no reference (R253), a magnetic one that of
a valid state its switches stand in (R250). -/
def State.enterMode (s : State) (ch : Nat) : State :=
  s.mapEnc ch fun e => { e.snap with
    ssiLast := none, ssiFails := 0, jumpRun := 0, frameAt := none, frameTb := none
    magRef := magPlace e.a e.b e.z, lineFault := [] }

/-- PERIOD_EDGES is written: T is taken anew (R257, R258). -/
def State.setPeriodEdges (s : State) (ch : Nat) (v : Int) : State :=
  (s.setNum Dict.periodEdges v ch).mapEnc ch fun e => e.measure v.toNat

/-- INDEX_MODE is written: with 0 the pair of Z is no longer watched (R256). -/
def State.setIndexMode (s : State) (ch : Nat) (v : Int) : State :=
  let s := s.setNum Dict.indexMode v ch
  if v = 0 then s.lineClear ch 2 else s

/-- The encoder the enabled ports share. -/
def State.sharedEncoder (s : State) : Nat :=
  match (List.range 16).find? fun n => s.flag Dict.portEnable n with
  | some n => s.nat Dict.encoderChannel n
  | none => 0

end Sys2Proof.Machine
end

