-- ==== Sys2Proof/Machine/DealerOps.lean ====
section
/-! DEFINITION. The Dealer: windows, latches and reports (R221 to R241). -/

namespace Sys2Proof.Machine

/-- The Dealer's station ID. -/
def dealerId : Nat := 0x52

/-! ### Strings and windows -/

/-- Every window the Dealer holds. -/
def State.windows (s : State) : List Window := s.dealer.slots.map (·.2) ++ s.dealer.closing

/-- Change every window. -/
def State.mapWindows (s : State) (f : Window → Window) : State :=
  { s with dealer := { s.dealer with
    slots := s.dealer.slots.map fun p => (p.1, f p.2)
    closing := s.dealer.closing.map f } }

/-- A report word of the Dealer (R242): to its error queue and to the hosts, with an event record where `rec`. -/
def State.dealerWord (s : State) (w : Word) (unit : Nat := 255) (vals : List Byte := []) (rec' : Bool := true) : State :=
  let s := (s.toErr dealerId w).event 0 w
  if rec' then s.record w unit vals else s

/-- Has the belt reached count `c` on a channel (R222)? -/
def State.reached (s : State) (ch : Nat) (c : Int) : Bool := decide (0 ≤ ahead16 (s.posAt ch s.devNs) (fix16 c))

/-- Has a part come to its end? -/
def PartState.over : PartState → Bool
  | .ended => true | .missed => true | .cut => true | _ => false

/-- Drop the windows whose parts are all over and whose end the belt has reached. -/
def State.dropDone (s : State) : State :=
  let live := fun (w : Window) => !(w.parts.all (fun p => p.st.over) && s.reached w.enc w.stop)
  { s with dealer := { s.dealer with
    slots := s.dealer.slots.filter fun p => live p.2
    closing := s.dealer.closing.filter live } }

/-! ### Commands (R221 to R224) -/

/-- A window command (R221). -/
structure WinCmd where
  gen : Nat
  cmd : Nat
  enc : Nat
  id : Nat
  start : Int
  stop : Int
  first : Nat
  last : Nat
deriving DecidableEq, Repr

/-- The fields of a command's row, its 32 bytes as one number (R221). -/
def winCmd (n : Nat) : WinCmd :=
  let w := BitVec.ofNat 256 n
  { gen := fld w 255 252, cmd := fld w 251 250, enc := fld w 249 247, id := fld w 239 208
    start := signed 48 (fld w 207 160), stop := signed 48 (fld w 159 112), first := fld w 111 100, last := fld w 99 88 }

/-- Is a command malformed in itself (R222)? -/
def State.cmdBad (s : State) (c : WinCmd) : Bool :=
  c.gen != 1 || decide (ahead48 c.stop c.start ≤ 0) || decide (c.last < c.first) || decide (s.nat Dict.valveCount ≤ c.last)

/-- Does a command fit a row of R222's table? -/
def State.cmdFits (s : State) (c : WinCmd) : Bool :=
  match s.dealer.slots.look (c.id % 65536) with
  | some w => if c.cmd = 0 then s.reached w.enc w.stop else w.id == c.id
  | none => c.cmd == 0

/-- A command without effect (R222): counted and reported. -/
def State.cmdMalformed (s : State) : State := (s.bump Dict.cmdMalformedCount).dealerWord 0x06520806

/-- Is the valve bit of a string unmasked (R224)? -/
def State.unmasked (s : State) (v bit : Nat) : Bool :=
  ((s.blob Dict.valveMask 0 v)[bit / 8]?).elim false fun b => b.getLsbD (bit % 8)

/-- The bits of string `v` that the run covers. -/
def runBits (v first last : Nat) : List Nat :=
  (List.range 256).filter fun b => decide (first ≤ v * 256 + b ∧ v * 256 + b ≤ last)

/-- The bits of a string that a part takes: not masked, within STRING_BITS, on an enabled string (R224). -/
def State.partBits (s : State) (v first last : Nat) : List Nat :=
  if s.flag Dict.stringEnable v then
    (runBits v first last).filter fun b => s.unmasked v b && decide (b < s.nat Dict.stringBits v)
  else []

/-- Split a run into parts (R224): what is left out of each is counted; a part on a string of another encoder is dropped
and reported with its string, the command not being counted for it (log 115). -/
def State.splitRun (s : State) (c : WinCmd) : List Part × State :=
  (List.range 16).foldl (fun acc v =>
    let run := runBits v c.first c.last
    if run.isEmpty then acc
    else
      let bits := acc.2.partBits v c.first c.last
      let st := acc.2.bump Dict.maskedBitCount v (run.length - bits.length)
      if st.nat Dict.stringEncoder v != c.enc then (acc.1, st.dealerWord 0x06520806 v)
      else if bits.isEmpty then (acc.1, st)
      else (acc.1 ++ [{ string := v, valves := bits }], st)) ([], s)

/-- Note a change point at the present time on every string a window has parts on (R231). -/
def State.noteChange (s : State) (ps : List Part) : State :=
  ps.foldl (fun s p => s.mapString p.string fun x => { x with change := true }) s

/-- Put a window into its slot. -/
def State.putWindow (s : State) (w : Window) : State :=
  { s with dealer := { s.dealer with slots := s.dealer.slots.ins (w.id % 65536) w } }

/-- NEW (R222): an earlier window keeps its planned close. -/
def State.windowNew (s : State) (c : WinCmd) : State :=
  let s := match s.dealer.slots.look (c.id % 65536) with
    | some w => { s with dealer := { s.dealer with closing := s.dealer.closing ++ [w] } }
    | none => s
  let (ps, s) := s.splitRun c
  s.putWindow { id := c.id, enc := c.enc, start := c.start, stop := c.stop, first := c.first, last := c.last, parts := ps }

/-- A part of an opened window after an amendment (R222), `q` being what the new run gives its string: a held part keeps
its valves and takes the added ones; one that has not opened takes the new run; one that is over takes the added ones,
which open at the next latch. -/
def Part.amended (p : Part) (q : Option Part) : Option Part :=
  let run := q.elim [] (·.valves)
  let added := run.filter fun v => !p.valves.contains v
  match p.st with
  | .held _ => some { p with valves := p.valves ++ added }
  | .unopened => q
  | _ => some (if added.isEmpty then p else { p with valves := added, st := .unopened })

/-- The parts of an opened window after an amendment. -/
def amendParts (old new : List Part) : List Part :=
  (old.filterMap fun p => p.amended (new.find? fun q => q.string == p.string))
    ++ new.filter fun q => !(old.any fun p => p.string == q.string)

/-- AMEND (R222). -/
def State.windowAmend (s : State) (c : WinCmd) : State :=
  match s.dealer.slots.look (c.id % 65536) with
  | some w =>
    let (ps, s) := s.splitRun c
    if w.opened then
      let ps' := amendParts w.parts ps
      (s.putWindow { w with stop := c.stop, first := c.first, last := c.last, parts := ps' }).noteChange (w.parts ++ ps')
    else
      (s.putWindow { w with
        enc := c.enc, start := c.start, stop := c.stop, first := c.first, last := c.last, parts := ps }).noteChange
        (w.parts ++ ps)
  | none => s

/-- CANCEL (R222). -/
def State.windowCancel (s : State) (c : WinCmd) : State :=
  match s.dealer.slots.look (c.id % 65536) with
  | some w => ({ s with dealer := { s.dealer with slots := s.dealer.slots.del (c.id % 65536) } } : State).noteChange w.parts
  | none => s

/-- A command is accepted: during the drain it is removed and counted (R240); malformed it has no effect (R222); one that
takes effect after its tile's deadline is counted (R49, R223). -/
def State.windowCommand (s : State) (c : WinCmd) (deadline : Nat) : State :=
  if (s.station dealerId).seq = .drain then s.bump Dict.windowsAbandoned
  else if s.cmdBad c || !s.cmdFits c then s.cmdMalformed
  else
    let s := if deadline ≠ 0 ∧ deadline < s.devNs then s.bump Dict.lateCommitCount else s
    match c.cmd with
    | 0 => s.windowNew c
    | 1 => s.windowAmend c
    | _ => s.windowCancel c

/-- A row of UINT8 codes as one number; a row not 32 columns wide reads as zero (log 27). -/
def rowNat (row : List Nat) : Nat := if row.length = 32 then row.foldr (fun c n => c + 256 * n) 0 else 0

/-- The rows of the tile that a DEAL step holds, read once and kept with the step (R221). -/
def State.dealRows (s : State) (r : Running) : List Nat × State :=
  if r.state.isEmpty then
    match r.ins with
    | (_, .tile d) :: _ =>
      let (x, _, s) := s.readTile dealerId 0x0F false false (.tile d) (descRows d) 32
      (x.rows.map rowNat, s)
    | _ => ([], s)
  else (r.state, s)

/-- The Dealer takes the next command of its step if it is of the kind `cmd`: rows without a command are skipped, and
the step completes after its last row (R221). -/
def State.dealNext (s : State) (cmd : Nat) : State :=
  match (s.station dealerId).running with
  | none => s
  | some r =>
    let (rows, s) := s.dealRows r
    match (rows.drop r.done).dropWhile fun n => (winCmd n).cmd == 3 with
    | [] => s.finishStep dealerId r
    | c :: rest =>
      if (winCmd c).cmd = cmd then
        let s := s.windowCommand (winCmd c) r.deadline
        let left := rest.dropWhile fun n => (winCmd n).cmd == 3
        if left.isEmpty then s.finishStep dealerId r
        else s.mapStation dealerId fun x =>
          { x with running := some { r with state := rows, done := rows.length - left.length } }
      else s.mapStation dealerId fun x => { x with running := some { r with state := rows } }

/-! ### Stall and reversal (R227) -/

/-- The newest edge of a channel. -/
def State.newest (s : State) (ch : Nat) : Option Edge := (s.encoder ch).ring.head?

/-- A channel stalls or reverses: once for each stall. -/
def State.stall (s : State) (ch : Nat) : State :=
  if s.dealer.stalled.contains ch then s
  else
    ({ s with dealer := { s.dealer with stalled := s.dealer.stalled ++ [ch] } } : State).bump Dict.stallCount
      |>.dealerWord 0x06520802 ch

/-- BELT_STALL: the newest edge is older than STALL_TIME. -/
def State.beltStall (s : State) (ch : Nat) : State :=
  match s.newest ch with
  | some k => if (s.numAt Dict.stallTime ch 0) < (s.devNs : Int) - k.time then s.stall ch else s
  | none => s

/-- After an edge of a channel: a backward one reverses the belt; forward ones let scheduling resume. -/
def State.beltEdge (s : State) (ch : Nat) : State :=
  match s.newest ch with
  | some k =>
    if k.fwd then { s with dealer := { s.dealer with stalled := s.dealer.stalled.filter (· != ch) } } else s.stall ch
  | none => s

/-- The same, where the command gave a channel a new edge. -/
def State.afterEdge (s s0 : State) (ch : Nat) : State :=
  if s.newest ch = s0.newest ch then s else s.beltEdge ch

/-! ### Latches (R229 to R233) -/

/-- The image a string will hold after its committed latches. -/
def VString.next (x : VString) : BitVec 256 :=
  match x.committed.getLast? with
  | some l => l.image
  | none => x.image

/-- Valves set since when, once an image is latched at a time. -/
def sinceAfter (since : Tab Nat) (image : BitVec 256) (dev : Nat) : Tab Nat :=
  ((List.range 256).filter fun b => image.getLsbD b).map fun b => (b, since.val dev b)

/-- Valves set since when, and valves capped, after the committed latches. -/
def VString.ahead (x : VString) : Tab Nat × List Nat :=
  x.committed.foldl (fun a l => (sinceAfter a.1 l.image l.dev, l.capped)) (x.since, x.capped)

/-- Scheduling on a channel (R226 to R228): the newest forward edge, and whether T predicts. -/
def State.sched' (s : State) (ch : Nat) : Option (Edge × Bool) :=
  match s.newest ch with
  | some k => if k.fwd && !s.dealer.stalled.contains ch then some (k, s.encValid ch) else none
  | none => none

/-- When the belt is at count `c`, 1/65,536 ns (R226); without prediction a count that a captured edge has reached is
due now, any other is not yet a change point (R228). -/
def State.whenAt (s : State) (ch : Nat) (c : Int) : Option Int :=
  match s.sched' ch with
  | some (k, true) => some ((s.encoder ch).predict k c)
  | some (k, false) => if 0 ≤ ahead48 k.pos c then some (k.time * 65536) else none
  | none => none

/-- The parts on a string with their windows. -/
def State.partsOn (s : State) (v : Nat) : List (Window × Part) :=
  s.windows.flatMap fun w => (w.parts.filter fun p => p.string == v).map fun p => (w, p)

/-- What a latch makes of the state of window `id`'s part. -/
def Latch.then' (l : Latch) (id : Nat) (st : PartState) : PartState :=
  if l.opens.any fun o => o.1 == id then .held l.dev
  else if l.misses.contains id then .missed
  else if l.ends.contains id then .ended
  else match st with
    | .held t => if l.stall then .cut else .held t
    | x => x

/-- The parts on a string as the committed latches will leave them. -/
def State.partsAhead (s : State) (v : Nat) : List (Window × Part) :=
  (s.partsOn v).map fun q => (q.1, { q.2 with
    st := (s.vstring v).committed.foldl (fun st l => l.then' q.1.id st) q.2.st })

/-- The change point of a part, 1/65,536 ns (R231). -/
def State.partChange (s : State) (v : Nat) (w : Window) (p : Part) : Option Int :=
  match p.st with
  | .unopened => s.whenAt w.enc w.start
  | .held t =>
    (s.whenAt w.enc w.stop).map fun x => max x ((t + s.nat Dict.pulseMin v) * 65536)
  | _ => none

/-- When a set valve reaches PULSE_MAX, ns (R233). -/
def State.pulseEnd (s : State) (v since : Nat) : Int := (since + s.nat Dict.pulseMax v * 1000 : Nat)

/-- The change points of a string's parts, 1/65,536 ns (R231). -/
def State.partChanges (s : State) (v : Nat) : List Int := (s.partsAhead v).filterMap fun q => s.partChange v q.1 q.2

/-- The change points of a string, 1/65,536 ns (R231). -/
def State.changePoints (s : State) (v : Nat) : List Int :=
  let x := s.vstring v
  s.partChanges v
    ++ (x.ahead.1.filter fun e => !x.ahead.2.contains e.1).map (fun e => s.pulseEnd v e.2 * 65536)
    ++ (if x.change then [(s.devNs : Int) * 65536] else [])

/-- The earliest of a list of times. -/
def earliest : List Int → Option Int
  | [] => none
  | a :: l => match earliest l with
    | none => some a
    | some b => some (min a b)

/-- What a latch at `t` does to a part, the belt then standing at `p16` (R232): opens, stays, is missed, ends or
nothing. -/
inductive PartFate | opens | stays | misses | ends | none
deriving DecidableEq, Repr

/-- The fate of a part (R232). -/
def State.fate (s : State) (v : Nat) (t p16 : Int) (w : Window) (p : Part) : PartFate :=
  let before := decide (ahead16 p16 (fix16 w.stop) < 0)
  match p.st with
  | .unopened =>
    if !before then .misses else if 0 ≤ ahead16 p16 (fix16 w.start) then .opens else .none
  | .held t0 => if before || decide (t < t0 + s.num Dict.pulseMin v) then .stays else .ends
  | _ => .none

/-- The position predicted for a latch at `t` (R226), or, without T, the newest edge's (R225). -/
def State.posLatch (s : State) (ch : Nat) (t : Int) : Int :=
  match s.sched' ch with
  | some (k, true) => (s.encoder ch).predictPos k t
  | some (k, false) => fix16 k.pos
  | none => s.posAt ch s.devNs

/-- Set bits as an image. -/
def imageOf (bits : List Nat) : BitVec 256 := bits.foldl (fun x b => x ||| (1#256 <<< b)) 0

/-- The latch of a string at time `t` (R232, R233): a capped valve stays clear while a part that held it stays held. -/
def State.mkLatch (s : State) (v : Nat) (t : Int) : Latch :=
  let ch := s.nat Dict.stringEncoder v
  let (since, capped) := (s.vstring v).ahead
  let p16 := s.posLatch ch t
  let fates := (s.partsAhead v).map fun q => (q.1, q.2, s.fate v t p16 q.1 q.2)
  let on := fates.filter fun f => f.2.2 == .opens || f.2.2 == .stays
  let bits := on.flatMap fun f => f.2.1.valves
  let caps := (since.filter fun e => decide (s.pulseEnd v e.2 ≤ t) && !capped.contains e.1).map (·.1)
  let kept := (fates.filter fun f => f.2.2 == .stays).flatMap fun f => f.2.1.valves
  let shut := (capped ++ caps).filter kept.contains
  let bits := bits.filter fun b => s.unmasked v b && !shut.contains b && !caps.contains b
  let late := fun (w : Window) => match s.sched' ch with
    | some (k, true) => decide ((s.encoder ch).predict k w.start < t * 65536)
    | _ => false
  { tb := s.tbOf t, dev := t.toNat, pos := floor16 p16, image := imageOf bits
    opens := (fates.filter fun f => f.2.2 == .opens).map fun f => (f.1.id, late f.1)
    misses := (fates.filter fun f => f.2.2 == .misses).map fun f => f.1.id
    ends := (fates.filter fun f => f.2.2 == .ends).map fun f => f.1.id
    caps := caps
    capped := shut }

/-- May a string commit frames: it is enabled, and no zero latch is owed or was sent (R240)? -/
def State.stringFree (s : State) (v : Nat) : Bool :=
  let x := s.vstring v
  s.flag Dict.stringEnable v && x.zero.isNone && !x.silent

/-- Is `t` the latch time that is to be committed now (R234)? -/
def State.commitNow (s : State) (v : Nat) (t : Int) : Bool := decide (t - s.tFrame v - 2000 < (s.devNs : Int) + 10)

/-- LATCH_COMMIT (R227, R228, R230, R231, R234). -/
def State.latchCommit (s : State) (v : Nat) : State :=
  if !s.stringFree v then s
  else
    let ch := s.nat Dict.stringEncoder v
    if s.dealer.stalled.contains ch then
      if (s.vstring v).next = 0 then s
      else
        let t := s.legalTime v
        let l : Latch := { tb := s.tbOf t, dev := t.toNat, pos := floor16 (s.posAt ch t), image := 0, stall := true }
        if s.commitNow v t then s.mapString v fun x => { x with committed := x.committed ++ [l] } else s
    else match earliest (s.changePoints v) with
      | none => s
      | some c =>
        let t := up10 (max ((c + 65535) / 65536) (s.legalTime v))
        if s.commitNow v t then
          let unpredicted := (s.sched' ch).any (fun k => !k.2) && decide (earliest (s.partChanges v) = some c)
          let s := if unpredicted then s.bump Dict.unpredictedLatches else s
          let l := s.mkLatch v t
          s.mapString v fun x => { x with committed := x.committed ++ [l], change := false }
        else s

/-- STRING_REFRESH (R239): no latch for REFRESH_PERIOD, and no change point within 16 us after its latch time. -/
def State.stringRefresh (s : State) (v : Nat) : State :=
  let period := s.nat Dict.refreshPeriod v
  let t := s.legalTime v
  let due := match (s.vstring v).last with
    | some l => decide ((l + period * 1000 : Nat) ≤ (s.devNs : Int))
    | none => true
  let clear := match earliest (s.changePoints v) with
    | some c => decide ((t + 16000) * 65536 < c)
    | none => true
  let stalled := s.dealer.stalled.contains (s.nat Dict.stringEncoder v) && (s.vstring v).next != 0
  if s.stringFree v && period != 0 && due && clear && !stalled && s.commitNow v t then
    let pos := floor16 (s.posLatch (s.nat Dict.stringEncoder v) t)
    let l : Latch := {
      tb := s.tbOf t, dev := t.toNat, pos := pos, image := (s.vstring v).next, capped := (s.vstring v).ahead.2 }
    s.mapString v fun x => { x with committed := x.committed ++ [l] }
  else s

/-! ### Reports (R241) -/

/-- A report's 16 bytes (R241). -/
def reportBytes (kind id : Nat) (pos : Int) (dev : Nat) : List Byte :=
  leBytes 16 ((1 <<< 124) + (kind <<< 121) + ((id % 4294967296) <<< 80) + (wrap 48 pos <<< 32) + dev % nsPerS)

/-- The output port of the Dealer's steps: that of the DEAL step of its table. -/
def State.dealPort (s : State) : Nat :=
  match (s.station dealerId).active.find? fun w => wordOp w == 0x10 with
  | some w => wordOut w
  | none => 0

/-- Send reports to TRK in tiles of up to 128 rows, their payloads written from `addr` on. -/
def State.sendReports (s : State) (addr : Nat) (rows : List (List Byte)) : State :=
  ((chunks 128 (rows.length / 128 + 1) rows).foldl (fun acc c =>
    if c.isEmpty then acc
    else
      let o : OutTile := { bytes := c.flatten, format := 0x0F, rows := c.length, cols := 16 }
      (acc.1 + o.bytes.length,
        (acc.2.memWrite dealerId acc.1 o.bytes).emitOn dealerId acc.2.dealPort { word := 0 } o acc.1 0 false false))
    (addr, s)).2

/-! ### LATCH_STROBE (R232, R235 to R237) -/

/-- The part of a window on a string takes the state `st`. -/
def Window.setPart (w : Window) (v : Nat) (st : PartState) : Window :=
  { w with parts := w.parts.map fun p => if p.string = v then { p with st := st } else p }

/-- A record of EJECT_MISSED, at most MISSED_LOG_MAX in a second (R235). -/
def State.missedRecord (s : State) (id : Nat) : State :=
  let fresh := s.dealer.missedCount == 0 || decide (s.dealer.missedAt + nsPerS ≤ s.tb)
  let n := if fresh then 0 else s.dealer.missedCount
  let log := decide (n < s.nat Dict.missedLogMax)
  ({ s with dealer := { s.dealer with
    missedAt := if fresh then s.tb else s.dealer.missedAt
    missedCount := n + 1 } } : State).dealerWord 0x06520801 255 (leBytes 4 id) log

/-- A window's part opens: OPENED where it is the first (R241); an earlier miss makes the window partial (R235). -/
def State.openPart (s : State) (v : Nat) (l : Latch) (id : Nat) (late : Bool) : State × List (List Byte) :=
  match s.windows.find? fun w => w.id == id with
  | none => (s, [])
  | some w =>
    let s := if late then s.bump Dict.latchMovedCount v else s
    let partial' := !w.told && w.parts.any fun p => p.st == .missed
    let s := if partial' then s.bump Dict.ejectPartialCount else s
    let s := s.mapWindows fun x => if x.id = id then
      { x.setPart v (.held l.dev) with opened := true, told := x.told || partial' } else x
    (s, if w.opened then [] else [reportBytes 0 id l.pos l.dev])

/-- A window's part is missed (R235): MISSED where all are, PARTIAL where another had opened. -/
def State.missPart (s : State) (v : Nat) (l : Latch) (id : Nat) : State × List (List Byte) :=
  match s.windows.find? fun w => w.id == id with
  | none => (s, [])
  | some w =>
    let s := s.bump Dict.ejectMissedCount
    let w' := w.setPart v .missed
    let all := w'.parts.all fun p => p.st == .missed
    let partial' := !w.told && w.opened
    let s := if partial' then s.bump Dict.ejectPartialCount else s
    let s := if all then s.missedRecord id else s
    let s := s.mapWindows fun x => if x.id = id then
      { x.setPart v .missed with told := x.told || all || partial' } else x
    (s, if all then [reportBytes 1 id l.pos l.dev] else if w.opened then [reportBytes 2 id l.pos l.dev] else [])

/-- The clearing latch of a stall cuts every part that opened before it (R227). -/
def State.cutParts (s : State) (v : Nat) (l : Latch) : State × List (List Byte) :=
  let held := (s.partsOn v).filter fun q => match q.2.st with
    | .held _ => true
    | _ => false
  let ids := held.map fun q => q.1.id
  let s := s.bump Dict.ejectCutCount 0 ids.length
  let s := s.mapWindows fun x => if ids.contains x.id then x.setPart v .cut else x
  (s, ids.map fun id => reportBytes 3 id l.pos l.dev)

/-- Fold a step that yields reports over a list. -/
def foldReports {α : Type} (f : State → α → State × List (List Byte)) (s : State) (l : List α) :
    State × List (List Byte) :=
  l.foldl (fun acc x => let r := f acc.1 x; (r.1, acc.2 ++ r.2)) (s, [])

/-- Compare what DIAG returned with the frame latched before (R237); the first frame is not compared. -/
def State.echo (s : State) (v : Nat) (diag : BitVec 256) : State :=
  let x := s.vstring v
  let n := s.nat Dict.stringBits v
  let bad := x.compared && decide (diag.toNat % 2 ^ n ≠ x.image.toNat % 2 ^ n)
  let s := if bad then (s.bump Dict.echoErrorCount v).dealerWord 0x06520803 v [] (!x.echoBad) else s
  s.mapString v fun x => { x with echoBad := bad, compared := true }

/-- The frame of an image: a bit a period of DATA, bit STRING_BITS - 1 first and bit 0 last (R236). -/
def State.frameBits (s : State) (v : Nat) (image : BitVec 256) : List Bool :=
  (List.range (s.nat Dict.stringBits v)).reverse.map fun k => image.getLsbD k

/-- The string's frame has been shifted, and it takes the image at LATCH (R236): valves newly set start their pulse. -/
def State.takeImage (s : State) (v : Nat) (image : BitVec 256) (dev : Nat) : State :=
  let s := ((s.bump Dict.latchCount v).emit (.frame v (s.frameBits v image))).emit (.latch v image)
  s.mapString v fun x => { x with
    prev := x.image
    image := image
    lastLatch := some dev
    committed := x.committed.drop 1
    since := sinceAfter x.since image dev }

/-- PULSE_CAPPED (R233): counted for each valve, reported once a string and second. -/
def State.capValves (s : State) (v : Nat) (caps : List Nat) : State :=
  if caps.isEmpty then s
  else
    let s := s.bump Dict.pulseCappedCount v caps.length
    let k := 0x06520805 * 65536 + v
    let due := match s.recorder.lastRep.look k with
      | some t0 => decide (t0 + nsPerS ≤ s.tb)
      | none => true
    if due then
      let s := s.dealerWord 0x06520805 v
      { s with recorder := { s.recorder with lastRep := s.recorder.lastRep.ins k s.tb } }
    else s

/-- LATCH_STROBE: LATCH rises at its time (R232 to R237, R241). -/
def State.latchStrobe (s : State) (v : Nat) (diag : BitVec 256) (addr : Nat) : State :=
  match (s.vstring v).committed with
  | [] => s
  | l :: _ =>
    if s.tb < l.tb then s
    else
      let s := (s.echo v diag).takeImage v l.image l.dev
      let (s, r1) := if l.stall then s.cutParts v l else (s, [])
      let (s, r2) := foldReports (fun s o => s.openPart v l o.1 o.2) s l.opens
      let (s, r3) := foldReports (fun s id => s.missPart v l id) s l.misses
      let s := s.mapWindows fun x => if l.ends.contains x.id then x.setPart v .ended else x
      let s := ((s.capValves v l.caps).mapString v fun x => { x with capped := l.capped }).dropDone
      s.sendReports addr (r1 ++ r2 ++ r3)

/-! ### The zero latch and the driver board (R238, R240) -/

/-- STRING_ZERO_LATCH (R240): the owed all-zero frame is latched at its time, the first legal one; every window goes. -/
def State.zeroLatch (s : State) (v : Nat) (diag : BitVec 256) : State :=
  match (s.vstring v).zero with
  | some l =>
    if s.tb < l.tb || !(s.vstring v).committed.isEmpty then s
    else
      (((s.echo v diag).takeImage v 0 l.dev).mapString v fun x =>
        { x with zero := none, silent := true, capped := [], change := false }).abandonWindows
  | none => s

/-- DIAG low for 2 us outside frames (R238). -/
def State.driverFault (s : State) (v : Nat) : State :=
  if s.flag Dict.stringEnable v then (s.bump Dict.driverFaultCount v).dealerWord 0x06520804 v else s

/-- The strings may send frames again when the Trump domain runs (R240). -/
def State.wakeStrings (s : State) : State :=
  { s with dealer := { s.dealer with strings := s.dealer.strings.map fun p =>
    (p.1, { p.2 with silent := false, zero := none }) } }

end Sys2Proof.Machine
end

