-- ==== Sys2Proof/Machine/DecOps.lean ====
section
/-! DEFINITION. DEC and TRK: detections, joins, verdicts, track contexts (R200 to R217). -/

namespace Sys2Proof.Machine

/-- DEC's station ID. -/
def decId : Nat := 0x50
/-- TRK's station ID. -/
def trkId : Nat := 0x51

/-- A report word of a station (R219): to its error queue and to the hosts, with an event record where `rec'`. -/
def State.stationWord (s : State) (sid : Nat) (w : Word) (rec' : Bool := true) : State :=
  let s := (s.toErr sid w).event 0 w
  if rec' then s.record w else s

/-- The level of a bucket of depth and rate `n` a second, in billionths of a token; a new bucket is full. -/
def Bucket.levelAt (b : Option Bucket) (n now : Nat) : Nat :=
  match b with
  | some b => min (b.level + (now - b.at_) * n) (n * nsPerS)
  | none => n * nsPerS

/-! ### Detections (R200 to R202) -/

/-- A detection row, its 64 bytes as one number (R200). -/
structure DetRow where
  gen : Nat
  valid : Bool
  det : Detect
deriving DecidableEq, Repr

/-- The fields of a row (R200), with the flags and the deadline of its tile. -/
def detRow (port n : Nat) (poisoned late incomplete : Bool) (deadline : Nat) : DetRow :=
  let w := BitVec.ofNat 512 n
  { gen := fld w 511 508, valid := bit w 507
    det := { port := port, edgeL := bit w 506, edgeR := bit w 505, colFirst := fld w 495 480, colLast := fld w 479 464
             posFirst := signed 48 (fld w 463 416), posLast := signed 48 (fld w 415 368), area := fld w 367 336
             scores := (List.range 16).map fun k => fld w (16 * k + 15) (16 * k)
             poisoned := poisoned, late := late, incomplete := incomplete, deadline := deadline } }

/-- Is a row with VALID = 1 malformed (R202)? -/
def State.detBad (s : State) (r : DetRow) : Bool :=
  let d := r.det
  let e := ahead48 d.posLast d.posFirst
  r.gen != 1 || decide (d.colLast < d.colFirst) || decide (s.nat Dict.lineWidth d.port ≤ d.colLast)
    || decide (e < 0) || decide (16777216 ≤ e)

/-! ### Joining (R203) -/

/-- Do two position ranges overlap? -/
def posOverlap (a1 a2 b1 b2 : Int) : Bool := decide (0 ≤ ahead48 b2 a1) && decide (0 ≤ ahead48 a2 b1)

/-- Do the parts `l` (left) and `r` (right) join? -/
def State.joinsLR (s : State) (l r : Detect) : Bool :=
  l.port == r.port && l.edgeR && r.edgeL
    && decide ((r.colFirst : Int) - l.colLast - 1 ≤ s.num Dict.mergeColGap)
    && posOverlap l.posFirst l.posLast r.posFirst r.posLast

/-- Do two parts join? -/
def State.joins (s : State) (a b : Detect) : Bool := s.joinsLR a b || s.joinsLR b a

/-- The earlier and the later of two counts. -/
def minPos (a b : Int) : Int := if 0 ≤ ahead48 b a then a else b
/-- The later of two counts. -/
def maxPos (a b : Int) : Int := if 0 ≤ ahead48 b a then b else a

/-- A quotient rounded to nearest even. -/
def divEven (a b : Nat) : Nat :=
  let q := a / b
  let r := 2 * (a % b)
  if b < r then q + 1 else if r = b then q + q % 2 else q

/-- SCORE_k of a group (R203). -/
def groupScore (l : List Detect) (k : Nat) : Nat :=
  let area := sumNat (l.map (·.area))
  if area = 0 then divEven (sumNat (l.map fun d => d.scores.getD k 0)) l.length
  else divEven (sumNat (l.map fun d => d.scores.getD k 0 * d.area)) area

/-- The object that a group of parts makes (R203). -/
def groupObject (l : List Detect) : Option Detect :=
  match l with
  | [] => none
  | d :: r =>
    some { r.foldl (fun a b => { a with
      colFirst := min a.colFirst b.colFirst, colLast := max a.colLast b.colLast
      posFirst := minPos a.posFirst b.posFirst, posLast := maxPos a.posLast b.posLast
      area := a.area + b.area, poisoned := a.poisoned || b.poisoned, late := a.late || b.late
      incomplete := a.incomplete || b.incomplete, deadline := max a.deadline b.deadline }) d with
      scores := if r.isEmpty then d.scores else (List.range 16).map (groupScore l) }

/-! ### Verdicts (R205 to R210) -/

/-- The classes below DEC_CLASSES that satisfy `p`. -/
def State.classes (s : State) (p : Nat → Bool) : List Nat := (List.range (s.nat Dict.decClasses)).filter p

/-- Does a class count toward rejection? -/
def State.rejects (s : State) (k : Nat) : Bool := inMap (s.nat Dict.classPolicy) k

/-- The class with the largest score, the lowest on a tie. -/
def bestClass (d : Detect) (l : List Nat) : Option Nat :=
  l.foldl (fun b k => match b with
    | none => some k
    | some j => if d.scores.getD j 0 < d.scores.getD k 0 then some k else b) none

/-- The sum of scores of classes. -/
def scoreSum (d : Detect) (l : List Nat) : Nat := sumNat (l.map fun k => d.scores.getD k 0)

/-- The verdict that an object's scores give under two thresholds (R205, 3 to 6): 0 ACCEPT, 1 REJECT, 2 UNSURE. -/
def State.scoreVerdict (s : State) (acceptThr rejectThr : Nat) (d : Detect) : Nat :=
  let all := scoreSum d (s.classes fun _ => true)
  let acc := scoreSum d (s.classes fun k => !s.rejects k)
  if all = 0 then 2
  else if acceptThr * all ≤ acc * 65536 then 0
  else if acc * 65536 ≤ rejectThr * all then 1
  else 2

/-- The verdict of an object (R205): flags first, then scores; also 3 LATE, 4 INCOMPLETE. -/
def State.verdictOf (s : State) (d : Detect) (reserve : Nat) : Nat :=
  if d.poisoned || d.incomplete then 4
  else if d.late || (d.deadline != 0 && decide (d.deadline < s.devNs + reserve)) then 3
  else s.scoreVerdict (s.nat Dict.acceptThreshold) (s.nat Dict.rejectThreshold) d

/-- CLASS (R206). -/
def State.classOf (s : State) (d : Detect) (v : Nat) : Nat :=
  let any := (bestClass d (s.classes fun _ => true)).getD 0
  match v with
  | 0 => (bestClass d (s.classes fun k => !s.rejects k)).getD any
  | 1 => (bestClass d (s.classes s.rejects)).getD any
  | _ => any

/-- CONFIDENCE (R206). -/
def State.confidence (s : State) (d : Detect) : Nat :=
  let all := scoreSum d (s.classes fun _ => true)
  let acc := scoreSum d (s.classes fun k => !s.rejects k)
  if all = 0 then 0 else min 65535 (65536 * max acc (all - acc) / all)

/-- The action of a verdict (R207): 1 FIRE. -/
def State.actionOf (s : State) (v : Nat) : Nat :=
  match v with
  | 0 => 0
  | 1 => 1
  | 4 => s.nat Dict.incompleteAction
  | _ => s.nat Dict.defaultAction

/-- X_FIRST and X_LAST (R209). -/
def State.xRange (s : State) (d : Detect) : Int × Int :=
  let x := fun (c : Nat) => s.num Dict.camX0 d.port + (c : Int) * s.num Dict.pixelPitch d.port / 1000000
  (max 0 (x d.colFirst - s.num Dict.lateralMargin), max 0 (x (d.colLast + 1) + s.num Dict.lateralMargin))

/-- The valve run (R209): first, last and whether it is empty. A VALVE_PITCH of 0 gives it no value (log 28): it is
free. -/
def State.valveRun (s : State) (x1 x2 : Int) : (Nat × Nat × Bool) × State :=
  let p := s.num Dict.valvePitch
  let n := s.num Dict.valveCount
  if p = 0 then
    let (a, s) := s.draw 12
    let (b, s) := s.draw 12
    let (e, s) := s.draw 1
    ((a.toNat, b.toNat, e == 1), s)
  else
    let a := (x1 - s.num Dict.valveX0) * 1000 / p
    let b := -(-((x2 - s.num Dict.valveX0) * 1000) / p) - 1
    let cl := fun (i : Int) => (clampI 0 (n - 1) i).toNat
    ((cl a, cl b, decide (b < 0) || decide (n ≤ a) || decide (b < a)), s)

/-- A context or verdict row (R213). -/
def mkContext (state verdict action : Nat) (merged sampled : Bool) (cams id : Nat) (centroid : Int) (extent cls enc conf
    v1 v2 : Nat) (x1 x2 start stop : Int) (ns sec low : Nat) : BitVec 512 :=
  BitVec.ofNat 512
    ((1 <<< 508) + (state <<< 505) + (verdict <<< 502) + ((action % 2) <<< 501) + (merged.toNat <<< 500)
      + (sampled.toNat <<< 499) + ((cams % 65536) <<< 480) + ((id % 4294967296) <<< 448) + (wrap 48 centroid <<< 400)
      + ((extent % 16777216) <<< 376) + ((cls % 16) <<< 372) + ((enc % 8) <<< 369) + ((conf % 65536) <<< 352)
      + ((v1 % 4096) <<< 340) + ((v2 % 4096) <<< 328) + (wrap 24 x1 <<< 304) + (wrap 24 x2 <<< 280)
      + (wrap 48 start <<< 232) + (wrap 48 stop <<< 184) + ((ns % 4294967296) <<< 152) + ((sec % 65536) <<< 136) + low)

/-- The verdict row of an object, and the verdict as later uses need it (R205 to R210, R213). -/
def State.verdictRow (s : State) (d : Detect) (reserve : Nat) : Verdict × State :=
  let v := s.verdictOf d reserve
  let (x1, x2) := s.xRange d
  let ((a, b, empty), s) := s.valveRun x1 x2
  let e := (ahead48 d.posLast d.posFirst).toNat
  let flight := s.num Dict.flightCnt d.port
  let row := mkContext 0 v (if empty then 0 else s.actionOf v) false false (2 ^ d.port) 0
    (count48 (d.posFirst + (e / 2 : Nat))) e (s.classOf d v) (s.nat Dict.encoderChannel d.port) (s.confidence d) a b x1 x2
    (count48 (d.posFirst + flight - s.num Dict.leadMargin)) (count48 (d.posLast + flight + s.num Dict.trailMargin))
    s.ns' s.sec' 0
  ({ port := d.port, colFirst := d.colFirst, colLast := d.colLast, posFirst := d.posFirst, posLast := d.posLast
     ctx := row }, s.bumpAt Dict.verdictCount v 0 1)

/-! ### Crop requests of the output ports (R460, R465) -/

/-- The position of line `i` since the domain started. -/
def CropRing.at' (r : CropRing) (k i : Nat) : Int := r.stamps.val 0 (i % k)

/-- The crop's last line and its first line before it, searching backward from the newest (R212); none where the ring no
longer holds one. -/
def CropRing.lines' (r : CropRing) (k : Nat) (v : Verdict) : Option (Nat × Nat) :=
  let held := (List.range (min r.lines k)).map fun j => r.lines - 1 - j
  match held.find? fun i => r.at' k i == v.posLast with
  | none => none
  | some b =>
    match (held.filter fun i => decide (i < b)).find? fun i => decide (ahead48 (r.at' k i) v.posFirst ≤ 0) with
    | none => none
    | some a => some (a, b)

/-- A verdict queues a crop request at port `n` (R460); a crop whose lines the ring no longer holds is dropped (log 60). -/
def State.cropRequest (s : State) (v : Verdict) (n : Nat) : State :=
  if s.flag Dict.coutEnable n && (s.power.pd.val {} (52 + n)).st == .on && inMap (s.nat Dict.cropCams n) v.port
      && inMap (s.nat Dict.cropVerdicts n) (fld v.ctx 504 502) && s.trump.st == .running then
    let lvl := Bucket.levelAt (s.cout n).cropBucket (s.nat Dict.cropMaxRate n) s.tb
    match (s.dec.rings.val {} v.port).lines' (s.nat Dict.cropRingLines v.port) v with
    | none => s.coutDrop n 0
    | some (a, b) =>
      if lvl < nsPerS ∨ 64 ≤ (s.cout n).crops.length then s.coutDrop n 0
      else s.mapCout n fun x => { x with
        crops := x.crops ++ [{ verdict := v, at_ := s.tb, first := a, lines := b + 1 - a }]
        cropBucket := some { level := lvl - nsPerS, at_ := s.tb } }
  else s

/-- Is any line of the crop ring still at or before the verdict's last position? -/
def CropRing.holds (r : CropRing) (v : Verdict) : Bool := r.stamps.any fun p => decide (0 ≤ ahead48 v.posLast p.2)

/-- What adaptation counts of an issued verdict: the last actions for the baseline, and those of the watch (R340). -/
def State.adaptCount (s : State) (fire : Bool) : State :=
  let a := s.adapt
  let on := a.st == .watch
  { s with adapt := { a with
    history := (fire :: a.history).take (s.nat Dict.baselineVerdicts)
    seen := if on then a.seen + 1 else a.seen
    fired := if on && fire then a.fired + 1 else a.fired } }

/-- DEC issues a verdict: samples and crop requests to be tried, and the overlay's list (R212, R460, R461). -/
def State.issue (s : State) (v : Verdict) : State :=
  let sample := fld v.ctx 504 502 == 2
  let s := s.adaptCount (bit v.ctx 501)
  let s := { s with dec := { s.dec with
    samples := if sample then s.dec.samples ++ [v] else s.dec.samples
    issued := s.dec.issued.filter (fun u => (s.dec.rings.val {} u.port).holds u) ++ [v] } }
  (List.range 4).foldl (fun s n => s.cropRequest v n) s

/-! ### DECIDE (R201 to R205) -/

/-- What a DECIDE gathers: the rows of verdict issued so far. -/
abbrev Rows := List (BitVec 512)

/-- Decide an object. -/
def State.decideOne (s : State) (reserve : Nat) (d : Detect) : State × Rows :=
  let (v, s) := s.verdictRow d reserve
  (s.issue v, [v.ctx])

/-- Fold a step that yields rows over a list. -/
def foldRows {α : Type} (f : State → α → State × Rows) (s : State) (l : List α) : State × Rows :=
  l.foldl (fun acc x => let r := f acc.1 x; (r.1, acc.2 ++ r.2)) (s, [])

/-- Release a group of partials as an object. -/
def State.releaseGroup (s : State) (reserve g : Nat) : State × Rows :=
  let parts := s.dec.partials.filter fun p => p.group == g
  let s := { s with dec := { s.dec with partials := s.dec.partials.filter fun p => p.group != g } }
  match groupObject parts with
  | some d => s.decideOne reserve d
  | none => (s, [])

/-- Take a part into the table (R203): its group is joined with those of the parts it meets. -/
def State.takePart (s : State) (reserve : Nat) (d : Detect) : State × Rows :=
  let (s, rows) := match s.dec.partials with
    | p :: _ => if 1024 ≤ s.dec.partials.length then s.releaseGroup reserve p.group else (s, [])
    | [] => (s, [])
  let g := s.dec.nextGroup
  let met := ((s.dec.partials.filter fun p => s.joins p d).map (·.group)).eraseDups
  let s := s.bump Dict.stripeJoins 0 met.length
  ({ s with dec := { s.dec with
    nextGroup := g + 1
    partials := (s.dec.partials.map fun p => if met.contains p.group then { p with group := g } else p)
      ++ [{ d with group := g }] } }, rows)

/-- Take a row: skip it, refuse it, hold it or decide it (R202, R203). -/
def State.takeRow (s : State) (reserve : Nat) (r : DetRow) : State × Rows :=
  if !r.valid then (s, [])
  else if s.detBad r then ((s.bump Dict.detMalformedCount).stationWord decId 0x06500701, [])
  else if r.det.edgeL || r.det.edgeR then s.takePart reserve r.det
  else s.decideOne reserve r.det

/-- The groups open on a port, oldest first. -/
def State.openGroups (s : State) (port : Nat) : List Nat :=
  ((s.dec.partials.filter fun p => p.port == port).map (·.group)).eraseDups

/-- Is a group due at the position of the consumed tile (R204)? -/
def State.groupDue (s : State) (pos : Int) (g : Nat) : Bool :=
  match groupObject (s.dec.partials.filter fun p => p.group == g) with
  | some d => decide (0 ≤ ahead48 pos (count48 (d.posLast + s.num Dict.mergeHoldCnt)))
  | none => false

/-- The verdict rows as tiles of at most 128 rows, 64 columns wide. -/
def rowTiles64 (rows : Rows) : List OutTile :=
  (chunks 128 (rows.length / 128 + 1) rows).filterMap fun c =>
    if c.isEmpty then none
    else some { bytes := c.flatMap wordBytes, format := 0x0F, rows := c.length, cols := 64 }

/-- The step's outputs are computed; without any it completes. -/
def State.stepOutputs (s : State) (sid : Nat) (r : Running) (outs : List OutTile) : State :=
  if outs.isEmpty then s.finishStep sid r
  else s.mapStation sid fun x => { x with running := some { r with outs := outs, computed := true } }

/-- The codes of a row as one number, where the row is `n` columns wide; else zero (log 27). -/
def rowNum (n : Nat) (row : List Nat) : Nat := if row.length = n then row.foldr (fun c a => c + 256 * a) 0 else 0

/-- A detection tile: its rows first, then the releases (R203, R204). -/
def State.decideTile (s : State) (reserve port : Nat) (d : Desc) : State × Rows :=
  let (x, bad, s) := s.readTile decId 0x0F false false (.tile d) (descRows d) 64
  let flags := x.rows.map fun row =>
    detRow port (rowNum 64 row) (bit d 500 || x.bad || bad) (bit d 497) (bit d 496) (descDeadline d)
  let (s, r1) := foldRows (fun s r => s.takeRow reserve r) s flags
  let due := (s.openGroups port).filter fun g => (bit d 496 && bit d 494) || s.groupDue (descOrigin d) g
  let (s, r2) := foldRows (fun s g => s.releaseGroup reserve g) s due
  (s, r1 ++ r2)

/-- A missing tile releases every partial of the port with INCOMPLETE set (R204). -/
def State.decideGap (s : State) (reserve port : Nat) : State × Rows :=
  let s := { s with dec := { s.dec with
    partials := s.dec.partials.map fun p => if p.port = port then { p with incomplete := true } else p } }
  foldRows (fun s g => s.releaseGroup reserve g) s (s.openGroups port)

/-- A verdict's deadline is its issue time plus L_VL (R49). -/
def State.verdictStamp (s : State) (r : Running) : Running := { r with deadline := s.devNs + s.trump.cert.lVl }

/-- DECIDE: DEC works its step's tile (R201 to R210). -/
def State.decideStep (s : State) : State :=
  match (s.station decId).running with
  | none => s
  | some r =>
    if r.computed then s
    else
      let port := fld (wordArgs r.word) 75 72
      let reserve := fld r.word 95 76 * 100
      match r.ins with
      | (_, .tile d) :: _ =>
        let (s, rows) := s.decideTile reserve port d
        s.stepOutputs decId (s.verdictStamp r) (rowTiles64 rows)
      | (_, .gap _) :: _ =>
        let (s, rows) := s.decideGap reserve port
        s.stepOutputs decId (s.verdictStamp r) (rowTiles64 rows)
      | [] => s.finishStep decId r

/-! ### Track contexts (R213 to R217) -/

/-- STATE of a context (R213): 0 FREE, 1 PASS, 2 SCHEDULED, 3 EJECTING. -/
def ctxState (c : BitVec 512) : Nat := fld c 507 505

/-- A context. -/
def State.ctx (s : State) (i : Nat) : BitVec 512 := s.trk.ctx.val 0 i

/-- POS_FIRST recovered from CENTROID and EXTENT. -/
def ctxFirst (c : BitVec 512) : Int := count48 (signed 48 (fld c 447 400) - (fld c 399 376 / 2 : Nat))
/-- POS_LAST recovered from CENTROID and EXTENT. -/
def ctxLast (c : BitVec 512) : Int := count48 (ctxFirst c + (fld c 399 376 : Nat))

/-- Does a context match a verdict (R215)? -/
def State.ctxMatches (s : State) (v c : BitVec 512) : Bool :=
  let xg := s.nat Dict.mergeXGap
  let pg := s.num Dict.mergePosGap
  ctxState c != 0 && fld c 371 369 == fld v 371 369 && (fld c 495 480 &&& fld v 495 480) == 0
    && decide (fld c 327 304 ≤ fld v 303 280 + xg) && decide (fld v 327 304 ≤ fld c 303 280 + xg)
    && decide (ahead48 (ctxFirst c) (ctxLast v) ≤ pg) && decide (ahead48 (ctxFirst v) (ctxLast c) ≤ pg)

/-- A window command's row, 32 bytes (R221): 0 NEW, 1 AMEND, 2 CANCEL of a context's window. -/
def winRow (cmd : Nat) (c : BitVec 512) : List Byte :=
  leBytes 32 ((1 <<< 252) + (cmd <<< 250) + (fld c 371 369 <<< 247) + (fld c 479 448 <<< 208) + (fld c 279 232 <<< 160)
    + (fld c 231 184 <<< 112) + (fld c 351 340 <<< 100) + (fld c 339 328 <<< 88))

/-- Window commands gathered by a step. -/
abbrev Cmds := List (List Byte)

/-- Set a context's state. -/
def withState (c : BitVec 512) (n : Nat) : BitVec 512 := setFld c 507 505 n

/-- Free a context: it reads zero (R213, R214). -/
def State.freeCtx (s : State) (i : Nat) : State :=
  { s with trk := { s.trk with ctx := s.trk.ctx.del i, order := s.trk.order.del i, born := s.trk.born.del i } }

/-- Write a context. -/
def State.putCtx (s : State) (i : Nat) (c : BitVec 512) : State :=
  { s with trk := { s.trk with ctx := s.trk.ctx.put 0 i c } }

/-- The first free context from `i` on, looking at `n`. -/
def State.freeIdx (s : State) (i : Nat) : Nat → Option Nat
  | 0 => none
  | n + 1 => if (s.trk.ctx.look i).isNone then some i else s.freeIdx (i + 1) n

/-- The PASS context with the lowest WIN_END (R217). -/
def State.reclaimIdx (s : State) : Option Nat :=
  (s.trk.ctx.filter fun p => ctxState p.2 == 1).foldl (fun b p => match b with
    | none => some p.1
    | some j =>
      if ahead48 (signed 48 (fld p.2 231 184)) (signed 48 (fld (s.ctx j) 231 184)) < 0 then some p.1 else b) none

/-- TRACKS_PEAK. -/
def State.peakTracks (s : State) : State :=
  if s.nat Dict.tracksPeak < s.trk.ctx.length then s.setNum Dict.tracksPeak s.trk.ctx.length else s

/-- An object takes a context (R213, R214). -/
def State.takeCtx (s : State) (i : Nat) (v : BitVec 512) : State × Cmds :=
  let reuse := s.trk.reuse.val 0 i
  let c := setFld v 479 448 (reuse % 65536 * 65536 + i)
  let c := withState c (if bit c 501 then 2 else 1)
  let s := { s with trk := { s.trk with
    ctx := s.trk.ctx.put 0 i c
    reuse := s.trk.reuse.put 0 i (reuse + 1)
    order := s.trk.order.ins i s.trk.next
    born := s.trk.born.ins i s.devNs
    next := s.trk.next + 1 } }
  (s.peakTracks, if bit c 501 then [winRow 0 c] else [])

/-- An object that no context matches (R215, R217). -/
def State.newTrack (s : State) (v : BitVec 512) : State × Cmds :=
  match s.freeIdx 0 65536 with
  | some i => s.takeCtx i v
  | none =>
    match s.reclaimIdx with
    | some i => ((s.bump Dict.trackReclaimed).freeCtx i).takeCtx i v
    | none =>
      let s := (s.bump Dict.trackDropped).record 0x06510702
      let k := 0x06510702 * 65536
      let due := match s.recorder.lastRep.look k with
        | some t0 => decide (t0 + nsPerS ≤ s.tb)
        | none => true
      if due then
        let s := s.stationWord trkId 0x06510702 false
        ({ s with recorder := { s.recorder with lastRep := s.recorder.lastRep.ins k s.tb } }, [])
      else (s, [])

/-- Rank of a verdict in a merge (R215), with its action breaking LATE against INCOMPLETE. -/
def viewRank (c : BitVec 512) : Nat :=
  match fld c 504 502 with
  | 1 => 10
  | 2 => 9
  | 0 => 8
  | 4 => 2 + 2 * (bit c 501).toNat + 1
  | _ => 2 + 2 * (bit c 501).toNat

/-- The winning view: where two views of equal rank meet, which of them is free (log 29). -/
def State.winner (s : State) (a b : BitVec 512) : BitVec 512 × State :=
  if viewRank a < viewRank b then (b, s)
  else if viewRank b < viewRank a then (a, s)
  else
    let (x, s) := s.draw 1
    (if x = 1 then b else a, s)

/-- The winning view of several. -/
def State.winners (s : State) (a : BitVec 512) : List (BitVec 512) → BitVec 512 × State
  | [] => (a, s)
  | b :: r =>
    let (c, s) := s.winner a b
    s.winners c r

/-- Does a context's range lie wholly outside the valves, so that its run is empty (R209)? With VALVE_PITCH 0 none does
(log 28). -/
def State.offValves (s : State) (c : BitVec 512) : Bool :=
  let p := s.num Dict.valvePitch
  let a := ((fld c 327 304 : Int) - s.num Dict.valveX0) * 1000 / p
  let b := -(-(((fld c 303 280 : Int) - s.num Dict.valveX0) * 1000) / p) - 1
  p != 0 && (decide (b < 0) || decide (s.num Dict.valveCount ≤ a) || decide (b < a))

/-- The union of two valve runs, VALVE_FIRST and VALVE_LAST: an empty one adds no valve. -/
def State.unionRun (s : State) (a b : BitVec 512) : Nat × Nat :=
  if s.offValves b then (fld a 351 340, fld a 339 328)
  else if s.offValves a then (fld b 351 340, fld b 339 328)
  else (min (fld a 351 340) (fld b 351 340), max (fld a 339 328) (fld b 339 328))

/-- The unions of a merge (R215): X ranges, positions, valve runs, windows, cameras. -/
def State.mergeRanges (s : State) (a b : BitVec 512) : BitVec 512 :=
  let p1 := minPos (ctxFirst a) (ctxFirst b)
  let p2 := maxPos (ctxLast a) (ctxLast b)
  let e := (ahead48 p2 p1).toNat
  let c := setFld a 495 480 (fld a 495 480 ||| fld b 495 480)
  let c := setFld c 500 500 1
  let c := setFld c 327 304 (min (fld a 327 304) (fld b 327 304))
  let c := setFld c 303 280 (max (fld a 303 280) (fld b 303 280))
  let c := setFld c 399 376 e
  let c := setFld c 447 400 (wrap 48 (p1 + (e / 2 : Nat)))
  let c := setFld c 351 340 (s.unionRun a b).1
  let c := setFld c 339 328 (s.unionRun a b).2
  let c := setFld c 279 232 (wrap 48 (minPos (signed 48 (fld a 279 232)) (signed 48 (fld b 279 232))))
  setFld c 231 184 (wrap 48 (maxPos (signed 48 (fld a 231 184)) (signed 48 (fld b 231 184))))

/-- The window's fields: WIN_START to WIN_END and the valve run. -/
def winFields (c : BitVec 512) : Nat × Nat := (fld c 279 184, fld c 351 328)

/-- The survivor's next state and its command (R214, R215). -/
def State.survive (s : State) (i : Nat) (old new : BitVec 512) (fire : Bool) : State × Cmds :=
  let sent := ctxState old == 2 || ctxState old == 3
  let st := if ctxState old = 3 then 3 else if fire then 2 else 1
  let c := withState (setFld new 501 501 fire.toNat) st
  (s.putCtx i c,
    if fire && !sent then [winRow 0 c]
    else if fire then (if winFields c != winFields old then [winRow 1 c] else [])
    else if sent then [winRow 2 c] else [])

/-- Absorb a context: its window, where it has one, is cancelled (log 30), and it is freed. -/
def State.absorb (s : State) (i : Nat) : State × Cmds :=
  let c := s.ctx i
  ((s.freeCtx i).bump Dict.mergeCount, if ctxState c = 2 ∨ ctxState c = 3 then [winRow 2 c] else [])

/-- A verdict merges with the contexts it matches, oldest first (R215); an object that lies wholly outside the valves is not
ejected (R209). -/
def State.merge (s : State) (v : BitVec 512) (i : Nat) (rest : List Nat) : State × Cmds :=
  let old := s.ctx i
  let others := rest.map s.ctx
  let all := (others ++ [v]).foldl s.mergeRanges old
  let (w, s) := s.winners old (others ++ [v])
  let new := setFld (setFld (setFld all 504 502 (fld w 504 502)) 375 372 (fld w 375 372)) 367 352 (fld w 367 352)
  let ejecting := (old :: others).any fun c => ctxState c == 3
  let (s, c1) := s.survive i old new (ejecting || (s.actionOf (fld w 504 502) == 1 && !s.offValves all))
  let (s, c2) := rest.foldl (fun acc j => let r := acc.1.absorb j; (r.1, acc.2 ++ r.2)) (s, [])
  (s, c1 ++ c2)

/-- The contexts that match a verdict, oldest first. -/
def State.matching (s : State) (v : BitVec 512) : List Nat :=
  ((s.trk.ctx.filter fun p => s.ctxMatches v p.2).map (·.1)).mergeSort
    fun a b => decide (s.trk.order.val 0 a ≤ s.trk.order.val 0 b)

/-- TRK takes one verdict row (R215); a row that is none is skipped. -/
def State.trackRow (s : State) (v : BitVec 512) : State × Cmds :=
  if fld v 511 508 ≠ 1 then (s, [])
  else match s.matching v with
    | [] => s.newTrack v
    | i :: rest => s.merge v i rest

/-- Window command rows as tiles of at most 128 rows, 32 columns wide (R221). -/
def cmdTiles (cmds : Cmds) : List OutTile :=
  (chunks 128 (cmds.length / 128 + 1) cmds).filterMap fun c =>
    if c.isEmpty then none else some { bytes := c.flatten, format := 0x0F, rows := c.length, cols := 32 }

/-- TRACK: TRK works its step's verdict tile (R214). -/
def State.track (s : State) : State :=
  match (s.station trkId).running with
  | none => s
  | some r =>
    if r.computed then s
    else match r.ins with
      | (_, .tile d) :: _ =>
        let (x, _, s) := s.readTile trkId 0x0F false false (.tile d) (descRows d) 64
        let (s, cmds) := (x.rows.map fun row => BitVec.ofNat 512 (rowNum 64 row)).foldl
          (fun acc v => let q := acc.1.trackRow v; (q.1, acc.2 ++ q.2)) (s, [])
        s.stepOutputs trkId r (cmdTiles cmds)
      | _ => s.finishStep trkId r

/-- An OPENED report moves its context to EJECTING (R214, R241). -/
def State.opened (s : State) (rep : Nat) : State :=
  let w := BitVec.ofNat 128 rep
  let id := fld w 111 80
  let c := s.ctx (id % 65536)
  if fld w 127 124 = 1 ∧ fld w 123 121 = 0 ∧ fld c 479 448 = id ∧ ctxState c = 2 then s.putCtx (id % 65536) (withState c 3)
  else s

/-- TRACK_EJECTING: TRK takes the report tile at the head of input port `port` (R241). -/
def State.trackEjecting (s : State) (port : Nat) : State :=
  match s.consume trkId port with
  | (some (.tile d), s) =>
    let (x, _, s) := s.readTile trkId 0x0F false false (.tile d) (descRows d) 16
    (x.rows.map (rowNum 16)).foldl State.opened s
  | (_, s) => s

/-- TRACK_RETIRE: the position has reached WIN_END (R214). -/
def State.trackRetire (s : State) (i : Nat) : State :=
  let c := s.ctx i
  if ctxState c ≠ 0 ∧ s.reached (fld c 371 369) (signed 48 (fld c 231 184)) then s.freeCtx i else s

/-- The output port of TRK's steps. -/
def State.trackPort (s : State) : Nat :=
  match (s.station trkId).active.find? fun w => wordOp w == 0x10 with
  | some w => wordOut w
  | none => 0

/-- TRACK_EXPIRED: a context older than TRACK_MAX_AGE is freed and its window cancelled (R214), the command's tile
written at `addr`. -/
def State.trackExpired (s : State) (i addr : Nat) : State :=
  let c := s.ctx i
  if ctxState c ≠ 0 ∧ s.trk.born.val 0 i + s.nat Dict.trackMaxAge * 1000000 < s.devNs then
    let o : OutTile := { bytes := winRow 2 c, format := 0x0F, rows := 1, cols := 32 }
    let s := if ctxState c = 2 ∨ ctxState c = 3 then
        (s.memWrite trkId addr o.bytes).emitOn trkId s.trackPort { word := 0 } o addr 0 false false
      else s
    ((s.freeCtx i).bump Dict.trackExpiredCount).stationWord trkId 0x06510703
  else s

/-! ### Thresholds (R208) -/

/-- Is a pair of thresholds in order against the envelope (R208)? -/
def State.thresholdsOk (s : State) (acc rej : Nat) : Bool :=
  decide (s.nat Dict.rejThrMin ≤ rej ∧ rej ≤ s.nat Dict.rejThrMax)
    && decide (s.nat Dict.accThrMin ≤ acc ∧ acc ≤ s.nat Dict.accThrMax) && decide (rej < acc)

/-- Take thresholds: a change is recorded (R208, R504) and restarts the watch count of R340 (`restart`). -/
def State.setThresholds (s : State) (acc rej pos role : Nat) (restart : State → State) : State :=
  if acc = s.nat Dict.acceptThreshold ∧ rej = s.nat Dict.rejectThreshold then s
  else
    let s := (s.setNum Dict.acceptThreshold acc).setNum Dict.rejectThreshold rej
    restart (s.record 0x07500780 255 (leBytes 1 pos ++ leBytes 2 acc ++ leBytes 2 rej ++ leBytes 1 role))

/-- `v` clamped to lo .. hi. -/
def clampN (lo hi v : Nat) : Nat := max lo (min hi v)

/-- The thresholds that an envelope leaves (R208): each clamped to the nearer bound. -/
def clampedThresholds (acc rej a1 a2 r1 r2 : Nat) : Nat × Nat := (clampN a1 a2 acc, clampN r1 r2 rej)

end Sys2Proof.Machine
end

