-- ==== Sys2Proof/Machine/CamOps.lean ====
section
/-! DEFINITION. Camera ports and develop lanes: frames, line checks, overflow, the develop pipeline, tiles, statistics
and the gain loops, crops (R159 to R179, R197, R198, R211, R212). -/

namespace Sys2Proof.Machine

/-! ### Ports -/

/-- Count an event of a port. -/
def State.camBump (s : State) (n : Nat) (e : Ent) : State := s.bump e n

/-- A status word of a develop lane, to its own error queue (R180). -/
def State.camReport (s : State) (n code : Nat) : State :=
  s.stationWord (devId n) (BitVec.ofNat 32 (0x06000000 + devId n * 65536 + code))

/-- The belt position of a line: P at its arrival less LINE_LATENCY, floored (R165). -/
def State.stampPos (s : State) (n : Nat) : Int :=
  floor16 (s.posAt (s.nat Dict.encoderChannel n) ((s.devNs : Int) - s.num Dict.lineLatency n))

/-! ### Frames (R164, R168, R169) -/

/-- Hand something to the develop lane: only while it takes lines. -/
def State.toLane (s : State) (n : Nat) (l : RawLine) : State :=
  s.mapCam n fun c => if c.live then { c with raw := c.raw ++ [l] } else c

/-- The frame spends time in overflow: counted and reported once (R169). -/
def State.noteOverflow (s : State) (n : Nat) : State :=
  if (s.cam n).told then s
  else ((s.mapCam n fun c => { c with told := true }).camBump n Dict.overflowFrames).camReport n 0x0601

/-- Open a frame (R164): a lane of a running domain takes lines from its first frame start on (R348). -/
def State.openFrame (s : State) (n : Nat) : State :=
  let run := s.trump.st == .running
  let s := s.mapCam n fun c => { c with
    frameOpen := true, next := 0, row := 0, good := [], told := false, lastLine := s.tb, live := c.live || run }
  if (s.cam n).overflow then s.noteOverflow n else s

/-- Close the open frame; the port leaves overflow where its FIFO holds 24 KiB or less (R169). -/
def State.closeFrame (s : State) (n : Nat) (fifoLow : Bool) (kind : RawKind) : State :=
  let pos := floor16 (s.posAt (s.nat Dict.encoderChannel n) s.devNs)
  let s := s.mapCam n fun c => { c with frameOpen := false, overflow := c.overflow && !fifoLow }
  s.toLane n { kind := kind, pos := pos, dev := s.devNs, at_ := s.tb }

/-- FRAME_START on a virtual channel (R164, R167). -/
def State.frameStart (s : State) (n vc : Nat) (number : BitVec 16) (fifoLow : Bool) : State :=
  if s.framingVc n ≠ some vc then s
  else
    let missed := (s.cam n).frameOpen
    let s := if missed then (s.camBump n Dict.feMissing).closeFrame n fifoLow .frameEnd else s
    let skip := match (s.cam n).lastNumber with
      | some l => number != 0 && !missed && number != (if l = 0xFFFF then 1 else l + 1)
      | none => false
    let s := if skip then s.camBump n Dict.frameSkip else s
    let s := if number = 0 then s else s.mapCam n fun c => { c with lastNumber := some number }
    s.openFrame n

/-- FRAME_END on a virtual channel (R164, R167). -/
def State.frameEnd (s : State) (n vc : Nat) (fifoLow : Bool) : State :=
  if s.framingVc n = some vc ∧ (s.cam n).frameOpen then s.closeFrame n fifoLow .frameEnd else s

/-! ### Lines (R165, R167, R169) -/

/-- A line beyond FRAME_LINES closes the frame and opens a new one (R164). -/
def State.rollFrame (s : State) (n : Nat) (fifoLow : Bool) : State :=
  if (s.cam n).next = 0 ∧ s.nat Dict.frameLines n ≤ (s.cam n).row then
    (s.closeFrame n fifoLow .frameEnd).openFrame n
  else s

/-- Put the next expected line in: `codes` none where it is substituted; in overflow it is dropped (R167, R169). -/
def State.addLine (s : State) (n : Nat) (codes : Option (List Nat)) (raw : Nat) : State :=
  let c := s.cam n
  let ch := c.next
  let w := s.nat Dict.lineWidth n
  let data := match codes with
    | some l => l
    | none => c.good.val (List.replicate w 0) ch
  let line : RawLine := { channel := ch, row := c.row, vc := s.channelVc n ch, raw := raw, pos := s.stampPos n
                          dev := s.devNs, at_ := s.tb, codes := if c.overflow then List.replicate w 0 else data
                          substituted := codes.isNone && !c.overflow, dropped := c.overflow }
  let s := if c.overflow then s.camBump n Dict.linesDropped else s
  let last := decide (ch + 1 = s.scanLines n)
  let s := s.mapCam n fun c => { c with
    next := if last then 0 else ch + 1
    row := if last then c.row + 1 else c.row
    good := match codes with
      | some l => if c.overflow then c.good else c.good.ins ch l
      | none => c.good }
  s.toLane n line

/-- Substitute the lines of `k` skipped channels (R167). -/
def State.skipLines (s : State) (n : Nat) (fifoLow : Bool) : Nat → State
  | 0 => s
  | k + 1 =>
    let s := (s.camBump n Dict.lineMissing).rollFrame n fifoLow
    (s.addLine n none (s.channelRaw n (s.cam n).next)).skipLines n fifoLow k

/-- Note an image line of a channel: did it come faster than LINE_PERIOD_MIN (R167)? -/
def State.noteLine (s : State) (n ch : Nat) : Bool × State :=
  let fast := match (s.cam n).last.look ch with
    | some t => decide (s.tb < t + s.nat Dict.linePeriodMin n)
    | none => false
  (fast, s.mapCam n fun c => { c with last := c.last.ins ch s.tb, lastLine := s.tb })

/-- A payload byte arrives at a full FIFO: overflow (R169). -/
def State.enterOverflow (s : State) (n : Nat) (full : Bool) : State :=
  if full && !(s.cam n).overflow then (s.mapCam n fun c => { c with overflow := true }).noteOverflow n else s

/-- A readable image line packet of an accepted virtual channel (R165, R167). -/
def State.goodHeader (s : State) (n : Nat) (p : LinePacket) (fifoLow : Bool) : State :=
  let opened := !(s.cam n).frameOpen
  let s := if opened then s.openFrame n else s
  let k := s.scanLines n
  let ch := s.vcChannel n p.vc % k
  let (fast, s) := s.noteLine n ch
  let s := s.skipLines n fifoLow ((ch + k - (s.cam n).next % k) % k)
  let s := (s.rollFrame n fifoLow).enterOverflow n p.full
  let raw := rawBits p.dt
  if !p.crcOk then (s.camBump n Dict.crcError).addLine n none raw
  else if p.words ≠ s.rawLineBytes n raw then (s.camBump n Dict.lengthError).addLine n none raw
  else
    let s := if opened then s.camBump n Dict.fsMissing else if fast then s.camBump n Dict.lineFast else s
    s.addLine n (some (p.codes.map (·.toNat))) raw

/-- IMAGE_LINE at an enabled port (R159, R160, R165, R167, R169). -/
def State.imageLine (s : State) (n : Nat) (p : LinePacket) (fifoLow : Bool) : State :=
  if !s.flag Dict.portEnable n then s
  else
    let s := if p.corrected then s.camBump n Dict.eccCorrected else s
    if !p.readable then
      let ch := (s.cam n).next
      let raw := s.channelRaw n ch
      let s := s.camBump n Dict.headerError
      if (s.cam n).frameOpen && p.words == s.rawLineBytes n raw then
        let (_, s) := s.noteLine n ch
        ((s.rollFrame n fifoLow).enterOverflow n p.full).addLine n none raw
      else s
    else if 16 ≤ p.vc ∨ !s.vcImage n p.vc ∨ fld (s.vcMapOf n p.vc) 12 7 ≠ p.dt then s.camBump n Dict.packetIgnored
    else s.goodHeader n p fifoLow

/-! ### The develop pipeline (R170, R171) -/

/-- The entries of DEFECT_TABLE: column, line, channel (R181). -/
def defectEntries : List Byte → List (Nat × Nat × Nat)
  | a :: b :: c :: d :: e :: _ :: r =>
    (a.toNat + 256 * b.toNat, c.toNat + 256 * d.toNat, e.toNat) :: defectEntries r
  | _ => []

/-- Is a pixel listed (R170)? A line-scan entry's line is 0xFFFF. -/
def State.listed (s : State) (n : Nat) (tbl : List (Nat × Nat × Nat)) (ch row col : Nat) : Bool :=
  tbl.any fun e => e.1 == col && e.2.2 == ch && (e.2.1 == row || (e.2.1 == 0xFFFF && !s.area n))

/-- The channel a column of an interleaved head carries (R161). -/
def State.patternAt (s : State) (n col : Nat) : Nat :=
  let p : BitVec 16 := BitVec.ofInt 16 (s.num Dict.pattern n)
  let k := col % max 1 (fld p 15 12)
  fld p (2 * k + 1) (2 * k)

/-- The channel of column `col` of a raw line. -/
def State.colChannel (s : State) (n : Nat) (l : RawLine) (col : Nat) : Nat :=
  if s.interleaved n then s.patternAt n col else l.channel

/-- A raw code normalised, less the black level of its channel, in UQ16 code units (R170). -/
def State.black (s : State) (n : Nat) (raw ch code : Nat) : Nat :=
  (match raw with
    | 10 => code * 64 | 12 => code * 16 | 14 => code * 4 | _ => code) - (s.numAt Dict.blackLevel ch n).toNat

/-- The first of a list of places that is not listed. -/
def firstUnlisted (bad : Nat → Nat → Bool) : List (Nat × Nat) → Option (Nat × Nat)
  | [] => none
  | p :: r => if bad p.1 p.2 then firstUnlisted bad r else some p

/-- The eight nearest columns on a side of a pixel that carry its channel. -/
def State.sideCols (s : State) (n : Nat) (l : RawLine) (ch w col : Nat) (right : Bool) : List (Nat × Nat) :=
  let cols := if right then (List.range (w - col - 1)).map (· + col + 1) else (List.range col).reverse
  ((cols.filter fun c => s.colChannel n l c == ch).take 8).map fun c => (l.row, c)

/-- The eight nearest lines above or below within the frame: rows of the lines given. -/
def sideRows (row col : Nat) (below : Bool) : List (Nat × Nat) :=
  (List.range 8).filterMap fun i =>
    if below then some (row + i + 1, col) else if i < row then some (row - i - 1, col) else none

/-- A pixel after stage 3, in twelfths of a code unit (R170): listed ones take the mean of their nearest unlisted
neighbours. `lines` are the lines of the frame at hand, of the pixel's channel. -/
def State.stage3 (s : State) (n : Nat) (tbl : List (Nat × Nat × Nat)) (lines : List RawLine) (l : RawLine) (w col : Nat) :
    Nat :=
  let ch := s.colChannel n l col
  let value := fun (row c : Nat) => match (l :: lines).find? fun x => x.row == row with
    | some x => s.black n x.raw ch (x.codes.getD c 0)
    | none => 0
  if s.listed n tbl ch l.row col then
    let bad := fun (row c : Nat) => s.listed n tbl ch row c || !(lines.any fun x => x.row == row)
    let sides := if s.area n then
        [sideRows l.row col false, sideRows l.row col true, s.sideCols n l ch w col false, s.sideCols n l ch w col true]
      else [s.sideCols n l ch w col false, s.sideCols n l ch w col true]
    let near := sides.filterMap fun q => firstUnlisted bad q
    if near.isEmpty then 0 else sumNat (near.map fun p => value p.1 p.2) * 12 / near.length
  else s.black n l.raw ch (l.codes.getD col 0) * 12

/-- The two factors of the bilinear grid's denominator (R170): 1 and 1 on a line-scan head. -/
def State.gridDen (s : State) (n : Nat) : Nat × Nat :=
  if s.area n then (max 1 (s.nat Dict.lineWidth n - 1), max 1 (s.nat Dict.frameLines n - 1)) else (1, 1)

/-- A 16-bit gain of SHADING_TABLE. -/
def gainAt (tbl : List Byte) (i : Nat) : Nat := leNat ((tbl.drop (2 * i)).take 2)

/-- The shading gain of a pixel in units of 2^-14 over the grid's denominator (R170). -/
def State.shading (s : State) (n : Nat) (tbl : List Byte) (ch row col : Nat) : Nat :=
  let (dx, dy) := s.gridDen n
  if tbl.isEmpty then 16384 * dx * dy
  else if s.area n then
    let i := min 31 (col * 32 / dx)
    let j := min 31 (row * 32 / dy)
    let fx := col * 32 - i * dx
    let fy := row * 32 - j * dy
    let g := fun (y x : Nat) => gainAt tbl (ch * 1089 + y * 33 + x)
    (g j i * (dx - fx) + g j (i + 1) * fx) * (dy - fy) + (g (j + 1) i * (dx - fx) + g (j + 1) (i + 1) * fx) * fy
  else gainAt tbl (ch * s.nat Dict.lineWidth n + col)

/-- The denominator of a lane's exact values after stage 5, over UQ16 code units: 12 of stage 3, 2^14 of the gain, the
grid's, 12 of the interpolation. -/
def State.valueDen (s : State) (n : Nat) : Nat :=
  let (dx, dy) := s.gridDen n
  12 * 16384 * (dx * dy) * 12

/-- A line after stage 4, by column, over the denominator less its last factor 12 (R170). -/
def State.stage4 (s : State) (n : Nat) (lines : List RawLine) (l : RawLine) : List Nat :=
  let tbl := defectEntries (s.blob Dict.defectTable 0 n)
  let sh := s.blob Dict.shadingTable 0 n
  let w := s.nat Dict.lineWidth n
  (List.range w).map fun col =>
    if l.dropped then 0
    else s.stage3 n tbl lines l w col * s.shading n sh (s.colChannel n l col) l.row col

/-- Channel `k` of an interleaved line (R171). -/
def State.interpolate (s : State) (n k : Nat) (v : List Nat) : List Nat :=
  let w := v.length
  (List.range w).map fun c =>
    if s.patternAt n c = k then v.getD c 0 * 12
    else
      match (List.range c).reverse.find? (fun x => s.patternAt n x == k),
        ((List.range (w - c - 1)).map (· + c + 1)).find? (fun x => s.patternAt n x == k) with
      | some l, some r => (v.getD l 0 * (r - c) + v.getD r 0 * (c - l)) * 12 / (r - l)
      | some l, none => v.getD l 0 * 12
      | none, some r => v.getD r 0 * 12
      | none, none => 0

/-- A line shifted by ALIGN_COLUMNS (R171): its edge pixels repeat. -/
def shiftCols (sh : Int) (v : List Nat) : List Nat :=
  (List.range v.length).map fun (x : Nat) => v.getD (clampI 0 ((v.length : Int) - 1) ((x : Int) - sh)).toNat 0

/-- ALIGN_LINES of a channel: 0 on an area head (R171). -/
def State.alignLinesOf (s : State) (n ch : Nat) : Nat :=
  if s.area n || s.interleaved n then 0 else (s.numAt Dict.alignLines ch n).toNat

/-- The lines of one output line: for each channel, the one at its delay (R171); none where a channel lacks one. -/
def State.scanParts (s : State) (n : Nat) : Option (List RawLine) :=
  ((List.range (s.scanLines n)).mapM fun ch => ((s.cam n).history.val [] ch)[s.alignLinesOf n ch]?)

/-- The channel whose line gives the position (R165): the smallest ALIGN_LINES, the lowest number among equals. -/
def State.refChannel (s : State) (n : Nat) : Nat :=
  (List.range (s.scanLines n)).foldl (fun b ch => if s.alignLinesOf n ch < s.alignLinesOf n b then ch else b) 0

/-- Every channel's exact values after stage 5, over `valueDen` (R170, R171). -/
def State.alignedChans (s : State) (n : Nat) (parts : List RawLine) (ahead : List RawLine) : List (List Nat) :=
  let lines := fun (l : RawLine) => (((s.cam n).history.val [] l.channel) ++ ahead).filter fun x => x.channel == l.channel
  if s.interleaved n then
    match parts with
    | l :: _ =>
      let v := s.stage4 n (lines l) l
      (List.range (s.channels n)).map fun k => s.interpolate n k v
    | [] => []
  else parts.map fun l =>
    (shiftCols (if s.interleaved n then 0 else s.numAt Dict.alignColumns l.channel n) (s.stage4 n (lines l) l)).map (· * 12)

/-- Stages 6 and 7 of one channel: the codes, and how many saturate (R170). -/
def outputCodes (den wb exp : Nat) (v : List Nat) : List Nat × Nat :=
  let d := den * 67108864
  let x := v.map fun a => a * wb * exp
  (x.map fun a => min 65535 (divEven a d), (x.filter fun a => decide (65535 * d < a)).length)

/-! ### Gains (R177 to R179) -/

/-- The value of gain `i`: 0 exposure, 1 to 4 white balance. -/
def State.gain (s : State) (n i : Nat) : Nat :=
  if i = 0 then s.nat Dict.exposureGain n else (s.numAt Dict.wbGain (i - 1) n).toNat

/-- Set a gain. -/
def State.setGain (s : State) (n i v : Nat) : State :=
  if i = 0 then s.setNum Dict.exposureGain v n else s.setNumAt Dict.wbGain (i - 1) n v

/-- Computed gains take effect for a line that arrives 100 us or more after the window's end (R178). -/
def State.applyGains (s : State) (n at_ : Nat) : State :=
  let due := (s.cam n).pending.takeWhile fun w => decide (w.1 + 100000 ≤ at_)
  (due.foldl (fun s w => w.2.foldl (fun s p => s.setGain n p.1 p.2) s) s).mapCam n fun c =>
    { c with pending := c.pending.drop due.length }

/-- One gain computed (R177): target `a / b`, old code, step limit in percent, bounds; the code, and whether a bound
clamped it. -/
def loopGain (a b old step lo hi : Nat) : Nat × Bool :=
  -- every value over the common denominator b * 819200
  let x := a * 819200
  let mn := old * (100 - step) * b
  let mx := old * (100 + step) * b
  let y := max mn (min mx x)
  let l := lo * 100 * b
  let h := hi * 100 * b
  let z := min h (max l y)
  (divEven z (100 * b), z != y)

/-- The mean of a channel's zone averages over the zones set in a map, as a fraction; none where no zone is set. -/
def zoneMean (z : List (List Nat)) (k map : Nat) : Option (Nat × Nat) :=
  match z[k]? with
  | none => none
  | some l =>
    let on := (List.range 32).filter fun i => inMap map i
    if on.isEmpty then none else some (sumNat (on.map fun i => l.getD i 0), on.length)

/-- GAIN_MOVED and GAIN_CLAMPED records of a computation (R179). -/
def State.gainRecords (s : State) (n i old new : Nat) (clamped : Bool) : State :=
  let c := s.cam n
  let ref := c.refs.val old i
  let vals := leBytes 1 i ++ leBytes 2 old ++ leBytes 2 new
  let moved := decide (ref * s.nat Dict.logDeadband n < 100 * (max new ref - min new ref))
  let s := s.mapCam n fun c => { c with refs := c.refs.ins i (if moved then new else ref) }
  let s := if moved then s.record (BitVec.ofNat 32 (0x07000680 + devId n * 65536)) n vals else s
  let due := match c.clampAt.look i with
    | some t => decide (t + 60000000000 ≤ s.tb)
    | none => true
  if clamped && due then
    (s.record (BitVec.ofNat 32 (0x07000681 + devId n * 65536)) n vals).mapCam n fun c =>
      { c with clampAt := c.clampAt.ins i s.tb, refs := c.refs.ins i new }
  else s

/-- Keep a gain computed from the window that ended last until it takes effect. -/
def State.pendGain (s : State) (n i v : Nat) : State :=
  s.mapCam n fun c => { c with pending := match c.pending.getLast? with
    | some (t, g) => c.pending.dropLast ++ [(t, g.ins i v)]
    | none => [] }

/-- A gain's reference is its value at this moment (R179). -/
def State.setGainRef (s : State) (n i : Nat) : State := s.mapCam n fun c => { c with refs := c.refs.ins i (s.gain n i) }

/-- The references of a loop are set anew where it is switched on (R179): those of the white balance, or of the exposure. -/
def State.loopOn (s : State) (n : Nat) (wb : Bool) : State :=
  if wb then [1, 2, 3, 4].foldl (fun s i => s.setGainRef n i) s else s.setGainRef n 0

/-- The references of the loops that are on at a start (R179). -/
def State.startRefs (s : State) (n : Nat) : State :=
  let s := if s.flag Dict.exposureLoop n then s.loopOn n false else s
  if s.flag Dict.wbLoop n then s.loopOn n true else s

/-- The exposure loop (R177). -/
def State.expLoop (s : State) (n : Nat) (z : List (List Nat)) (valid : Bool) : State :=
  if !s.flag Dict.exposureLoop n then s
  else match zoneMean z (s.nat Dict.expChannel n) (s.nat Dict.expZones n) with
    | some (m, k) =>
      if valid && m != 0 then
        let old := s.gain n 0
        let (g, cl) := loopGain (s.nat Dict.expTarget n * k) m old (s.nat Dict.expStepMax n) (s.nat Dict.expGainMin n)
          (s.nat Dict.expGainMax n)
        (s.pendGain n 0 g).gainRecords n 0 old g cl
      else s
    | none => s

/-- The white-balance loop for channel `k` (R177). -/
def State.wbOne (s : State) (n : Nat) (z : List (List Nat)) (k : Nat) : State :=
  let map := s.nat Dict.wbZones n
  match zoneMean z (s.nat Dict.expChannel n) map, zoneMean z k map with
  | some (a, _), some (b, _) =>
    if a = 0 ∨ b = 0 then s
    else
      let old := s.gain n (k + 1)
      let (g, cl) := loopGain ((s.numAt Dict.wbRatio k n).toNat * a) (b * 8192) old (s.nat Dict.wbStepMax n)
        (s.numAt Dict.wbGainMin k n).toNat (s.numAt Dict.wbGainMax k n).toNat
      (s.pendGain n (k + 1) g).gainRecords n (k + 1) old g cl
  | _, _ => s

/-- The white-balance loop (R177). -/
def State.wbLoop (s : State) (n : Nat) (z : List (List Nat)) (valid : Bool) : State :=
  if s.flag Dict.wbLoop n && valid then (List.range (s.channels n)).foldl (fun s k => s.wbOne n z k) s else s

/-! ### Statistics (R175, R176) -/

/-- The zone of a pixel (R175). -/
def State.zoneOf (s : State) (n row col : Nat) : Nat :=
  let w := s.nat Dict.lineWidth n
  if s.area n then
    let h := max 1 (s.nat Dict.frameLines n)
    min 3 (row * 4 / h) * 8 + min 7 (col * 8 / w)
  else ((List.range 32).find? fun z => decide (col < (z + 1) * w / 32)).getD 31

/-- Add one channel's values to its histogram and zone sums. -/
def State.addValues (s : State) (n row den : Nat) (h z : Tab Nat) (v : List Nat) : Tab Nat × Tab Nat :=
  ((List.range v.length).foldl (fun a c =>
    let x := v.getD c 0
    let bin := min 1023 (x / (64 * den))
    (a.1.put 0 bin (min 4294967295 (a.1.val 0 bin + 1)),
      a.2.put 0 (s.zoneOf n row c) (a.2.val 0 (s.zoneOf n row c) + x))) (h, z))

/-- Count an output line in the window (R175). -/
def State.countStats (s : State) (n row : Nat) (vals : List (List Nat)) (excluded : Bool) : State :=
  let w := (s.cam n).win
  let den := s.valueDen n
  let w := { w with lines := w.lines + 1, excluded := w.excluded + excluded.toNat }
  let w := if excluded then w else
    let both := (List.range vals.length).map fun k =>
      s.addValues n row den (w.hist.getD k []) (w.sums.getD k []) (vals.getD k [])
    let counts := (List.range (s.nat Dict.lineWidth n)).foldl
      (fun t c => t.put 0 (s.zoneOf n row c) (t.val 0 (s.zoneOf n row c) + 1)) w.counts
    { w with hist := both.map (·.1), sums := both.map (·.2), counts := counts }
  let full := !s.area n && decide (s.nat Dict.statsWindow n ≤ w.lines)
  s.mapCam n fun c => { c with win := { w with full := full } }

/-- The zone averages of a window, UQ16 (R175). -/
def State.zoneAverages (s : State) (n : Nat) : List (List Nat) :=
  let w := (s.cam n).win
  (List.range (s.channels n)).map fun k => (List.range 32).map fun z =>
    let c := w.counts.val 0 z
    if c = 0 then 0 else min 65535 (divEven ((w.sums.getD k []).val 0 z) (c * s.valueDen n))

/-- STATS_WINDOW_END: a full window is published and the loops run (R176, R177). -/
def State.windowEnd (s : State) (n : Nat) : State :=
  let w := (s.cam n).win
  if w.full then
    let z := s.zoneAverages n
    let hist := (List.range (s.channels n)).flatMap fun k =>
      (List.range 1024).flatMap fun i => leBytes 4 ((w.hist.getD k []).val 0 i)
    let valid := decide (w.excluded * 10 ≤ w.lines)
    let s := s.mapCam n fun c => { c with
      hist := hist, zones := z.flatMap fun l => l.flatMap (leBytes 2), win := {}, pending := c.pending ++ [(s.tb, [])] }
    (((s.bump Dict.statsSeq n).expLoop n z valid).wbLoop n z valid)
  else s

/-! ### Output (R166, R168, R174, R197, R198, R211) -/

/-- TAG of a camera tile (R21). -/
def camTag (pos : Int) (n vc : Nat) : Nat := wrap 48 pos + n * 281474976710656 + vc * 4503599627370496

/-- The step flags of a develop lane's tile. -/
def State.laneStep (s : State) (n : Nat) (pos : Int) (vc deadline : Nat) (poisoned incomplete : Bool) : Running :=
  { word := ((s.station (devId n)).word).getD 0, deadline := deadline, tag := camTag pos n vc, poisoned := poisoned
    incomplete := incomplete }

/-- Emit tiles one after another on an output port of a lane, their payloads laid from `addr` on; `sot` on the first,
`eot` on the last. Gives the address behind them. -/
def State.laneTiles (s : State) (n port : Nat) (r : Running) (sot eot : Bool) (addr : Nat) : List OutTile → Nat × State
  | [] => (addr, s)
  | o :: rest =>
    let s := (s.memWrite (devId n) addr o.bytes).emitOn (devId n) port r o addr 0 sot (eot && rest.isEmpty)
    s.laneTiles n port r false eot (addr + o.bytes.length) rest

/-- The image tiles of a group of lines (R174). -/
def groupTiles (w : Nat) (g : List DevLine) : List OutTile :=
  (List.range (ceilDiv w 128)).map fun b =>
    let rows := g.flatMap fun l => l.chans.map fun c => (c.drop (128 * b)).take 128
    { bytes := rows.flatMap (packRow 0x11), format := 0x11, rows := rows.length, cols := min 128 (w - 128 * b) }

/-- Emit the group of lines gathered on output port 0 (R174). -/
def State.flushGroup (s : State) (n : Nat) (eot : Bool) (addr : Nat) : Nat × State :=
  let c := s.cam n
  match c.group with
  | [] => (addr, s)
  | l :: _ =>
    let r := s.laneStep n l.pos l.vc (c.group.foldl (fun d x => max d x.deadline) 0) (c.group.any (·.substituted))
      (c.group.any (·.dropped))
    let (a, s) := s.laneTiles n 0 r c.sot eot addr (groupTiles (s.nat Dict.lineWidth n) c.group)
    (a, s.mapCam n fun c => { c with group := [], sot := false })

/-- The elements of one position of a space-to-depth group, converted to S2D_FORMAT (R66, R197). -/
def s2dElems (f fmt shift p : Nat) (g : List DevLine) : List Conv :=
  (g.take f).flatMap fun l => (List.range f).flatMap fun dx =>
    l.chans.map fun c => convert fmt none (Num.fin false (c.getD (f * p + dx) 0) (-4 - (shift : Int)))

/-- How many conversions of a group saturate (R66). -/
def s2dSats (w f fmt shift : Nat) (g : List DevLine) : Nat :=
  sumNat ((List.range (w / f)).map fun p => ((s2dElems f fmt shift p g).filter (·.sat)).length)

/-- The tiles of a space-to-depth group (R198): 128 positions each, as a pair where a position has over 128 elements. -/
def s2dTiles (w f fmt shift : Nat) (g : List DevLine) : List OutTile :=
  let n := w / f
  (List.range (ceilDiv n 128)).flatMap fun b =>
    let rows := (List.range (min 128 (n - 128 * b))).map fun i => (s2dElems f fmt shift (128 * b + i) g).map (·.code)
    let k := (rows.headD []).length
    let tile := fun (rs : List (List Nat)) (m : Nat) =>
      ({ bytes := rs.flatMap (packRow fmt), format := fmt, rows := rs.length, cols := m } : OutTile)
    if k ≤ 128 then [tile rows k] else [tile (rows.map (·.take 128)) 128, tile (rows.map (·.drop 128)) (k - 128)]

/-- A privileged lane's group on output port 2, once it has its lines (R197, R198). -/
def State.flushS2d (s : State) (n addr : Nat) : Nat × State :=
  let f := s.nat Dict.s2dFactor n
  let g := (s.cam n).s2d
  match g with
  | l :: _ =>
    if f = 0 ∨ g.length < f then (addr, s)
    else
      let r := s.laneStep n l.pos l.vc (g.foldl (fun d x => max d x.deadline) 0) (g.any (·.substituted)) (g.any (·.dropped))
      let (a, s) := s.laneTiles n 2 r true true addr
        (s2dTiles (s.nat Dict.lineWidth n) f (s.nat Dict.s2dFormat n) (s.nat Dict.s2dShift n) g)
      let s := s.bump Dict.convSatCount (devId n) (s2dSats (s.nat Dict.lineWidth n) f (s.nat Dict.s2dFormat n)
        (s.nat Dict.s2dShift n) g)
      (a, s.mapCam n fun c => { c with s2d := [] })
  | [] => (addr, s)

/-- Bytes of an output line in a crop ring: all channels in UQ16, channel by channel (R211). -/
def State.ringLineBytes (s : State) (n : Nat) : Nat := s.nat Dict.lineWidth n * s.channels n * 2

/-- Write an output line into the crop ring (R211). -/
def State.ringWrite (s : State) (n : Nat) (l : DevLine) : State :=
  let k := s.nat Dict.cropRingLines n
  if k = 0 then s
  else
    let r := s.dec.rings.val {} n
    let slot := r.lines % k
    let s := s.memWrite (devId n) (hbmBase + s.nat Dict.cropRingBase n + slot * s.ringLineBytes n)
      (l.chans.flatMap (packRow 0x11))
    let ring : CropRing := { lines := r.lines + 1, stamps := r.stamps.ins slot l.pos,
                             times := r.times.ins slot (l.deadline - s.trump.cert.stampOffset) }
    { s with dec := { s.dec with rings := s.dec.rings.ins n ring } }

/-- The output line of the scan just taken (R165, R170, R171), and its exact values; none where a channel lacks one. -/
def State.developScan (s : State) (n : Nat) (ahead : List RawLine) : Option (DevLine × List (List Nat) × Nat × Nat) :=
  match s.scanParts n with
  | none => none
  | some parts =>
    let vals := s.alignedChans n parts ahead
    let codes := (List.range vals.length).map fun k =>
      outputCodes (s.valueDen n) (s.gain n (k + 1)) (s.gain n 0) (vals.getD k [])
    let ref := parts.getD (s.refChannel n) {}
    let arr := parts.foldl (fun a l => max a l.dev) 0
    some ({ pos := ref.pos, vc := ref.vc, deadline := arr + s.trump.cert.stampOffset
            substituted := parts.any (·.substituted), dropped := parts.any (·.dropped), chans := codes.map (·.1) },
      vals, sumNat (codes.map (·.2)), ref.row)

/-- Has the lane a whole group of lines (R174)? -/
def State.groupFull (s : State) (n : Nat) : Bool := decide (s.nat Dict.outLines n ≤ (s.cam n).group.length)

/-- Hand an output line on: its saturations, statistics, crop ring, groups and tiles (R170, R174, R175, R198, R211).
`ends`: it is the last of its frame; `goesOn`: more of the frame has arrived. A whole group of which neither is known yet
is held: its last tile carries EOT where the frame's end comes next (R174, log 112). -/
def State.outputLine (s : State) (n addr : Nat) (ends goesOn : Bool) (o : DevLine × List (List Nat) × Nat × Nat) :
    Nat × State :=
  let (l, vals, sat, row) := o
  let s := s.bump Dict.devSatCount n sat
  let s := if s.trump.st = .running then s.countStats n row vals (l.substituted || l.dropped) else s
  let s := (s.ringWrite n l).mapCam n fun c =>
    { c with group := c.group ++ [l], s2d := if s.nat Dict.s2dFactor n = 0 then [] else c.s2d ++ [l] }
  let (a, s) := s.flushS2d n addr
  if ends || (goesOn && s.groupFull n) then s.flushGroup n ends a else (a, s)

/-- The end of a frame reaches the lane (R174, R175, R186): `eot` on its last tile, unless a line timeout's tile is still
to follow (R168). -/
def State.laneFrameEnd (s : State) (n addr : Nat) (eot : Bool) : Nat × State :=
  let (a, s) := s.flushGroup n eot addr
  (a, s.mapCam n fun c => { c with
    sot := true
    history := if s.area n then [] else c.history
    s2d := if s.area n then [] else c.s2d
    win := if s.area n && decide (0 < c.win.lines) then { c.win with full := true } else c.win })

/-- The tile of a line timeout (R168): one row of zeros, INCOMPLETE, EOT; the row sequence restarts (R171, R186). -/
def State.laneTimeout (s : State) (n addr : Nat) (l : RawLine) : State :=
  let (a, s) := s.laneFrameEnd n addr false
  let w := min 128 (s.nat Dict.lineWidth n)
  let o : OutTile := { bytes := List.replicate (2 * w) 0, format := 0x11, rows := 1, cols := w, brk := true }
  let r := s.laneStep n l.pos 0 (l.dev + s.trump.cert.stampOffset) false true
  let (_, s) := s.laneTiles n 0 r false true a [o]
  (s.mapCam n fun c => { c with history := [], s2d := [], group := [] })

/-- Take the scan at the front into the history. -/
def State.takeScan (s : State) (n : Nat) : State :=
  s.mapCam n fun c => { c with
    raw := c.raw.drop (s.scanLines n)
    history := (c.raw.take (s.scanLines n)).foldl
      (fun h l => h.ins l.channel ((l :: h.val [] l.channel).take 17)) c.history }

/-- The markers at the front of a lane's queue, worked off; lines of an unfinished scan before one are dropped (log
31). -/
def State.laneMarkers (s : State) (n addr : Nat) : Nat → State
  | 0 => s
  | fuel + 1 =>
    let raw := (s.cam n).raw
    match raw.dropWhile fun l => l.kind == .line with
    | [] => s
    | m :: rest =>
      if (raw.takeWhile fun l => l.kind == .line).length < s.scanLines n then
        let s := s.mapCam n fun c => { c with raw := rest }
        if m.kind = .timeout then (s.laneTimeout n addr m).laneMarkers n addr fuel
        else
          let (a, s) := s.laneFrameEnd n addr true
          s.laneMarkers n a fuel
      else s

/-- The lane's step in flight completes with the line it was started for (R31). -/
def State.laneStepDone (s : State) (n : Nat) : State :=
  match (s.station (devId n)).running with
  | some r => s.finishStep (devId n) r
  | none => s

/-- DEVELOP_LINE: what a frame's end leaves is emitted; the lane's step in flight (R31) develops its next scan, emits what
is complete, payloads laid from `addr` on, and completes. -/
def State.developLine (s : State) (n addr : Nat) : State :=
  let s := if (s.cam n).win.full then s.windowEnd n else s
  let s := s.laneMarkers n addr (s.cam n).raw.length
  if (s.trump.st == .running || s.trump.st == .stopping) && s.scanReady n && (s.station (devId n)).running.isSome then
    let (addr, s) := if s.groupFull n then s.flushGroup n false addr else (addr, s)
    let at_ := ((s.cam n).raw.headD {}).at_
    let s := (s.applyGains n at_).takeScan n
    let next := (s.cam n).raw
    let ends := next.head?.any fun m => m.kind == .frameEnd
    let row := ((((s.cam n).history.val [] 0).headD {}).row)
    let ends := ends || decide (s.nat Dict.frameLines n ≤ row + 1)
    let ahead := next.takeWhile fun l => l.kind == .line
    match s.developScan n ahead with
    | some o =>
      let (a, s) := s.outputLine n addr ends (!next.isEmpty) o
      (s.laneMarkers n a (s.cam n).raw.length).laneStepDone n
    | none => (s.laneMarkers n addr (s.cam n).raw.length).laneStepDone n
  else s

/-- LINE_TIMEOUT (R168). -/
def State.lineTimeout (s : State) (n addr : Nat) (fifoLow : Bool) : State :=
  if s.flag Dict.portEnable n && (s.cam n).frameOpen
      && decide ((s.cam n).lastLine + s.nat Dict.linePeriodMax n ≤ s.tb) then
    let s := (s.camBump n Dict.lineTimeout).closeFrame n fifoLow .timeout
    let s := if (s.cam n).raw.length = 1 ∧ s.trump.st = .running then s.laneMarkers n addr 1 else s
    s.camReport n 0x0602
  else s

/-! ### Metadata (R166, R167) -/

/-- A metadata packet's tiles: full rows of 128 bytes, then a shorter row (log 32). -/
def metaTiles (l : List Byte) : List OutTile :=
  let k := l.length / 128
  let r := l.length % 128
  (if k = 0 then [] else [{ bytes := l.take (128 * k), format := 0x0F, rows := k, cols := 128 }])
    ++ (if r = 0 then [] else [{ bytes := l.drop (128 * k), format := 0x0F, rows := 1, cols := r }])

/-- METADATA_PACKET (R166, R167, R169). -/
def State.metadata (s : State) (n vc dt : Nat) (crcOk corrected : Bool) (payload : List Byte) (full : Bool) (addr : Nat) :
    State :=
  if !s.flag Dict.portEnable n then s
  else
    let s := if corrected then s.camBump n Dict.eccCorrected else s
    let m := s.vcMapOf n vc
    if 16 ≤ vc ∨ !bit m 15 ∨ fld m 14 13 ≠ 1 ∨ fld m 12 7 ≠ dt then s.camBump n Dict.packetIgnored
    else
      let s := if (s.cam n).frameOpen then s
        else ((if crcOk then s.camBump n Dict.fsMissing else s).openFrame n)
      let s := if crcOk then s else s.camBump n Dict.crcError
      let s := s.enterOverflow n full
      if (s.cam n).overflow then s
      else
        let s := if 16384 < payload.length then s.camBump n Dict.packetIgnored else s
        if (s.cam n).live && s.trump.st == .running then
          let r := s.laneStep n (s.stampPos n) vc (s.devNs + s.trump.cert.stampOffset) (!crcOk) false
          (s.laneTiles n 1 r true false addr (metaTiles (payload.take 16384))).2
        else s

/-! ### Crops of UNSURE objects (R212) -/

/-- The columns of a crop: first and count (R212). -/
def State.cropCols (s : State) (v : Verdict) : Nat × Nat :=
  let m := s.nat Dict.cropMargin
  let a := v.colFirst - m
  let b := min (s.nat Dict.lineWidth v.port - 1) (v.colLast + m)
  (a, b + 1 - a)

/-- The UQ16 codes of a channel of a ring line, columns `a` on, `n` of them, read by station `sid`. -/
def State.ringCodes (s : State) (sid n line ch a cols : Nat) : List Byte × Bool × State :=
  let k := max 1 (s.nat Dict.cropRingLines n)
  s.memRead sid (hbmBase + s.nat Dict.cropRingBase n + line % k * s.ringLineBytes n
    + (ch * s.nat Dict.lineWidth n + a) * 2) (cols * 2)

/-- Copy a crop's lines, channels in order, to `dst` (R212). -/
def State.copyCrop (s : State) (v : Verdict) (a cols first dst : Nat) : Nat → State
  | 0 => s
  | n + 1 =>
    let ch := s.channels v.port
    let s := (List.range ch).foldl (fun s k =>
      let (l, _, s) := s.ringCodes decId v.port first k a cols
      s.memWrite decId (dst + k * cols * 2) l) s
    s.copyCrop v a cols (first + 1) (dst + ch * cols * 2) n

/-- The first free crop slot from `i` on, looking at `n`. -/
def State.freeSlot (s : State) (slots i : Nat) : Nat → Option Nat
  | 0 => none
  | n + 1 =>
    if (s.dec.slotsUsed.look (i % slots)).isNone then some (i % slots) else s.freeSlot slots (i + 1) n

/-- Is the crop area within the staging window (R136, R212)? -/
def State.cropAreaOk (s : State) : Bool :=
  let b := s.nat Dict.cropAreaBase
  let n := s.nat Dict.cropSlots * s.nat Dict.cropSlotBytes
  decide (s.nat Dict.adapterStageBase ≤ b)
    && decide (b + n ≤ s.nat Dict.adapterStageBase + s.nat Dict.adapterStageLength)

/-- A sample is made (R212): the crop is copied, the record posted. -/
def State.makeSample (s : State) (v : Verdict) (slot a cols first last lvl : Nat) : State :=
  let n := last + 1 - first
  let dst := hbmBase + s.nat Dict.cropAreaBase + slot * s.nat Dict.cropSlotBytes
  let s := s.copyCrop v a cols first dst n
  let pos := (s.dec.rings.val {} v.port).at' (max 1 (s.nat Dict.cropRingLines v.port)) first
  let w := setFld (setFld v.ctx 499 499 1) 135 0
    (slot % 65536 * 2 ^ 120 + cols % 65536 * 2 ^ 104 + n % 16777216 * 2 ^ 80 + wrap 48 pos * 2 ^ 32)
  let q := s.nat Dict.adaptQueue
  let (ok, s) := s.post decId q (wordBytes w)
  if ok then
    let cell := match ((s.queue q).unread ++ (s.queue q).fill).getLast? with
      | some p => p.cells.headD 0
      | none => 0
    let s := { s with dec := { s.dec with
      slotsUsed := s.dec.slotsUsed.ins slot cell
      nextSlot := (slot + 1) % max 1 (s.nat Dict.cropSlots)
      bucket := some { level := lvl - nsPerS, at_ := s.tb } } }
    s.bump Dict.sampledCount
  else s.bump Dict.sampleSkipped

/-- CROP_SAMPLE: DEC tries to sample the object of the oldest UNSURE verdict, while SAMPLE_ENABLE is 1 (R212). -/
def State.cropSample (s : State) : State :=
  match s.dec.samples with
  | [] => s
  | v :: rest =>
    let s := { s with dec := { s.dec with samples := rest } }
    if !s.flag Dict.sampleEnable then s
    else
    let lvl := Bucket.levelAt s.dec.bucket (s.nat Dict.sampleMaxRate) s.tb
    let k := s.nat Dict.cropRingLines v.port
    let slots := max 1 (s.nat Dict.cropSlots)
    match s.freeSlot slots s.dec.nextSlot slots, (s.dec.rings.val {} v.port).lines' k v with
    | some slot, some (first, last) =>
      let (a, cols) := s.cropCols v
      let bytes := (last + 1 - first) * cols * s.channels v.port * 2
      if lvl < nsPerS ∨ k = 0 ∨ s.nat Dict.cropSlotBytes < bytes ∨ !s.cropAreaOk then s.bump Dict.sampleSkipped
      else s.makeSample v slot a cols first last lvl
    | _, _ => s.bump Dict.sampleSkipped

/-! ### Start of the domain, enabling a port (R164, R171, R175, R178) -/

/-- A lane at the start of the Trump domain: it waits for a frame start; results and computed gains stay (R176, R178). -/
def Cam.fresh (c : Cam) : Cam :=
  { c with live := false, raw := [], history := [], group := [], sot := true, s2d := [], win := {} }

/-- A port that is enabled or disabled: no frame, no last frame number; results and gains stay. -/
def Cam.restart (c : Cam) : Cam :=
  { hist := c.hist, zones := c.zones, pending := c.pending, refs := c.refs, clampAt := c.clampAt }

end Sys2Proof.Machine
end

