-- ==== Sys2Proof/Machine/Aborts.lean ====
section
/-! DEFINITION. The abort codes of the dictionary (R420). -/

namespace Sys2Proof.Machine

/-- Index or sub-index not present; reserved range. -/
def abNoObject : Word := 0x02701101
/-- Access abort. -/
def abAccess : Word := 0x02701102
/-- Session role too low. -/
def abRole : Word := 0x02701103
/-- Range abort. -/
def abRange : Word := 0x02701104
/-- Length does not match the type. -/
def abLength : Word := 0x02701105
/-- Segment out of order. -/
def abSegSeq : Word := 0x02701106
/-- Segmented transfer cancelled by time. -/
def abSegTimeout : Word := 0x02701107
/-- Another write of the same DOMAIN is open. -/
def abBusy : Word := 0x02701108
/-- A signed DOMAIN failed its check. -/
def abSignature : Word := 0x02701109
/-- No common protocol version. -/
def abVersion : Word := 0x0270110A
/-- The response would exceed its body limit. -/
def abTooLong : Word := 0x0270110B
/-- Message kind reserved or not allowed. -/
def abBadKind : Word := 0x0270110C
/-- Eight sessions already open. -/
def abSessionLimit : Word := 0x0270110D
/-- An I3C message failed its CRC-8 or its layout. -/
def abI3cFrame : Word := 0x0270110E

end Sys2Proof.Machine
end

