-- ==== Sys2Proof/Machine/BankOps.lean ====
section
/-! DEFINITION. Banks, their arbitration, the power of buffer groups, ownership of groups and DMA engines
(R112 to R116, R123 to R128). -/

namespace Sys2Proof.Machine

/-! ### Read modes (R117, R118) -/

/-- Bits of an element of a strided or transposed read (R117). -/
def modeBits (m : BitVec 16) : Nat :=
  match fld m 13 12 with
  | 0 => 8 | 1 => 16 | 2 => 32 | _ => 4

/-- Elements of `bits` bits picked at a stride from bytes, `n` of them: their codes. -/
def gatherCodes (bits stride : Nat) (bytes : List Byte) : Nat → List Nat
  | 0 => []
  | n + 1 =>
    (if bits = 4 then leNat (bytes.take 1) % 16 else leNat (bytes.take (bits / 8)))
      :: gatherCodes bits stride (bytes.drop (stride * bits / 8)) n

/-- Pack codes of `bits` bits. -/
def packCodes (bits : Nat) (l : List Nat) : List Byte :=
  leBytes (ceilDiv (l.length * bits) 8) ((l.reverse).foldl (fun a c => a * 2 ^ bits + c) 0)

/-- The codes of `bits`-bit elements at `base + i * stride` for 4-bit elements, whose addresses fall within bytes. -/
def gather4 (stride : Nat) (bytes : List Byte) (i : Nat) : Nat → List Nat
  | 0 => []
  | n + 1 =>
    let k := i * stride
    let b := (bytes[k / 2]?).elim 0 (·.toNat)
    (if k % 2 = 0 then b % 16 else b / 16) :: gather4 stride bytes (i + 1) n

/-- What a read mode makes of `len` bytes to be delivered: how many it reads, and the bytes it delivers (R117, R118). -/
def modeRead (m : BitVec 16) (len : Nat) : Nat × (List Byte → List Byte) :=
  let bits := modeBits m
  let n := len * 8 / bits
  let stride := fld m 11 0 + 1
  match fld m 15 14 with
  | 1 =>
    (if n = 0 then 0 else ((n - 1) * stride * bits + bits + 7) / 8,
      fun l => packCodes bits (if bits = 4 then gather4 stride l 0 n else gatherCodes bits stride l n))
  | 2 =>
    (64 * 64 * bits / 8, fun l =>
      let c := gatherCodes bits 1 l 4096
      packCodes bits ((List.range 64).flatMap fun j => (List.range 64).map fun i => c.getD (i * 64 + j) 0))
  | _ => (len, id)

/-! ### Arbitration (R112 to R116) -/

/-- A bank. -/
def State.bank (s : State) (b : Nat) : Bank := s.banks.val {} b

/-- Change a bank. -/
def State.mapBank (s : State) (b : Nat) (f : Bank → Bank) : State := { s with banks := s.banks.upd {} b f }

/-- Priority of a class (R113): the lowest goes first. -/
def PortClass.rank : PortClass → Nat
  | .array => 0 | .vector => 1 | .front => 2 | .dma => 3

/-- The requester's number for the round robin: its station and unit. -/
def BankReq.who (r : BankReq) : Nat := r.sid.toNat * 16 + r.unit

/-- Has the bank a port of the class for the station (R112)? -/
def BankReq.portOk (r : BankReq) (b : Nat) : Bool :=
  let sid := r.sid.toNat
  match r.cls with
  | .array => isArray sid && b / 16 == arrayOf sid
  | .vector => kindOf sid == .vu && (decide (0x100 ≤ b) || b / 16 == arrayOf sid)
  | .front => kindOf sid == .fe && decide (0x100 ≤ b)
  | .dma => !(isArray sid || kindOf sid == .vu || kindOf sid == .fe || kindOf sid == .mgt || kindOf sid == .none)

/-- The bytes one access of the class moves in a cycle (R112). -/
def PortClass.width : PortClass → Nat
  | .array => 64 | .vector => 256 | .front => 32 | .dma => 256

/-- Is a read-mode value refused: MODE 3, a transposed read of 32-bit or 4-bit elements, a stride without MODE 1 (R117)? -/
def modeRefused (m : BitVec 16) : Bool :=
  let mode := fld m 15 14
  mode == 3 || (mode == 2 && decide (2 ≤ fld m 13 12)) || (mode != 1 && fld m 11 0 != 0)

/-- Does a transposed read start off the boundary of its block (R118)? -/
def unaligned (m : BitVec 16) (addr : Nat) : Bool :=
  fld m 15 14 == 2 && addr % (if fld m 13 12 = 0 then 4096 else 8192) != 0

/-- May the request carry a read mode: one of the vector or DMA port (R117)? -/
def BankReq.hasMode (r : BankReq) : Bool := r.cls == .vector || r.cls == .dma

/-- Does the read mode keep the request from its bank (R117, R118)? -/
def BankReq.badMode (r : BankReq) : Bool := r.hasMode && (modeRefused r.mode || unaligned r.mode r.addr)

/-- Does the request wait because its group is being zero-filled (R125, R126)? -/
def State.waitsFill (s : State) (r : BankReq) : Bool := s.fillingAt r.addr

/-- Is it a write of before the power-down of a group that has gone OFF since (R127), be it switched on again (R128)? -/
def State.tooLate (s : State) (g : Nat) (old : Bool) : Bool :=
  old && ((s.group g).st == .off || (decide (0 < (s.group g).late) && (s.group g).st != .poweringDown))

/-- The status a request completes with instead of reaching its bank (R118, R124, R127): memory that is not its domain's
before all else; a write issued before the power-down request lands while the group powers down, and is dropped after. -/
def State.reqStatus (s : State) (r : BankReq) : Option Word :=
  let sid := r.sid.toNat
  let plain := s.accessStatus sid r.data.isSome r.addr
  let off := plain == some (withSrc 0x05000404 sid)
  let powered : Option Word := match placeOf r.addr with
    | .group g =>
      if r.data.isSome && (off || plain.isNone) then
        if s.tooLate g r.old then some (withSrc 0x05000401 sid)
        else if r.old && (s.group g).st == .poweringDown then none else plain
      else plain
    | _ => plain
  match powered with
  | some w => some w
  | none => if r.data.isNone && r.badMode then some (withSrc 0x05000405 sid) else none

/-- The tile that a poisoned read feeds is flagged POISONED (R124, R127, R133, R137). -/
def State.poisonStep (s : State) (sid : Nat) (bad : Bool) : State :=
  if bad then s.mapStation sid fun x => { x with running := x.running.map fun r => { r with poisoned := true } } else s

/-- A write that arrives too late is dropped and counted (R127, R43). -/
def State.dropLate (s : State) (g : Nat) : State :=
  ((s.bump Dict.poisonDropCount g).discard Dict.discardWrites).mapGroup g fun x => { x with late := x.late - 1 }

/-- A request refused before its bank completes: a read delivers zeros, which poison the tile they feed but where only the
block's place is at fault (R118, R124, R127); a write is discarded; a dropped one is counted. A refused read-mode value
delivers nothing (R119). -/
def State.refuseReq (s : State) (r : BankReq) (w : Word) : State :=
  let sid := r.sid.toNat
  let s := s.toErr sid w
  let late := fld w 15 0 = 0x0401
  let mode := fld w 15 0 = 0x0405
  let s := match placeOf r.addr with
    | .group g => if late then s.dropLate g else s
    | _ => s
  if r.data.isSome || (decide mode && modeRefused r.mode) then s
  else (s.poisonStep sid !mode).emit (.data sid (List.replicate r.cls.width 0))

/-- Is `a` served before `b` within a class, after `last` was served (R112)? -/
def rrBefore (last a b : Nat) : Bool :=
  if decide (last < a) == decide (last < b) then decide (a < b) else decide (last < a)

/-- Has the DMA-port request been refused on the bank for 32 consecutive cycles (R113)? -/
def Bank.starved (x : Bank) (r : BankReq) : Bool := r.cls == .dma && decide (32 ≤ x.refused.val 0 r.who)

/-- The first request in the order of R113, a starved one before all, in round-robin order within a class (R112). -/
def Bank.pick (x : Bank) : List BankReq → Option BankReq
  | [] => none
  | r :: l =>
    match x.pick l with
    | none => some r
    | some q =>
      let k := fun (z : BankReq) => if x.starved z then 0 else z.cls.rank + 1
      if k r < k q then some r
      else if k q < k r then some q
      else if rrBefore (x.lastBy.val 0 r.cls.rank) r.who q.who then some r else some q

/-- The engine read served beside a DMA write of its row, or the DMA write served beside an engine read (R115): of several,
the first in the order of R113. -/
def Bank.sameRow (x : Bank) (w : BankReq) (l : List BankReq) : Option BankReq :=
  let row (r : BankReq) : Bool := rowOf r.addr == rowOf w.addr
  if w.cls == .dma then
    if w.data.isSome then x.pick (l.filter fun r => r.cls != .dma && r.data.isNone && row r) else none
  else if w.data.isNone then
    x.pick (l.filter fun r => r.cls == .dma && r.data.isSome && row r && (x.burst == 0 || r.who == x.burstBy))
  else none

/-- Which requests a bank serves in a cycle (R113, R115). -/
def Bank.served (x : Bank) (l : List BankReq) : List BankReq :=
  if 0 < x.burst then
    match l.find? fun r => r.cls == .dma && r.who == x.burstBy with
    | some w => w :: (x.sameRow w l).toList
    | none => []
  else match x.pick l with
    | some w => w :: (x.sameRow w l).toList
    | none => []

/-- The bank after a cycle in which it served `g` of the presented `l`. -/
def Bank.after (x : Bank) (g l : List BankReq) : Bank :=
  let lost := l.filter fun r => r.cls == .dma && !g.contains r
  let dma := g.find? fun r => r.cls == .dma
  { burst := if 0 < x.burst then x.burst - 1 else match dma with
      | some r => min (max r.rows 1) 16 - 1
      | none => 0
    burstBy := if 0 < x.burst then x.burstBy else match dma with
      | some r => r.who
      | none => x.burstBy
    refused := lost.foldl (fun t r => t.ins r.who (x.refused.val 0 r.who + 1)) []
    lastBy := g.foldl (fun t r => t.ins r.cls.rank r.who) x.lastBy }

/-- Bytes left in the unit that an access of the port class moves, from an address on (R112). -/
def PortClass.room (c : PortClass) (a : Nat) : Nat := c.width - a % c.width

/-- A served read delivers its bytes as they stood before the cycle's writes (R115): one unit of its port, or, by its read
mode, one beat of what is gathered or transposed from there (R117, R118). -/
def State.serveRead (s : State) (r : BankReq) : State :=
  if r.data.isNone then
    if r.hasMode && fld r.mode 15 14 != 0 then
      let (n, f) := modeRead r.mode 256
      s.emit (.data r.sid.toNat ((f (s.rawRead r.addr n)).take 256))
    else s.emit (.data r.sid.toNat (s.rawRead r.addr (r.cls.room r.addr)))
  else s

/-- A served write lands whole (R115, R116); an old one leaves the count of writes in flight (R127). -/
def State.serveWrite (s : State) (r : BankReq) : State :=
  match r.data with
  | none => s
  | some d =>
    let s := s.rawWrite r.addr (d.take (r.cls.room r.addr))
    match placeOf r.addr with
    | .group g => if r.old then s.mapGroup g fun x => { x with inflight := x.inflight - 1 } else s
    | _ => s

/-- One cycle of a bank with the requests presented to it (R112 to R116): refused ones complete at once (R124, R127),
those of a group being filled wait, and the rest are arbitrated. -/
def State.bankCycle (s : State) (b : Nat) (reqs : List BankReq) : State :=
  let s := reqs.foldl (fun s' r => match s.reqStatus r with
    | some w => s'.refuseReq r w
    | none => s') s
  let l := reqs.filter fun r =>
    (s.reqStatus r).isNone && r.portOk b && !s.waitsFill r && bankOf r.addr == b
  let x := s.bank b
  let g := x.served l
  let same := decide (1 < g.length)
  let lost := decide (g.length < l.length)
  let s := if same || lost then s.bump Dict.bankConflictCount b else s
  let s := if same then s.bump Dict.sameRowCount b else s
  let s := s.mapBank b fun x => x.after g l
  let s := s.emit (.grant (reqs.map fun r => g.contains r))
  let s := g.foldl State.serveRead s
  g.foldl State.serveWrite s

/-- Is a cycle of the bank one in which a DMA request refused for 32 cycles is granted (R113)? -/
def State.forcedNow (s : State) (b : Nat) (reqs : List BankReq) : Bool :=
  reqs.any (s.bank b).starved && (s.bank b).burst == 0

/-! ### Power of groups (R126 to R128) -/

/-- 2 microseconds. -/
def offLimit : Nat := 2000

/-- May a buffer group be switched off (R126)? -/
def State.groupMayOff (s : State) (g : Nat) : Bool :=
  !(s.groupTrump g && s.trumpRuns)
    && (decide (16 ≤ g) || !((g :: (0x10 + g) :: halvesOf g).any fun sid => s.busy sid))

/-- A power-down request (R127): with `n` writes issued and not yet landed. -/
def State.groupDown (s : State) (g n : Nat) : State :=
  if (s.group g).st = .on ∧ s.groupMayOff g = true then
    s.mapGroup g fun x => { x with st := .poweringDown, inflight := n, since := s.tb }
  else s

/-- A group enters OFF: its contents are lost, waiting reads complete with zeros and poison their tiles (R127); a waiting power-up then takes effect
(R128). -/
def State.groupEnterOff (s : State) (g : Nat) (waiting : List (BitVec 8)) : State :=
  let up := (s.group g).upPending
  let s := waiting.foldl (fun s w => ((s.toErr w.toNat (withSrc 0x05000404 w.toNat)).poisonStep w.toNat true).emit
    (.data w.toNat (List.replicate 256 0))) s
  let s := s.zeroRange (groupBase g) (groupLen g)
  s.mapGroup g fun x => { x with st := if up then .clearing else .off, inflight := 0, late := x.late + x.inflight, upPending := false }

/-- The last write in flight has landed (R127). -/
def State.groupOff (s : State) (g : Nat) (waiting : List (BitVec 8)) : State :=
  if (s.group g).st = .poweringDown ∧ (s.group g).inflight = 0 then s.groupEnterOff g waiting else s

/-- 2 us after the request the group is forced off (R127). -/
def State.groupForcedOff (s : State) (g : Nat) (waiting : List (BitVec 8)) : State :=
  if (s.group g).st = .poweringDown ∧ (s.group g).since + offLimit ≤ s.tb then
    (s.groupEnterOff g waiting).bump Dict.forcedOffCount g
  else s

/-- Does the module have the group: the buffer of a disabled array stays off (R3)? -/
def State.groupExists (s : State) (g : Nat) : Bool :=
  if g < 16 then s.arrayEnabled g else decide (g < 24)

/-- A group is switched on (R126), or will be once it is OFF (R128). -/
def State.groupUp (s : State) (g : Nat) : State :=
  if s.groupExists g then
    match (s.group g).st with
    | .off => (s.zeroRange (groupBase g) (groupLen g)).mapGroup g fun x => { x with st := .clearing }
    | .poweringDown => s.mapGroup g fun x => { x with upPending := true }
    | _ => s.mapGroup g fun x => { x with downPending := false }
  else s

/-- The zero fill of a group ends (R126). -/
def State.groupCleared (s : State) (g : Nat) : State :=
  if (s.group g).st = .clearing then s.mapGroup g fun x => { x with st := .on } else s

/-! ### Owners (R125) -/

/-- The bits in which two maps of `n` bits differ. -/
def changedBits (a b n : Nat) : List Nat := (List.range n).filter fun i => inMap a i != inMap b i

/-- May DMA_OWNER_MAP be written `v`: an engine changes owner only while IDLE (R125)? -/
def State.dmaMapOk (s : State) (v : Nat) : Bool :=
  (changedBits (s.nat Dict.dmaOwnerMap) v 8).all fun n => (s.station (0x60 + n)).seq == .idle

/-- SHARED_OWNER_MAP takes a value: groups that change owner are zero-filled first (R125). -/
def State.setSharedMap (s : State) (v : Nat) : State :=
  let moved := changedBits (s.nat Dict.sharedOwnerMap) v 8
  let s := s.setNum Dict.sharedOwnerMap v
  moved.foldl (fun s g => (s.zeroRange (groupBase (16 + g)) (groupLen (16 + g))).mapGroup (16 + g)
    fun x => { x with filling := true }) s

/-- DMA_OWNER_MAP takes a value: engines that change owner raise their role epoch (R125, R41). -/
def State.setDmaMap (s : State) (v : Nat) : State :=
  let moved := changedBits (s.nat Dict.dmaOwnerMap) v 8
  moved.foldl (fun s n => s.roleChange (0x60 + n)) (s.setNum Dict.dmaOwnerMap v)

/-- The zero fill of a shared group that changed owner ends. -/
def State.fillDone (s : State) (g : Nat) : State := s.mapGroup (16 + g % 8) fun x => { x with filling := false }

end Sys2Proof.Machine
end

