-- ==== Sys2Proof/Machine/Aes.lean ====
section
/-! DEFINITION. AES-256 (FIPS 197), its XTS mode (IEEE 1619) over data units of whole blocks, as the model store uses
them (R484), and its GCM mode, as the key area of the boot flash does (R485). A block is 16 bytes in the order in which
they arrive. -/

namespace Sys2Proof.Machine

/-! ### The field of 256 elements -/

/-- Times x modulo x^8 + x^4 + x^3 + x + 1. -/
def gfDouble (a : Byte) : Byte := (a <<< 1) ^^^ (if bit a 7 then 0x1B else 0)

/-- The product of two elements, over the low `n` bits of the second. -/
def gfTimes (a b : Byte) : Nat → Byte
  | 0 => 0
  | n + 1 => (if bit b 0 then a else 0) ^^^ gfTimes (gfDouble a) (b >>> 1) n

/-- The inverse, zero having zero: the power 254, by seven squarings. -/
def gfInverse (a : Byte) : Byte :=
  let square := fun x => gfTimes x x 8
  (List.range 6).foldl (fun r _ => square (gfTimes r a 8)) (square a)

/-- The substitution of a byte. -/
def aesSub (a : Byte) : Byte :=
  let b := gfInverse a
  [1, 2, 3, 4].foldl (fun r n => r ^^^ b.rotateLeft n) (b ^^^ 0x63)

/-- The byte that is substituted by `a`. -/
def aesUnsub (a : Byte) : Byte := gfInverse (([1, 3, 6].foldl (fun r n => r ^^^ a.rotateLeft n) 0) ^^^ 0x05)

/-! ### Rounds -/

/-- The xor of two byte lists. -/
def xorBytes (a b : List Byte) : List Byte := List.zipWith (· ^^^ ·) a b

/-- Row r of the block turns left by `r * by'` columns: 1 to encipher, 3 to go back. -/
def aesShift (by' : Nat) (l : List Byte) : List Byte :=
  (List.range 16).map fun i => l.getD ((i + 4 * by' * (i % 4)) % 16) 0

/-- Each column times the polynomial of the coefficients. -/
def aesMix (c : List Byte) (l : List Byte) : List Byte :=
  (List.range 16).map fun i =>
    (List.range 4).foldl (fun r k => r ^^^ gfTimes (l.getD (i / 4 * 4 + (i + k) % 4) 0) (c.getD k 0) 8) 0

/-- The key's words, newest first, after `left` more. -/
def aesWords (ws : List (List Byte)) : Nat → List (List Byte)
  | 0 => ws
  | left + 1 =>
    let i := ws.length
    let last := ws.getD 0 []
    let mixed :=
      if i % 8 = 0 then
        xorBytes ((last.drop 1 ++ last.take 1).map aesSub) [(List.range (i / 8 - 1)).foldl (fun r _ => gfDouble r) 1, 0, 0, 0]
      else if i % 8 = 4 then last.map aesSub
      else last
    aesWords (xorBytes (ws.getD 7 []) mixed :: ws) left

/-- The fifteen round keys of a 256-bit key. -/
def aesKeys (key : List Byte) : List (List Byte) :=
  let w := (aesWords ((List.range 8).map fun i => (key.drop (4 * i)).take 4).reverse 52).reverse
  (List.range 15).map fun r => ((w.drop (4 * r)).take 4).flatten

/-- Encipher a block. -/
def aesEncrypt (keys : List (List Byte)) (b : List Byte) : List Byte :=
  let first := xorBytes b (keys.getD 0 [])
  let x := (List.range 13).foldl (fun x r =>
    xorBytes (aesMix [2, 3, 1, 1] (aesShift 1 (x.map aesSub))) (keys.getD (r + 1) [])) first
  xorBytes (aesShift 1 (x.map aesSub)) (keys.getD 14 [])

/-- Decipher a block. -/
def aesDecrypt (keys : List (List Byte)) (b : List Byte) : List Byte :=
  let first := xorBytes b (keys.getD 14 [])
  let x := (List.range 13).foldl (fun x r =>
    aesMix [14, 11, 13, 9] (xorBytes ((aesShift 3 x).map aesUnsub) (keys.getD (13 - r) []))) first
  xorBytes ((aesShift 3 x).map aesUnsub) (keys.getD 0 [])

/-! ### XTS -/

/-- The mask of the next block of a unit: times x modulo x^128 + x^7 + x^2 + x + 1, byte 0 the lowest. -/
def xtsNext (m : BitVec 128) : BitVec 128 := (m <<< 1) ^^^ (if bit m 127 then 0x87 else 0)

/-- `n` blocks under a cipher, each masked before and after. -/
def xtsBlocks (cipher : List Byte → List Byte) (m : BitVec 128) (l : List Byte) : Nat → List Byte
  | 0 => []
  | n + 1 =>
    let mask := wordBytes m
    xorBytes (cipher (xorBytes (l.take 16) mask)) mask ++ xtsBlocks cipher (xtsNext m) (l.drop 16) n

/-- A data unit under a 512-bit key, its first half for the data and its second for the tweak. -/
def xts (decipher : Bool) (key : List Byte) (tweak : BitVec 128) (l : List Byte) : List Byte :=
  let keys := aesKeys (key.take 32)
  let mask := bytesWord 128 (aesEncrypt (aesKeys (key.drop 32)) (wordBytes tweak))
  xtsBlocks (if decipher then aesDecrypt keys else aesEncrypt keys) mask l (l.length / 16)

/-! ### GCM (SP 800-38D), as the key area uses it (R485): nonces of 12 bytes, no further authenticated data -/

/-- The product of two blocks as elements of GCM's field, whose first bit is the most significant; `n` bits of the first
are left, of which the next is bit `n - 1`. -/
def ghashTimes (x y : BitVec 128) : Nat → BitVec 128
  | 0 => 0
  | n + 1 =>
    (if bit x n then y else 0)
      ^^^ ghashTimes x ((y >>> 1) ^^^ (if bit y 0 then 0xE1000000000000000000000000000000 else 0)) n

/-- A block as a number whose most significant bit is the block's first. -/
def blockBits (l : List Byte) : BitVec 128 := BitVec.ofNat 128 (beNat l)

/-- The bytes of a block. -/
def blockBytes (x : BitVec 128) : List Byte := (wordBytes x).reverse

/-- The hash of `n` blocks, the last filled up with zeros. -/
def ghash (h acc : BitVec 128) (l : List Byte) : Nat → BitVec 128
  | 0 => acc
  | n + 1 =>
    let b := (List.range 16).map fun i => l.getD i 0
    ghash h (ghashTimes (acc ^^^ blockBits b) h 128) (l.drop 16) n

/-- The key stream of `n` blocks from counter `c` on. -/
def gcmStream (keys : List (List Byte)) (nonce : List Byte) (c : Nat) : Nat → List Byte
  | 0 => []
  | n + 1 => aesEncrypt keys (nonce ++ (leBytes 4 c).reverse) ++ gcmStream keys nonce (c + 1) n

/-- The tag over a ciphertext. -/
def gcmTag (keys : List (List Byte)) (nonce c : List Byte) : List Byte :=
  let h := blockBits (aesEncrypt keys (List.replicate 16 0))
  let body := ghash h 0 c ((c.length + 15) / 16)
  xorBytes (blockBytes (ghashTimes (body ^^^ BitVec.ofNat 128 (8 * c.length)) h 128)) (gcmStream keys nonce 1 1)

/-- The bytes under the key stream, either way. -/
def gcmMask (keys : List (List Byte)) (nonce l : List Byte) : List Byte :=
  xorBytes l (gcmStream keys nonce 2 ((l.length + 15) / 16))

/-- Seal bytes: the ciphertext and its tag of 16 bytes. -/
def gcmSeal (key nonce l : List Byte) : List Byte :=
  let keys := aesKeys key
  let c := gcmMask keys nonce l
  c ++ gcmTag keys nonce c

/-- The bytes of a sealed item; none where its tag fails. -/
def gcmOpen (key nonce l : List Byte) : Option (List Byte) :=
  let keys := aesKeys key
  let c := l.take (l.length - 16)
  if 16 ≤ l.length ∧ gcmTag keys nonce c = l.drop (l.length - 16) then some (gcmMask keys nonce c) else none

end Sys2Proof.Machine
end

