-- ==== Sys2Proof/Machine/SaveOps.lean ====
section
/-! DEFINITION. The commit of the saved set and of the key area (R417, R485), and the rings of commit records (R546 to
R549). -/

namespace Sys2Proof.Machine

/-! ### The saved set and the key area (R417, R485) -/

/-- Is a dictionary key of an entry that the key area holds: a role key (0x1100) or an integrator key (0x7003)? -/
def keyAreaKey (k : Nat) : Bool :=
  let i := k / 1099511627776
  decide (i = 0x1100 ∨ i = 0x7003)

/-- The entries of the key area. -/
def Store.keyArea (r : Store) : Store := { nums := [], blobs := r.blobs.filter fun p => keyAreaKey p.1 }

/-- The entries of the settings area. -/
def Store.settings (r : Store) : Store := { r with blobs := r.blobs.filter fun p => !keyAreaKey p.1 }

/-- Both areas together. -/
def Store.joined (a b : Store) : Store := { a with blobs := b.blobs.foldl (fun t p => t.ins p.1 p.2) a.blobs }

/-- Is the first of two copies the older: not intact, or of the lower sequence number? -/
def olderFirst (a b : SavedCopy) : Bool := !a.intact || (b.intact && decide (a.seq < b.seq))

/-- Write into the older of two copies what is made for its sequence number, one above the higher of the two. -/
def writeOlder (a b : SavedCopy) (content : Nat → SavedCopy) : SavedCopy × SavedCopy :=
  let n := max a.seq b.seq + 1
  let c : SavedCopy := { content n with seq := n, intact := true }
  if olderFirst a b then (c, b) else (a, c)

/-- The newer intact one of two copies. -/
def newerIntact (a b : SavedCopy) : Option SavedCopy :=
  if olderFirst a b then (if b.intact then some b else none) else some a

/-- The ASCII bytes of a key's label up to its last part (R483): "SKM-". -/
def skm : List Byte := [0x53, 0x4B, 0x4D, 0x2D]

/-- FL_KEY (R483): the key of the key area. -/
def State.flKey (s : State) : List Byte := kdf Config.rootKey (skm ++ [0x46, 0x4C]) (s.blob Dict.deviceId) 32

/-- MS_KEY (R483): the key of the model store. -/
def State.msKey (s : State) : List Byte :=
  kdf Config.rootKey (skm ++ [0x4D, 0x53]) (s.blob Dict.deviceId ++ s.sec.salt) 64

/-- The nonce of an item of the key area (R485): its identifier, which is the entry's index and sub-index, 0 for
CUSTOMER_SALT, and the copy's write count, each low byte first (log 110). -/
def itemNonce (key count : Nat) : List Byte := leBytes 4 (key / 4294967296) ++ leBytes 8 count

/-- The key area as a copy of write count `n` holds it (R485): CUSTOMER_SALT and each entry, sealed. -/
def State.sealKeys (s : State) (set : Store) (n : Nat) : SavedCopy :=
  let item (k : Nat) (l : List Byte) : List Byte := gcmSeal s.flKey (itemNonce k n) l
  { items := (0, item 0 s.sec.salt) :: set.blobs.map fun p => (p.1, item p.1 p.2) }

/-- The items of a copy of the key area; none where a tag fails (R485). -/
def State.openKeys (s : State) (c : SavedCopy) : Option (Tab (List Byte)) :=
  c.items.mapM fun p => (gcmOpen s.flKey (itemNonce p.1 c.seq) p.2).map fun l => (p.1, l)

/-- Write the whole saved set and the key area into their older copies (R417, R485): the burst, if one runs, is
committed with them. Without a root key the key area stays as it is. -/
def State.commitSaved (s : State) : State :=
  let b := s.boot
  let w := writeOlder b.savedA b.savedB fun _ => { set := s.regs.sav.settings }
  let k := if s.sec.pufBad then (b.keysA, b.keysB) else writeOlder b.keysA b.keysB (s.sealKeys s.regs.sav.keyArea)
  ({ s with boot := { b with
    saveDirtyAt := none, savedA := w.1, savedB := w.2, keysA := k.1, keysB := k.2 } } : State).bump Dict.storeCount

/-! ### Commit records (R546, R547) -/

/-- Is a commit record intact: does its REC_CRC pass? -/
def recordIntact (r : BitVec 512) : Bool := crc32 ((wordBytes r).drop 4) == fld r 31 0

/-- Fields of a commit record. -/
def recSlot (r : BitVec 512) : Nat := fld r 505 504
/-- STATE. -/
def recState (r : BitVec 512) : Nat := fld r 503 502
/-- SEQ. -/
def recSeq (r : BitVec 512) : Nat := fld r 479 448
/-- LENGTH. -/
def recLength (r : BitVec 512) : Nat := fld r 447 400

/-- Is SEQ `a` newer than `b` (R24)? -/
def seqNewer (a b : Nat) : Bool :=
  let d := (a + 4294967296 - b) % 4294967296
  decide (1 ≤ d ∧ d < 2147483648)

/-- The intact record of the highest SEQ among `l`. -/
def newestOf (l : List (BitVec 512)) : Option (BitVec 512) :=
  (l.filter recordIntact).foldl (fun best r =>
    match best with
    | some b => if seqNewer (recSeq r) (recSeq b) then some r else some b
    | none => some r) none

/-- The newest record of a slot (R547). -/
def newestRecord (ring : List (BitVec 512)) (slot : Nat) : Option (BitVec 512) :=
  newestOf (ring.filter fun r => recSlot r == slot)

/-- The newest record of a usable slot (R547): COMMITTED or CONFIRMED. -/
def usableRecord (ring : List (BitVec 512)) (slot : Nat) : Option (BitVec 512) :=
  (newestRecord ring slot).filter fun r => decide (2 ≤ recState r)

/-- The active slot (R547): the usable one whose newest record has the higher SEQ. -/
def activeOf (ring : List (BitVec 512)) : Option Nat :=
  match usableRecord ring 0, usableRecord ring 1 with
  | some a, some b => some (if seqNewer (recSeq b) (recSeq a) then 1 else 0)
  | some _, none => some 0
  | none, some _ => some 1
  | none, none => none

/-- The inactive slot: B where no slot is active. -/
def inactiveOf (ring : List (BitVec 512)) : Nat := 1 - (activeOf ring).getD 0

/-- SEQ of the next record: one above the highest intact. -/
def nextSeq (ring : List (BitVec 512)) : Nat := (newestOf ring).elim 1 fun r => recSeq r + 1

/-- Write a record into the next slot of a ring of 256. -/
def ringPut (ring : List (BitVec 512)) (r : BitVec 512) : List (BitVec 512) := (ring ++ [r]).drop (ring.length - 255)

/-- Write a copy of a slot's newest record with another state and ATTEMPTS. -/
def ringCopy (ring : List (BitVec 512)) (slot state attempts : Nat) : List (BitVec 512) :=
  match newestRecord ring slot with
  | some r => ringPut ring (commitRecord (fld r 507 506) slot state attempts (nextSeq ring) (recLength r)
      (fld r 399 368) (BitVec.ofNat 256 (fld r 367 112)))
  | none => ring

/-- The running firmware confirms its slot when it first enters IN_SERVICE (R549). -/
def State.confirmFirmware (s : State) : State :=
  match newestRecord s.boot.fwRing s.boot.running with
  | some r =>
    if recState r = 2 then { s with boot := { s.boot with fwRing := ringCopy s.boot.fwRing s.boot.running 3 0 } } else s
  | none => s

end Sys2Proof.Machine
end

