-- ==== Sys2Proof/Machine/HbmOps.lean ====
section
/-! DEFINITION. The HBM's slots, the memory-side cache, the stream prefetchers, in-flight caps, DMA transfers, the
model store and the supervisor's PSRAM (R133 to R154, R117 to R122). -/

namespace Sys2Proof.Machine

/-! ### Slots of a channel (R140, R141) -/

/-- Is slot `i` of a frame reserved at share `p` (R140)? -/
def slotReserved (p i : Nat) : Bool := (i + 1) * p / 100 - i * p / 100 == 1

/-- Is the slot at the time base reserved (the frame's phase: log 24)? -/
def State.reservedNow (s : State) : Bool := slotReserved (s.nat Dict.trumpHbmShare) (s.tb % 100)

/-- The 64-byte bursts of an access (R140). -/
def burstsOf (off n : Nat) : Nat := (off + n - 1) / 64 - off / 64 + 1

/-- The requests waiting at a channel, oldest first. -/
def State.channel (s : State) (c : Nat) : List HbmReq := s.mem.chan.val [] c

/-- Change them. -/
def State.setChannel (s : State) (c : Nat) (q : List HbmReq) : State :=
  { s with mem := { s.mem with chan := s.mem.chan.put [] c q } }

/-- The oldest waiting request of a domain. -/
def State.oldest (s : State) (c : Nat) (trump : Bool) : Option HbmReq :=
  (s.channel c).find? fun r => s.isTrump r.sid == trump

/-- The request that takes the present slot of a channel (R141): `open'` says whether the oldest job request hits a row
already open and completes within the slot. -/
def State.slotWinner (s : State) (c : Nat) (open' : Bool) : Option HbmReq :=
  if s.reservedNow then (s.oldest c true).orElse fun _ => if open' then s.oldest c false else none
  else (s.oldest c false).orElse fun _ => s.oldest c true

/-! ### Prefetches (R147) -/

/-- Is the prefetcher at the end of its declared stream: as far from its base as the stream is long? -/
def Prefetcher.ended (p : Prefetcher) : Bool :=
  match p.stop with
  | some n => decide (n ≤ (p.next - p.base).natAbs)
  | none => false

/-- A running prefetcher issues a read ahead (R147). -/
def State.pfIssue (s : State) (i : Nat) : State :=
  let p := s.pf i
  let st := s.station p.station
  if !p.live then s
  else if p.ended then s.setPf i { p with live := false }
  else
    let depth : Int := s.num Dict.pfDepth * 1024
    let ahead := decide ((p.next - p.last).natAbs ≤ depth.natAbs)
    let inside := decide (0 ≤ p.next) && decide (p.next < hbmLen)
    if ahead && inside && s.hbmAllowed p.station false p.next.toNat && decide (st.tags + 8 ≤ st.cap) then
      let line := lineOf p.next.toNat
      let s := s.setPf i { p with next := p.next + p.stride }
      if (s.cacheFind line).isSome then s
      else (s.cacheFill (s.isTrump p.station) line false true true).bump Dict.pfIssued
    else s

/-! ### An HBM access (R133, R137, R141, R145) -/

/-- Count what the channel's SEC-DED check found (R133). -/
def State.eccCount (s : State) (off : Nat) (e : EccResult) : State :=
  match e with
  | .good => s
  | .corrected => s.bump Dict.hbmCorrectedCount (channelOf off)
  | .bad => s.bump Dict.hbmUncorrectableCount (channelOf off)

/-- TRUMP_MAX_WAIT: the longest head-of-queue wait of a Trump request. -/
def State.noteWait (s : State) (r : HbmReq) : State :=
  let waited := s.tb - r.since
  if s.isTrump r.sid && decide (s.nat Dict.trumpMaxWait (channelOf r.off) < waited) then
    s.setNum Dict.trumpMaxWait waited (channelOf r.off)
  else s

/-- A request is served (R133, R143): the write lands, or the data is delivered, with what the check of the channel
found. -/
def State.hbmDone (s : State) (sid off n hint : Nat) (data : Option (List Byte)) (ecc : EccResult) : State :=
  match data with
  | some d => s.memWrite sid (hbmBase + off) d hint
  | none =>
    let s := s.eccCount off ecc
    let (l, bad, s) := s.memRead sid (hbmBase + off) n hint
    if ecc = .bad then
      ((s.toErr sid (withSrc 0x05000502 sid)).poisonStep sid true).emit (.data sid (List.replicate n 0))
    else (s.poisonStep sid bad).emit (.data sid l)

/-- The next Trump request of a channel heads its queue from now on. -/
def State.newHead (s : State) (c : Nat) : List HbmReq → List HbmReq
  | [] => []
  | r :: l => if s.isTrump r.sid then { r with since := s.tb } :: l else r :: s.newHead c l

/-- The channel's slot at the time base: one 64-byte burst of the request that takes it (R140, R141). The last burst
completes the request and frees its tag. -/
def State.slotServe (s : State) (c : Nat) (open' : Bool) (ecc : EccResult) : State :=
  if s.tb < s.mem.slotAt.val 0 c then s
  else match s.slotWinner c open' with
    | none => s
    | some r =>
      let s := { s with mem := { s.mem with slotAt := s.mem.slotAt.put 0 c (s.tb + 1) } }
      let s := if !s.isTrump r.sid && s.reservedNow then s.bump Dict.trumpSlotsLent c else s
      let s := if r.left = burstsOf r.off r.n then s.noteWait r else s
      if 1 < r.left then
        s.setChannel c ((s.channel c).map fun q => if q = r then { q with left := q.left - 1 } else q)
      else
        let rest := (s.channel c).erase r
        let s := s.setChannel c (if s.isTrump r.sid then s.newHead c rest else rest)
        (s.giveTag r.sid).hbmDone r.sid r.off r.n r.hint r.data ecc

/-- HBM_ACCESS (R137, R140, R141, R143, R149): a request of up to 256 bytes in one channel. A forbidden one is refused
before it reaches the channel; one that the cache serves takes no slot; any other waits at its channel with a tag, once,
however often it is presented (log 106), unless its station may not issue. Then the channel's slot at this time is
granted. -/
def State.hbmAccess (s : State) (sid off hint n : Nat) (open' : Bool) (data : Option (List Byte)) (ecc : EccResult) :
    State :=
  let n := match data with
    | some d => d.length
    | none => n
  let c := channelOf off
  if n = 0 ∨ 2 < hint ∨ hbmLen < off + n ∨ off / 256 ≠ (off + n - 1) / 256 then s
  else if (s.rangeStatus sid data.isSome (hbmBase + off) n).isSome then s.hbmDone sid off n hint data .good
  else if (s.channel c).any fun r => r.sid == sid && r.off == off && r.n == n && r.data == data then
    s.slotServe c open' ecc
  else if !s.mayIssue sid then s.capStall sid
  else
    let whole := data.isSome && off % 128 == 0 && n % 128 == 0 && hint != 2
    if s.cacheHit off n || whole then ((s.takeTag sid).giveTag sid).hbmDone sid off n hint data ecc
    else
      let r : HbmReq := { sid := sid, off := off, n := n, hint := hint, data := data, left := burstsOf off n, since := s.tb }
      ((s.takeTag sid).setChannel c (s.channel c ++ [r])).slotServe c open' ecc

/-- The patrol scrubber reads an address in a slot that no request claims (R133). -/
def State.scrub (s : State) (off : Nat) (claimed : Bool) (ecc : EccResult) : State :=
  if claimed || decide (hbmLen ≤ off) then s
  else
    let s := s.eccCount off ecc
    if ecc = .bad then
      ({ s with mem := { s.mem with poison := s.mem.poison.put false ((hbmBase + off) / 32) true } } : State).toErr mgt
        (withSrc 0x05000502 mgt)
    else s

/-! ### DMA transfers (R117 to R122, R145) -/

/-- The bytes of a tile expanded from its zero-compressed form (R120 to R122); in a format that is not compressed, zeros
(R121, R83). -/
def zcExpand (z : ZcShape) (l : List Byte) : List Byte :=
  if zcFormat z.format.toNat false then
    (unpackZc z.format.toNat z.cols l z.rows).flatMap fun r => packRow z.format.toNat r
  else List.replicate (z.rows * rowBytes z.format.toNat z.cols) 0
/-- The bytes of a tile compressed (R120, R121); of a format that is not, as they are (log 108). -/
def zcCompress (z : ZcShape) (l : List Byte) : List Byte :=
  if zcFormat z.format.toNat false then
    let rb := rowBytes z.format.toNat z.cols
    (List.range z.rows).flatMap fun i => packZcRow z.format.toNat (unpackRow z.format.toNat (l.drop (i * rb)) z.cols)
  else l

/-- What a transfer makes of the bytes it reads: expanded where the source is compressed, and compressed where the
destination is to be (R122). -/
def DmaDesc.recode (d : DmaDesc) (l : List Byte) : List Byte :=
  let l := match d.expand with
    | some z => zcExpand z l
    | none => l
  match d.compress with
  | some z => zcCompress z l
  | none => l

/-- Is the source of a transfer a compressed tile of a format that is not compressed (R121)? -/
def DmaDesc.mismatch (d : DmaDesc) : Bool := match d.expand with
  | some z => !zcFormat z.format.toNat false
  | none => false

/-- A refused read mode (R117, R119): read modes belong to buffer memory, so any other source is read linearly. -/
def DmaDesc.refusedMode (d : DmaDesc) : Bool :=
  modeRefused d.mode || (fld d.mode 15 14 != 0 && (d.remoteSrc.isSome || (match placeOf d.src with
    | .group _ => false
    | _ => true)))

/-- What a transfer reads locally, through the read mode, and recoded; whether it was poisoned. A transposed block that is
not aligned is read as zero (R118). -/
def State.dmaRead (s : State) (sid : Nat) (d : DmaDesc) : List Byte × Bool × State :=
  let (n, f) := modeRead d.mode d.len
  if unaligned d.mode d.src then
    (d.recode (List.replicate d.len 0), d.mismatch, s.toErr sid (withSrc 0x05000405 sid))
  else
    let (l, bad, s) := s.memRead sid d.src n d.hint.toNat
    match placeOf d.src with
    | .hbm off =>
      let s := s.eccCount off d.ecc
      if d.ecc = .bad then
        (d.recode (List.replicate d.len 0), true, s.toErr sid (withSrc 0x05000502 sid))
      else (d.recode (f l), bad || d.mismatch, s)
    | _ => (d.recode (f l), bad || d.mismatch, s)

/-- What a transfer writes locally. -/
def State.dmaWrite (s : State) (sid : Nat) (d : DmaDesc) (l : List Byte) : State := s.memWrite sid d.dst l d.hint.toNat

/-- The refusals of a descriptor (R119, R145): nothing is read. -/
def DmaDesc.refusal (d : DmaDesc) (sid : Nat) : Option Word :=
  if d.hint = 3 then some (withSrc 0x05000503 sid)
  else if d.refusedMode then some (withSrc 0x05000405 sid)
  else none

/-- Must a transfer wait: for a zero fill of a buffer group (R125, R126)? -/
def State.dmaWaits (s : State) (d : DmaDesc) : Bool :=
  (d.remoteSrc.isNone && s.fillingAt d.src) || (d.remoteDst.isNone && s.fillingAt d.dst)

/-- Does a transfer make accesses that take a tag: to the HBM (R148)? -/
def DmaDesc.needsTag (d : DmaDesc) : Bool :=
  let inHbm (a : Nat) : Bool := match placeOf a with
    | .hbm _ => true
    | _ => false
  (d.remoteSrc.isNone && inHbm d.src) || (d.remoteDst.isNone && inHbm d.dst)

/-- Start the stream a descriptor declares (R146). -/
def State.dmaDeclare (s : State) (sid : Nat) (d : DmaDesc) : State :=
  match d.declared with
  | some (b, st, n) => s.declare sid b st n
  | none => s

/-- A transfer within the module. -/
def State.dmaLocal (s : State) (sid : Nat) (d : DmaDesc) : State :=
  let (l, bad, s) := s.dmaRead sid d
  (s.poisonStep sid bad).dmaWrite sid d l

/-! ### The model store (R150 to R152) -/

/-- The blocks of 4 KiB of a partition (R150), its size being in units of 10^9 bytes (log 26). -/
def partBlocks : Nat → Nat
  | 0 => 244140 | 1 => 73242187 | 2 => 73242187 | 3 => 3906250 | 4 => 15625000 | 5 => 48828125 | 6 => 19287109
  | _ => 0

/-- The place of a block's first byte in the model store's table. -/
def storeAt (part block : Nat) : Nat := part * 1099511627776 + block * 4096

/-- The active model slot (R547, R553): past a swap line, the slot that takes over there. -/
def State.activeSlot (s : State) : Option Nat :=
  match s.boot.modelSwap with
  | some (line, slot) =>
    if 0 ≤ ahead48 (floor16 (s.posAt s.sharedEncoder s.devNs)) line then some slot else s.boot.activeModel
  | none => s.boot.activeModel

/-- The slot whose image labels a sample record of a CROP_POS (R553): the old image below the swap line, the new one at or
beyond it. -/
def State.modelFor (s : State) (pos : Nat) : Option Nat :=
  match s.boot.modelSwap with
  | some (line, slot) => if 0 ≤ ahead48 pos line then some slot else s.boot.activeModel
  | none => s.boot.activeModel

/-- May a job-domain engine use the partition so (R150)? -/
def State.partAllowed (s : State) (write : Bool) (part : Nat) : Bool :=
  match part with
  | 1 => !write && s.activeSlot == some 0
  | 2 => !write && s.activeSlot == some 1
  | 3 => true
  | 4 => !write
  | 5 => true
  | 6 => true
  | _ => false

/-- A model-store command is issued (R151, R149). -/
def State.msCommand (s : State) (c : MsCmd) : State :=
  if kindOf c.sid ≠ .dma then s
  else if s.isTrump c.sid || !s.partAllowed c.write c.part || c.count = 0 || decide (32 < c.count)
      || decide (partBlocks c.part < c.block + c.count) then s.toErr c.sid (withSrc 0x05000504 c.sid)
  else if !s.mayIssue c.sid then s.capStall c.sid
  else { s.takeTag c.sid with mem := { (s.takeTag c.sid).mem with ms := s.mem.ms ++ [c] } }

/-- Bytes of the model store, as they stand on the device. -/
def readStore (m : Tab Byte) (a : Nat) : Nat → List Byte
  | 0 => []
  | n + 1 => m.val 0 a :: readStore m (a + 1) n

/-- The tweak of a block (R484). -/
def msTweak (part block : Nat) : BitVec 128 := BitVec.ofNat 128 (block % 18446744073709551616 + part * 18446744073709551616)

/-- `n` blocks of a partition from one on, deciphered (R484). -/
def State.msRead (s : State) (part block : Nat) : Nat → List Byte
  | 0 => []
  | n + 1 =>
    xts true s.msKey (msTweak part block) (readStore s.mem.store (storeAt part block) 4096) ++ s.msRead part (block + 1) n

/-- Write `n` blocks of a partition from one on, enciphered (R484). -/
def State.msWrite (s : State) (part block : Nat) (l : List Byte) : Nat → State
  | 0 => s
  | n + 1 =>
    let unit := xts false s.msKey (msTweak part block) ((List.range 4096).map fun i => l.getD i 0)
    ({ s with mem := { s.mem with
      store := putBytes s.mem.store (storeAt part block) unit
      msWritten := s.mem.msWritten + 1 } } : State).msWrite part (block + 1) (l.drop 4096) n

/-- The blocks that `n` bytes take. -/
def blocksOf (n : Nat) : Nat := (n + 4095) / 4096

/-- Poison `n` 32-byte units of the HBM from the one of an address on (R152). -/
def State.poisonUnits (s : State) (a : Nat) : Nat → State
  | 0 => s
  | n + 1 =>
    (({ s with mem := { s.mem with poison := s.mem.poison.ins (a / 32 + n) true } } : State)).poisonUnits a n

/-- A media error (R152): the status, and, of a failed read, zero blocks flagged POISONED. -/
def State.msFailed (s : State) (c : MsCmd) : State :=
  let s := (s.bump Dict.msMediaErrors).toErr c.sid (withSrc 0x05000505 c.sid)
  if c.write then s
  else
    let n := c.count * 4096
    if (s.rangeStatus c.sid true (hbmBase + c.off) n).isSome then s
    else (s.zeroRange (hbmBase + c.off) n).poisonUnits (hbmBase + c.off) ((c.off % 32 + n + 31) / 32)

/-- A command moves its blocks (R151, R152), through the HBM's checks (R137). -/
def State.msMove (s : State) (c : MsCmd) : State :=
  let n := c.count * 4096
  if c.write then
    let (l, bad, s) := s.memRead c.sid (hbmBase + c.off) n
    if bad then s
    else s.msWrite c.part c.block l c.count
  else s.memWrite c.sid (hbmBase + c.off) (s.msRead c.part c.block c.count)

/-- Command `i` of those under way completes (R152). -/
def State.msComplete (s : State) (i : Nat) (failed : Bool) : State :=
  match s.mem.ms[i]? with
  | none => s
  | some c =>
    let s := { s.giveTag c.sid with mem := { (s.giveTag c.sid).mem with ms := s.mem.ms.eraseIdx i } }
    if failed then s.msFailed c else s.msMove c

/-! ### The PSRAM (R154, R155) -/

/-- The words of a PSRAM device; the first of the regions of state, recorder and the free one, the regions lying in the
order of their table (log 105). -/
def psramWords : Nat := 8388608
/-- The first word behind the code region. -/
def psramState : Nat := 2097152
/-- The first word of the recorder region. -/
def psramRecorder : Nat := 4194304
/-- The first word of the free region. -/
def psramFree : Nat := 5242880

/-- Word `a` of a device: records waiting stand in the recorder region in their order. -/
def State.psramWord (s : State) (d : Psram) (a : Nat) : BitVec 64 :=
  if a < psramState then bytesWord 64 ((d.code.drop (8 * a)).take 8)
  else if psramRecorder ≤ a ∧ a < psramFree then
    ((s.recorder.queue.getD ((a - psramRecorder) / 8) 0).extractLsb' (64 * ((a - psramRecorder) % 8)) 64)
  else d.words.val 0 a

/-- Write word `a` of a device. -/
def Psram.put (d : Psram) (a : Nat) (w : BitVec 64) : Psram :=
  if a < psramState then
    { d with code := (List.range d.code.length).map fun i =>
        if i / 8 = a then (wordBytes w).getD (i % 8) 0 else d.code.getD i 0 }
  else { d with words := d.words.put 0 a w }

/-- Every start writes the code region of both devices anew and sets up the state and ageing regions again; what waits in
the recorder region stays (R155). -/
def State.psramStart (s : State) (image : List Byte) : State :=
  { s with mem := { s.mem with psram0 := { code := image }, psram1 := { code := image } } }

/-- The supervisor reads word `a`: from device 0; where that is bad, from device 1, and device 0 is rewritten; where both
are, the module resets (R154). `dev0`, `dev1`: what the checks find. -/
def State.psramRead (s : State) (a : Nat) (dev0 dev1 : EccResult) : State :=
  if psramWords ≤ a then s
  else
    let give (d : Psram) (s : State) : State := s.emit (.data 0xFF (wordBytes (s.psramWord d a)))
    match dev0 with
    | .good => give s.mem.psram0 s
    | .corrected => give s.mem.psram0 (s.bump Dict.psramCorrectedCount)
    | .bad =>
      if dev1 = .bad then (s.report 0x06921708).raise 4 0x06921708 0xFF
      else
        let s := s.bump Dict.psramMirrorCount
        give s.mem.psram1 { s with mem := { s.mem with psram0 := s.mem.psram0.put a (s.psramWord s.mem.psram1 a) } }

end Sys2Proof.Machine
end

