-- ==== Sys2Proof/Machine/PowerOps.lean ====
section
/-! DEFINITION. Clock islands, power domains, the power cap, ageing and margin plans (R468 to R481). -/

namespace Sys2Proof.Machine

/-! ### Islands (R468, R469) -/

/-- Is an island cap-adjustable? -/
def adjustable (i : Nat) : Bool := decide (i ≤ 25) || i == 30 || i == 35

/-- The frequency of a fixed island in MHz. -/
def fixedFreq (i : Nat) : Nat :=
  if i = 31 then 400 else if i = 33 then 1500 else if i = 36 ∨ i = 38 ∨ i = 39 then 500 else 1000

/-- The stations of an island. -/
def islandStations (i : Nat) : List Nat :=
  if i < 16 then [i, 0x10 + i, 0x80 + 2 * i, 0x81 + 2 * i]
  else if i = 24 then [0x20, 0x21, 0x22, 0x23]
  else if i = 25 then [0x24, 0x25]
  else if 26 ≤ i ∧ i ≤ 29 then [i]
  else if i = 30 then (List.range 8).map (· + 0x2A)
  else if i = 31 then (List.range 16).map (· + 0x40) ++ [0x50, 0x51]
  else if i = 33 then (List.range 8).map (· + 0x60)
  else if i = 39 then [0x52]
  else []

/-- Does an island hold a unit of the Trump domain (R10, R12)? -/
def State.islandTrump (s : State) (i : Nat) : Bool :=
  if 16 ≤ i ∧ i < 24 then s.groupTrump i else (islandStations i).any s.isTrump

/-- An island. -/
def State.island (s : State) (i : Nat) : Island := s.power.islands.val {} i

/-- Change an island. -/
def State.mapIsland (s : State) (i : Nat) (f : Island → Island) : State :=
  { s with power := { s.power with islands := s.power.islands.upd {} i f } }

/-- The committed plan (R477). -/
def Power.plan (p : Power) : PlanCopy := if p.commitB then p.planB else p.planA

/-- The other copy. -/
def Power.spare (p : Power) : PlanCopy := if p.commitB then p.planA else p.planB

/-- Is a point retired in a plan? -/
def PlanCopy.isRetired (c : PlanCopy) (i p : Nat) : Bool := (c.retired.val [] i).contains p

/-- May an island run at a point: not retired (R469)? -/
def State.pointOk (s : State) (i p : Nat) : Bool := decide (p < 8) && !s.power.plan.isRetired i p

/-- POINT_FREQ: 0 where retired. -/
def State.pointFreqOf (s : State) (i p : Nat) : Nat := if s.pointOk i p then (s.numAt Dict.pointFreq p i).toNat else 0

/-- Can an island run at `f` MHz (R45)? -/
def State.canRun (s : State) (i f : Nat) : Bool :=
  if adjustable i then (List.range 8).any fun p => s.pointOk i p && decide (f ≤ s.pointFreqOf i p)
  else decide (f ≤ fixedFreq i)

/-! ### Power domains (R471, R472) -/

/-- The buffer group of a power domain. -/
def groupOfPd (pd : Nat) : Option Nat := if 16 ≤ pd ∧ pd < 40 then some (pd - 16) else none

/-- The state of a power domain; a buffer group's follows its group (R126). -/
def State.pdStateOf (s : State) (pd : Nat) : PdState :=
  match groupOfPd pd with
  | some g =>
    match (s.group g).st with
    | .off => .off
    | .clearing => .poweringUp
    | .on => .on
    | .poweringDown => .poweringDown
  | none => (s.power.pd.val {} pd).st

/-- PD_STATE. -/
def State.pdMap (s : State) : Nat := sumNat ((List.range 64).map fun n => (s.pdStateOf n == .on).toNat * 2 ^ n)

/-- Change a power domain. -/
def State.mapPd (s : State) (pd : Nat) (f : Pd → Pd) : State :=
  { s with power := { s.power with pd := s.power.pd.upd {} pd f } }

/-- Does a resident job name a station of the domain? -/
def State.residentNames (s : State) (pd : Nat) : Bool :=
  s.residents.any fun p => (stationsOf pd).any fun sid => p.2.names sid

/-- Does no station of the domain work (R33, R34)? -/
def State.pdIdle (s : State) (pd : Nat) : Bool := !((stationsOf pd).any s.busy)

/-- The rule of R471's table for switching a domain off. -/
def State.pdRule (s : State) (pd : Nat) : Bool :=
  let stopped := s.trump.st == .stopped
  if pd < 16 then !inMap (s.nat Dict.trumpArrayMap) pd && s.pdIdle pd && !s.residentNames pd
  else if pd < 40 then s.groupMayOff (pd - 16)
  else if pd < 46 then s.pdIdle pd && !s.residentNames pd
  else if pd < 50 then stopped && s.pdIdle pd
  else if pd < 52 then
    s.pdIdle pd && !((List.range 64).any fun n => s.flag Dict.vstreamEnable n && s.nat Dict.vdCore n / 4 == pd - 50)
  else if pd < 56 then stopped && s.pdIdle pd && !s.flag Dict.coutEnable (pd - 52)
  else if pd < 58 then
    (List.range 4).all fun k => (s.fab.links.val {} (4 * (pd - 56) + k)).st == .down
  else if pd < 62 then stopped && s.sched.owner.isEmpty
  else false

/-- Does SUP grant OFF: PD_AUTO allows it and the rule holds? -/
def State.pdMayOff (s : State) (pd : Nat) : Bool := inMap (s.nat Dict.pdAuto) pd && s.pdRule pd

/-- May a domain be on: that of a disabled array and its buffer stay off (R3, R11)? -/
def State.pdMayOn (s : State) (pd : Nat) : Bool :=
  if pd < 16 then s.arrayEnabled pd else if pd < 32 then s.arrayEnabled (pd - 16) else true

/-- A refused request (R472, R480). -/
def State.pdRefuse (s : State) (pd : Nat) : State :=
  (((s.bump Dict.pdRefusedCount).report 0x02901402 pd).record 0x02901402 pd).answer 0x02901402

/-- A domain leaves ON: jobs that name a unit of it end (R370). -/
def State.pdDown (s : State) (pd outstanding : Nat) : State :=
  match groupOfPd pd with
  | some g => s.groupDown g outstanding
  | none =>
    let s := if pd < 16 ∨ (40 ≤ pd ∧ pd < 46) then s.endNaming fun j => (stationsOf pd).any j.names else s
    s.mapPd pd fun x => { x with st := .poweringDown }

/-- What waits for a domain on its way: an ON or an OFF; a request the other way takes a waiting one back (R128, R472,
log 133). -/
def State.pdWait (s : State) (pd : Nat) (w : Option Bool) : State :=
  match groupOfPd pd with
  | some g => s.mapGroup g fun x => { x with upPending := w == some true, downPending := w == some false }
  | none => s.mapPd pd fun x => { x with waiting := w }

/-- PD_REQUEST (R471, R472). -/
def State.pdRequest (s : State) (pd : Nat) (on : Bool) (outstanding : Nat) : State :=
  if on then
    if !s.pdMayOn pd then s.pdRefuse pd
    else match groupOfPd pd with
      | some g => (s.groupUp g).answer 0
      | none =>
        (s.mapPd pd fun x => match x.st with
          | .off => { x with st := .poweringUp }
          | .poweringDown => { x with waiting := some true }
          | .poweringUp => { x with waiting := none }
          | .on => x).answer 0
  else if !s.pdMayOff pd then s.pdRefuse pd
  else match s.pdStateOf pd with
    | .on => (s.pdDown pd outstanding).answer 0
    | .poweringUp => (s.pdWait pd (some false)).answer 0
    | .poweringDown => (s.pdWait pd none).answer 0
    | .off => s.answer 0

/-- GROUP_CLEAR_DONE: a group enters ON; a request for OFF that waited takes effect (R126, R472). -/
def State.groupReady (s : State) (g : Nat) : State :=
  let x := s.group g
  let s := s.groupCleared g
  if x.st = .clearing ∧ x.downPending then
    let s := s.mapGroup g fun x => { x with downPending := false }
    if s.pdMayOff (16 + g) then s.groupDown g 0 else s.pdRefuse (16 + g)
  else s

/-- PD_POWER_UP_DONE: the stations are IDLE, an array ramps up (R93); an OFF that waited takes effect. -/
def State.pdUpDone (s : State) (pd : Nat) : State :=
  let x := s.power.pd.val {} pd
  if (groupOfPd pd).isNone ∧ x.st = .poweringUp then
    let s := (s.mapPd pd fun x => { x with st := .on, waiting := none }).stationsOn pd
    let s := if pd < 16 then { s with arrays := s.arrays.upd {} pd fun a => { a with ramp := .up (s.tb + 2000) } } else s
    if x.waiting = some false then (if s.pdMayOff pd then s.pdDown pd 0 else s.pdRefuse pd) else s
  else s

/-- PD_POWER_DOWN_DONE: the stations are OFF; a controller group's channels were written back first (R134); an ON that
waited takes effect. Where the rule of R471 no longer holds (a station of the domain was started, Trump or a job started
meanwhile), the domain is not switched off: it stays on its way (R34, R134, log 102). -/
def State.pdDownDone (s : State) (pd : Nat) : State :=
  let x := s.power.pd.val {} pd
  if (groupOfPd pd).isNone ∧ x.st = .poweringDown ∧ s.pdRule pd then
    let s := if 58 ≤ pd ∧ pd < 62 then s.cacheClean (pd - 58) else s
    let s := if pd = 44 ∨ pd = 45 then { s with attn := { s.attn with atus := s.attn.atus.del (pd - 8) } } else s
    let s := if 52 ≤ pd ∧ pd < 56 then { s with couts := s.couts.del (pd - 52) } else s
    (s.stationsOff pd).mapPd pd fun _ => { st := if x.waiting = some true then .poweringUp else .off }
  else s

/-! ### The power cap (R473, R474) -/

/-- The average of the input power over CAP_WINDOW, in mW; a sample is taken every 10 us. -/
def State.powerAvg (s : State) : Nat :=
  let l := s.power.samples.take (max 1 (s.nat Dict.capWindow / 10))
  if l.isEmpty then 0 else sumNat l / l.length

/-- The islands open to the cap, in the order in which it takes them, each with its lowest point (log 43). -/
def State.capOrder (s : State) : List (Nat × Nat) :=
  let arrays := ((List.range 16).reverse.filter fun n =>
    s.arrayEnabled n && !inMap (s.nat Dict.trumpArrayMap) n).map fun n => (n, 0)
  let groups := ((List.range 8).reverse.filter fun g => !s.groupTrump (16 + g)).map fun g => (16 + g, 0)
  arrays ++ groups ++ [(30, 0), (24, 0), (25, 0), (35, 2)]

/-- The next enabled point below `p`, not below `low`. -/
def State.pointBelow (s : State) (i low p : Nat) : Option Nat :=
  ((List.range p).filter fun q => decide (low ≤ q) && s.pointOk i q).getLast?

/-- The next enabled point above `p`, not above `high`. -/
def State.pointAbove (s : State) (i high p : Nat) : Option Nat :=
  ((List.range (high + 1)).filter fun q => decide (p < q) && s.pointOk i q).head?

/-- Move an island to a point (R469); every step of the cap counts. -/
def State.capStep (s : State) (i p : Nat) : State :=
  (s.mapIsland i fun x => { x with point := p }).bump Dict.capSteps

/-- Note every island's setting where the cap acts for the first time (R474). -/
def State.capNote (s : State) : State :=
  if s.power.capActed then s
  else
    let s := s.capOrder.foldl (fun s e => s.mapIsland e.1 fun x => { x with before := some x.point }) s
    { s with power := { s.power with capActed := true } }

/-- Lower one island by one point, or report that the cap cannot be met. -/
def State.capLower (s : State) : State :=
  match s.capOrder.findSome? fun e => (s.pointBelow e.1 e.2 (s.island e.1).point).map fun p => (e.1, p) with
  | some (i, p) => s.capNote.capStep i p
  | none => (s.setNum Dict.capUnmet 1).reportEvery 60000000000 0x06901401

/-- Raise one island by one point, in the reverse order, up to its setting before the cap acted. -/
def State.capRaise (s : State) : State :=
  let open_ := s.capOrder.reverse.findSome? fun e =>
    match (s.island e.1).before with
    | some b => (s.pointAbove e.1 b (s.island e.1).point).map fun p => (e.1, p)
    | none => none
  match open_ with
  | some (i, p) =>
    let s := s.capStep i p
    { s with power := { s.power with lastRaise := s.tb } }
  | none =>
    let s := (List.range 41).foldl (fun s i => s.mapIsland i fun x => { x with before := none }) s
    { s with power := { s.power with capActed := false } }

/-- POWER_SAMPLE (R473, R474). -/
def State.powerSample (s : State) (mw : Nat) : State :=
  let s := { s with power := { s.power with samples := (mw :: s.power.samples).take 10000 } }
  let avg := s.powerAvg
  let cap := s.nat Dict.powerCap * 1000
  let s := s.setNum Dict.powerNow (min 65535 (avg / 1000) : Nat)
  if cap < avg then ({ s with power := { s.power with belowSince := none } } : State).capLower
  else
    let s := s.setNum Dict.capUnmet 0
    if avg + 5000 < cap then
      let since := s.power.belowSince.getD s.tb
      let s := { s with power := { s.power with belowSince := some since } }
      if s.power.capActed && !s.guard.lowering && decide (since + 1000000 ≤ s.tb) && decide (s.power.lastRaise + 100000 ≤ s.tb) then
        s.capRaise
      else s
    else { s with power := { s.power with belowSince := none } }

/-! ### Ageing (R475, R476) -/

/-- The power domains of an island's monitors. -/
def islandPds (i : Nat) : List Nat :=
  if i < 16 then [i]
  else if i < 24 then [16 + i]
  else if i = 24 then [40, 41, 42, 43]
  else if i = 25 then [44, 45]
  else if i < 30 then [20 + i]
  else if i = 30 then [50, 51]
  else [63]

/-- Is an island powered? -/
def State.islandPowered (s : State) (i : Nat) : Bool := (islandPds i).any fun pd => s.pdStateOf pd == .on

/-- The voltage of a point in a plan. -/
def PlanCopy.volt (c : PlanCopy) (i p : Nat) : Nat := (c.volts.val [] i).getD p 0

/-- The new voltage of a point (R476): `slack10` is the slack at the point in 0.1 ps. -/
def newVolt (guard : Nat) (c : IslandCert) (p v : Nat) (slack10 : Int) : Nat :=
  let need := 10 * (guard : Int) - slack10
  let v2 := if 0 < need then v + 5 * ceilDiv need.toNat (5 * c.sens10.getD p 0) else v
  max v2 (max (c.floor.getD p 0) v)

/-- The top enabled point of an island in a plan. -/
def PlanCopy.top (c : PlanCopy) (i : Nat) : Option Nat := ((List.range 8).filter fun p => !c.isRetired i p).getLast?

/-- The rise of a history of voltages, newest first, and over how many plans. -/
def riseOf (l : List Nat) : Nat × Nat := (l.headD 0 - l.getLastD 0, l.length - 1)

/-- MARGIN_MV and MARGIN_YEARS of an island under a plan (R479, log 44); MARGIN_LOW where it falls short. -/
def State.margins (s : State) (i : Nat) (c : PlanCopy) : State :=
  match c.top i with
  | none => s
  | some p =>
    let v := c.volt i p
    let mv := ((s.power.cert.val {} i).vmax.getD p 0) - v
    let s := s.mapIsland i fun x => { x with tops := (v :: x.tops).take 52 }
    let (rise, weeks) := riseOf (s.island i).tops
    let years := if rise = 0 then 0xFFFF else min 0xFFFE (mv * weeks * 10 / (rise * 52))
    let s := (s.setNum Dict.marginMv mv i).setNum Dict.marginYears years i
    if years < s.nat Dict.marginWarnYears then s.report 0x06901404 i else s

/-- The plan with the island's new voltages, from the committed plan and the slack found at its present point; points
above their ceiling are retired (R476). -/
def State.newPlan (s : State) (i : Nat) (slack : Int) : PlanCopy :=
  let old := s.power.plan
  let base := if s.power.prepared then s.power.spare else old
  let c := s.power.cert.val {} i
  let at_ := (s.island i).point
  let volts := (List.range 8).map fun p =>
    let v := old.volt i p
    let dv : Int := (v : Int) - ((s.island i).volt.getD at_ 0 : Nat)
    newVolt (s.nat Dict.guardPs) c p v (10 * slack + (if p = at_ then 0 else dv * c.sens10.getD p 0))
  let gone := (List.range 8).filter fun p => old.isRetired i p || decide (c.vmax.getD p 0 < volts.getD p 0)
  { seq := old.seq + 1, volts := base.volts.ins i volts, retired := base.retired.put [] i gone }

/-- Store the plan in the copy that is not committed (R477, Prepare). -/
def State.preparePlan (s : State) (c : PlanCopy) : State :=
  let p := if s.power.commitB then { s.power with planA := c, prepared := true }
    else { s.power with planB := c, prepared := true }
  ({ s with power := p } : State).setNum Dict.planState 1

/-- AGE_MEASURE (R475, R476, R479): an island that is off owes the measurement. -/
def State.ageMeasure (s : State) (i ref stressed : Nat) (slack : Int) : State :=
  if s.islandPowered i then
    let s := (s.setNum Dict.degradation ((ref - stressed) * 1000000 / max 1 ref : Nat) i).setNum Dict.slack slack i
    let s := s.mapIsland i fun x => { x with missed := false }
    if adjustable i then
      let c := s.newPlan i slack
      let old := s.power.plan
      let gone := (c.retired.val [] i).filter fun p => !old.isRetired i p
      let s := gone.foldl (fun s _ => s.report 0x06901403 i) s
      let s := (s.setNum Dict.pointsRetired (c.retired.val [] i).length i).margins i c
      if c.volts.val [] i = old.volts.val [] i ∧ c.retired.val [] i = old.retired.val [] i then s else s.preparePlan c
    else s
  else s.mapIsland i fun x => { x with missed := true }

/-- How many points a plan raises above another. -/
def raisedPoints (a b : PlanCopy) : Nat :=
  sumNat ((List.range 41).map fun i => ((List.range 8).filter fun p => decide (a.volt i p < b.volt i p)).length)

/-- MARGIN_PLAN_COMMIT (R477, R479): the prepared copy is the committed plan. -/
def State.planCommit (s : State) : State :=
  if s.power.prepared then
    let old := s.power.plan
    let new := s.power.spare
    let s := { s with power := { s.power with commitB := !s.power.commitB, prepared := false } }
    let s := (List.range 41).foldl (fun s i =>
      if adjustable i && (old.volts.val [] i != new.volts.val [] i || old.retired.val [] i != new.retired.val [] i) then
        s.mapIsland i fun x => { x with applied := false }
      else s) s
    ((s.setNum Dict.planState 2).setNum Dict.planSeq new.seq).record 0x07901480 255
      (leBytes 4 new.seq ++ leBytes 2 (raisedPoints old new))
  else s

/-- An island takes the committed plan's voltages, at its present point or the next enabled one below (R478). -/
def State.applyPlan (s : State) (i : Nat) : State :=
  let c := s.power.plan
  s.mapIsland i fun x => { x with
    volt := c.volts.val [] i
    applied := true
    point := if s.pointOk i x.point then x.point else (s.pointBelow i 0 x.point).getD x.point }

/-- Every island runs on the plan. -/
def State.planState3 (s : State) : State :=
  if s.num Dict.planState == 2 && (List.range 41).all fun i => (s.island i).applied then s.setNum Dict.planState 3 else s

/-- PLAN_APPLY_WINDOW (R478): the island's stations rest, and a Trump island's domain is STOPPED. -/
def State.planWindow (s : State) (i : Nat) : State :=
  if adjustable i && !(s.island i).applied && !((islandStations i).any s.busy)
      && (!s.islandTrump i || s.trump.st == .stopped) then (s.applyPlan i).planState3
  else s

/-- ISLAND_FREQ_NOW in MHz. -/
def State.islandFreqNow (s : State) (i : Nat) : Nat :=
  if adjustable i then s.pointFreqOf i (s.island i).point else fixedFreq i

end Sys2Proof.Machine
end

