-- ==== Sys2Proof/Machine/FrontOps.lean ====
section
/-! DEFINITION. Sliding windows: bands, row sequences, convolution and pooling on the front engines, pooling on the
vector units (R182 to R196). -/

namespace Sys2Proof.Machine

/-! ### Arguments -/

/-- A sliding-window step, whichever opcode it is (R182, R190, R195). -/
structure WinArgs where
  kh : Nat
  kw : Nat
  stride : Nat
  dil : Nat
  start : Nat
  core : Nat
  ext : Nat
  chans : Nat
  fmt : Nat
deriving DecidableEq, Repr

/-- A power-of-two field: 0 is 1, 1 is 2, 2 is 4. -/
def pow2Field (x : Nat) : Nat := 2 ^ x

/-- Is the step one that slides a window: FCONV, FPOOL, or VPOOL on a vector unit? -/
def isWindow (sid : Nat) (w : StepWord) : Bool :=
  (kindOf sid == .fe && (wordOp w == 0x21 || wordOp w == 0x22)) || (kindOf sid == .vu && wordOp w == 0x30)

/-- The window of a step (R190, R195). -/
def winArgs (sid : Nat) (w : StepWord) : WinArgs :=
  if kindOf sid == .fe && wordOp w == 0x21 then
    { kh := fld w 40 36 + 1, kw := fld w 35 31 + 1, stride := pow2Field (fld w 30 29), dil := pow2Field (fld w 28 27)
      start := fld w 25 12, core := (fld w 11 6 + 1) * 16, ext := fld w 5 0, chans := fld w 50 46 + 1
      fmt := fld w 75 71 }
  else
    { kh := fld w 68 66 + 1, kw := fld w 65 63 + 1, stride := fld w 62 60 + 1, dil := 1, start := fld w 49 36
      core := (fld w 35 30 + 1) * 16, ext := fld w 29 24, chans := fld w 57 51 + 1, fmt := fld w 75 71 }

/-- The front engines' operand pairs (R188): the accumulation, and multiply-accumulates per cycle. -/
def fePair (a b : Nat) : Option (AccKind × Nat) :=
  if a = 0x11 ∧ b = 0x0E then some (.int, 512)
  else if a = 0x11 ∧ b = 0x0D then some (.int, 256)
  else if (a = 0x0E ∨ a = 0x0F) ∧ b = 0x0E then some (.int, 512)
  else if a = 0x0A ∧ b = 0x0A then some (.log, 512)
  else if (a = 3 ∨ a = 4) ∧ (b = 3 ∨ b = 4) then some (.float, 256)
  else none

/-- Bytes of weights and bias (R189, R194). -/
def feStoreBytes (fb cin cout kh kw : Nat) (bias : Bool) : Nat :=
  ceilDiv (cin * cout * kh * kw * storeBits fb) 8 + (if bias then 4 * cout else 0)

/-- The load check of a sliding-window or weight-load step by itself (R189, R194, R195): beside the list of R194, the ports
as R189 has them (log 93). -/
def frontArgsOk (sid : Nat) (w : StepWord) : Bool :=
  let a := winArgs sid w
  if kindOf sid == .fe && wordOp w == 0x20 then
    oneInput w && wordOut w == 0 && fld w 60 56 != 31 && fld w 55 51 != 31 && !(decide (8 < fld w 70 66 + 1) && decide (8 < fld w 65 61 + 1))
      && decide (feStoreBytes (fld w 75 71) (fld w 70 66 + 1) (fld w 65 61 + 1) (fld w 60 56 + 1) (fld w 55 51 + 1)
        (bit w 50) ≤ 65536)
      && (List.range 0x13).any fun x => (fePair x (fld w 75 71)).isSome
  else if kindOf sid == .fe && wordOp w == 0x21 then
    (match fePair (fld w 75 71) (fld w 70 66) with
      | some (kind, _) => kind.isInt || fld w 58 54 == 0
      | none => false)
      && (oneInput w || fld w 53 52 == 2) && fld w 60 59 < 2 && fld w 53 52 < 3 && fld w 40 36 != 31 && fld w 35 31 != 31 && fld w 30 29 < 3
      && fld w 28 27 < 3 && a.start % 16 == 0 && outFormatOk (fld w 65 61) false
      && !(decide (8 < fld w 50 46 + 1) && decide (8 < fld w 45 41 + 1))
  else if isWindow sid w then
    formatKnown a.fmt && a.fmt != 0x12 && fld w 70 69 < 2 && fld w 59 58 < 2 && a.start % 16 == 0
      && (kindOf sid != .fe || (oneInput w && decide (a.chans ≤ 32) && !bit w 50))
  else true

/-- The FWLOAD before place `i` of a table, or, where none stands before it, the last one of the table. -/
def fwloadBefore (tbl : List StepWord) (i : Nat) : Option StepWord :=
  match ((tbl.take i).filter fun w => wordOp w == 0x20).getLast? with
  | some w => some w
  | none => (tbl.filter fun w => wordOp w == 0x20).getLast?

/-- Does an FCONV agree with the FWLOAD before it in FMT_B, CIN, COUT, KH, KW and BIAS (R194)? -/
def fconvAgrees (l w : StepWord) : Bool :=
  fld l 75 71 == fld w 70 66 && fld l 70 66 == fld w 50 46 && fld l 65 61 == fld w 45 41
    && fld l 60 56 == fld w 40 36 && fld l 55 51 == fld w 35 31 && (fld w 53 52 != 1 || bit l 50)

/-- The load check of a front engine's table (R194). -/
def frontTableOk (sid : Nat) (tbl : List StepWord) : Bool :=
  tbl.all (fun w => wordOp w < 0x10 || frontArgsOk sid w) &&
    (kindOf sid != .fe || (List.range tbl.length).all fun i =>
      match tbl[i]? with
      | some w => wordOp w != 0x21 || (match fwloadBefore tbl i with
        | some l => fconvAgrees l w
        | none => true)
      | none => true)

/-! ### Bands and lines (R182, R183) -/

/-- First and one past the last output column a step produces of an output line of `ow` columns (R182). -/
def WinArgs.produced (a : WinArgs) (ow : Nat) : Nat × Nat :=
  (a.start / a.stride - a.ext, min ow ((a.start + a.core) / a.stride + a.ext))

/-- Left and top reach of a kernel of `k` taps (R183, R184). -/
def WinArgs.before (a : WinArgs) (k : Nat) : Nat := (k - 1) / 2 * a.dil
/-- Right and bottom reach. -/
def WinArgs.after (a : WinArgs) (k : Nat) : Nat := (k - 1 - (k - 1) / 2) * a.dil

/-- The sliding steps of a station that write output port `port`, in table order. -/
def State.bandSteps (s : State) (sid port : Nat) : List StepWord :=
  (s.station sid).active.filter fun w => isWindow sid w && wordOut w == port

/-- The rows of lines that reach an input port: the lines' width, and the bands in which the tiles of one row come, first
column and number of columns of each. -/
structure Lines where
  width : Nat
  bands : List (Nat × Nat)
deriving DecidableEq, Repr

/-- The lines of a develop lane (R174), or, from its port 2, its positions (R198). -/
def State.laneLines (s : State) (cam port : Nat) : Lines :=
  let w := s.nat Dict.lineWidth cam
  let n := if port = 2 then w / max 1 (s.nat Dict.s2dFactor cam) else w
  { width := n, bands := [(0, n)] }

/-- The lines at an input port of a station (R183): those of the camera port behind it, divided by the strides of the
sliding steps between, in the bands of the last of them; a station between without a sliding step on the way passes on the
bands it takes. None where no camera port is found behind it over `fuel` stations. -/
def State.linesAt (s : State) (sid port : Nat) : Nat → Option Lines
  | 0 => none
  | fuel + 1 =>
    match s.inStream sid port with
    | none => none
    | some (_, x) =>
      let p := mapProd x.entry % 256
      if !s.isLocal (mapProd x.entry) then none
      else if kindOf p == .dev then some (s.laneLines (p - 0x40) (mapProdPort x.entry))
      else match s.bandSteps p (mapProdPort x.entry) with
        | w :: ws => (s.linesAt p (wordInA w) fuel).map fun l =>
          let n := ceilDiv l.width (winArgs p w).stride
          { width := n, bands := (w :: ws).map fun y => (((winArgs p y).produced n).1,
              ((winArgs p y).produced n).2 - ((winArgs p y).produced n).1) }
        | [] => (List.range 16).findSome? fun q => s.linesAt p q fuel

/-- How deep a chain of stations is followed. -/
def chainDepth : Nat := 16

/-- The lines of an input port behind which no camera port is found: as wide as the cores of the steps that read it reach
(log 101). -/
def State.coreLines (s : State) (sid port : Nat) : Lines :=
  let ends := ((s.station sid).active.filter fun w => isWindow sid w && wordInA w == port).map fun w =>
    (winArgs sid w).start + (winArgs sid w).core
  let n := ends.foldl max 0
  { width := n, bands := [(0, max 1 n)] }

/-- The lines at an input port. -/
def State.lines (s : State) (sid port : Nat) : Lines := (s.linesAt sid port chainDepth).getD (s.coreLines sid port)

/-- The width of the lines at an input port. -/
def State.width (s : State) (sid port : Nat) : Nat := (s.lines sid port).width

/-- The bands in which the tiles of one row reach an input port. -/
def State.bands (s : State) (sid port : Nat) : List (Nat × Nat) := (s.lines sid port).bands

/-! ### Taking tiles in (R186, R189) -/

/-- A station's sliding-window state. -/
def State.front (s : State) (sid : Nat) : Front := s.fronts.val {} sid

/-- Change it. -/
def State.mapFront (s : State) (sid : Nat) (f : Front → Front) : State := { s with fronts := s.fronts.upd {} sid f }

/-- How the row sequence of a stream ends before the tile of this SEQ (R186): not noted, at a line timeout (true), or with
an area frame (false). -/
def State.breakAt (s : State) (id : Nat) (seq : Word) : Option Bool :=
  (s.breaks.find? fun b => b.1 == id && b.2.1 == seq).map (·.2.2)

/-- Is a tile the last of a frame of an area head (R174, R186)? -/
def State.frameLast (s : State) (d : Desc) : Bool :=
  let src := fld d 399 392
  kindOf src == .dev && s.isLocal (fld d 413 392) && bit d 494 && s.num Dict.headKind (src - 0x40) == 2

/-- Place an item at an input port: its lines and columns, and where the next one falls. A tile that ends a line timeout
(`whole`) is one line of the port, whatever its columns (R186). -/
def FePort.place (p : FePort) (l : Lines) (chans : Nat) (whole : Bool) (it : Item) : FePort :=
  let (b0, bw) := l.bands.getD p.band (0, 1)
  let (lines, cols) := match it with
    | .tile d => (max 1 (descRows d / chans), if whole then max (descCols d) l.width else descCols d)
    | .gap _ => (p.lines, min 128 (bw - p.col))
  let t : FeTile := { seq := p.seq, row := p.row, lines := lines, col := b0 + p.col, cols := cols, item := it }
  let p := { p with tiles := p.tiles ++ [t], lines := lines, at_ := match it with
    | .tile d => BitVec.ofNat 32 (fld d 447 416) + 1
    | .gap _ => p.at_ + 1 }
  if p.col + cols < bw then { p with col := p.col + cols }
  else if p.band + 1 < l.bands.length then { p with col := 0, band := p.band + 1 }
  else { p with col := 0, band := 0, row := p.row + lines }

/-- End the row sequence at an input port: the next tile is the first of a new one (R186). -/
def FePort.endSeq (p : FePort) (timeout : Bool) : FePort :=
  let n := if p.col = 0 ∧ p.band = 0 then p.row else p.row + p.lines
  if n = 0 then p
  else { p with ends := p.ends.ins p.seq (n, timeout), seq := p.seq + 1, row := 0, col := 0, band := 0 }

/-- End the row sequence at an input port where the stream's next tile begins a new one. -/
def State.syncEnd (s : State) (sid port : Nat) : State :=
  match s.inStream sid port with
  | none => s
  | some (id, _) =>
    let n := ((s.front sid).ports.val {} port).at_
    match s.breakAt id n with
    | some timeout =>
      { s.mapFront sid (fun f => { f with ports := f.ports.upd {} port (·.endSeq timeout) }) with
        breaks := s.breaks.filter fun b => !(b.1 == id && b.2.1 == n) }
    | none => s

/-- Take one item of a station's input port in. -/
def State.intakeOne (s : State) (sid port chans : Nat) (it : Item) : State :=
  let s := s.syncEnd sid port
  let (whole, last) := match it with
    | .tile d => (kindOf (fld d 399 392) == Kind.dev
        && s.breakAt (fld d 479 464) (BitVec.ofNat 32 (fld d 447 416) + 1) == some true, s.frameLast d)
    | .gap _ => (false, false)
  let l := s.lines sid port
  let add (p : FePort) : FePort :=
    if last then (p.place l chans whole it).endSeq false else p.place l chans whole it
  (s.mapFront sid fun f => { f with ports := f.ports.upd {} port add }).syncEnd sid port

/-- Take in every item that has arrived at a port, at most `fuel`. A front engine keeps the credit until it releases the
tile (R189); a vector unit gives it back (R31). -/
def State.intakeAll (s : State) (sid port chans : Nat) : Nat → State
  | 0 => s
  | n + 1 =>
    match takeItem ((s.station sid).inq.val [] port) with
    | none => s
    | some (it, r) =>
      let s := s.mapStation sid fun st => { st with inq := st.inq.put [] port r }
      let s := match it, s.inStream sid port with
        | .tile _, some (i, _) => if kindOf sid == Kind.fe then s else s.giveCredit i
        | _, _ => s
      (s.intakeOne sid port chans it).intakeAll sid port chans n

/-- The number of items an input port holds, each missing tile counted. -/
def itemCount : List Item → Nat
  | [] => 0
  | .tile _ :: r => itemCount r + 1
  | .gap n :: r => itemCount r + max n 1

/-- Take in what has arrived at the input port of a step: what the step consumed at its start, which lends it no flags
but through the rows that read it (R187), then the port's items. -/
def State.intake (s : State) (sid port chans : Nat) (r : Running) : Running × State :=
  let mine := r.ins.filter fun p => p.1 == port
  let s := mine.foldl (fun s p => s.intakeOne sid port chans p.2) s
  let s := (s.intakeAll sid port chans (itemCount ((s.station sid).inq.val [] port))).syncEnd sid port
  (if mine.isEmpty then r else { word := r.word, ins := r.ins.filter fun p => p.1 != port }, s)

/-! ### Output rows (R185, R186) -/

/-- The number of output rows of an ended sequence of `n` lines: after a line timeout, every row that reads the timeout
tile; else one to each `stride` lines. -/
def WinArgs.rowsOf (a : WinArgs) (n : Nat) (timeout : Bool) : Nat :=
  if timeout then (n - 1 + a.before a.kh) / a.stride + 1 else ceilDiv n a.stride

/-- The next output row of a step, as (sequence, row): past the end of a sequence, the first of the next. -/
def WinArgs.nextRow (a : WinArgs) (p : FePort) (q : Nat × Nat) : Nat × Nat :=
  match p.ends.look q.1 with
  | some (n, timeout) => if a.rowsOf n timeout ≤ q.2 then (q.1 + 1, 0) else q
  | none => q

/-- Are the lines that output row `v` of sequence `q` reads present, or the sequence ended (R185)? -/
def WinArgs.rowReady (a : WinArgs) (p : FePort) (q v : Nat) : Bool :=
  (p.ends.look q).isSome || (p.seq == q && decide (v * a.stride + a.after a.kh < p.row))

/-- Does output row `v` of sequence `q` read a tile? -/
def WinArgs.reads (a : WinArgs) (q v : Nat) (t : FeTile) (lo hi : Int) : Bool :=
  let top : Int := (v * a.stride : Nat) - (a.before a.kh : Nat)
  let bot : Int := (v * a.stride : Nat) + (a.after a.kh : Nat)
  t.seq == q && decide ((t.row : Int) ≤ bot) && decide (top < (t.row + t.lines : Nat))
    && decide ((t.col : Int) ≤ hi) && decide (lo < (t.col + t.cols : Nat))

/-- Has a step done with a tile: no row it has yet to produce reads it (R189)? -/
def WinArgs.doneWith (a : WinArgs) (p : FePort) (q : Nat × Nat) (t : FeTile) : Bool :=
  let q := a.nextRow p q
  decide (t.seq < q.1) || (t.seq == q.1 && decide (((t.row + t.lines : Nat) : Int) ≤
    (q.2 * a.stride : Nat) - (a.before a.kh : Nat)))

/-- The sliding steps of a station's table that read a port, with their places. -/
def State.readers (s : State) (sid port : Nat) : List (Nat × StepWord) :=
  ((List.range (s.station sid).active.length).filterMap fun i => (s.station sid).active[i]?.map fun w => (i, w)).filter
    fun p => isWindow sid p.2 && wordInA p.2 == port

/-- The sequence whose rows a sliding step of a station is at. -/
def State.stepSeq (s : State) (sid : Nat) (x : Nat × StepWord) : Nat :=
  let f := s.front sid
  ((winArgs sid x.2).nextRow (f.ports.val {} (wordInA x.2)) (f.rows.val (0, 0) x.1)).1

/-- Note on the streams of an output port the row sequences that its steps have all passed: what they emit next begins a
new one (R186). -/
def State.noteEnd (s : State) (sid port : Nat) : State :=
  let steps := ((List.range (s.station sid).active.length).filterMap fun i =>
    (s.station sid).active[i]?.map fun w => (i, w)).filter fun p => isWindow sid p.2 && wordOut p.2 == port
  let f := s.front sid
  match (steps.map (s.stepSeq sid)).min? with
  | none => s
  | some q =>
    if f.ended.val 0 port < q then
      let timeout := steps.any fun x => (((f.ports.val {} (wordInA x.2)).ends.look (q - 1)).map (·.2)).getD false
      let s := s.mapFront sid fun f => { f with ended := f.ended.ins port q }
      (s.outStreams sid port).foldl (fun s p => { s with breaks := s.breaks ++ [(p.1, p.2.next, timeout)] }) s
    else s

/-- Note the ends of row sequences on every output port of a sliding station, once it has emitted what it computed. -/
def State.noteEnds (s : State) (sid : Nat) : State :=
  if (kindOf sid == .fe || kindOf sid == .vu) && ((s.station sid).running.map (·.outs.isEmpty)).getD true then
    (List.range 16).foldl (fun s port => s.noteEnd sid port) s
  else s

/-- Release the tiles that every reader has done with; a front engine's producer has its credit back (R189). -/
def State.releaseTiles (s : State) (sid port : Nat) : State :=
  let f := s.front sid
  let p := f.ports.val {} port
  let rs := s.readers sid port
  let gone (t : FeTile) : Bool := rs.all fun x =>
    (winArgs sid x.2).doneWith p (f.rows.val (0, 0) x.1) t
  let n := ((p.tiles.filter gone).filter fun t => match t.item with
    | .tile _ => true
    | .gap _ => false).length
  let s := s.mapFront sid fun f => { f with
    ports := f.ports.upd {} port fun p => { p with tiles := p.tiles.filter fun t => !gone t } }
  match s.inStream sid port with
  | some (i, _) => if kindOf sid == .fe then s.mapStream i fun x => { x with credits := x.credits + n } else s
  | none => s

/-! ### Reading the window -/

/-- The tiles of a window with their payloads, the line width, and the lines of the sequence where it has ended. -/
structure Win where
  tiles : List (FeTile × TileData)
  width : Nat
  lines : Option Nat
  chans : Nat
deriving DecidableEq, Repr

/-- Does the window hold a position: inside the line and the sequence? -/
def Win.inside (w : Win) (y x : Int) : Bool :=
  decide (0 ≤ y) && decide (0 ≤ x) && decide (x < w.width) && (match w.lines with
    | some n => decide (y < n)
    | none => true)

/-- The code of channel `c` at a position inside; `z` where no tile brought it. -/
def Win.code (w : Win) (z y x c : Nat) : Nat :=
  match w.tiles.find? fun t => decide (t.1.row ≤ y ∧ y < t.1.row + t.1.lines ∧ t.1.col ≤ x ∧ x < t.1.col + t.1.cols) with
  | some (t, d) => (d.rows.getD ((y - t.row) * w.chans + c) []).getD (x - t.col) z
  | none => z

/-- The code at any position, with padding (R183): the zero code, or the nearest column and line. -/
def Win.padded (w : Win) (pad : Bool) (z c : Nat) (y x : Int) : Nat :=
  if w.inside y x then w.code z y.toNat x.toNat c
  else if pad then
    let yy := clampI 0 (match w.lines with
      | some n => (n : Int) - 1
      | none => y) y
    w.code z (yy.toNat) (clampI 0 ((w.width : Int) - 1) x).toNat c
  else z

/-- Read the payloads of the tiles of a window, counting mismatches (R83, R191). -/
def State.readWin (s : State) (sid fmt chans : Nat) (zc : Bool) : List FeTile → List (FeTile × TileData) × Bool × State
  | [] => ([], false, s)
  | t :: r =>
    let (d, mis, s) := s.readTile sid fmt false zc t.item (t.lines * chans) t.cols
    let s := if mis && !t.told then
        (if kindOf sid == .fe then s.bump Dict.feFormatMismatchCount sid
          else s.bump Dict.formatMismatchCount (arrayOf sid))
      else s
    let (l, bad, s) := s.readWin sid fmt chans zc r
    (({ t with told := t.told || mis }, d) :: l, d.bad || bad, s)

/-- A port's tiles with those marked whose mismatch has been counted: a tile counts once, whatever steps and rows read
it (R191). -/
def FePort.mark (p : FePort) (read : List (FeTile × TileData)) : FePort :=
  let told := (read.map (·.1)).filter (·.told)
  { p with tiles := p.tiles.map fun t => { t with told := t.told || told.any fun u => { u with told := t.told } == t } }

/-- The flags, deadline and TAG an output row takes from the tiles it reads (R19, R47, R187): the TAG is that of the row
`row`, where a tile brought it. -/
def Running.ofWindow (r : Running) (tiles : List FeTile) (row : Nat) (origin : Bool) : Running :=
  let r := tiles.foldl (fun r t => r.absorb 0 t.item false) r
  let tag := tiles.findSome? fun t => match t.item with
    | .tile d => if t.row ≤ row ∧ row < t.row + t.lines then some (fld d 111 48) else none
    | .gap _ => none
  { r with ins := [], tag := tag.getD 0, tagged := origin && tag.isSome }

/-! ### Convolution (R192, R193) -/

/-- The taps of a kernel in the order of the passes (R193): kernel row and column. -/
def taps (kh kw : Nat) : List (Nat × Nat) :=
  let run (n : Nat) : List (List Nat) := chunks 7 n (List.range n)
  (run kh).flatMap fun rs => (run kw).flatMap fun cs => rs.flatMap fun a => cs.map fun b => (a, b)

/-- One output element: the initial accumulator and the products in order (R192). -/
def convElem (kind : AccKind) (a : WinArgs) (fb scale : Nat) (pad : Bool) (w : Win) (weights : List Nat) (v u co : Nat)
    (init : Acc32) : Acc32 :=
  let z := zeroCode a.fmt
  (taps a.kh a.kw).foldl (fun acc t =>
    let y : Int := (v * a.stride : Nat) + ((t.1 : Int) - ((a.kh - 1) / 2 : Nat)) * a.dil
    let x : Int := (u * a.stride : Nat) + ((t.2 : Int) - ((a.kw - 1) / 2 : Nat)) * a.dil
    (List.range a.chans).foldl (fun acc ci =>
      let act := w.padded pad z ci y x
      let wt := weights.getD (((co * a.kh + t.1) * a.kw + t.2) * a.chans + ci) 0
      match acc with
      | .flt f => .flt (add32 f (mulExact (decodeElem a.fmt act) (decodeElem fb wt)))
      | .int i run =>
        .int i (run + (match kind with
          | .log => logProduct scale a.fmt act fb wt
          | _ => (if a.fmt = 0x11 then (act : Int) else (decodeElem a.fmt act).toInt) * (decodeElem fb wt).toInt)))
      acc) init

/-- RELU: a negative result becomes zero (R190). -/
def Acc32.relu : Acc32 → Acc32
  | .flt (.fin true m e) => if m = 0 then .flt (.fin true m e) else .flt .zero
  | .flt (.inf true) => .flt .zero
  | .int v r => .int (if v < 0 then 0 else v) r
  | x => x

/-- Cycles of one output row (R193). -/
def fconvCycles (a : WinArgs) (cout w rate : Nat) : Nat :=
  let n := if a.kh ≤ 7 ∧ a.kw ≤ 7 then a.kh * a.kw else 49 * (ceilDiv a.kh 7 * ceilDiv a.kw 7)
  ceilDiv (w * a.chans * cout * n) rate + 16

/-- Split a row of elements into output tiles of 128 columns and convert them (R187): by tile, channels as rows. -/
def State.rowTiles (s : State) (conv : State → List (List Acc32) → OutTile × State) :
    Bool → List (List (List Acc32)) → List OutTile × State
  | _, [] => ([], s)
  | first, c :: r =>
    let (o, s) := conv s c
    let o := { o with sot := some first, eot := some r.isEmpty }
    let (l, s) := s.rowTiles conv false r
    (o :: l, s)

/-- Cut channel rows into tiles of 128 columns. -/
def tileCols (rows : List (List Acc32)) (cols : Nat) : List (List (List Acc32)) :=
  (List.range (ceilDiv cols 128)).map fun i => rows.map fun r => (r.drop (128 * i)).take 128

/-- Read the partial sums of an output row, its tiles side by side. -/
def State.readParts (s : State) (sid f chans : Nat) : List Item → List (List Nat) × Bool × State
  | [] => (List.replicate chans [], false, s)
  | it :: r =>
    let (d, mis, s) := s.readTile sid f false false it chans 128
    let s := if mis then s.bump Dict.feFormatMismatchCount sid else s
    let (rows, bad, s) := s.readParts sid f chans r
    ((List.range chans).map fun i => d.rows.getD i [] ++ rows.getD i [], d.bad || bad, s)

/-- Finish a sliding step's row: its tiles wait for emission, its next row stands, tiles are released. -/
def State.rowDone (s : State) (sid : Nat) (r : Running) (outs : List OutTile) (q v : Nat) : State :=
  let pc := (s.station sid).pc
  let s := s.mapFront sid fun f => { f with rows := f.rows.put (0, 0) pc (q, v + 1) }
  (s.keep sid { r with outs := outs, computed := true }).releaseTiles sid (wordInA r.word)

/-- FCONV (R189 to R193): one output row of the band, once its input rows are present. -/
def State.fconv (s : State) (sid : Nat) : State :=
  match (s.station sid).running with
  | none => s
  | some r =>
    let w := r.word
    if wordOp w != 0x21 || r.computed || kindOf sid != .fe then s
    else
      let a := winArgs sid w
      let port := wordInA w
      let (r, s) := s.intake sid port a.chans r
      let s := (s.keep sid r).noteEnds sid
      let f := s.front sid
      let p := f.ports.val {} port
      let (q, v) := a.nextRow p (f.rows.val (0, 0) (s.station sid).pc)
      match fePair a.fmt (fld w 70 66) with
      | none => s
      | some (kind, rate) =>
        if !a.rowReady p q v then s
        else
          let width := s.width sid port
          let (u0, u1) := a.produced (ceilDiv width a.stride)
          let cout := fld w 45 41 + 1
          let n := u1 - u0
          let init := fld w 53 52
          match s.feedN sid (wordInB w) r (if init = 2 then ceilDiv n 128 else 0) with
          | none => s
          | some (parts, r, s) =>
            let lo : Int := (u0 * a.stride : Nat) - (a.before a.kw : Nat)
            let hi : Int := ((u1 - 1) * a.stride : Nat) + (a.after a.kw : Nat)
            let mine := p.tiles.filter fun t => a.reads q v t lo hi
            let (tiles, bad, s) := s.readWin sid a.fmt a.chans false mine
            let s := s.mapFront sid fun f => { f with ports := f.ports.upd {} port (·.mark tiles) }
            let accFmt := if kind.isInt then 0x0C else 0x01
            let (pr, bad2, s) := s.readParts sid accFmt cout parts
            let win : Win := { tiles := tiles, width := width, lines := (p.ends.look q).map (·.1), chans := a.chans }
            let g : MulArgs := { fa := a.fmt, fb := fld w 70 66, mx := false, out := fld w 65 61, outMx := false
                                 round := fld w 60 59, scale := fld w 58 54, init := init, swap := false, k := 0, n := 0
                                 m := 0 }
            let elem (co u : Nat) : Acc32 × Bool :=
              let i0 := if init = 1 then accOf kind (f.bias.getD co 0)
                else if init = 2 then accOf kind ((pr.getD co []).getD (u - u0) 0) else accOf kind 0
              let x := (convElem kind a g.fb g.scale (bit w 26) win f.weights v u co i0).endRun
              (if bit w 51 then x.1.relu else x.1, x.2)
            let rows := (List.range cout).map fun co => (List.range n).map fun i => elem co (u0 + i)
            let sats := sumNat (rows.map fun l => (l.filter (·.2)).length)
            let s := (s.bump Dict.accSatCount sid sats).bump Dict.feBusyCycles sid (fconvCycles a cout n rate)
            let conv (s : State) (c : List (List Acc32)) : OutTile × State :=
              s.drainRows sid kind { g with n := (c.headD []).length } c
            let (outs, s) := s.rowTiles conv true (tileCols (rows.map fun l => l.map (·.1)) n)
            let r := r.ofWindow mine (v * a.stride) (s.portOrigin sid port)
            s.rowDone sid { r with poisoned := r.poisoned || bad || bad2 || f.bad } outs q v

/-! ### FWLOAD (R189) -/

/-- FWLOAD: the weight store from the tile's payload, weights in their order and then the bias. -/
def State.fwload (s : State) (sid : Nat) : State :=
  match (s.station sid).running with
  | none => s
  | some r =>
    if wordOp r.word != 0x20 || kindOf sid != .fe then s
    else
      let w := r.word
      match s.feed sid (wordInA w) r with
      | none => s
      | some (it, r, s) =>
        let fb := fld w 75 71
        let cin := fld w 70 66 + 1
        let cout := fld w 65 61 + 1
        let kh := fld w 60 56 + 1
        let kw := fld w 55 51 + 1
        let n := cin * cout * kh * kw
        let wb := ceilDiv (n * storeBits fb) 8
        let fits := match it with
          | .tile d => fld d 507 503 == fb && !bit d 502 && !bit d 501
          | .gap _ => true
        let s := if fits then s else s.bump Dict.feFormatMismatchCount sid
        let (b, bad, s) := match it with
          | .tile d => if fits && !bit d 498 then s.memRead sid (fld d 319 272) (fld d 351 332) else ([], !fits, s)
          | .gap _ => ([], true, s)
        let codes := if b.isEmpty then List.replicate n (zeroCode fb) else unpackRow fb (b.take wb) n
        let bias := if bit w 50 then (chunks 4 cout (b.drop wb)).map leNat else []
        let s := s.mapFront sid fun f => { f with
          fmt := fb, cin := cin, cout := cout, kh := kh, kw := kw, weights := codes, bias := bias
          bad := bad || r.poisoned }
        s.finishStep sid r

/-! ### Pooling (R195, R196) -/

/-- Is `a` larger than `b`? -/
def numAbove (a b : Num) : Bool :=
  match a, b with
  | .nan, _ => false
  | _, .nan => false
  | .inf n, .inf m => !n && m
  | .inf n, _ => !n
  | _, .inf m => m
  | .fin n1 m1 e1, .fin n2 m2 e2 =>
    let q := min e1 e2
    decide (scaleTo n2 m2 e2 q < scaleTo n1 m1 e1 q)

/-- The quotient of a finite value by `d`, exact but for a sticky bit far below every format's rounding. -/
def divNum (d : Nat) : Num → Num
  | .fin n m e =>
    let x := m * 2 ^ 160
    .fin n (x / d * 2 + (if x % d = 0 then 0 else 1)) (e - 161)
  | v => v

/-- Exact sum for integer formats and UQ16, FP32 sums for the others (R196). -/
def poolSum (f : Nat) (l : List Num) : Num :=
  if decide (0x0C ≤ f) then l.foldl (fun a x =>
    match a, x with
    | .fin n1 m1 e1, .fin n2 m2 e2 => addExact n1 m1 e1 n2 m2 e2
    | a, _ => a) .zero
  else match l with
    | [] => .zero
    | x :: r => r.foldl add32 (round32 x)

/-- One pooled element's code: the window's codes in row-major order, positions outside left out (R196). For an average
the value to convert. -/
def poolMax (f : Nat) (codes : List Nat) : Nat :=
  if codes.any fun c => decodeElem f c == .nan then (convert f none .nan).code
  else match codes with
    | [] => zeroCode f
    | c :: r => r.foldl (fun a x => if numAbove (decodeElem f x) (decodeElem f a) then x else a) c

/-- The codes of a pooling window. -/
def poolCodes (a : WinArgs) (w : Win) (v u c : Nat) : List Nat :=
  (List.range a.kh).flatMap fun i => (List.range a.kw).filterMap fun j =>
    let y : Int := ((v * a.stride + i : Nat) : Int) - ((a.kh - 1) / 2 : Nat)
    let x : Int := ((u * a.stride + j : Nat) : Int) - ((a.kw - 1) / 2 : Nat)
    if w.inside y x then some (w.code (zeroCode a.fmt) y.toNat x.toNat c) else none

/-- Output tiles of codes unconverted (a maximum), but that a log zero is written as its one code (R61). -/
def codeTile (f : Nat) (zc : Bool) (rows : List (List Nat)) (cols : Nat) : OutTile :=
  { bytes := (rows.map (·.map (canonCode f))).flatMap (if zc then packZcRow f else packRow f), format := f, zc := zc, rows := rows.length
    cols := cols }

/-- The pooled tiles of a row: by tile of 128 columns. -/
def State.poolTiles (s : State) (sid : Nat) (a : WinArgs) (avg stoch zc : Bool) (win : Win) (v u0 n : Nat)
    : Nat → List Nat → List OutTile × State
  | _, [] => ([], s)
  | k, i :: r =>
    let c0 := 128 * i
    let cols := min 128 (n - c0)
    let codes (c : Nat) : List (List Nat) := (List.range cols).map fun j => poolCodes a win v (u0 + c0 + j) c
    let (o, s) :=
      if avg then
        s.writeRows sid a.fmt false stoch zc ((List.range a.chans).map fun c => (codes c).map fun l =>
          divNum (max 1 l.length) (poolSum a.fmt (l.map (decodeElem a.fmt)))) cols
      else (codeTile a.fmt zc ((List.range a.chans).map fun c => (codes c).map (poolMax a.fmt)) cols, s)
    let o := { o with sot := some (k == 0), eot := some r.isEmpty }
    let (l, s) := s.poolTiles sid a avg stoch zc win v u0 n (k + 1) r
    (o :: l, s)

/-- FPOOL and VPOOL, opcode `op` (R182, R187, R195, R196): one output row of the band. -/
def State.pool (s : State) (sid op : Nat) : State :=
  match (s.station sid).running with
  | none => s
  | some r =>
    let w := r.word
    if wordOp w != op || r.computed || !isWindow sid w then s
    else
      let a := winArgs sid w
      let port := wordInA w
      let (r, s) := s.intake sid port a.chans r
      let s := (s.keep sid r).noteEnds sid
      let f := s.front sid
      let p := f.ports.val {} port
      let (q, v) := a.nextRow p (f.rows.val (0, 0) (s.station sid).pc)
      if !a.rowReady p q v then s
      else
        let width := s.width sid port
        let (u0, u1) := a.produced (ceilDiv width a.stride)
        let lo : Int := (u0 * a.stride : Nat) - (a.before a.kw : Nat)
        let hi : Int := ((u1 - 1) * a.stride : Nat) + (a.after a.kw : Nat)
        let mine := p.tiles.filter fun t => a.reads q v t lo hi
        let (tiles, bad, s) := s.readWin sid a.fmt a.chans (kindOf sid == .vu) mine
        let s := s.mapFront sid fun f => { f with ports := f.ports.upd {} port (·.mark tiles) }
        let win : Win := { tiles := tiles, width := width, lines := (p.ends.look q).map (·.1), chans := a.chans }
        let n := u1 - u0
        let zc := bit w 50 && zcFormat a.fmt false
        let (outs, s) := s.poolTiles sid a (fld w 70 69 == 1) (fld w 59 58 == 1) zc win v u0 n 0
          (List.range (ceilDiv n 128))
        let r := r.ofWindow mine (v * a.stride) (s.portOrigin sid port)
        s.rowDone sid { r with poisoned := r.poisoned || bad } outs q v

end Sys2Proof.Machine
end

