-- ==== Sys2Proof/Machine/ArgChecks.lean ====
section
/-! DEFINITION. The load checks of the stations' tables beyond R32: one function over all stations (R82, R194, R305,
R319). -/

namespace Sys2Proof.Machine

/-- The five formats of keys, values, queries and outputs (R299). -/
def kvFormat (f : Nat) : Bool := f == 1 || f == 3 || f == 4 || f == 5 || f == 6

/-- Does format `q` hold every value of format `k` (R305)? -/
def holdsFormat (q k : Nat) : Bool :=
  match q with
  | 1 => kvFormat k
  | 3 => k == 3 || k == 5 || k == 6
  | 4 => k == 4 || k == 5 || k == 6
  | 5 => k == 5
  | 6 => k == 6
  | _ => false

/-- Is a BF16 score scale finite and above zero (R304, R305)? -/
def scaleOk (x : Nat) : Bool := decide (0 < x ∧ x < 0x7F80)

/-- The load check of an ATU's step (R304, R305, R319). -/
def attnArgsOk (w : StepWord) : Bool :=
  if wordOp w = 0x10 then
    let q := fld w 57 53
    kvFormat q && kvFormat (fld w 52 48) && kvFormat (fld w 47 43) && fld w 59 58 < 3 && fld w 42 41 < 2
      && scaleOk (fld w 37 22) && !(bit w 38 && q == 6) && (!bit w 40 || holdsFormat q (fld w 52 48))
  else fld w 75 73 < 4

/-- What the chapter of a station's opcodes accepts. -/
def argsOk : ArgCheck := fun sid tbl =>
  match kindOf sid with
  | .ma | .half | .mve => tbl.all fun w => wordOp w < 0x10 || arrayArgsOk sid w
  | .fe | .vu => frontTableOk sid tbl
  | .atu => tbl.all fun w => wordOp w < 0x10 || attnArgsOk w
  | _ => true

end Sys2Proof.Machine
end

