-- ==== Sys2Proof/Machine/Stations.lean ====
section
/-! DEFINITION. The meanings of the station commands: tiles, steps, control opcodes, tables, stream maps, faults
(chapter 2). -/

namespace Sys2Proof.Machine

/-! ### Tables and maps -/

/-- TABLE_LOAD (R32, R38, R39, R108). -/
def State.tableLoad (s : State) (sid : Nat) (tbl : List StepWord) : State :=
  if !s.exists' sid then s.refuse (withSrc 0x03000205 sid)
  else match (s.station sid).shadow with
    | .armed _ _ => s.refuse (withSrc 0x02000211 sid)
    | _ =>
      match s.tableCheck argsOk sid tbl with
      | some w => s.refuse w
      | none => (s.mapStation sid fun x => { x with shadow := .loaded tbl }).answer 0

/-- Does a station accept a switch condition now (R37)? -/
def State.armAllowed (s : State) (sid : Nat) (c : SwitchCond) : Bool :=
  !s.isTrump sid || !s.trumpRuns || (match c with
    | .atSwap _ => true
    | _ => false)

/-- TABLE_ARM (R35, R37). -/
def State.tableArm (s : State) (sid : Nat) (c : SwitchCond) : State :=
  match (s.station sid).shadow with
  | .loaded t => if s.armAllowed sid c then s.mapStation sid fun x => { x with shadow := .armed t c } else s
  | _ => s

/-- TABLE_DISARM (R38): the slot returns to LOADED. With a switch in the same cycle the disarm is refused, and the switch
takes place: at once between two steps, else as the step in flight completes, the table still armed; or it has just taken
place, and the slot holds the table that was active. -/
def State.tableDisarm (s : State) (sid : Nat) (same : Bool) : State :=
  match (s.station sid).shadow with
  | .armed t c =>
    if same && s.switchBetween sid t c then
      (s.mapStation sid fun x => { x.switch t with seq := .run }).refuse (withSrc 0x02000212 sid)
    else if same && s.switchInStep sid c then s.refuse (withSrc 0x02000212 sid)
    else s.mapStation sid fun x => { x with shadow := .loaded t }
  | _ => if same then s.refuse (withSrc 0x02000212 sid) else s

/-- Does an entry's TRUMP bit agree with its stream ID, and is the ID used (R23, R26)? -/
def mapIdOk (e : MapEntry) : Bool :=
  let i := mapStream e
  i != 0 && (mapTrump e == decide (i < 0x8000))

/-- Is an address in another module, or in this one the address of a station there is? -/
def State.addrOk (s : State) (a : Nat) : Bool := !s.isLocal a || s.exists' (a % 256)

/-- The refusal of one entry of a stream map (R16, R39, R374, R403); none where it is in order. -/
def State.entryBad (s : State) (e : MapEntry) : Option Word :=
  let c := mapCons e
  let remote := s.isLocal (mapProd e) != s.isLocal c
  if fld e 127 124 ≠ 1 then some (withSrc 0x02000202 (c % 256))
  else if !s.addrOk (mapProd e) then some (withSrc 0x03000205 (mapProd e % 256))
  else if !s.addrOk c then some (withSrc 0x03000205 (c % 256))
  else if !mapIdOk e
      || (mapViaQueue e && s.isLocal c && (!s.queueOn (Machine.mapQueue e) || s.queueTrump (Machine.mapQueue e) != mapTrump e))
      || (remote && !mapViaQueue e) || (mapTrump e && addrDomain c != addrDomain (s.addrOf 0)) then
    some (withSrc 0x02000210 (c % 256))
  else none

/-- Do two entries feed one input port, or carry one stream (R27)? -/
def mapClash (a b : MapEntry) : Bool :=
  mapStream a == mapStream b || (mapCons a == mapCons b && mapConsPort a == mapConsPort b)

/-- The entries of a map that name a station of this module (R403). -/
def State.mapMine (s : State) (es : List MapEntry) : List MapEntry :=
  es.filter fun e => s.isLocal (mapProd e) || s.isLocal (mapCons e)

/-- The ports of a station as streams bind them: of each stream, its ID and its port as consumer or producer. -/
def State.portsOf (s : State) (sid : Nat) : List (Nat × Nat × Bool) :=
  s.streams.flatMap fun p =>
    (if s.isLocal (mapCons p.2.entry) && mapCons p.2.entry % 256 == sid then [(p.1, mapConsPort p.2.entry, true)] else [])
      ++ if s.isLocal (mapProd p.2.entry) && mapProd p.2.entry % 256 == sid then [(p.1, mapProdPort p.2.entry, false)]
        else []

/-- The streams after a map is loaded: its entries anew, a remote consumer's without credits (R404), in place of those of the same ID or input port. -/
def putMap (t : Tab Stream) (credits : MapEntry → Nat) (es : List MapEntry) : Tab Stream :=
  es.foldl (fun t e => Tab.ins (t.filter fun p => !mapClash p.2.entry e) (mapStream e)
    { entry := e, credits := credits e }) t

/-- STREAM_MAP_LOAD (R23, R26, R27, R39, R41, R374, R403): refused, or loaded, the stations whose ports change taking a
role change. Trump streams change only while the domain is stopped (R349). -/
def State.mapLoad (s : State) (es : List MapEntry) (credits : Nat) : State :=
  let mine := s.mapMine es
  match mine.findSome? s.entryBad with
  | some w => s.refuse w
  | none =>
    if (mine.zipIdx.any fun a => mine.zipIdx.any fun b => a.2 < b.2 && mapClash a.1 b.1) then
      s.refuse (withSrc 0x02000210 (mapCons (mine.headD 0) % 256))
    else if s.trumpRuns && mine.any mapTrump then s
    else
      let s' := { s with streams := putMap s.streams (fun e => if s.isLocal (mapCons e) then credits else 0) mine }
      let s' := { s' with breaks := s'.breaks.filter fun b => !(mine.any fun e => Machine.mapStream e == b.1) }
      let s' := { s' with fab := { s'.fab with flow := s'.fab.flow.filter fun f => !(mine.any fun e => Machine.mapStream e == f.1) } }
      let changed := stationIds.filter fun sid => s.portsOf sid != s'.portsOf sid
      (changed.foldl (fun s sid => s.roleChange sid) s').answer 0

/-! ### Starting and clearing -/

/-- May a station be started now: a Trump one while the domain runs (R348), a unit jobs own only where the owner names
it (R354)? -/
def State.startAllowed (s : State) (sid : Nat) : Bool :=
  if s.isTrump sid then s.trump.st == .running
  else match kindOf sid with
    | .ma | .vu | .half | .mve | .atu => s.sched.owner.any fun id => (s.job? id).elim false (·.names sid)
    | _ => true

/-- An IDLE station enters RUN at step 0 (R33), its rounding generator loaded with `seed` (R68). Where the active slot is
empty, a table armed for END or a yield is taken first: no active table's END comes before it (R35, log 86). -/
def Station.start (st : Station) (seed : Word) : Station :=
  if st.seq = .idle then
    let st := if st.active.isEmpty then
        match st.shadow with
        | .armed t .atEnd => st.switch t
        | .armed t .atYield => st.switch t
        | _ => st
      else st
    if st.active.isEmpty then st
    else { st with seq := .run, pc := 0, loops := [], yielded := false, rng := some seed }
  else st

/-- A station starts; if it left IDLE, the producers of its remote streams are sent their credits (R404). -/
def State.leaveIdle (s : State) (sid : Nat) : State :=
  let was := (s.station sid).seq
  let s := s.mapStation sid fun x => x.start (BitVec.ofNat 32 (s.nat Dict.roundSeed sid))
  if was = .idle && (s.station sid).seq == .run then s.credit fun _ x => mapCons x.entry % 256 == sid else s

/-- STATION_START. -/
def State.stationStart (s : State) (sid : Nat) : State :=
  if s.exists' sid && s.startAllowed sid then s.leaveIdle sid else s

/-- FENCE_DONE (R33): a station blocked on a FENCE resumes once its last tile has been accepted. -/
def State.fenceDone (s : State) (sid : Nat) : State :=
  if s.fenceMet sid then s.control sid 3 fun st w => { st.advance w with seq := .run } else s

/-- A tile reaches a station of this module (R17). -/
def State.tileReceive (s : State) (dst port : Nat) (d : Desc) : State :=
  if s.isLocal dst then s.receive (dst % 256) port d else s

/-- Meaning of TILE_RECEIVE (R17, R22, R25, R39, R42, R528). -/
def execTileReceive (t : Nat) (dst : BitVec 24) (port : BitVec 4) (d : Desc) (s : State) :
    Host.Outcome State Fault Refusal := .next ((s.at t).tileReceive dst.toNat port.toNat d)

/-- Meaning of STEP_START (R31, R33, R37). -/
def execStepStart (t : Nat) (st : BitVec 8) (s : State) : Host.Outcome State Fault Refusal :=
  .next ((s.at t).stepStart st.toNat)

/-- Meaning of TILE_EMIT (R19, R24, R27, R40, R47, R48); a row sequence may end with it (R186). -/
def execTileEmit (t : Nat) (st : BitVec 8) (addr scale : BitVec 48) (sot eot : Bool) (s : State) :
    Host.Outcome State Fault Refusal := .next (((s.at t).tileEmit st.toNat addr.toNat scale.toNat sot eot).noteEnds st.toNat)

/-- Meaning of NOP (R29). -/
def execNop (t : Nat) (st : BitVec 8) (s : State) : Host.Outcome State Fault Refusal :=
  .next ((s.at t).control st.toNat 0 fun x w => { x.advance w with seq := .run })

/-- Meaning of LOOP (R29, R30). -/
def execLoop (t : Nat) (st : BitVec 8) (s : State) : Host.Outcome State Fault Refusal :=
  .next ((s.at t).control st.toNat 1 Station.loop)

/-- Meaning of ENDLOOP (R29). -/
def execEndloop (t : Nat) (st : BitVec 8) (s : State) : Host.Outcome State Fault Refusal :=
  .next ((s.at t).control st.toNat 2 Station.endLoop)

/-- Meaning of FENCE (R29). -/
def execFence (t : Nat) (st : BitVec 8) (s : State) : Host.Outcome State Fault Refusal :=
  .next ((s.at t).fence st.toNat)

/-- Meaning of FENCE_DONE (R33). -/
def execFenceDone (t : Nat) (st : BitVec 8) (s : State) : Host.Outcome State Fault Refusal :=
  .next ((s.at t).fenceDone st.toNat)

/-- Meaning of END (R29, R33, R35). -/
def execEndTable (t : Nat) (st : BitVec 8) (s : State) : Host.Outcome State Fault Refusal :=
  .next ((s.at t).endTable st.toNat)

/-- Meaning of TABLE_LOAD (R32, R38, R39). -/
def execTableLoad (t : Nat) (st : BitVec 8) (table : List StepWord) (s : State) : Host.Outcome State Fault Refusal :=
  .next ((s.at t).tableLoad st.toNat table)

/-- Meaning of TABLE_ARM (R35, R37). -/
def execTableArm (t : Nat) (st : BitVec 8) (cond : SwitchCond) (s : State) : Host.Outcome State Fault Refusal :=
  .next ((s.at t).tableArm st.toNat cond)

/-- Meaning of TABLE_DISARM (R38). -/
def execTableDisarm (t : Nat) (st : BitVec 8) (sameCycle : Bool) (s : State) : Host.Outcome State Fault Refusal :=
  .next ((s.at t).tableDisarm st.toNat sameCycle)

/-- Meaning of STREAM_MAP_LOAD (R26, R39, R41, R403). -/
def execStreamMapLoad (t : Nat) (entries : List MapEntry) (credits : Nat) (s : State) :
    Host.Outcome State Fault Refusal := .next ((s.at t).mapLoad entries credits)

/-- Meaning of STATION_START (R33, R68). -/
def execStationStart (t : Nat) (st : BitVec 8) (s : State) : Host.Outcome State Fault Refusal :=
  .next ((s.at t).stationStart st.toNat)

/-- STATION_FAULT: a fault's word is of class 0x04. One of an array (R101) counts by its kind; on a half it is one of what
the halves share, for HALF_FENCE reports those of its own units, and faults both (R105). -/
def State.stationFault (s : State) (sid : Nat) (w : Word) : State :=
  if fld w 31 24 ≠ 4 then s
  else
    let runs := (s.station sid).seq != .off && (s.station sid).seq != .fault && s.exists' sid
    let arr := isArray sid && fld w 15 8 == 3
    let s := if arr && runs then s.countFault sid (fld w 7 0) else s
    if kindOf sid == .half && arr then s.faultHalves sid w else s.faultStation sid (withSrc w sid)

/-- Meaning of STATION_FAULT (R33, R101, R102, R105, R531 to R533). -/
def execStationFault (t : Nat) (st : BitVec 8) (status : Word) (s : State) : Host.Outcome State Fault Refusal :=
  .next ((s.at t).stationFault st.toNat status)

/-- Meaning of STATION_CLEAR (R33, R41, R106, R532, R533). -/
def execStationClear (t : Nat) (st : BitVec 8) (s : State) : Host.Outcome State Fault Refusal :=
  .next ((s.at t).clearStation st.toNat)

end Sys2Proof.Machine
end

