-- ==== Sys2Proof/Machine/WriteGate.lean ====
section
/-! DEFINITION. What every write of an entry passes before its own conditions: the role and the service state (R415,
R419, R540). -/

namespace Sys2Proof.Machine

/-- May an entry be written in the service state (R540): it lies in the 0x1000, 0x7000 or 0x8000 range of R438, each up
to 0xFF above its index, which takes in FW_STAGE? -/
def serviceWritable (e : Ent) : Bool := e.i / 256 == 0x10 || e.i / 256 == 0x70 || e.i / 256 == 0x80

/-- The abort a write of `e` meets whatever the value: the role first, then the service state; none where it passes. -/
def State.gate (s : State) (role : Role) (e : Ent) : Option Word :=
  if !role.reaches e.wr then some abRole
  else if s.sec.serviceState && !serviceWritable e then some abAccess
  else none

/-- A burst of saved writes begins or goes on (R417). -/
def State.savedWrite (s : State) (e : Ent) : State :=
  if e.pers == .saved then { s with boot := { s.boot with saveDirtyAt := some s.tb } } else s

/-- A write that carries its own effect: refused with the abort of the gate, or done by `f`, which also answers. -/
def State.gated (s : State) (role : Role) (e : Ent) (f : State → Word × State) : Word × State :=
  match s.gate role e with
  | some w => (w, s)
  | none =>
    let r := f s
    if r.1 = 0 then (0, r.2.savedWrite e) else r

/-- An abort of the dictionary is a refusal whose source is 0x70: hosts that subscribe to such refusals hear of it
(R431). -/
def State.noteAbort (s : State) (w : Word) : State := if fld w 31 8 = 0x027011 then s.event 3 w else s

/-- Give the answer of a write: the abort code or status, or zero. -/
def finish (r : Word × State) : State := (r.2.answer r.1).noteAbort r.1

end Sys2Proof.Machine
end

