-- ==== Sys2Proof/Machine/TrumpOps.lean ====
section
/-! DEFINITION. Starting and stopping the Trump domain and fixing its arrays (R346 to R350). -/

namespace Sys2Proof.Machine

/-! ### The program and its certificate (R44, R45, R149, R327) -/

/-- What the image in TRUMP_PROGRAM says; none where the object is empty. -/
def State.image (s : State) : Option TrumpImage :=
  let b := s.blob Dict.trumpProgram
  if b.isEmpty then none else some (Config.trumpImage b)

/-- The tables a station holds, its active one first. -/
def Station.tables (st : Station) : List (List StepWord) :=
  (if st.active.isEmpty then [] else [st.active]) ++ (match st.shadow with
    | .empty => []
    | .loaded t => [t]
    | .armed t _ => [t])

/-- The loaded Trump tables, the two sets of an adapter station among them (R327), by station. -/
def State.trumpTables (s : State) (img : TrumpImage) : List (Nat × List StepWord) :=
  s.trumpStations.flatMap fun sid =>
    match img.adapter with
    | some a =>
      if a.stations.contains sid then [(sid, a.set0.val [] sid), (sid, a.set1.val [] sid)]
      else (s.station sid).tables.map fun t => (sid, t)
    | none => (s.station sid).tables.map fun t => (sid, t)

/-- The stream map of the Trump domain: the entries in force of its streams (R23). -/
def State.trumpStreams (s : State) : List MapEntry := (s.streams.filter fun p => decide (p.1 < 0x8000)).map (·.2.entry)

/-- The arrays of TRUMP_ARRAY_MAP. -/
def State.trumpArrays (s : State) : List Nat := (List.range 16).filter fun n => inMap (s.nat Dict.trumpArrayMap) n

/-- The islands with a Trump-domain station or group. -/
def State.trumpIslands (s : State) : List Nat := (List.range 41).filter s.islandTrump

/-- The certificate check (R45). -/
def State.certMatches (s : State) (img : TrumpImage) : Bool :=
  img.hash == Config.tablesHash (s.trumpTables img) s.trumpStreams
    && img.cert.split == s.trumpArrays.map (fun n => inMap (s.nat Dict.trumpSplitMap) n)
    && img.cert.hbmShare == s.nat Dict.trumpHbmShare
    && s.trumpIslands.all fun i => s.canRun i (img.cert.islandFreq.val 0 i)

/-- The sum of the caps of the Trump-domain stations (R149). -/
def State.capSum (s : State) : Nat := s.trumpStations.foldl (fun a sid => a + (s.station sid).cap) 0

/-- Write the image's caps (R149). -/
def State.writeCaps (s : State) (img : TrumpImage) : State :=
  s.trumpStations.foldl (fun s sid => s.mapStation sid fun x => { x with cap := img.cert.caps.val 64 sid }) s

/-- The adapter-bank check (R327): the bank objects are the image's, and both banks lie in the staging window. -/
def State.banksMatch (s : State) (img : TrumpImage) : Bool :=
  match img.adapter with
  | none => true
  | some a =>
    a.base == s.nat Dict.adapterBank0Base && a.bytes == s.nat Dict.adapterBankBytes
      && decide (s.nat Dict.adapterStageBase ≤ a.base)
      && decide (a.base + 2 * a.bytes ≤ s.nat Dict.adapterStageBase + s.nat Dict.adapterStageLength)

/-- A Trump-domain unit held under R533. -/
def State.trumpHeld (s : State) : Option Nat := s.trumpStations.find? fun sid => (s.station sid).held

/-- The scheduler's splits and joins of the Trump arrays, of those that are IDLE (R103, R348). -/
def State.trumpSplits (s : State) : State :=
  s.trumpArrays.foldl (fun s n =>
    if s.splitIdle n then s.setSplit n (inMap (s.nat Dict.trumpSplitMap) n) else s) s

/-- Is every Trump array split or whole as TRUMP_SPLIT_MAP says (R348, step 6)? -/
def State.splitsMade (s : State) : Bool :=
  s.trumpArrays.all fun n => s.arraySplit n == inMap (s.nat Dict.trumpSplitMap) n

/-- The checks of R348 in order: the first that fails, and the state, the caps written and the splits made on the way. -/
def State.startChecks (s : State) : Option Word × State :=
  match s.image with
  | none => (some 0x02700E05, s)
  | some img =>
    if !s.certMatches img then (some (withSrc 0x02000213 mgt), s)
    else
      let s := s.writeCaps img
      if s.nat Dict.trumpTagReserve < s.capSum then (some (withSrc 0x02000507 mgt), s)
      else if !s.banksMatch img then (some (withSrc 0x02000213 mgt), s)
      else match s.trumpHeld with
        | some sid => (some (withSrc 0x04000221 sid), s)
        | none =>
          let s := s.trumpSplits
          if !s.splitsMade then (some (withSrc 0x02000213 mgt), s)
          else (none, { s with trump := { s.trump with cert := img.cert, programHash := img.hash, adapter := img.adapter } })

/-! ### Start (R346, R348) -/

/-- On entry to IN_SERVICE every queue mark is cleared (R541); firmware confirms its slot (R549). -/
def State.enterService (s : State) : State :=
  let s := ({ s with boot := { s.boot with phase := .inService } } : State).confirmFirmware
  { s with queues := { s.queues with
    q := s.queues.q.mapVal {} fun x => { x with mark := none } } }

/-- A start fails: STOPPED, and the status is reported (R348). -/
def State.startFails (s : State) (w : Word) : State := s.trumpStopped.report w

/-- The sleep of the links that carry Trump streams ends when the domain starts (R394). -/
def State.wakeTrumpLinks (s : State) : State :=
  (List.range 8).foldl (fun s k =>
    if inMap (s.nat Dict.fabTrumpLinks) k then s.mapLink k fun l =>
      { l with rxAsleep := false, txAsleep := false, waking := if l.txAsleep then some s.tb else l.waking }
    else s) s

/-- TRUMP_CONTROL written 1 in STOPPED (R346, R348, R541). -/
def State.trumpStart (s : State) : State :=
  let s := if s.boot.phase = .test ∨ s.boot.phase = .recovery then s.enterService else s
  let s := { s with trump := { s.trump with st := .starting } }
  let s := (s.setNum Dict.trumpControl 1).wakeTrumpLinks
  match s.startChecks with
  | (some w, s) => s.startFails w
  | (none, s) => s

/-- A write of 1 to TRUMP_CONTROL (R346): an access abort in STOPPING and in the service state (R540). -/
def State.writeStart (s : State) : Word × State :=
  match s.trump.st with
  | .stopped => if s.sec.serviceState then (abAccess, s) else (0, s.trumpStart)
  | .stopping => (abAccess, s)
  | _ => (0, s)

/-- A write of 0 to TRUMP_CONTROL (R346). -/
def State.writeStop (s : State) : Word × State := (0, s.trumpStop)

/-- Load set 0 into the adapter stations, set 1 into their shadow slots (R329). -/
def State.loadSets (s : State) : State :=
  match s.trump.adapter with
  | none => s
  | some a => a.stations.foldl (fun s sid =>
      s.mapStation sid fun x => { x with active := a.set0.val [] sid, shadow := .loaded (a.set1.val [] sid) }) s

/-- The weights of an adapter by identity (R329, R330): 0 is the one built into the program. -/
def State.adapterWeights (s : State) (id : Nat) : Option (List Byte) :=
  if id = 0 then s.trump.adapter.map (·.builtIn) else (s.adapt.images.look id).map (·.weights)

/-- The HBM offset of an adapter bank (R327). -/
def State.bankBase (s : State) (b : Nat) : Nat := s.nat Dict.adapterBank0Base + b * s.nat Dict.adapterBankBytes

/-- A candidate that waits for a bank takes one in EMPTY, which is then LOADING (R331). -/
def State.adaptFill (s : State) : State :=
  let a := s.adapt
  match a.cand with
  | some c =>
    if a.st = .trained && a.bank c.bank != .loading && a.bank c.bank != .sealed then
      match [0, 1].find? fun b => a.bank b == .empty with
      | some b => { s with adapt := { a.setBank b .loading with cand := some { c with bank := b } } }
      | none => s
    else s
  | none => s

/-- The live adapter is loaded into bank 0, LIVE; bank 1 is EMPTY (R329). A candidate whose bank that takes waits for a
bank again (log 47). -/
def State.loadAdapter (s : State) : State :=
  match s.trump.adapter with
  | none => s
  | some _ =>
    let s := match s.adapterWeights (s.nat Dict.adapterLiveId) with
      | some w => s.putHbm (hbmBase + s.bankBase 0) w
      | none => s
    let st := match s.adapt.st with
      | .validating => AdaptState.trained
      | .gated => .trained
      | .awaitingApproval => .trained
      | x => x
    let s := { s with adapt := { s.adapt with bank0 := .live, bank1 := .empty, st := st, swapped := false } }
    s.adaptFill

/-- What the stations and units of the domain hold at its start: sliding windows and lanes are fresh, DEC and TRK empty
(R184, R171, R203, R211, R213). -/
def State.freshDomain (s : State) : State :=
  { s with
    fronts := s.fronts.mapVal {} fun x => { x with ports := [], rows := [], ended := [] }
    breaks := []
    cams := s.cams.mapVal {} Cam.fresh
    dec := { bucket := s.dec.bucket, slotsUsed := s.dec.slotsUsed, nextSlot := s.dec.nextSlot }
    trk := {} }

/-- Has a station a table to run at a start? -/
def Station.hasTable (st : Station) : Bool :=
  !st.active.isEmpty || (match st.shadow with
    | .armed _ _ => true
    | _ => false)

/-- Can every Trump station with a table leave IDLE (R348, R532)? -/
def State.trumpReady (s : State) : Bool :=
  s.trumpStations.all fun sid => (s.station sid).seq == .idle || ((s.station sid).seq == .off && !(s.station sid).hasTable)

/-- A sliding step whose BAND_START plus core exceeds the width of its source's lines (R194). -/
def State.tooWide (s : State) : Option Nat :=
  s.trumpStations.find? fun sid => (s.station sid).active.any fun w =>
    isWindow sid w && decide (s.width sid (wordInA w) < (winArgs sid w).start + (winArgs sid w).core)

/-- The refusal of a table of the two sets as the adapter stations load them (R32, R39); none where all are in order. -/
def State.setsRefused (s : State) (a : AdapterPart) : Option Word :=
  a.stations.findSome? fun sid =>
    match s.tableCheck argsOk sid (a.set0.val [] sid) with
    | some w => some w
    | none => s.tableCheck argsOk sid (a.set1.val [] sid)

/-- TRUMP_STARTED: every station leaves IDLE in one cycle (R348), once the stations have taken the tables of an adaptable
program (R32, R329). -/
def State.trumpStarted (s : State) : State :=
  if s.trump.st = .starting && s.trumpReady then
    match s.startChecks with
    | (some w, s) => s.startFails w
    | (none, s0) =>
      match s0.trump.adapter.bind s0.setsRefused with
      | some w => s0.startFails w
      | none =>
      let s := (List.range 16).foldl (fun s n => s.startRefs n) s0.loadSets.freshDomain
      let s := s.trumpStations.foldl (fun s sid => s.leaveIdle sid) s
      match s.tooWide with
      | some sid => s0.startFails (withSrc 0x02000210 sid)
      | none => ({ s with trump := { s.trump with st := .running } } : State).loadAdapter.wakeStrings
  else s

/-- TRUMP_STOPPED: every Trump station is at rest (R346). -/
def State.trumpHalted (s : State) : State :=
  if s.trump.st = .stopping && s.trumpStations.all fun sid =>
      (s.station sid).seq == .idle || (s.station sid).seq == .fault || (s.station sid).seq == .off then
    s.trumpStopped
  else s

/-! ### The arrays of the domain (R347) -/

/-- Move an array between the domains: jobs that name it end, its units take a role change, its buffer is zeroed. -/
def State.moveArray (s : State) (n : Nat) : State :=
  let s := s.endNaming fun j => inMap (j.map 303 288) n
  let s := ([n, 0x10 + n] ++ halvesOf n).foldl (fun s sid => s.roleChange sid) s
  s.zeroRange (groupBase n) (groupLen n)

/-- Is a value of TRUMP_ARRAY_MAP within what R347 allows? -/
def State.arrayMapOk (s : State) (v : Nat) : Bool :=
  let bits := (List.range 16).filter fun n => inMap v n
  bits.all s.arrayEnabled && decide (1 ≤ bits.length ∧ bits.length ≤ 8)
    && ((List.range 16).all fun n => !inMap (s.nat Dict.trumpSplitMap) n || inMap v n)

/-- Is a value of TRUMP_SPLIT_MAP within TRUMP_ARRAY_MAP? -/
def State.splitMapOk (s : State) (v : Nat) : Bool :=
  (List.range 16).all fun n => !inMap v n || inMap (s.nat Dict.trumpArrayMap) n

/-- A write of TRUMP_ARRAY_MAP (R347). -/
def State.writeArrayMap (s : State) (v : Nat) : Word × State :=
  if s.trumpRuns then (abAccess, s)
  else if !s.arrayMapOk v then (abRange, s)
  else
    let moved := (List.range 16).filter fun n => inMap v n != inMap (s.nat Dict.trumpArrayMap) n
    let s' := moved.foldl (fun s n => s.moveArray n) s
    (0, s'.setNum Dict.trumpArrayMap v)

/-- A write of TRUMP_SPLIT_MAP (R347). -/
def State.writeSplitMap (s : State) (v : Nat) : Word × State :=
  if s.trumpRuns then (abAccess, s) else if !s.splitMapOk v then (abRange, s) else (0, s.setNum Dict.trumpSplitMap v)

/-- The default of TRUMP_ARRAY_MAP: the lowest-numbered enabled array (R347). -/
def State.arrayMapDefault (s : State) : Nat :=
  match (List.range 16).find? s.arrayEnabled with
  | some n => 2 ^ n
  | none => 0

end Sys2Proof.Machine
end

