-- ==== Sys2Proof/Machine/JobFlow.lean ====
section
/-! DEFINITION. Submitting, blocking, loading, switching and ending jobs (R351 to R370). -/

namespace Sys2Proof.Machine

/-! ### The checks of a descriptor (R351, R352, R365, R533) -/

/-- DESC_CRC, GEN, the reserved fields and the range of every field (R351). -/
def descriptorOk (d : Desc) : Bool :=
  descCrcOk d && fld d 511 508 == 1 && fld d 504 496 == 0 && fld d 257 256 == 0 && fld d 103 16 == 0
    && (bit d 507 || fld d 463 432 == 0) && decide (fld d 383 352 < nsPerS) && fld d 351 304 % 4096 == 0
    && decide (fld d 231 224 ≤ 190) && decide (fld d 223 216 ≤ 64) && fld d 215 168 % 4096 == 0
    && decide (fld d 135 120 ≤ 6144)

/-- Does a map of the descriptor name a unit a job may not have: of the Trump domain, disabled, or held? -/
def State.unitsBad (s : State) (j : Job) : Bool :=
  ((List.range 16).any fun n => inMap (j.map 303 288) n && (!s.arrayEnabled n || inMap (s.nat Dict.trumpArrayMap) n))
    || ((List.range 8).any fun g => inMap (j.map 271 264) g && s.groupTrump (16 + g)) || s.unitHeld j

/-- Is a module address in the HBM and outside the Trump region (R352, log 48)? -/
def State.jobAddressOk (s : State) (a : Nat) : Bool :=
  match placeOf a with
  | .hbm o => !s.inTrumpRegion o
  | _ => false

/-- The conditions between fields (R352). -/
def State.fieldsOk (s : State) (j : Job) : Bool :=
  (j.map 287 272 &&& j.map 303 288) == j.map 287 272
    && decide (j.map 119 104 ≤ 8192 * ((List.range 8).filter fun g => inMap (j.map 271 264) g).length)
    && s.jobAddressOk (j.map 351 304) && s.jobAddressOk (j.map 215 168)

/-- Do two jobs form a group (R365)? -/
def groupOk (a b : Job) : Bool :=
  bit a.desc 507 && bit b.desc 507 && a.partner == b.map 495 464 && b.partner == a.map 495 464
    && bit a.desc 506 != bit b.desc 506 && a.map 303 288 == b.map 303 288 && a.map 287 272 == b.map 287 272
    && a.map 287 272 == a.map 303 288 && (a.map 263 260 &&& b.map 263 260) == 0
    && (a.map 259 258 &&& b.map 259 258) == 0 && (a.map 271 264 &&& b.map 271 264) == 0

/-- The status that refuses a descriptor (R352); none where it is accepted. -/
def State.jobRefusal (s : State) (j : Job) : Option Word :=
  let id := j.map 495 464
  if !descriptorOk j.desc then some 0x02700E01
  else if id = 0 ∨ s.live id then some 0x02700E02
  else if s.unitsBad j then some 0x02700E03
  else if !s.fieldsOk j then some 0x02700E01
  else if bit j.desc 507 && s.live j.partner && !((s.job? j.partner).elim false fun p => groupOk j p) then
    some 0x02700E04
  else none

/-- Accept a job: READY, its partner told, and a candidate chosen (R353, R356, R365). -/
def State.accept (s : State) (j : Job) : State :=
  let id := j.map 495 464
  let two := bit j.desc 507 && s.live j.partner
  let s := { s with sched := { s.sched with
    jobs := s.sched.jobs.ins id { j with order := s.sched.submitted, paired := two }
    submitted := s.sched.submitted + 1 } }
  let s := if two then s.mapJob j.partner fun p => { p with paired := true } else s
  s.schedule

/-- Submit a descriptor (R352): a refusal is reported, and answered. -/
def State.submit (s : State) (d : Desc) : Word × State :=
  let j : Job := { desc := d }
  match s.jobRefusal j with
  | some w => (w, s.report w)
  | none => (0, s.accept j)

/-- Take the oldest unread record of a queue and free its cells. -/
def State.takeRecord (s : State) (q : Nat) : Option Packet × List Byte × State :=
  match (s.queue q).unread with
  | p :: r =>
    let l := s.packetBytes p
    let s := s.mapQueue q fun x => { x with unread := r }
    (some p, l, (s.freePacket q p.cells).tryExchange q)
  | [] => (none, [], s)

/-- The oldest record of JOB_QUEUE is submitted: its first 64 bytes are the descriptor. No job is accepted in the
service state (R540). -/
def State.submitQueued (s : State) : State :=
  if s.sec.serviceState then s
  else
    let (p, l, s) := s.takeRecord (s.nat Dict.jobQueue)
    match p with
    | some _ => (s.submit (bytesWord 512 (l.take 64))).2
    | none => s

/-- JOB_SUBMIT: written by a host, or taken from JOB_QUEUE. -/
def State.jobSubmit (s : State) (role : Role) (d : Option Desc) : State :=
  match d with
  | some d => finish (s.gated role Dict.jobSubmit fun s => s.submit d)
  | none => s.submitQueued

/-! ### Blocking (R355) -/

/-- Does a station of the job, one of `own`, wait in BLOCKED on an input from outside the job (R353, R355): the Kitty, a
sequence lock, a fabric reply, a queue or a station of another module or job, be it through other stations of the job
that wait so (log 128)? `fuel` bounds how many stations lie between. -/
def State.waitsOutside (s : State) (own : List Nat) (sid : Nat) : Nat → Bool
  | 0 => false
  | n + 1 =>
    let st := s.station sid
    let behind (a : Nat) : Bool := !s.isLocal a || !own.contains (a % 256) || s.waitsOutside own (a % 256) n
    let feeds (p : Nat) : Bool := match s.inStream sid p with
      | some x => !s.portReady sid p && behind (mapProd x.2.entry)
      | none => false
    st.seq == .blocked
      && ((st.running.bind (·.attn)).any (fun a => a.lockWait.isSome || a.pageWait.isSome)
        || s.fab.trans.any (fun t => t.2.station == sid)
        || match st.word with
          | some w =>
            if wordOp w = 3 then (s.producedBy sid).any fun x => x.2.unacc != 0 && behind (mapCons x.2.entry)
            else (s.boundInputs sid w).any feeds
              || (s.outStreams sid (wordOut w)).any fun x => !s.hasCredit x.2 && behind (mapCons x.2.entry)
          | none => false)

/-- Has every station of the owner that is not IDLE, one at least, stood in BLOCKED for BLOCK_DETECT, waiting on an input
from outside (R355)? -/
def State.ownerBlocked (s : State) : Bool :=
  let own := s.sched.owner.flatMap fun id => ((s.job? id).elim [] fun j => j.ctx.map (·.1))
  let busy := own.filter fun sid => (s.station sid).seq != .idle
  !busy.isEmpty && busy.all fun sid =>
    decide ((s.station sid).blockedAt + s.nat Dict.blockDetect * 1000 ≤ s.tb) && s.waitsOutside own sid 256

/-- The sequences whose locks a job's ATUs wait for (R308, R356). -/
def State.lockedSeqs (s : State) (j : Job) : List Nat :=
  j.ctx.flatMap fun p => match (s.station p.1).running with
    | some r => match r.attn with
      | some a => if a.lockWait.isSome then a.entries.map (·.1) else []
      | none => []
    | none => []

/-- JOB_BLOCKED: the owner, a group whole, leaves the domain in BLOCKED. -/
def State.jobBlocked (s : State) (id : Nat) : State :=
  if s.sched.owner.contains id && s.ownerBlocked then
    let s := s.sched.owner.foldl (fun s m => s.mapJob m fun j => { j with awaits := s.lockedSeqs j }) s
    ({ s with sched := { s.sched with switching := none } } : State).suspend .blocked |>.schedule
  else s

/-- JOB_UNBLOCKED: an awaited input arrives. -/
def State.jobUnblocked (s : State) (id : Nat) : State :=
  if (s.job? id).elim false fun j => j.st == .blocked then
    ((s.members id).foldl (fun s m => s.mapJob m fun j =>
      { j with st := if j.st = .blocked then .ready else j.st, awaits := [] }) s).schedule
  else s

/-! ### The end of a load (R359) -/

/-- A station as a job's first step finds it: RUN at step 0 of its table, with its cap. -/
def freshStation (cap : Nat) (table : List StepWord) : Station :=
  { seq := if table.isEmpty then .idle else .run, active := table, yielded := true, cap := cap }

/-- Does a station refuse a table or an entry of the job's image (R32, R39)? -/
def State.imageBad (s : State) (tables : List (Nat × Nat × List StepWord)) (es : List MapEntry) : Bool :=
  tables.any (fun t => !s.exists' t.1 || (s.tableCheck argsOk t.1 t.2.2).isSome) || es.any fun e => (s.entryBad e).isSome

/-- A job-owned DMA engine, through which loads run (R359); station 0x60 where there is none. -/
def State.loader (s : State) : Nat := ((stationIds.filter fun sid => kindOf sid == .dma).find? fun sid => !s.isTrump sid).getD 0x60

/-- RESIDENT_LOAD_DONE: victims saved and data moved; the tables are taken, or end the job with JOB_IMAGE_BAD, as does a job
that uses the model where no image is loaded (R554). -/
def State.loadDone (s : State) (id : Nat) (tables : List (Nat × Nat × List StepWord)) (es : List MapEntry)
    (credits : Nat) (moved : List (Nat × List Byte)) (usesModel : Bool) : State :=
  match s.job? id with
  | none => s
  | some j =>
    if !j.loading then s
    else
      let s := moved.foldl (fun s m => s.memWrite s.loader m.1 m.2) s
      if s.imageBad tables es || (usesModel && !s.boot.modelLoaded) then s.endJob id 0x06700E0B
      else
        let mine := tables.filter fun t => j.names t.1
        let ctx : Tab Station := if j.ctx.isEmpty then
            (j.stations.foldl (fun c sid => Tab.ins c sid (freshStation 64 [])) []
              |> fun c => mine.foldl (fun c t => Tab.ins c t.1 (freshStation t.2.1 t.2.2)) c)
          else j.ctx
        let streams : Tab Stream := if j.ctx.isEmpty then
            (es.filter fun e => decide (0x8000 ≤ Machine.mapStream e)).foldl (fun t e =>
              Tab.ins t (Machine.mapStream e) { entry := e, credits := credits }) []
          else j.streams
        let s := s.mapJob id fun j => { j with loading := false, resident := true, ctx := ctx, streams := streams }
        s.schedule

/-! ### The boundary (R362 to R364) -/

/-- Has every station of the owner reached its boundary: no output tile in progress, no read outstanding? -/
def State.atBoundary (s : State) : Bool :=
  (s.sched.owner.all fun id => (s.job? id).elim true fun j => j.ctx.all fun p =>
      match (s.station p.1).running with
      | some r => r.outs.isEmpty
      | none => true)
    && !(s.fab.trans.any fun t => t.2.kind == .read && s.sched.owner.contains t.2.job)

/-- PREEMPT_BOUNDARY: the owner stops, its state saved, and the domain goes to whom it was promised. -/
def State.boundary (s : State) (absent : Bool) (ns : Nat) : State :=
  match s.sched.switching with
  | none => s
  | some ids =>
    if !s.atBoundary then s
    else
      let s := if s.sched.owner.isEmpty then s
        else
          let s := s.sched.owner.foldl (fun s id => s.mapJob id fun j => { j with preempts := j.preempts + 1 }) s
          (s.bump Dict.preemptCount).suspend (if absent then .blocked else .ready)
      if ids.all s.unitsFree then
        let s := if s.nat Dict.switchMax < ns then s.setNum Dict.switchMax ns else s
        let s := ids.foldl (fun s id => s.resume id) s
        { s with sched := { s.sched with switching := none } }
      else s

/-! ### Deadlines, limits, ends (R357, R368 to R370) -/

/-- JOB_DEADLINE_MISSED. -/
def State.deadlineMissed (s : State) (id : Nat) : State :=
  match s.job? id with
  | some j =>
    if j.st != .ended && !j.missed && (match j.deadline with
        | some d => decide (d < s.devNs)
        | none => false) then
      ((s.mapJob id fun j => { j with missed := true }).bump Dict.deadlineMissedCount).jobReport id 0x06700E06
    else s
  | none => s

/-- Time as owner so far, in ns. -/
def State.owned (s : State) (id : Nat) (j : Job) : Nat :=
  j.ownNs + if s.sched.owner.contains id then s.tb - j.ownSince else 0

/-- JOB_OVERRUN. -/
def State.overrun (s : State) (id : Nat) : State :=
  match s.job? id with
  | some j =>
    if s.sched.owner.contains id && j.map 167 136 != 0 && decide (j.map 167 136 * 1000000 < s.owned id j) then
      s.endJob id 0x06700E07
    else s
  | none => s

/-- A write of JOB_ABORT: a live job ends; any other value has no effect. -/
def State.writeAbort (s : State) (id : Nat) : Word × State := (0, s.endJob id 0x06700E09)

/-- JOB_END: every station of an owner has reached END (R369). -/
def State.jobEnd (s : State) (id : Nat) : State :=
  match s.job? id with
  | some j =>
    if s.sched.owner.contains id && j.ctx.all fun p => (s.station p.1).seq == .idle then s.endJob id 0x00700E00 else s
  | none => s

end Sys2Proof.Machine
end

