-- ==== Sys2Proof/Machine/AdaptOps.lean ====
section
/-! DEFINITION. On-site adaptation (R327 to R344). -/

namespace Sys2Proof.Machine

/-! ### Records (R343, R344, R504) -/

/-- An event record of R343: its table's row gives the code. -/
def State.adaptEvent (s : State) (row : Nat) (vals : List Byte) : State :=
  s.record (BitVec.ofNat 32 (0x07700D80 + row)) 255 vals

/-- Change what adaptation holds. -/
def State.mapAdapt (s : State) (f : Adapt → Adapt) : State := { s with adapt := f s.adapt }

/-- A training leaves no candidate (R333). -/
def State.trainFail (s : State) (labels : Nat) : State :=
  (s.mapAdapt fun a => { a with st := .idle, cand := none }).report 0x06700D04 255 (leBytes 4 labels)

/-- A gate fails (R336). -/
def State.gateFail (s : State) (n : Nat) : State := s.report 0x06700D01 255 (leBytes 1 n)

/-- Discard the candidate (R336). -/
def State.discardCand (s : State) : State := s.mapAdapt Adapt.discard

/-! ### Labelling and training (R332, R333) -/

/-- Where the crop of a sample record lies (R212). -/
def State.cropAt (s : State) (r : Desc) : Nat :=
  hbmBase + s.nat Dict.cropAreaBase + fld r 135 120 * s.nat Dict.cropSlotBytes

/-- The crop that a sample record names: its lines in the slot, all channels (R212). -/
def State.cropBytes (s : State) (r : Desc) : List Byte :=
  let port := ((List.range 16).find? fun n => inMap (fld r 495 480) n).getD 0
  let n := min (s.nat Dict.cropSlotBytes) (fld r 103 80 * s.channels port * fld r 119 104 * 2)
  s.rawRead (s.cropAt r) n

/-- Label the oldest record of ADAPT_QUEUE: crop, class and confidence go to partition 5, its cell and slot are free. -/
def State.labelOne (s : State) (l : Nat × Nat) : State :=
  let (p, bytes, s') := s.takeRecord (s.nat Dict.adaptQueue)
  match p with
  | some _ =>
    let used := decide (s.nat Dict.teacherConfMin ≤ l.2)
    let r := bytesWord 512 bytes
    let crop := s.cropBytes r
    let lab : Label := { record := bytes, crop := crop, cls := l.1, conf := l.2, used := used
                         model := s.modelFor (fld r 79 32) }
    let s := (s'.passCache s.loader false 0 (s.cropAt r) crop.length).mapAdapt fun a => { a with labels := a.labels ++ [lab] }
    if used then s.bump Dict.labelsPending else s
  | none => s

/-- A job descriptor with a deadline (R332, R351). -/
def withDeadline (d : Desc) (ns : Nat) : Desc :=
  sealDesc (setFld (setFld d 431 384 (ns / nsPerS)) 383 352 (ns % nsPerS))

/-- TEACHER_BATCH: a teacher job for up to LABEL_BATCH records, due LABEL_DEADLINE after the first was posted; accepted,
it labels them (log 49); without a model it ends once it loads (R554). -/
def State.teacherBatch (s : State) (job : Desc) (labels : List (Nat × Nat)) : State :=
  match (s.queue (s.nat Dict.adaptQueue)).unread with
  | [] => s
  | p :: _ =>
    if s.flag Dict.adaptEnable then
      let r := s.submit (withDeadline job (p.postedDev + s.nat Dict.labelDeadline * nsPerS))
      if r.1 = 0 ∧ s.boot.modelLoaded then (labels.take (s.nat Dict.labelBatch)).foldl (fun s l => s.labelOne l) r.2 else r.2
    else s

/-- TRAINING_START: enough labels are pending, and a program with adapters is there to fit. -/
def State.trainingStart (s : State) (job : Desc) : State :=
  let n := s.nat Dict.labelsPending
  if s.flag Dict.adaptEnable && s.adapt.st == .idle && s.trump.adapter.isSome
      && decide (s.nat Dict.trainMinLabels ≤ n) then
    let s := (s.setNum Dict.labelsPending 0).adaptEvent 0 (leBytes 1 0 ++ leBytes 4 n)
    let r := s.submit job
    if r.1 = 0 then r.2.mapAdapt fun a => { a with st := .training, job := fld job 495 464, labelled := n }
    else r.2.trainFail n
  else s

/-- Does an image pass R330: the length and the SHA-256 it states are those of its weights? -/
def AdapterImage.ok (x : AdapterImage) : Bool := x.length == x.weights.length && x.sha == sha256 x.weights

/-- TRAINING_END: the image goes to partition 3 and is the candidate, which takes an EMPTY bank; or the training has
failed. -/
def State.trainingEnd (s : State) (r : Option (Nat × AdapterImage)) : State :=
  if s.adapt.st = .training then
    match r with
    | some (id, x) =>
      if x.ok && id != 0 then
        (s.mapAdapt fun a => { a with
          images := a.images.ins id x, cand := some { id := id, image := x }, st := .trained }).adaptFill
      else s.trainFail s.adapt.labelled
    | none => s.trainFail s.adapt.labelled
  else s

/-! ### Validation and gates (R334 to R337) -/

/-- BANK_SEALED: the image is in its bank, sealed and hashed; the validation job starts while ADAPT_ENABLE is 1. -/
def State.bankSealed (s : State) (job : Desc) : State :=
  match s.adapt.cand with
  | some c =>
    if s.adapt.st = .trained then
      let s := if s.adapt.bank c.bank = .loading then
          ((s.putHbm (hbmBase + s.bankBase c.bank) c.image.weights).mapAdapt fun a => a.setBank c.bank .sealed).adaptEvent 1
            (leBytes 4 c.id ++ c.image.sha.take 8)
        else s
      if s.flag Dict.adaptEnable && s.adapt.bank c.bank == .sealed then
        let r := s.submit job
        if r.1 = 0 then r.2.mapAdapt fun a => { a with st := .validating, job := fld job 495 464 } else r.2
      else s
    else s
  | none => s

/-- `n` / `d` rounded to nearest; which of two equally near is left open, and what `d` = 0 gives (log 50). -/
def State.nearest (s : State) (n : Int) (d : Nat) : Int × State :=
  if d = 0 then let (b, s) := s.draw 16; (b.toNat, s)
  else
    let q := n / (d : Int)
    let r := 2 * (n % (d : Int))
    if r < d then (q, s) else if (d : Int) < r then (q + 1, s)
    else let (b, s) := s.draw 1; (q + b.toNat, s)

/-- The 16 bits of a score; what lies outside them is left open. -/
def State.score16 (s : State) (lo hi v : Int) : Int × State :=
  if lo ≤ v ∧ v ≤ hi then (v, s) else let (b, s) := s.draw 16; (if lo < 0 then b.toInt else b.toNat, s)

/-- Have all enabled camera ports the same ENCODER_CHANNEL (R336)? -/
def State.oneEncoder (s : State) : Bool :=
  let on := ((List.range 16).filter fun n => s.flag Dict.portEnable n).map fun n => s.nat Dict.encoderChannel n
  on.all fun c => c == on.headD 0

/-- The first gate that fails for a candidate (R336); none where all pass. -/
def State.failedGate (s : State) (c : Candidate) : Option Nat :=
  if !(c.image.program == s.trump.programHash && s.oneEncoder) then some 1
  else if c.equal * 65536 < s.nat Dict.goldenFloor * c.total then some 2
  else if s.num Dict.candidateDelta < s.num Dict.rejDeltaMin ∨ s.num Dict.rejDeltaMax < s.num Dict.candidateDelta then
    some 3
  else if s.nat Dict.swapsPerShift ≤ s.nat Dict.swapsThisShift then some 4
  else if s.flag Dict.approvalRequired then some 5
  else none

/-- The gates are applied (R336). -/
def State.applyGates (s : State) : State :=
  match s.adapt.cand with
  | none => s
  | some c =>
    match s.failedGate c with
    | none => s.mapAdapt fun a => { a with st := .armed }
    | some 4 => (s.mapAdapt fun a => { a with st := .gated }).gateFail 4
    | some 5 =>
      ((s.mapAdapt fun a => { a with st := .awaitingApproval, awaitSince := s.tb }).gateFail 5).adaptEvent 4
        (leBytes 1 0 ++ leBytes 4 c.id ++ leBytes 1 255)
    | some n => s.discardCand.gateFail n

/-- Is the action of a golden object FIRE (R334): from its scores, by R205 and R207 under two thresholds? -/
def State.goldenFires (s : State) (acceptThr rejectThr : Nat) (scores : List (BitVec 16)) : Bool :=
  s.actionOf (s.scoreVerdict acceptThr rejectThr
    { port := 0, colFirst := 0, colLast := 0, posFirst := 0, posLast := 0, area := 0
      scores := scores.map (·.toNat) }) == 1

/-- The thresholds of the candidate side (R339): those it carries where THRESHOLD_ADAPT is 1, else the present ones. -/
def State.candThresholds (s : State) (c : Candidate) : Nat × Nat :=
  match s.flag Dict.thresholdAdapt, c.image.thresholds with
  | true, some th => th
  | _, _ => (s.nat Dict.acceptThreshold, s.nat Dict.rejectThreshold)

/-- The sums of R334 over the golden set. -/
def State.goldenSums (s : State) (c : Candidate) (objects : List GoldenScore) : Candidate :=
  let th := s.candThresholds c
  let cand (o : GoldenScore) : Bool := s.goldenFires th.1 th.2 o.cand
  let live (o : GoldenScore) : Bool := s.goldenFires (s.nat Dict.acceptThreshold) (s.nat Dict.rejectThreshold) o.live
  let sum (p : GoldenScore → Bool) : Nat := sumNat ((objects.filter p).map (·.weight.toNat))
  { c with equal := sum fun o => cand o == s.rejects o.label.toNat
           fireCand := sum cand, fireLive := sum live, total := sum fun _ => true }

/-- VALIDATION_END: the scores (R334), then the gates. -/
def State.validationEnd (s : State) (objects : List GoldenScore) : State :=
  match s.adapt.cand with
  | some c =>
    if s.adapt.st = .validating then
      let c := s.goldenSums c objects
      let s := s.mapAdapt fun a => { a with cand := some c, st := .gated }
      let (g, s) := s.nearest (c.equal * 65536) c.total
      let (g, s) := s.score16 0 65535 g
      let (d, s) := s.nearest ((c.fireCand - c.fireLive : Int) * 10000) c.total
      let (d, s) := s.score16 (-32768) 32767 d
      let s := (s.setNum Dict.candidateGolden g).setNum Dict.candidateDelta d
      (s.adaptEvent 2 (leBytes 2 g.toNat ++ leBytes 2 (wrap 16 d))).applyGates
    else s
  | none => s

/-- SHIFT_START: device time is in a second at which a shift begins (R335), once for each. -/
def State.shiftStart (s : State) : State :=
  let sec := s.devNs / nsPerS
  let len := max 1 (s.nat Dict.shiftLength)
  if s.timeValid && decide ((sec - s.num Dict.shiftOrigin : Int) % (len : Int) = 0) && s.adapt.shiftAt != some sec then
    let s := (s.setNum Dict.swapsThisShift 0).mapAdapt fun a => { a with shiftAt := some sec }
    if s.adapt.st = .gated then s.applyGates else s
  else s

/-- Has the time for approval passed (R337)? -/
def State.approvalLate (s : State) : Bool := decide (s.adapt.awaitSince + s.nat Dict.approvalTimeout * 60 * nsPerS < s.tb)

/-- Is a write of `id` to ADAPT_APPROVE or ADAPT_REFUSE within its range (R337)? -/
def State.mayDecide (s : State) (id : Nat) : Bool :=
  s.adapt.st == .awaitingApproval && s.adapt.cand.any (fun c => c.id == id) && !s.approvalLate

/-- A write of ADAPT_APPROVE (R337). -/
def State.writeApprove (s : State) (role : Role) (id : Nat) : Word × State :=
  if s.mayDecide id then
    let s := s.adaptEvent 4 (leBytes 1 1 ++ leBytes 4 id ++ leBytes 1 role.num)
    if s.nat Dict.swapsThisShift < s.nat Dict.swapsPerShift then (0, s.mapAdapt fun a => { a with st := .armed })
    else (0, (s.mapAdapt fun a => { a with st := .gated }).gateFail 4)
  else (abRange, s)

/-- A write of ADAPT_REFUSE (R337). -/
def State.writeRefuse (s : State) (role : Role) (id : Nat) : Word × State :=
  if s.mayDecide id then (0, s.discardCand.adaptEvent 4 (leBytes 1 2 ++ leBytes 4 id ++ leBytes 1 role.num))
  else (abRange, s)

/-- APPROVAL_TIMEOUT. -/
def State.approvalEnds (s : State) : State :=
  match s.adapt.cand with
  | some c =>
    if s.adapt.st = .awaitingApproval && s.approvalLate then
      s.discardCand.adaptEvent 4 (leBytes 1 3 ++ leBytes 4 c.id ++ leBytes 1 255)
    else s
  | none => s

/-! ### The swap (R338, R339, R341) -/

/-- The stations of the adapter list. -/
def State.adapterStations (s : State) : List Nat :=
  match s.trump.adapter with
  | some a => a.stations
  | none => []

/-- The bank a swap goes to: the candidate's, or at a rollback the PREVIOUS one. -/
def State.swapBank (s : State) : Option Nat :=
  match s.adapt.cand with
  | some c =>
    if s.adapt.st = .armed && s.adapt.bank c.bank == .sealed then some c.bank
    else if s.adapt.st = .watch && s.adapt.rolling && s.adapt.bank (1 - c.bank) == .previous then some (1 - c.bank)
    else none
  | none => none

/-- ceil(SPEED × 1 ms) in counts (R258, R338). -/
def State.msCounts (s : State) (ch : Nat) : Int :=
  let e := s.encoder ch
  let n : Int := if e.t16 = 0 then 0 else ceilDiv (65536 * 1000000) e.t16
  match e.ring with
  | k :: _ => if k.fwd then n else 0
  | [] => 0

/-- Arm a LOADED shadow slot for a swap line. -/
def Station.armSwap (line : Int) (st : Station) : Station :=
  match st.shadow with
  | .loaded t => { st with shadow := .armed t (.atSwap line) }
  | _ => st

/-- SWAP_ARM: T of the shared encoder is valid; the swap line is chosen and every listed station armed. -/
def State.swapArm (s : State) : State :=
  let ch := s.sharedEncoder
  match s.swapBank with
  | some b =>
    if s.trump.st = .running && s.encValid ch then
      let c := count48 (floor16 (s.posAt ch s.devNs) + max (s.num Dict.swapLeadCnt) (s.msCounts ch))
      let s := s.adapterStations.foldl (fun s sid => s.mapStation sid (Station.armSwap c)) s
      let s := s.mapAdapt fun a => { a.setBank b .armed with line := c, swapped := true }
      (s.setNum Dict.swapLine c).adaptEvent 5 (leBytes 8 (wrap 64 c))
    else s
  | none => s

/-- Have all listed stations switched? -/
def State.allSwitched (s : State) : Bool :=
  s.adapterStations.all fun sid => match (s.station sid).shadow with
    | .armed _ _ => false
    | _ => true

/-- Write thresholds as the controller does (R339): clamped under R208, with the record of R343. Where the clamps leave
REJECT_THRESHOLD not below ACCEPT_THRESHOLD the write is refused, and one of the values in force has no effect (R208,
log 114). -/
def State.adaptThresholds (s : State) (acc rej : Nat) : State :=
  let (a, r) := clampedThresholds acc rej (s.nat Dict.accThrMin) (s.nat Dict.accThrMax) (s.nat Dict.rejThrMin)
    (s.nat Dict.rejThrMax)
  if a ≤ r ∨ (a = s.nat Dict.acceptThreshold ∧ r = s.nat Dict.rejectThreshold) then s
  else ((s.setNum Dict.acceptThreshold a).setNum Dict.rejectThreshold r).adaptEvent 7 (leBytes 2 a ++ leBytes 2 r)

/-- The baseline at a switch (R340): of no verdict at all the share is left open (log 50). -/
def State.takeBaseline (s : State) : State :=
  let h := s.adapt.history.take (s.nat Dict.baselineVerdicts)
  if h.isEmpty then
    let (b, s) := s.draw 16
    s.mapAdapt fun a => { a with baseFired := b.toNat, baseSeen := 65535 }
  else s.mapAdapt fun a => { a with baseFired := (h.filter id).length, baseSeen := h.length }

/-- The switch to the candidate: its bank is LIVE, the other PREVIOUS, and the watch begins. -/
def State.switchTo (s : State) (c : Candidate) : State :=
  let s := (s.bump Dict.swapsThisShift).takeBaseline.mapAdapt fun a =>
    { (a.setBank c.bank .live).setBank (1 - c.bank) .previous with
      st := .watch, watchAt := s.tb, seen := 0, fired := 0, lastEval := none, rolling := false, before := none }
  match c.image.thresholds with
  | some th =>
    if s.flag Dict.thresholdAdapt then
      (s.mapAdapt fun a => { a with before := some (s.nat Dict.acceptThreshold, s.nat Dict.rejectThreshold) }).adaptThresholds
        th.1 th.2
    else s
  | none => s

/-- The switch back: the PREVIOUS bank is LIVE, the rolled-back one EMPTY, and the thresholds stand as before. -/
def State.switchBack (s : State) (c : Candidate) : State :=
  let old := s.adapt.before
  let s := (s.bump Dict.rollbackCount).mapAdapt fun a => (a.setBank (1 - c.bank) .live).discard
  match old with
  | some th => s.adaptThresholds th.1 th.2
  | none => s

/-- SWAP_SWITCHED: the last listed station has switched. -/
def State.swapSwitched (s : State) (count : Nat) : State :=
  match s.adapt.cand with
  | some c =>
    let b := if s.adapt.st = .watch then 1 - c.bank else c.bank
    if s.adapt.bank b = .armed && s.allSwitched then
      let s := (s.bump Dict.swapCount).adaptEvent 6 (leBytes 8 (wrap 64 s.adapt.line) ++ leBytes 6 count)
      if s.adapt.st = .watch then s.switchBack c else s.switchTo c
    else s
  | none => s

/-! ### The watch (R340 to R342) -/

/-- A threshold change other than that of R339 restarts the observed count (R340). -/
def State.adaptRestart (s : State) : State :=
  if s.adapt.st = .watch then s.mapAdapt fun a => { a with seen := 0, fired := 0 } else s

/-- The observed change as a fraction, in 0.01 percentage points: numerator and denominator. -/
def Adapt.change (a : Adapt) : Int × Nat :=
  ((a.fired * a.baseSeen - a.baseFired * a.seen : Int) * 10000, a.seen * a.baseSeen)

/-- Does the change leave the bounds with their slack (R340)? -/
def State.drifted (s : State) : Bool :=
  let (n, d) := s.adapt.change
  decide (n < (s.num Dict.rejDeltaMin - s.num Dict.rollbackSlack) * d)
    || decide ((s.num Dict.rejDeltaMax + s.num Dict.rollbackSlack) * d < n)

/-- A rollback begins: a swap back is wanted (R341). -/
def State.rollBack (s : State) (vals : List Byte) : State :=
  (s.mapAdapt fun a => { a with rolling := true }).report 0x06700D02 255 vals

/-- WATCH_DELTA: the change in whole steps; how it is rounded is left open (log 50). -/
def State.watchDelta (s : State) : Int × State :=
  let (n, d) := s.adapt.change
  if n % (d : Int) = 0 then (n / d, s) else let (b, s) := s.draw 1; (n / d + b.toNat, s)

/-- Is an evaluation due: verdicts enough, and a second since the last one? -/
def State.evalDue (s : State) : Bool :=
  s.adapt.st == .watch && !s.adapt.rolling && decide (s.nat Dict.watchMinVerdicts ≤ s.adapt.seen)
    && decide (0 < s.adapt.seen) && (match s.adapt.lastEval with
      | some t => decide (t + nsPerS ≤ s.tb)
      | none => true)

/-- WATCH_EVALUATE (R340). -/
def State.watchEvaluate (s : State) : State :=
  if s.evalDue then
    let bad := s.drifted
    let (d, s) := s.watchDelta
    let s := (s.setNum Dict.watchDelta d).mapAdapt fun a => { a with lastEval := some s.tb }
    if bad then s.rollBack (leBytes 2 (wrap 16 d)) else s
  else s

/-- The ASCII bytes of the word operator (R343). -/
def operatorWord : List Byte := [0x6F, 0x70, 0x65, 0x72, 0x61, 0x74, 0x6F, 0x72]

/-- A write of ADAPT_ROLLBACK (R340): another ID than the watched candidate's is a range abort (log 51). -/
def State.writeRollback (s : State) (id : Nat) : Word × State :=
  if s.adapt.st = .watch && !s.adapt.rolling && s.adapt.cand.any (fun c => c.id == id) then (0, s.rollBack operatorWord)
  else (abRange, s)

/-- WATCH_ACCEPT: WATCH_TIME has passed without a rollback (R341). -/
def State.watchAccept (s : State) : State :=
  match s.adapt.cand with
  | some c =>
    if s.adapt.st = .watch && !s.adapt.rolling && decide (s.adapt.watchAt + s.nat Dict.watchTime * nsPerS ≤ s.tb) then
      let s := (s.setNum Dict.adapterLiveId c.id).commitSaved
      let s := s.mapAdapt fun a => { a.setBank (1 - c.bank) .empty with st := .idle, cand := none, before := none }
      s.adaptEvent 9 (leBytes 1 0 ++ leBytes 4 c.id)
    else s
  | none => s

end Sys2Proof.Machine
end

