-- ==== Sys2Proof/Machine/AdaptCmds.lean ====
section
/-! DEFINITION. The meanings of the commands of on-site adaptation (chapter 15). -/

namespace Sys2Proof.Machine

/-- Meaning of TEACHER_BATCH (R332). -/
def execTeacherBatch (t : Nat) (job : Desc) (labels : List (BitVec 4 × BitVec 16)) (s : State) :
    Host.Outcome State Fault Refusal :=
  .next ((s.at t).teacherBatch job (labels.map fun l => (l.1.toNat, l.2.toNat)))

/-- Meaning of TRAINING_START (R331, R333). -/
def execTrainingStart (t : Nat) (job : Desc) (s : State) : Host.Outcome State Fault Refusal :=
  .next ((s.at t).trainingStart job)

/-- Meaning of TRAINING_END (R330, R333). -/
def execTrainingEnd (t : Nat) (result : Option (BitVec 32 × AdapterImage)) (s : State) :
    Host.Outcome State Fault Refusal := .next ((s.at t).trainingEnd (result.map fun x => (x.1.toNat, x.2)))

/-- Meaning of BANK_SEALED (R329, R331). -/
def execBankSealed (t : Nat) (job : Desc) (s : State) : Host.Outcome State Fault Refusal :=
  .next ((s.at t).bankSealed job)

/-- Meaning of VALIDATION_END (R334, R336). -/
def execValidationEnd (t : Nat) (objects : List GoldenScore) (s : State) : Host.Outcome State Fault Refusal :=
  .next ((s.at t).validationEnd objects)

/-- Meaning of SHIFT_START (R335, R336). -/
def execShiftStart (t : Nat) (s : State) : Host.Outcome State Fault Refusal := .next (s.at t).shiftStart

/-- Meaning of ADAPT_APPROVE (R337). -/
def execAdaptApprove (t : Nat) (role : Role) (id : BitVec 32) (s : State) : Host.Outcome State Fault Refusal :=
  .next (finish ((s.at t).gated role Dict.adaptApprove fun s => s.writeApprove role id.toNat))

/-- Meaning of ADAPT_REFUSE (R337). -/
def execAdaptRefuse (t : Nat) (role : Role) (id : BitVec 32) (s : State) : Host.Outcome State Fault Refusal :=
  .next (finish ((s.at t).gated role Dict.adaptRefuse fun s => s.writeRefuse role id.toNat))

/-- Meaning of APPROVAL_TIMEOUT (R331, R337). -/
def execApprovalTimeout (t : Nat) (s : State) : Host.Outcome State Fault Refusal := .next (s.at t).approvalEnds

/-- Meaning of SWAP_ARM (R338, R341). -/
def execSwapArm (t : Nat) (s : State) : Host.Outcome State Fault Refusal := .next (s.at t).swapArm

/-- Meaning of SWAP_SWITCHED (R338, R339, R341). -/
def execSwapSwitched (t : Nat) (count : BitVec 48) (s : State) : Host.Outcome State Fault Refusal :=
  .next ((s.at t).swapSwitched count.toNat)

/-- Meaning of WATCH_EVALUATE (R340). -/
def execWatchEvaluate (t : Nat) (s : State) : Host.Outcome State Fault Refusal := .next (s.at t).watchEvaluate

/-- Meaning of ADAPT_ROLLBACK (R340, R341). -/
def execAdaptRollback (t : Nat) (role : Role) (id : BitVec 32) (s : State) : Host.Outcome State Fault Refusal :=
  .next (finish ((s.at t).gated role Dict.adaptRollback fun s => s.writeRollback id.toNat))

/-- Meaning of WATCH_ACCEPT (R341, R417). -/
def execWatchAccept (t : Nat) (s : State) : Host.Outcome State Fault Refusal := .next (s.at t).watchAccept

end Sys2Proof.Machine
end

