-- ==== Sys2Proof/Machine/Arrays.lean ====
section
/-! DEFINITION. The meanings of the array, front-engine and pooling commands (chapters 4 and 8). -/

namespace Sys2Proof.Machine

/-- A fault in one half's own units is contained: counted by its kind, the half fenced and in FAULT (R104). -/
def State.halfFence (s : State) (sid : Nat) (w : Word) : State :=
  if kindOf sid == .half && s.exists' sid && (s.station sid).seq != .fault && (s.station sid).seq != .off then
    ((s.countFault sid (fld w 7 0)).contain sid).faultStation sid (withSrc w sid)
  else s

/-- May an array be split or joined: idle (R103), and not one of a running Trump domain (R349)? -/
def State.splitAllowed (s : State) (n : Nat) : Bool :=
  s.splitIdle n && !(inMap (s.nat Dict.trumpArrayMap) n && s.trump.st == .running)

/-- ARRAY_SPLIT and ARRAY_JOIN (R103). -/
def State.splitCommand (s : State) (n : Nat) (split : Bool) : State :=
  if s.splitAllowed n then s.setSplit n split else s

/-- Meaning of WLOAD (R80, R81, R84 to R86). -/
def execWload (t : Nat) (st : BitVec 8) (run : ArrayRun) (s : State) : Host.Outcome State Fault Refusal :=
  .next ((s.at t).wload st.toNat run)

/-- Meaning of MMUL (R62 to R65, R78, R81, R83, R86 to R88, R91, R95 to R98). -/
def execMmul (t : Nat) (st : BitVec 8) (run : ArrayRun) (s : State) : Host.Outcome State Fault Refusal :=
  .next ((s.at t).mmul st.toNat run)

/-- Meaning of OSMUL (R79, R81, R83, R89, R90, R95 to R98). -/
def execOsmul (t : Nat) (st : BitVec 8) (run : ArrayRun) (s : State) : Host.Outcome State Fault Refusal :=
  .next ((s.at t).osmul st.toNat 0x12 run)

/-- Meaning of BLOAD (R80, R81, R86). -/
def execBload (t : Nat) (st : BitVec 8) (run : ArrayRun) (s : State) : Host.Outcome State Fault Refusal :=
  .next ((s.at t).bload st.toNat run)

/-- Meaning of CHECK (R99, R532). -/
def execCheck (t : Nat) (st : BitVec 8) (run : ArrayRun) (word : Option StepWord) (s : State) :
    Host.Outcome State Fault Refusal := .next ((s.at t).check st.toNat run word)

/-- Meaning of MVMUL (R107). -/
def execMvmul (t : Nat) (st : BitVec 8) (s : State) : Host.Outcome State Fault Refusal :=
  .next ((s.at t).osmul st.toNat 0x18 {})

/-- Meaning of RAMP_DOWN (R92 to R94, R102). -/
def execRampDown (t : Nat) (array : BitVec 4) (cycles : Nat) (completed : Bool) (s : State) :
    Host.Outcome State Fault Refusal := .next ((s.at t).rampDown array.toNat cycles completed)

/-- Meaning of RAMP_UP_DONE (R93). -/
def execRampUpDone (t : Nat) (array : BitVec 4) (s : State) : Host.Outcome State Fault Refusal :=
  .next ((s.at t).rampUpDone array.toNat)

/-- Meaning of HALF_FENCE (R104, R367). -/
def execHalfFence (t : Nat) (st : BitVec 8) (status : Word) (s : State) : Host.Outcome State Fault Refusal :=
  .next ((s.at t).halfFence st.toNat status)

/-- Meaning of ARRAY_SPLIT (R15, R103). -/
def execArraySplit (t : Nat) (array : BitVec 4) (s : State) : Host.Outcome State Fault Refusal :=
  .next ((s.at t).splitCommand array.toNat true)

/-- Meaning of ARRAY_JOIN (R15, R103). -/
def execArrayJoin (t : Nat) (array : BitVec 4) (s : State) : Host.Outcome State Fault Refusal :=
  .next ((s.at t).splitCommand array.toNat false)

/-- Meaning of FWLOAD (R189). -/
def execFwload (t : Nat) (st : BitVec 8) (s : State) : Host.Outcome State Fault Refusal :=
  .next ((s.at t).fwload st.toNat)

/-- Meaning of FCONV (R182 to R187, R189 to R193). -/
def execFconv (t : Nat) (st : BitVec 8) (s : State) : Host.Outcome State Fault Refusal :=
  .next ((s.at t).fconv st.toNat)

/-- Meaning of FPOOL (R182 to R187, R189, R195, R196). -/
def execFpool (t : Nat) (st : BitVec 8) (s : State) : Host.Outcome State Fault Refusal :=
  .next ((s.at t).pool st.toNat 0x22)

/-- Meaning of VPOOL (R182 to R187, R195, R196). -/
def execVpool (t : Nat) (st : BitVec 8) (s : State) : Host.Outcome State Fault Refusal :=
  .next ((s.at t).pool st.toNat 0x30)

end Sys2Proof.Machine
end

