-- ==== Sys2Proof/Machine/KvOps.lean ====
section
/-! DEFINITION. The KV cache: directory, page lists, reference counts, summaries, the Kitty, the walker, locks, and the
sequence operations (R298 to R303, R308, R313 to R319, R322). -/

namespace Sys2Proof.Machine

/-! ### The step in flight -/

/-- Change the step in flight of a station. -/
def State.mapRun (s : State) (sid : Nat) (f : Running → Running) : State :=
  s.mapStation sid fun x => { x with running := x.running.map f }

/-- What an ATU's step holds. -/
def State.attnRun (s : State) (sid : Nat) : AttnRun :=
  match (s.station sid).running with
  | some r => r.attn.getD {}
  | none => {}

/-- Change what an ATU's step holds. -/
def State.mapAttn (s : State) (sid : Nat) (f : AttnRun → AttnRun) : State :=
  s.mapRun sid fun r => { r with attn := some (f (r.attn.getD {})) }

/-- The opcode of the step an ATU has in flight. -/
def State.atuOp (s : State) (sid : Nat) : Option Nat :=
  if kindOf sid = .atu then (s.station sid).running.map fun r => wordOp r.word else none

/-- A report of an ATU, to the error queue of the job it works for (R325). -/
def State.atuReport (s : State) (sid code : Nat) : State :=
  s.jobReport (s.ownerOf sid) (withSrc (BitVec.ofNat 32 (0x06000C00 + code)) sid)

/-! ### Reads and writes -/

/-- Read bytes for the step in flight: an uncorrectable unit poisons what it puts out (R133). -/
def State.kvRead (s : State) (sid a n : Nat) : List Byte × State :=
  let (l, bad, s) := s.memRead sid a n
  (l, if bad then s.mapRun sid fun r => { r with poisoned := true } else s)

/-- Read a little-endian number. -/
def State.kvNum (s : State) (sid a n : Nat) : Nat × State :=
  let (l, s) := s.kvRead sid a n
  (leNat l, s)

/-- An address in the HBM. -/
def State.kvAt (s : State) (base : Ent) (off : Nat) : Nat := hbmBase + s.nat base + off

/-! ### Reference counts (R303) -/

/-- The count of page `p`. -/
def State.refCount (s : State) (sid p : Nat) : Nat × State := s.kvNum sid (s.kvAt Dict.kvRefBase (2 * p)) 2

/-- Set the count of page `p`. -/
def State.setRef (s : State) (sid p v : Nat) : State := s.memWrite sid (s.kvAt Dict.kvRefBase (2 * p)) (leBytes 2 v)

/-- Decrement a count: left at 0, with a report, where it is 0. Gives the new count, and whether it came to 0. -/
def State.decRef (s : State) (sid p : Nat) : Bool × State :=
  let (c, s) := s.refCount sid p
  if c = 0 then (false, s.atuReport sid 5) else (c == 1, s.setRef sid p (c - 1))

/-! ### The Kitty (R315 to R317) -/

/-- Append to the free list, kept as runs. -/
def addFree (l : List (Nat × Nat)) (first n : Nat) : List (Nat × Nat) := if n = 0 then l else l ++ [(first, n)]

/-- Put a page into the Kitty's ring; where it is full, into the free list (R315). -/
def State.returnPage (s : State) (sid p : Nat) : State :=
  let size := s.nat Dict.kittySize
  if s.attn.kittyLevel < size then
    let s1 := s.memWrite sid (s.kvAt Dict.kittyBase (4 * ((s.attn.kittyHead + s.attn.kittyLevel) % size))) (leBytes 4 p)
    { s1 with attn := { s1.attn with kittyLevel := s.attn.kittyLevel + 1 } }
  else { s with attn := { s.attn with freeList := addFree s.attn.freeList p 1 } }

/-- Take `n` pages from the Kitty's ring. -/
def State.takePages (s : State) (sid : Nat) : Nat → List Nat × State
  | 0 => ([], s)
  | n + 1 =>
    let size := max 1 (s.nat Dict.kittySize)
    let (p, s) := s.kvNum sid (s.kvAt Dict.kittyBase (4 * (s.attn.kittyHead % size))) 4
    let s := { s with attn := { s.attn with
      kittyHead := (s.attn.kittyHead + 1) % size, kittyLevel := s.attn.kittyLevel - 1 } }
    let (l, s) := s.takePages sid n
    (p :: l, s)

/-- Take the first page of the free list. -/
def popFree : List (Nat × Nat) → Option (Nat × List (Nat × Nat))
  | [] => none
  | (p, n) :: r => some (p, if n ≤ 1 then r else (p + 1, n - 1) :: r)

/-- Refill the Kitty from the free list, at most `n` pages. -/
def State.refillKitty (s : State) : Nat → State
  | 0 => s
  | n + 1 =>
    if s.attn.kittyLevel < s.nat Dict.kittySize then
      match popFree s.attn.freeList with
      | some (p, r) => (({ s with attn := { s.attn with freeList := r } } : State).returnPage mgt p).refillKitty n
      | none => s
    else s

/-! ### The walker (R322) -/

/-- The key of an entry of the look-aside buffer. -/
def labKey (seq layer group i : Nat) : Nat := ((seq * 256 + layer) * 16 + group) * 65536 + i

/-- An ATU's walker. -/
def State.atu (s : State) (sid : Nat) : Atu := s.attn.atus.val {} sid

/-- Change an ATU's walker. -/
def State.mapAtu (s : State) (sid : Nat) (f : Atu → Atu) : State :=
  { s with attn := { s.attn with atus := s.attn.atus.upd {} sid f } }

/-- Keep the newest `n` of a list whose newest stand last. -/
def keepLast {α : Type} (n : Nat) (l : List α) : List α := l.drop (l.length - n)

/-- Put keyed entries among others as the newest, in place of those with their keys. -/
def putNewest (ks l : List (Nat × Nat)) : List (Nat × Nat) := l.filter (fun p => !(ks.map (·.1)).contains p.1) ++ ks

/-- Forget in both walkers the buffered entries whose keys `p` picks. -/
def State.labForget (s : State) (p : Nat → Bool) : State :=
  [0x24, 0x25].foldl (fun s sid => s.mapAtu sid fun a => { a with lab := a.lab.filter fun k => !p k.1 }) s

/-! ### The directory (R300) -/

/-- A directory entry as the walker reads it: from the 16 it caches, where it is there (R322; which one goes for a new
one the rule does not say: the least recently used, log 123). -/
def State.kvDir (s : State) (sid seq : Nat) : BitVec 128 × State :=
  let (d, s) := match (s.atu sid).dirs.find? (·.1 == seq) with
    | some p => (BitVec.ofNat 128 p.2, s)
    | none =>
      let (l, s) := s.kvRead sid (s.kvAt Dict.kvDirBase (16 * seq)) 16
      (bytesWord 128 l, s)
  (d, s.mapAtu sid fun a => { a with dirs := keepLast 16 (putNewest [(seq, d.toNat)] a.dirs) })

/-- Write a directory entry: both walkers forget it and what they hold of the sequence. -/
def State.setDir (s : State) (sid seq : Nat) (d : BitVec 128) : State :=
  let s := s.memWrite sid (s.kvAt Dict.kvDirBase (16 * seq)) (wordBytes d)
  let s := [0x24, 0x25].foldl (fun s sid => s.mapAtu sid fun a => { a with dirs := a.dirs.filter (·.1 != seq) }) s
  s.labForget fun k => k / 268435456 == seq

/-- VALID. -/
def dirValid (d : BitVec 128) : Bool := bit d 123
/-- COMPLETE. -/
def dirComplete (d : BitVec 128) : Bool := bit d 122

/-- The page list of a layer (R301). -/
def dirList (d : BitVec 128) (layer : Nat) : Nat := fld d 111 64 + layer * fld d 63 48 * 4096

/-- PAGE_CAP (R301). -/
def State.pageCap (s : State) (d : BitVec 128) : Nat :=
  min 65536 ((fld d 63 48 * 4096 - 128) / (8 * max 1 (s.nat Dict.kvGroups)))

/-! ### Page lists (R301, R302) -/

/-- A list of pages: whose it is, its address, its capacity, and what its header says. -/
structure KvList where
  seq : Nat
  layer : Nat
  group : Nat
  base : Nat
  cap : Nat
  pages : Nat := 0
  tokens : Nat := 0
deriving DecidableEq, Repr

/-- The address of a page-table entry. -/
def KvList.entryAt (l : KvList) (i : Nat) : Nat := l.base + 128 + (l.group * l.cap + i) * 8

/-- The list of (sequence, layer, group) with its header read. -/
def State.kvList (s : State) (sid seq : Nat) (d : BitVec 128) (layer group : Nat) : KvList × State :=
  let base := dirList d layer
  let (h, s) := s.kvRead sid (base + 8 * group) 8
  let w := bytesWord 64 h
  ({ seq := seq, layer := layer, group := group, base := base, cap := s.pageCap d
     pages := fld w 59 43, tokens := fld w 42 22 }, s)

/-- Write a list header; both walkers forget what they hold of the list (log 42). -/
def State.setHeader (s : State) (sid : Nat) (l : KvList) (w : Nat) : State :=
  (s.memWrite sid (l.base + 8 * l.group) (leBytes 8 w)).labForget fun k =>
    k / 65536 == labKey l.seq l.layer l.group 0 / 65536

/-- The header of a list (R301). -/
def KvList.header (l : KvList) : Nat := 2 ^ 60 + l.pages % 131072 * 2 ^ 43 + l.tokens % 2097152 * 2 ^ 22

/-- A page-table entry (R302). -/
def mkPte (summary : Bool) (fmt tokens page : Nat) : Nat :=
  2 ^ 60 + 2 ^ 59 + summary.toNat * 2 ^ 58 + fmt % 32 * 2 ^ 53 + (tokens - 1) % 16 * 2 ^ 49 + page % 8388608 * 2 ^ 23

/-- Read a page-table entry. -/
def State.pte (s : State) (sid : Nat) (l : KvList) (i : Nat) : BitVec 64 × State :=
  let (b, s) := s.kvRead sid (l.entryAt i) 8
  (bytesWord 64 b, s)

/-- Look up page index `i` of a list in the walker's buffer (R322): a miss reads the entry's 64-byte line and installs
those of its entries that are of the list and below PAGES. -/
def State.labLook (s : State) (sid : Nat) (l : KvList) (i : Nat) : BitVec 64 × State :=
  let key (j : Nat) := labKey l.seq l.layer l.group j
  match (s.atu sid).lab.find? (·.1 == key i) with
  | some p => (BitVec.ofNat 64 p.2, (s.bump Dict.labHits sid).mapAtu sid fun a => { a with lab := putNewest [p] a.lab })
  | none =>
    let at_ := l.group * l.cap
    let line := (at_ + i) / 8
    let (b, s) := s.kvRead sid (l.base + 128 + 64 * line) 64
    let word (n : Nat) : BitVec 64 := bytesWord 64 ((b.drop (8 * (n % 8))).take 8)
    let ks := ((List.range 8).map fun j => line * 8 + j).filterMap fun n =>
      if at_ ≤ n ∧ n < at_ + l.pages then some (key (n - at_), (word n).toNat) else none
    (word (at_ + i), (s.bump Dict.labMisses sid).mapAtu sid fun a => { a with
      lab := keepLast 512 (putNewest (ks.filter (·.1 != key i) ++ ks.filter (·.1 == key i)) a.lab) })

/-- Write a page-table entry; both walkers forget it. -/
def State.setPte (s : State) (sid : Nat) (l : KvList) (i w : Nat) : State :=
  (s.memWrite sid (l.entryAt i) (leBytes 8 w)).labForget fun k => k == labKey l.seq l.layer l.group i

/-- Is an entry read below PAGES in order (R318)? -/
def State.pteOk (s : State) (w : BitVec 64) : Bool :=
  fld w 63 60 == 1 && bit w 59 && decide (fld w 45 23 < s.nat Dict.kvPoolPages)

/-! ### Locks (R308) -/

/-- May the step of an ATU lock these sequences: is each free, or its own? -/
def State.lockFree (s : State) (sid : Nat) (seqs : List Nat) : Bool :=
  seqs.all fun q =>
    match s.attn.locks.look q with
    | some l => l == (s.ownerOf sid, sid)
    | none => true

/-- Lock all of them, or wait: the wait is counted in ATU cycles, at 1.5 GHz (R308, R323). -/
def State.tryLock (s : State) (sid : Nat) (seqs : List Nat) : Bool × State :=
  if s.lockFree sid seqs then
    let waited := match (s.attnRun sid).lockWait with
      | some t => s.tb - t
      | none => 0
    let s := s.bump Dict.seqLockWaitCycles sid (waited * 3 / 2)
    let s := s.mapAttn sid fun a => { a with locked := true, lockWait := none }
    let s := s.mapStation sid fun x => if x.seq = .blocked then { x with seq := .run } else x
    (true, { s with attn := { s.attn with
      locks := seqs.foldl (fun t q => t.ins q (s.ownerOf sid, sid)) s.attn.locks } })
  else
    let s := s.mapAttn sid fun a => { a with lockWait := some (a.lockWait.getD s.tb) }
    (false, s.mapStation sid fun x => if x.seq = .run then x.block s.tb else x)

/-! ### Sequence operations (R319) -/

/-- The layers and groups. -/
def State.kvSlots (s : State) : List (Nat × Nat) :=
  (List.range (s.nat Dict.kvLayers)).flatMap fun l => (List.range (s.nat Dict.kvGroups)).map fun g => (l, g)

/-- Mark the order of a CLOSE, or forget it. -/
def State.closeOrder (s : State) (seq : Nat) (closed : Bool) : State :=
  { s with attn := { s.attn with
    closes := if closed then s.attn.closes.ins seq s.attn.nextClose else s.attn.closes.del seq
    nextClose := s.attn.nextClose + closed.toNat } }

/-- OPEN: every list header zeroed, VALID 1, COMPLETE 0. -/
def State.kvOpen (s : State) (sid seq : Nat) (d : BitVec 128) : State :=
  let s := s.kvSlots.foldl (fun s p =>
    let (l, s) := s.kvList sid seq d p.1 p.2
    s.setHeader sid l 0) s
  (s.setDir sid seq (setFld d 123 122 2)).closeOrder seq false

/-- Free the pages of a list from entry `i` on. -/
def State.freeList (s : State) (sid : Nat) (l : KvList) (i : Nat) : Nat → State
  | 0 => s
  | n + 1 =>
    let (w, s) := s.pte sid l i
    let s := if s.pteOk w then
        let (zero, s) := s.decRef sid (fld w 45 23)
        if zero then s.returnPage sid (fld w 45 23) else s
      else s.atuReport sid 5
    s.freeList sid l (i + 1) n

/-- FREE: every page's count falls, pages that reach 0 go back, VALID 0. -/
def State.kvFree (s : State) (sid seq : Nat) (d : BitVec 128) : State :=
  let s := s.kvSlots.foldl (fun s p =>
    let (l, s) := s.kvList sid seq d p.1 p.2
    s.freeList sid l 0 l.pages) s
  (s.setDir sid seq (setFld d 123 123 0)).closeOrder seq false

/-- The pages of a list from entry `i` on, as a walk reads them. -/
def State.listPages (s : State) (sid : Nat) (l : KvList) (i : Nat) : Nat → List Nat × State
  | 0 => ([], s)
  | n + 1 =>
    let (w, s) := s.pte sid l i
    let (r, s) := s.listPages sid l (i + 1) n
    (if s.pteOk w then fld w 45 23 :: r else r, s)

/-- Every source list of a FORK, with what it would become at the destination. -/
def State.forkLists (s : State) (sid src dst : Nat) (ds dd : BitVec 128) : List (KvList × KvList) × State :=
  s.kvSlots.foldl (fun acc p =>
    let (l, s) := acc.2.kvList sid src ds p.1 p.2
    (acc.1 ++ [(l, { l with seq := dst, base := dirList dd p.1, cap := s.pageCap dd })], s)) ([], s)

/-- Copy a list's header and entries from entry `i` on. -/
def State.copyList (s : State) (sid : Nat) (a b : KvList) (i : Nat) : Nat → State
  | 0 => s.setHeader sid b b.header
  | n + 1 =>
    let (w, s) := s.pte sid a i
    (s.setPte sid b i w.toNat).copyList sid a b (i + 1) n

/-- FORK: counts raised, or restored where one would exceed 65,535; then lists copied, VALID 1, COMPLETE 0. -/
def State.kvFork (s : State) (sid src dst : Nat) (ds dd : BitVec 128) : State :=
  let (ls, s) := s.forkLists sid src dst ds dd
  if ls.all fun p => decide (p.1.pages ≤ p.2.cap) then
    let (pages, s) := ls.foldl (fun acc p =>
      let (l, s) := acc.2.listPages sid p.1 0 p.1.pages
      (acc.1 ++ l, s)) (([] : List Nat), s)
    let (past, s') := pages.foldl (fun acc p =>
      let (c, s) := acc.2.refCount sid p
      (acc.1 || decide (65535 ≤ c), s.setRef sid p (c + 1))) (false, s)
    if past then s.atuReport sid 7
    else
      let s := ls.foldl (fun s p => s.copyList sid p.1 p.2 0 p.1.pages) s'
      (s.setDir sid dst (setFld dd 123 122 2)).closeOrder dst false
  else s.atuReport sid 8

/-- CLOSE: COMPLETE 1. A second CLOSE leaves the sequence's place in the order as it is (log 135). -/
def State.kvClose (s : State) (sid seq : Nat) (d : BitVec 128) : State :=
  let s1 := s.setDir sid seq (setFld d 122 122 1)
  if (s.attn.closes.look seq).isSome then s1 else s1.closeOrder seq true

/-- Run the sequence operation that the KVOP step in flight names (R319), once its sequences are locked: `op` is the
operation, applied where the requirement holds. -/
def State.kvop (s : State) (sid sub : Nat) (op : State → StepWord → BitVec 128 → BitVec 128 → State) : State :=
  match (s.station sid).running with
  | some r =>
    if s.atuOp sid == some 0x11 && fld r.word 75 73 == sub then
      let seq := fld r.word 72 61
      let src := fld r.word 60 49
      match s.tryLock sid (if sub = 1 then [seq, src] else [seq]) with
      | (false, s) => s
      | (true, s) =>
        let (d, s) := s.kvDir sid seq
        let (ds, s) := if sub = 1 then s.kvDir sid src else (0, s)
        let ok := match sub with
          | 0 => !dirValid d
          | 1 => dirValid ds && !dirValid d
          | _ => dirValid d
        let s := if ok then op s r.word d ds else s.atuReport sid 8
        match (s.station sid).running with
        | some r => s.finishStep sid r
        | none => s
    else s
  | none => s

/-! ### Refilling (R317) -/

/-- Put a sequence among others by the order of CLOSE. -/
def insertClose (p : Nat × Nat) : List (Nat × Nat) → List (Nat × Nat)
  | [] => [p]
  | q :: r => if p.2 ≤ q.2 then p :: q :: r else q :: insertClose p r

/-- COMPLETE sequences that no step has locked, in the order of CLOSE. -/
def State.reclaimable (s : State) : List Nat :=
  ((s.attn.closes.filter fun p => (s.attn.locks.look p.1).isNone).foldr insertClose []).map (·.1)

/-- Reclaim sequences until the Kitty reaches KITTY_LOW_WATER. -/
def State.reclaim (s : State) : List Nat → State
  | [] => s
  | q :: r =>
    if s.attn.kittyLevel < s.nat Dict.kittyLowWater then
      let (d, s) := s.kvDir mgt q
      ((s.kvFree mgt q d).bump Dict.kvReclaimed).reclaim r
    else s

/-- KITTY_REFILL (R317). -/
def State.kittyRefill (s : State) : State :=
  if s.attn.kittyLevel < s.nat Dict.kittyLowWater then
    let s := s.refillKitty (s.nat Dict.kittySize)
    if s.attn.freeList.isEmpty && s.nat Dict.kvReclaim == 1 then s.reclaim s.reclaimable else s
  else s

/-- Write the page numbers 0, 1, … into the Kitty's ring. -/
def State.fillKitty (s : State) (i : Nat) : Nat → State
  | 0 => s
  | n + 1 => (s.putHbm (s.kvAt Dict.kittyBase (4 * i)) (leBytes 4 i)).fillKitty (i + 1) n

/-- KV_POOL_PAGES is written: the Kitty is filled first, the other pages form the free list (R317). -/
def State.setPoolPages (s : State) (n : Nat) : State :=
  let s := s.setNum Dict.kvPoolPages n
  let k := min n (s.nat Dict.kittySize)
  let s := s.fillKitty 0 k
  { s with attn := { s.attn with kittyHead := 0, kittyLevel := k, freeList := addFree [] k (n - k) } }

end Sys2Proof.Machine
end

