-- ==== Sys2Proof/Machine/AttnOps.lean ====
section
/-! DEFINITION. The ATTN step: its tiles, entries, appends, scores and outputs (R304 to R324). -/

namespace Sys2Proof.Machine

/-! ### Arguments (R304) -/

/-- The arguments of an ATTN step. -/
structure AttnArgs where
  layer : Nat
  group : Nat
  qpg : Nat
  dim : Nat
  qf : Nat
  kf : Nat
  out : Nat
  stoch : Bool
  append : Bool
  causal : Bool
  coarse : Bool
  scale : Nat
  entries : Nat
  inA : Nat
  inB : Nat
deriving DecidableEq, Repr

/-- The arguments of a step word. -/
def attnArgs (w : StepWord) : AttnArgs :=
  { layer := fld w 75 68, group := fld w 67 64, qpg := fld w 63 60 + 1, dim := 64 * 2 ^ fld w 59 58
    qf := fld w 57 53, kf := fld w 52 48, out := fld w 47 43, stoch := fld w 42 41 == 1
    append := bit w 40, causal := bit w 39, coarse := bit w 38, scale := fld w 37 22, entries := fld w 21 13 + 1
    inA := wordInA w, inB := wordInB w }

/-- Tiles side by side for HEAD_DIM: a column pair for 256 (R307). -/
def AttnArgs.parts (g : AttnArgs) : Nat := ceilDiv g.dim 128

/-- The step in flight with its arguments, where it is an ATTN. -/
def State.attnStep (s : State) (sid : Nat) : Option (Running × AttnArgs) :=
  if s.atuOp sid = some 0x10 then (s.station sid).running.map fun r => (r, attnArgs r.word) else none

/-! ### The lengths table (R306, R308) -/

/-- The entries of a lengths table: their words. -/
def lengthsOf (rows : List (List Nat)) (n : Nat) : List Nat :=
  (List.range n).map fun e =>
    ((rows.getD (e / 8) []).drop (8 * (e % 8))).take 8 |>.foldr (fun c a => c + 256 * a) 0

/-- SEQ of an entry. -/
def lenSeq (e : Nat) : Nat := e / 2 ^ 48 % 4096
/-- Q_TOKENS of an entry. -/
def lenTokens (e : Nat) : Nat := e / 2 ^ 32 % 65536

/-- Is a lengths table bad (R308)? -/
def State.lengthsBad (s : State) (g : AttnArgs) (es : List Nat) : Bool :=
  es.any (fun e => e / 2 ^ 60 != 1) || !(es.map lenSeq).Nodup || decide (s.nat Dict.kvLayers ≤ g.layer)
    || decide (s.nat Dict.kvGroups ≤ g.group)

/-- A consumed item's EOT. -/
def itemEot : Item → Bool
  | .tile d => bit d 494
  | .gap _ => false

/-- Read the lengths tile, and check it: a bad one is reported, and poisons the step (R307, R308). -/
def State.readLengths (s : State) (sid : Nat) (r : Running) (g : AttnArgs) : State :=
  match s.feed sid g.inA r with
  | none => s
  | some (it, r, s) =>
    let s := s.keep sid r
    let (x, _, s) := s.readTile sid 0x0F false false it (ceilDiv g.entries 8) 64
    let es := lengthsOf x.rows g.entries
    let bad := s.lengthsBad g es
    let s := s.mapAttn sid fun a => { a with
      entries := es.map fun e => (lenSeq e, lenTokens e), bad := bad, allIn := itemEot it, kvIn := !g.append }
    let s := if x.bad then s.mapRun sid fun r => { r with poisoned := true } else s
    if bad then s.atuReport sid 9 else s

/-- SEQ_LOCK (R308): the table is read and checked, then every sequence it names is locked, or the step waits. A KVOP
locks its sequences in the same way. -/
def State.seqLock (s : State) (sid : Nat) : State :=
  match (s.station sid).running with
  | some r =>
    if s.atuOp sid == some 0x11 then
      (s.tryLock sid (if fld r.word 75 73 = 1 then [fld r.word 72 61, fld r.word 60 49] else [fld r.word 72 61])).2
    else if s.atuOp sid == some 0x10 then
      let s := if r.attn.isNone || (s.attnRun sid).entries.isEmpty then s.readLengths sid r (attnArgs r.word) else s
      let a := s.attnRun sid
      if a.entries.isEmpty || a.bad || a.locked then s else (s.tryLock sid (a.entries.map (·.1))).2
    else s
  | none => s

/-! ### Taking the tiles (R307) -/

/-- The query tokens of the whole batch. -/
def AttnRun.tokens (a : AttnRun) : Nat := sumNat (a.entries.map (·.2))

/-- A row of codes cut or filled to `n`. -/
def padRow (f n : Nat) (row : List Nat) : List Nat := (row ++ List.replicate n (zeroCode f)).take n

/-- The payloads of the tiles of a column pair, side by side; whether any is not to be trusted. -/
def State.readPair (s : State) (sid f rows : Nat) (dim : Nat) : List Item → List (List Nat) × Bool × State
  | [] => (List.replicate rows [], false, s)
  | it :: r =>
    let c := min dim 128
    let (x, _, s) := s.readTile sid f false false it rows c
    let (y, bad, s) := s.readPair sid f rows (dim - c) r
    ((List.range rows).map fun i => padRow f c (x.rows.getD i []) ++ y.getD i [], x.bad || bad, s)

/-- The output tile that a query tile asks for. -/
def attnTile (rows : Nat) : Item → AttnTile
  | .tile d => { rows := rows, concealed := bit d 499, mucked := bit d 498, sot := bit d 495, eot := bit d 494 }
  | .gap _ => { rows := rows }

/-- Take query tiles up to EOT, as far as the port holds them. -/
def State.takeQueries (s : State) (sid : Nat) (g : AttnArgs) : Nat → State
  | 0 => s
  | n + 1 =>
    let a := s.attnRun sid
    if a.allIn then s
    else match (s.station sid).running with
      | none => s
      | some r =>
        match s.feedN sid g.inA r g.parts with
        | none => s
        | some (items, r, s) =>
          let s := s.keep sid r
          let want := g.qpg * a.tokens
          let rows := (items.map (itemRows (min 128 (max 1 (want - a.queries.length))))).headD 1
          let (x, bad, s) := s.readPair sid g.qf rows g.dim items
          let s := if bad then s.mapRun sid fun r => { r with poisoned := true } else s
          let gap := items.any fun it => it matches .gap _
          let s := s.mapAttn sid fun a => { a with
            queries := a.queries ++ x
            tiles := a.tiles ++ items.map (attnTile rows)
            allIn := items.any itemEot || (gap && decide (want ≤ a.queries.length + rows)) }
          s.takeQueries sid g n

/-- Take new key and value tiles: as many as the batch appends, or up to EOT where the step is bad. -/
def State.takeKv (s : State) (sid : Nat) (g : AttnArgs) : Nat → State
  | 0 => s
  | n + 1 =>
    let a := s.attnRun sid
    if a.kvIn then s
    else if !a.bad && decide (2 * a.tokens ≤ a.kv.length) then s.mapAttn sid fun a => { a with kvIn := true }
    else match (s.station sid).running with
      | none => s
      | some r =>
        match s.feedN sid g.inB r g.parts with
        | none => s
        | some (items, r, s) =>
          let s := s.keep sid r
          let rows := (items.map (itemRows (min 128 (max 1 (2 * a.tokens - a.kv.length))))).headD 1
          let (x, bad, s) := s.readPair sid g.kf rows g.dim items
          let s := if bad then s.mapRun sid fun r => { r with poisoned := true } else s
          let s := s.mapAttn sid fun a => { a with
            kv := a.kv ++ x, kvIn := a.bad && items.any itemEot }
          s.takeKv sid g n

/-- The items of a port, at most, that a step could take now. -/
def State.portCount (s : State) (sid port : Nat) : Nat :=
  2 + sumNat (((s.station sid).inq.val [] port).map fun it => match it with
    | .tile _ => 1
    | .gap n => n)

/-- Take what the ports hold; a wrong number of query rows is found and reported here (R307). -/
def State.takeInputs (s : State) (sid : Nat) (g : AttnArgs) : State :=
  let s := s.takeQueries sid g (s.portCount sid g.inA)
  let a := s.attnRun sid
  let s := if a.allIn && !a.bad && a.queries.length != g.qpg * a.tokens then
      (s.mapAttn sid fun a => { a with bad := true }).atuReport sid 9
    else s
  if (s.attnRun sid).allIn then s.takeKv sid g (s.portCount sid g.inB) else s

/-! ### Pages as a walk finds them -/

/-- A page of a list: its index, number, format, first position, fill, and whether it is summarised. -/
structure KvPage where
  idx : Nat
  page : Nat
  fmt : Nat
  first : Nat
  fill : Nat
  summarised : Bool
deriving DecidableEq, Repr

/-- The address of a page (R298). -/
def State.pageAt (s : State) (p : Nat) : Nat := s.kvAt Dict.kvPoolBase (p * s.nat Dict.kvSlotBytes)

/-- Rows of element codes from an address on. -/
def State.codeRows (s : State) (sid f dim a : Nat) : Nat → List (List Nat) × State
  | 0 => ([], s)
  | n + 1 =>
    let (b, s) := s.kvRead sid a (rowBytes f dim)
    let (r, s) := s.codeRows sid f dim (a + rowBytes f dim) n
    (unpackRow f b dim :: r, s)

/-- Walk a list's entries from index `i` on, whose first position is `first`, as far as they hold positions below
`seen`; none where an entry is out of order (R302, R318). -/
def State.seenPages (s : State) (sid : Nat) (l : KvList) (seen i first : Nat) : Nat → Option (List KvPage) × State
  | 0 => (some [], s)
  | n + 1 =>
    if seen ≤ first then (some [], s)
    else
      let (w, s) := s.labLook sid l i
      if !s.pteOk w then (none, s)
      else
        let fill := fld w 52 49 + 1
        let (r, s) := s.seenPages sid l seen (i + 1) (first + fill) n
        (r.map fun r => { idx := i, page := fld w 45 23, fmt := fld w 57 53, first := first, fill := fill
                          summarised := bit w 58 } :: r, s)

/-- The keys and values that a row which sees the positions below `seen` reads of a page; those not filled are never
read (R299). -/
def State.pageRows (s : State) (sid dim seen : Nat) (p : KvPage) : List (List Nat × List Nat) × State :=
  let n := min p.fill (seen - p.first)
  let (ks, s) := s.codeRows sid p.fmt dim (s.pageAt p.page) n
  let (vs, s) := s.codeRows sid p.fmt dim (s.pageAt p.page + 16 * rowBytes p.fmt dim) n
  (ks.zip vs, s)

/-! ### Scores (R320, R321) -/

/-- The running maximum, the denominator and the weighted sum of a row. -/
structure Soft where
  m : Num
  l : Num
  o : List Num
deriving DecidableEq, Repr

/-- One seen token. -/
def Soft.token (x : Soft) (qf f : Nat) (scale : Num) (q k v : List Nat) : Soft :=
  let s := mul32 (floatSum qf f .zero q k) scale
  let m2 := max32 x.m s
  let c := exp32 (sub32 x.m m2)
  let e := exp32 (sub32 s m2)
  { m := m2
    l := add32 (mul32 x.l c) e
    o := (x.o.zip v).map fun p => add32 (mul32 p.1 c) (mul32 e (decodeElem f p.2)) }

/-- A row's output over the tokens it walks, each with its page's format. A NaN in the query, a key or a value makes the
whole row NaN. -/
def attnRow (qf dim : Nat) (scale : Num) (q : List Nat) (ts : List (Nat × List Nat × List Nat)) : List Num :=
  let isNan (f : Nat) (l : List Nat) : Bool := l.any fun c => decodeElem f c == .nan
  if isNan qf q || ts.any fun t => isNan t.1 t.2.1 || isNan t.1 t.2.2 then List.replicate dim .nan
  else
    let x0 : Soft := { m := .inf true, l := .zero, o := List.replicate dim .zero }
    let x := ts.foldl (fun (x : Soft) t => x.token qf t.1 scale q t.2.1 t.2.2) x0
    x.o.map fun o => div32 o x.l

/-- The score of a summarised page for a token: the largest over its heads, a NaN lowest (R321). -/
def pageScore (qf : Nat) (heads : List (List Nat)) (sum : List Nat) : Option Num :=
  heads.foldl (fun (a : Option Num) q =>
    match a, floatSum qf 5 .zero q sum with
    | x, .nan => x
    | none, v => some v
    | some x, v => some (if ltNum x v then v else x)) none

/-- Does score `a` rank above `b`: the larger, then the lower index? -/
def scoreBefore (a b : Nat × Option Num) : Bool :=
  match a.2, b.2 with
  | some x, some y => ltNum y x || (!ltNum x y && decide (a.1 < b.1))
  | some _, none => true
  | none, some _ => false
  | none, none => decide (a.1 < b.1)

/-- Put a page among others by rank. -/
def insertScore (p : Nat × Option Num) : List (Nat × Option Num) → List (Nat × Option Num)
  | [] => [p]
  | q :: r => if scoreBefore p q then p :: q :: r else q :: insertScore p r

/-- The summaries of pages, each with its index. -/
def State.summaries (s : State) (sid dim : Nat) : List KvPage → List (Nat × List Nat) × State
  | [] => ([], s)
  | p :: r =>
    let (b, s) := s.kvRead sid (s.kvAt Dict.kvSummaryBase (256 * p.page)) dim
    let (x, s) := s.summaries sid dim r
    ((p.idx, b.map (·.toNat)) :: x, s)

/-- Of the pages `ps` that a token sees up to position `seen`, those it walks under the coarse index (R321). -/
def State.coarsePages (s : State) (sid : Nat) (g : AttnArgs) (heads : List (List Nat)) (seen : Nat) (ps : List KvPage) :
    List KvPage × State :=
  let recent := (ps.map (·.idx)).drop (ps.length - s.nat Dict.kvRecentPages)
  let must (p : KvPage) : Bool := decide (p.idx < s.nat Dict.kvSinkPages) || recent.contains p.idx
    || decide (seen < p.first + p.fill) || !p.summarised
  let (sums, s) := s.summaries sid g.dim (ps.filter fun p => !must p)
  let ranked := (sums.map fun p => (p.1, pageScore g.qf heads p.2)).foldr insertScore []
  let top := (ranked.take (s.nat Dict.kvTopPages)).map (·.1)
  (ps.filter fun p => must p || top.contains p.idx, s)

/-! ### Ends of entries -/

/-- Output rows of zeros for an entry that failed (R318). -/
def zeroRows (n dim : Nat) : List (List Nat × Bool) := List.replicate n (List.replicate dim 0, true)

/-- Build the output tiles from rows `i` on (R307): of a column pair, left before right. -/
def State.attnOuts (s : State) (sid : Nat) (g : AttnArgs) (bad : Bool) (rows : List (List Nat × Bool)) :
    Nat → List AttnTile → List OutTile × State
  | _, [] => ([], s)
  | part, t :: r =>
    let mine := rows.take t.rows
    let last := part + 1 == g.parts
    let codes := (List.range t.rows).map fun i =>
      (((mine.getD i ([], true)).1.drop (part * 128)).take (min 128 g.dim) ++ List.replicate (min 128 g.dim) 0).take
        (min 128 g.dim)
    let (o, s) := s.writeRows sid g.out false g.stoch false (codes.map fun c => c.map (decodeElem 1)) (min 128 g.dim)
    let o := { o with
      poisoned := bad || mine.any (·.2) || decide (mine.length < t.rows)
      concealed := t.concealed, mucked := t.mucked, sot := some t.sot, eot := some t.eot }
    let (rest, s) := s.attnOuts sid g bad (if last then rows.drop t.rows else rows) (if last then 0 else part + 1) r
    (o :: rest, s)

/-- The step has gone through its entries: its output tiles are computed; without any it completes. -/
def State.attnEnd (s : State) (sid : Nat) (g : AttnArgs) : State :=
  let a := s.attnRun sid
  let (outs, s) := s.attnOuts sid g a.bad (if a.bad then [] else a.out) 0 a.tiles
  match (s.station sid).running with
  | some r =>
    if outs.isEmpty then s.finishStep sid r
    else s.mapRun sid fun r => { r with outs := outs, computed := true }
  | none => s

/-- An entry is done with its output rows: on to the next; after the last the step's outputs are computed. -/
def State.entryDone (s : State) (sid : Nat) (g : AttnArgs) (rows : List (List Nat × Bool)) : State :=
  let s := s.mapAttn sid fun a => { a with
    out := a.out ++ rows, next := a.next + 1, pageWait := none, need := 0, pages := [], cur := none, copy := false }
  let s := s.mapStation sid fun x => if x.seq = .blocked then { x with seq := .run } else x
  if (s.attnRun sid).entries.length ≤ (s.attnRun sid).next then s.attnEnd sid g else s

/-- An entry fails (R318): pages it holds go back, LAST_FAIL_SEQ, its status, rows of zeros. -/
def State.entryFail (s : State) (sid : Nat) (g : AttnArgs) (code seq q : Nat) : State :=
  let s := (s.attnRun sid).pages.foldl (fun s p => s.returnPage sid p) s
  ((s.setNum Dict.lastFailSeq seq sid).atuReport sid code).entryDone sid g (zeroRows (g.qpg * q) g.dim)

/-! ### Stages 4 and 5 of an entry (R309) -/

/-- The tokens of the pages that a row walks, each with its page's format; none where a page's format is not held by the
query's (R311). -/
def State.walkTokens (s : State) (sid : Nat) (g : AttnArgs) (seen : Nat) :
    List KvPage → Option (List (Nat × List Nat × List Nat)) × State
  | [] => (some [], s)
  | p :: r =>
    if !holdsFormat g.qf p.fmt then (none, s)
    else
      let (ts, s) := s.pageRows sid g.dim seen p
      let (x, s) := s.walkTokens sid g seen r
      (x.map (ts.map (fun t => (p.fmt, t.1, t.2)) ++ ·), s)

/-- The walk of one query row that sees the positions below `seen`: its output, or the code of the entry's failure.
`sel` is what the coarse index selected for its token; its walk looks up each page it goes to. -/
def State.walkRow (s : State) (sid : Nat) (g : AttnArgs) (l : KvList) (seen : Nat) (sel : Option (List KvPage))
    (q : List Nat) : Except Nat (List Nat) × State :=
  if seen = 0 then (.ok (List.replicate g.dim 0), s.bump Dict.emptyRows sid)
  else
    let (ps, s) := match sel with
      | some ps => (some ps, ps.foldl (fun s p => (s.labLook sid l p.idx).2) (s.bump Dict.coarseRows sid))
      | none => s.seenPages sid l seen 0 0 l.pages
    match ps with
    | none => (.error 5, s)
    | some ps =>
      let (ts, s) := s.walkTokens sid g seen ps
      match ts with
      | some ts => (.ok ((attnRow g.qf g.dim (decodeElem 3 g.scale) q ts).map encode32), s)
      | none => (.error 4, s)

/-- How many tokens the query token with index `i` of `q` sees (R310). -/
def seenOf (causal : Bool) (tokens q i : Nat) : Nat := if causal then min tokens (tokens + i + 1 - q) else tokens

/-- The rows of one token, head by head. -/
def State.headRows (s : State) (sid : Nat) (g : AttnArgs) (l : KvList) (seen : Nat) (sel : Option (List KvPage)) :
    List (List Nat) → Except Nat (List (List Nat × Bool)) × State
  | [] => (.ok [], s)
  | h :: r =>
    match s.walkRow sid g l seen sel h with
    | (.error c, s) => (.error c, s)
    | (.ok o, s) =>
      match s.headRows sid g l seen sel r with
      | (.error c, s) => (.error c, s)
      | (.ok os, s) => (.ok ((o, false) :: os), s)

/-- What the coarse index selects for a token (R321): none where it is not used; the failure where an entry of the list
is out of order. -/
def State.tokenPages (s : State) (sid : Nat) (g : AttnArgs) (l : KvList) (seen : Nat) (heads : List (List Nat)) :
    Except Nat (Option (List KvPage)) × State :=
  if g.coarse ∧ s.nat Dict.kvCoarseLen < l.tokens ∧ 0 < seen then
    match s.seenPages sid l seen 0 0 l.pages with
    | (none, s) => (.error 5, s)
    | (some ps, s) =>
      let (ps, s) := s.coarsePages sid g heads seen ps
      (.ok (some ps), s)
  else (.ok none, s)

/-- The output rows of an entry's `q` query tokens from index `i` on, in `n` of them. -/
def State.tokenRows (s : State) (sid : Nat) (g : AttnArgs) (l : KvList) (q i : Nat) :
    Nat → Except Nat (List (List Nat × Bool)) × State
  | 0 => (.ok [], s)
  | n + 1 =>
    let a := s.attnRun sid
    let base := g.qpg * sumNat ((a.entries.take a.next).map (·.2))
    let heads := (a.queries.drop (base + g.qpg * i)).take g.qpg
    let seen := seenOf g.causal l.tokens q i
    match s.tokenPages sid g l seen heads with
    | (.error c, s) => (.error c, s)
    | (.ok sel, s) =>
      match s.headRows sid g l seen sel heads with
      | (.error c, s) => (.error c, s)
      | (.ok rows, s) =>
        match s.tokenRows sid g l q (i + 1) n with
        | (.error c, s) => (.error c, s)
        | (.ok more, s) => (.ok (rows ++ more), s)

/-- Stage 4: the output rows of an entry, token by token; stage 5: the list header. -/
def State.entryRows (s : State) (sid : Nat) (g : AttnArgs) (l : KvList) (q : Nat) : State :=
  match s.tokenRows sid g l q 0 q with
  | (.error c, s) => s.entryFail sid g c l.seq q
  | (.ok rows, s) => (s.setHeader sid l l.header).entryDone sid g rows

/-! ### Stages 1 to 3 of an entry -/

/-- The summary of a full page (R313). -/
def State.writeSummary (s : State) (sid dim f page : Nat) : State :=
  let (ks, s) := s.codeRows sid f dim (s.pageAt page) 16
  let mean (n : Nat) : Num :=
    let xs := ks.map fun k => decodeElem f (k.getD n 0)
    round32 (scale2 (-4) (match xs with
      | x :: r => r.foldl add32 x
      | [] => .zero))
  let r := convertRow 5 false { gen := s.gen sid } ((List.range dim).map mean)
  let s := s.afterConv sid r
  let bytes := (packRow 5 r.codes ++ List.replicate 256 0).take 256
  (s.memWrite sid (s.kvAt Dict.kvSummaryBase (256 * page)) bytes).bump Dict.summariesWritten sid

/-- An element of format `k` stored, widened exactly, in a page of format `f` (R312). -/
def widen (k f c : Nat) : Nat := if k = f then c else (convert f none (decodeElem k c)).code

/-- Write the key and value of a token at place `n` of a page. -/
def State.writeToken (s : State) (sid : Nat) (g : AttnArgs) (f page n : Nat) (k v : List Nat) : State :=
  let rb := rowBytes f g.dim
  let put (x : List Nat) : List Byte := packRow f (x.map (widen g.kf f))
  (s.memWrite sid (s.pageAt page + n * rb) (put k)).memWrite sid (s.pageAt page + 16 * rb + n * rb) (put v)

/-- Append tokens (R312, R313): `cur` is the last page where it can take more (index, page, format, fill); `pages` are
those reserved. -/
def State.appendTokens (s : State) (sid : Nat) (g : AttnArgs) (l : KvList) (cur : Option (Nat × Nat × Nat × Nat))
    (pages : List Nat) : List (List Nat × List Nat) → KvList × State
  | [] => (l, s)
  | t :: r =>
    let fresh := match cur with
      | some c => c.2.2.2 == 16
      | none => true
    let p := pages.headD 0
    let s := if fresh then s.setRef sid p 1 else s
    let (i, page, f, n) := if fresh then (l.pages, p, g.kf, 0) else cur.getD (0, 0, 0, 0)
    let l := { l with pages := if fresh then l.pages + 1 else l.pages, tokens := l.tokens + 1 }
    let s := s.writeToken sid g f page n t.1 t.2
    let s := if n + 1 = 16 then s.writeSummary sid g.dim f page else s
    let s := s.setPte sid l i (mkPte (n + 1 == 16) f (n + 1) page)
    s.appendTokens sid g l (some (i, page, f, n + 1)) (if fresh then pages.drop 1 else pages) r

/-- The tokens that entry `next` of a step appends: pairs of key and value rows. -/
def AttnRun.newTokens (a : AttnRun) (q : Nat) : List (List Nat × List Nat) :=
  let base := sumNat ((a.entries.take a.next).map (·.2))
  (List.range q).map fun t => (a.kv.getD (2 * (base + t)) [], a.kv.getD (2 * (base + t) + 1) [])

/-- What an append of `q` tokens finds at the end of a list: the last page where it can take more (index, page, format,
fill), and how many new pages it needs; none where the entry is out of order. -/
def State.appendPlan (s : State) (sid : Nat) (g : AttnArgs) (l : KvList) (q : Nat) :
    Option (Option (Nat × Nat × Nat × Nat) × Nat) × State :=
  if l.pages = 0 then (some (none, ceilDiv q 16), s)
  else
    let (w, s) := s.labLook sid l (l.pages - 1)
    let fill := fld w 52 49 + 1
    if !s.pteOk w then (none, s)
    else if fill < 16 ∧ holdsFormat (fld w 57 53) g.kf then
      (some (some (l.pages - 1, fld w 45 23, fld w 57 53, fill), ceilDiv (q - (16 - fill)) 16), s)
    else (some (none, ceilDiv q 16), s)

/-- Copy a page's filled tokens to another (R314). -/
def State.copyPage (s : State) (sid dim f src dst fill : Nat) : State :=
  let rb := rowBytes f dim
  let (k, s) := s.kvRead sid (s.pageAt src) (fill * rb)
  let (v, s) := s.kvRead sid (s.pageAt src + 16 * rb) (fill * rb)
  (s.memWrite sid (s.pageAt dst) k).memWrite sid (s.pageAt dst + 16 * rb) v

/-- Wait for `n` pages (R315, R316). -/
def State.awaitPages (s : State) (sid n : Nat) : State :=
  (s.mapAttn sid fun a => { a with pageWait := some (a.pageWait.getD s.tb), need := n }).mapStation sid fun x =>
    if x.seq = .run then x.block s.tb else x

/-- Does the other ATU wait for pages, and since before `t` (R315)? -/
def State.waitsBefore (s : State) (sid t : Nat) : Bool :=
  [0x24, 0x25].any fun o => o != sid && match (s.attnRun o).pageWait with
    | some u => decide (u < t)
    | none => false

/-- The append with the pages reserved, from page `cur` on; then the rows. -/
def State.appendRows (s : State) (sid : Nat) (g : AttnArgs) (l : KvList) (q : Nat)
    (cur : Option (Nat × Nat × Nat × Nat)) (pages : List Nat) : State :=
  let (l, s) := s.appendTokens sid g l cur pages ((s.attnRun sid).newTokens q)
  (s.mapAttn sid fun a => { a with pages := [] }).entryRows sid g l q

/-- The copy-on-write test (R314) and the append, with the pages reserved; then the rows. Gives none where the test asks
for one more page. A count of 0, for which the table has no outcome, is taken as 1 (log 124). -/
def State.appendEntry (s : State) (sid : Nat) (g : AttnArgs) (l : KvList) (q : Nat) : Option State :=
  let a := s.attnRun sid
  match a.cur with
  | none => some (s.appendRows sid g l q none a.pages)
  | some (i, p, f, fill) =>
    let (c, s) := s.refCount sid p
    if 1 < c then
      if a.copy then
        let np := a.pages.headD 0
        let s := (s.decRef sid p).2.copyPage sid g.dim f p np fill
        let s := ((s.setRef sid np 1).setPte sid l i (mkPte false f fill np)).bump Dict.cowCopies sid
        some (s.appendRows sid g l q (some (i, np, f, fill)) (a.pages.drop 1))
      else none
    else
      let s := s.bump Dict.cowInPlace sid
      let s := if a.copy then s.returnPage sid (a.pages.headD 0) else s
      some (s.appendRows sid g l q a.cur (if a.copy then a.pages.drop 1 else a.pages))

/-- Take `n` pages now where the Kitty holds them and nobody waits before; `copy` says that the first is for a copy. -/
def State.reserve (s : State) (sid n : Nat) (copy : Bool) : Option State :=
  let a := s.attnRun sid
  let first := match a.pageWait with
    | some t => !s.waitsBefore sid t
    | none => !s.waitsBefore sid (s.tb + 1)
  if n ≤ s.attn.kittyLevel && (a.starved || first) then
    let (ps, s) := s.takePages sid n
    some (s.mapAttn sid fun a => { a with pages := ps ++ a.pages, copy := a.copy || copy })
  else none

/-- The reservation failed: wait, or, where an entry of the step has already failed for pages, fail (R316). -/
def State.noPages (s : State) (sid : Nat) (g : AttnArgs) (n seq q : Nat) : State :=
  if (s.attnRun sid).starved then (s.bump Dict.kittyEmptyCount).entryFail sid g 1 seq q else s.awaitPages sid n

/-- The test and the append of an entry whose pages are reserved: one more page is asked for where the test says so. -/
def State.appendOrAsk (s : State) (sid : Nat) (g : AttnArgs) (l : KvList) (q : Nat) : State :=
  match s.appendEntry sid g l q with
  | some s => s
  | none =>
    match s.reserve sid 1 true with
    | some s => (s.appendEntry sid g l q).getD s
    | none => (s.mapAttn sid fun a => { a with copy := true }).noPages sid g 1 l.seq q

/-- Stage 2: what an append needs, its limits, and its pages (R312, R315). -/
def State.entryAppend (s : State) (sid : Nat) (g : AttnArgs) (l : KvList) (q : Nat) : State :=
  match s.appendPlan sid g l q with
  | (none, s) => s.entryFail sid g 5 l.seq q
  | (some (cur, fresh), s) =>
    if 1048576 < l.tokens + q ∨ l.cap < l.pages + fresh then s.entryFail sid g 3 l.seq q
    else if 0 < fresh ∧ s.nat Dict.kvSlotBytes < 32 * rowBytes g.kf g.dim then s.entryFail sid g 6 l.seq q
    else
      let (c, s) := match cur with
        | some x => s.refCount sid x.2.1
        | none => (0, s)
      let copy := decide (1 < c)
      let n := fresh + copy.toNat
      let s := s.mapAttn sid fun a => { a with cur := cur }
      match s.reserve sid n copy with
      | some s => s.appendOrAsk sid g l q
      | none => (s.mapAttn sid fun a => { a with copy := copy }).noPages sid g n l.seq q

/-- The list an entry names, where the entry may use it: none with KV_BAD_SEQUENCE (R318). -/
def State.entryList (s : State) (sid : Nat) (g : AttnArgs) (seq : Nat) : Option KvList × State :=
  let (d, s) := s.kvDir sid seq
  if !dirValid d || (dirComplete d && g.append) then (none, s)
  else
    let (l, s) := s.kvList sid seq d g.layer g.group
    (some l, s)

/-- Go through the next entry (R309). -/
def State.nextEntry (s : State) (sid : Nat) (g : AttnArgs) : State :=
  let a := s.attnRun sid
  match a.entries[a.next]? with
  | none => s.attnEnd sid g
  | some (seq, q) =>
    if q = 0 then s.entryDone sid g []
    else match s.entryList sid g seq with
      | (none, s) => s.entryFail sid g 2 seq q
      | (some l, s) => if g.append then s.entryAppend sid g l q else s.entryRows sid g l q

/-- Go through up to `n` entries: until one waits, or the step's outputs are computed. -/
def State.entries (s : State) (sid : Nat) (g : AttnArgs) : Nat → State
  | 0 => s
  | n + 1 =>
    match s.attnStep sid with
    | some (r, _) =>
      if r.computed || (s.attnRun sid).pageWait.isSome then s else (s.nextEntry sid g).entries sid g n
    | none => s

/-- ATTN (R307, R309): the tiles are taken as far as they are there; a bad step puts out zeros, poisoned; else entries
are gone through, the sequences being locked. -/
def State.attention (s : State) (sid count : Nat) : State :=
  match s.attnStep sid with
  | none => s
  | some (r, g) =>
    if r.computed || (s.attnRun sid).entries.isEmpty then s
    else
      let s := s.takeInputs sid g
      let a := s.attnRun sid
      if !a.allIn || !a.kvIn then s
      else if a.bad then s.attnEnd sid g
      else if a.locked then s.entries sid g count
      else s

/-- KITTY_TAKE (R315): the waiting entry takes its pages once the Kitty holds them, the earlier waiter first. -/
def State.kittyTake (s : State) (sid : Nat) : State :=
  let a := s.attnRun sid
  match s.attnStep sid, a.pageWait, a.entries[a.next]? with
  | some (_, g), some t, some (seq, q) =>
    if a.need ≤ s.attn.kittyLevel && !s.waitsBefore sid t then
      match s.reserve sid a.need false with
      | some s =>
        let s := s.mapAttn sid fun a => { a with pageWait := none, need := 0 }
        match s.entryList sid g seq with
        | (none, s) => s.entryFail sid g 2 seq q
        | (some l, s) => s.appendOrAsk sid g l q
      | none => s
    else s
  | _, _, _ => s

/-- KITTY_EMPTY (R316): the Kitty cannot serve an entry 100 us after its wait began; the other entries do not wait. -/
def State.kittyEmpty (s : State) (sid : Nat) : State :=
  let a := s.attnRun sid
  match s.attnStep sid, a.pageWait, a.entries[a.next]? with
  | some (_, g), some t, some (seq, q) =>
    if t + 100000 ≤ s.tb ∧ (s.attn.kittyLevel < a.need ∨ s.waitsBefore sid t) then
      ((s.mapAttn sid fun a => { a with starved := true }).bump Dict.kittyEmptyCount).entryFail sid g 1 seq q
    else s
  | _, _, _ => s

end Sys2Proof.Machine
end

