-- ==== Sys2Proof/Machine/VideoFormat.lean ====
section
/-! DEFINITION. The RTP payload formats of the three codecs, what an access unit's bytes say of it, and which
bitstreams a decode core accepts (R277, R283). The formats and the unit types are those of the documents R277 names. -/

namespace Sys2Proof.Machine

/-- A piece of a packet's payload: a NAL unit or an OBU, or a fragment of one. `cont`: it goes on the piece before it;
`more`: the next packet goes on with it. -/
structure RtpPart where
  bytes : List Byte
  cont : Bool := false
  more : Bool := false
deriving DecidableEq, Repr

/-- Bits `[lo + w - 1 : lo]` of a byte. -/
def byteField (b : Byte) (lo w : Nat) : Nat := b.toNat / 2 ^ lo % 2 ^ w

/-- The NAL units of an aggregation packet, each behind its size in two bytes, high byte first; none where a size does
not fit. `fuel` bounds how many. -/
def aggregated : Nat → List Byte → Option (List RtpPart)
  | _, [] => some []
  | 0, _ => none
  | f + 1, a :: b :: r =>
    let n := a.toNat * 256 + b.toNat
    if n = 0 ∨ r.length < n then none else (aggregated f (r.drop n)).map (⟨r.take n, false, false⟩ :: ·)
  | _, _ => none

/-- The part a fragmentation unit carries: with the start bit its NAL unit begins with the header put together, with
the end bit it ends. -/
def fragment (fu : Byte) (header rest : List Byte) : RtpPart :=
  let start := fu.toNat.testBit 7
  { bytes := if start then header ++ rest else rest, cont := !start, more := !fu.toNat.testBit 6 }

/-- RFC 6184: single NAL unit, STAP-A (24), FU-A (28); the interleaved forms are not supported. -/
def h264Parts : List Byte → Option (List RtpPart)
  | [] => none
  | h :: r =>
    match byteField h 0 5 with
    | 0 => none
    | 24 => aggregated r.length r
    | 28 =>
      match r with
      | fu :: body => some [fragment fu [BitVec.ofNat 8 (byteField h 5 3 * 32 + byteField fu 0 5)] body]
      | [] => none
    | n => if n < 24 then some [⟨h :: r, false, false⟩] else none

/-- RFC 7798 without DONL: single NAL unit, aggregation packet (48), fragmentation unit (49). -/
def h265Parts : List Byte → Option (List RtpPart)
  | h :: h' :: r =>
    match byteField h 1 6 with
    | 48 => aggregated r.length r
    | 49 =>
      match r with
      | fu :: body =>
        some [fragment fu [BitVec.ofNat 8 (byteField h 7 1 * 128 + byteField fu 0 6 * 2 + byteField h 0 1), h'] body]
      | [] => none
    | n => if n < 48 then some [⟨h :: h' :: r, false, false⟩] else none
  | _ => none

/-- A number in LEB128, at most eight bytes, and what follows it. -/
def leb128 : Nat → List Byte → Option (Nat × List Byte)
  | f + 1, b :: r =>
    if b.toNat < 128 then some (b.toNat, r) else (leb128 f r).map fun p => (b.toNat % 128 + 128 * p.1, p.2)
  | _, _ => none

/-- OBU elements: each behind its length, but the last of `w` of them where `w` is not 0. -/
def obuElements (w : Nat) : Nat → Nat → List Byte → Option (List (List Byte))
  | _, _, [] => some []
  | 0, _, _ => none
  | f + 1, k, l =>
    if w ≠ 0 ∧ k + 1 = w then some [l]
    else match leb128 8 l with
      | some (n, r) =>
        if r.length < n ∨ n = 0 then none else (obuElements w f (k + 1) (r.drop n)).map (r.take n :: ·)
      | none => none

/-- Number the fragments of a packet: the first goes on one before it where Z is set, the last goes on where Y is. -/
def obuParts (z y : Bool) : List (List Byte) → List RtpPart
  | [] => []
  | [l] => [⟨l, z, y⟩]
  | l :: r => ⟨l, z, false⟩ :: obuParts false y r

/-- The AV1 payload format: an aggregation header (Z, Y, W) and OBU elements. -/
def av1Parts : List Byte → Option (List RtpPart)
  | [] => none
  | h :: r =>
    (obuElements (byteField h 4 2) r.length 0 r).map (obuParts (h.toNat.testBit 7) (h.toNat.testBit 6))

/-- The parts of a packet's payload in the payload format of CODEC; none where it is not one of the packetisations
supported (R277). -/
def rtpParts (codec : Nat) (payload : List Byte) : Option (List RtpPart) :=
  match codec with
  | 0 => h264Parts payload
  | 1 => h265Parts payload
  | _ => av1Parts payload

/-- Take a part into an access unit. A fragment with nothing to go on, and a unit left unfinished, cannot be parsed. -/
def AccessUnit.addPart (u : AccessUnit) (p : RtpPart) : AccessUnit :=
  if p.cont then
    if u.unfinished then { u with parts := u.parts.dropLast ++ [u.parts.getLastD [] ++ p.bytes], unfinished := p.more }
    else { u with broken := true }
  else { u with parts := u.parts ++ [p.bytes], unfinished := p.more, broken := u.broken || u.unfinished }

/-- Take a packet's payload into an access unit. -/
def AccessUnit.addPayload (u : AccessUnit) (codec : Nat) (payload : List Byte) : AccessUnit :=
  match rtpParts codec payload with
  | some ps => ps.foldl AccessUnit.addPart u
  | none => { u with broken := true }

/-- The type of an OBU and its payload. -/
def obuBody : List Byte → Nat × List Byte
  | [] => (0, [])
  | h :: r =>
    let r := if h.toNat.testBit 2 then r.drop 1 else r
    let body := if h.toNat.testBit 1 then (leb128 8 r).elim [] (·.2) else r
    (byteField h 3 4, body)

/-- Does a NAL unit or OBU make its picture a key frame (R283): an IDR slice (H.264), an IRAP picture (H.265), the
header of a shown key frame or a sequence header of still pictures with the reduced header (AV1)? -/
def keyPart (codec : Nat) (p : List Byte) : Bool :=
  match codec with
  | 0 => byteField (p.headD 0) 0 5 == 5
  | 1 => decide (16 ≤ byteField (p.headD 0) 1 6) && decide (byteField (p.headD 0) 1 6 ≤ 23)
  | _ =>
    let (type, body) := obuBody p
    let b := body.headD 0
    match type with
    | 1 => !body.isEmpty && byteField b 3 1 == 1
    | 3 | 6 => !body.isEmpty && byteField b 5 3 == 0 && byteField b 4 1 == 1
    | _ => false

/-- Is a NAL unit part of a RASL picture (H.265)? -/
def raslPart (codec : Nat) (p : List Byte) : Bool :=
  codec == 1 && (byteField (p.headD 0) 1 6 == 8 || byteField (p.headD 0) 1 6 == 9)

/-- An access unit that is complete: what its bytes say of it (R283). -/
def AccessUnit.close (u : AccessUnit) (codec : Nat) : AccessUnit :=
  { u with key := u.parts.any (keyPart codec), rasl := u.parts.any (raslPart codec)
           broken := u.broken || u.unfinished, unfinished := false }

/-- Does a decode core accept the bitstream (R277): profile, level, chroma format and bits a sample against CODEC? -/
def Decoded.supported (d : Decoded) (codec : Nat) : Bool :=
  decide (d.level ≤ 51) && !d.highTier && match codec, d.profile with
    | 0, .high => decide (d.frame.bits = 8) && (d.chroma == .mono || d.chroma == .c420)
    | 0, .constrainedBaseline => decide (d.frame.bits = 8) && d.chroma == .c420
    | 1, .main => decide (d.frame.bits = 8) && d.chroma == .c420
    | 1, .main10 => decide (8 ≤ d.frame.bits ∧ d.frame.bits ≤ 10) && d.chroma == .c420
    | 2, .av1Main => (d.frame.bits == 8 || d.frame.bits == 10) && (d.chroma == .mono || d.chroma == .c420)
    | _, _ => false

end Sys2Proof.Machine
end

