-- ==== Sys2Proof/Machine/VideoOps.lean ====
section
/-! DEFINITION. Video: packets, access units, slices of core time, pictures, concealment and budgets (R278 to R287). -/

namespace Sys2Proof.Machine

/-- A video stream. -/
def State.vstream (s : State) (n : Nat) : VStream := s.video.streams.val {} n

/-- Change a video stream. -/
def State.mapVstream (s : State) (n : Nat) (f : VStream → VStream) : State :=
  { s with video := { s.video with streams := s.video.streams.upd {} n f } }

/-- The streams. -/
def vstreams : List Nat := List.range 64

/-- The station of the core a stream is bound to (R14, R280). -/
def State.vdOf (s : State) (n : Nat) : Nat := 0x2A + s.nat Dict.vdCore n

/-! ### Packets and access units (R278, R279) -/

/-- The enabled stream a packet belongs to (R278). -/
def State.streamFor (s : State) (source port pt : Nat) : Option Nat :=
  vstreams.find? fun n => s.flag Dict.vstreamEnable n && s.nat Dict.udpPort n == port && s.nat Dict.payloadType n == pt
    && (s.nat Dict.sourceIp n == 0 || s.nat Dict.sourceIp n == source)

/-- How far the sequence number `a` lies ahead of `b`. -/
def seqAhead (a b : BitVec 16) : Int := signed 16 (a - b).toNat

/-- Put a packet among the held ones, in sequence order; a second one with its number is ignored. -/
def insertPacket (p : RtpPacket) : List RtpPacket → List RtpPacket
  | [] => [p]
  | q :: r => if p.seq = q.seq then q :: r else if seqAhead p.seq q.seq < 0 then p :: q :: r else q :: insertPacket p r

/-- A stream in LOST, at its next packet (R283). -/
def VStream.found (v : VStream) (now : Nat) : VStream :=
  let v := { v with lastPacket := now }
  if v.st = .lost then { v with st := .waitKey, since := now } else v

/-- RTP_PACKET (R278, R279, R283). -/
def State.rtpPacket (s : State) (source port pt : Nat) (p : RtpPacket) : State :=
  match s.streamFor source port pt with
  | none => s.bump Dict.unmatchedPackets
  | some n =>
    let s := s.mapVstream n (·.found s.tb)
    let late := match (s.vstream n).next with
      | some k => decide (seqAhead p.seq k < 0)
      | none => false
    if late then s.bump Dict.packetsLate n else s.mapVstream n fun v => { v with held := insertPacket p v.held }

/-! ### What a stream puts out (R284 to R287) -/

/-- Put out a picture: the four newest stay (R287). -/
def State.putPicture (s : State) (n : Nat) (p : Picture) : State :=
  let s := s.mapVstream n fun v => { v with pics := (p :: v.pics).take 4, count := v.count + 1 }
  s.bump (if p.mucked then Dict.picturesMucked else if p.concealed then Dict.picturesConcealed else Dict.picturesDecoded) n

/-- The last output picture repeated for a unit, flagged CONCEALED; mucked where there is none (R285) or where
`tooOld`. A mucked picture repeats as mucked (log 35). -/
def State.putRepeat (s : State) (n : Nat) (u : AccessUnit) (old : Bool) (permille : Nat) : State :=
  match (s.vstream n).pics with
  | p :: _ =>
    s.putPicture n { p with ts := u.ts, dev := u.dev, done := s.tb, permille := permille, concealed := !(old || p.mucked)
                            mucked := old || p.mucked }
  | [] => s.putPicture n { ts := u.ts, dev := u.dev, done := s.tb, mucked := true, permille := permille }

/-- A unit that is not decoded (R286). -/
def State.putUndecoded (s : State) (n : Nat) (u : AccessUnit) : State :=
  let old := match (s.vstream n).pics with
    | p :: _ => decide (p.real + s.nat Dict.concealMaxAge n * 1000000 < u.dev)
    | [] => true
  s.putRepeat n u old 0

/-- Does the stream decode nothing but key frames (R283)? -/
def VStream.keyOnly (v : VStream) : Bool := v.st == .waitKey || v.st == .resync

/-- Deal with the units at the head of the list that are not to be decoded, up to `fuel` of them: in WAIT_KEY and RESYNC
those that are no key frame are put out undecoded (R286); elsewhere a RASL picture is discarded (R283). -/
def State.putSkipped (s : State) (n : Nat) : Nat → State
  | 0 => s
  | f + 1 =>
    match (s.vstream n).units with
    | u :: r =>
      let t := s.mapVstream n fun v => { v with units := r, used := 0 }
      if (s.vstream n).keyOnly then if u.key then s else (t.putUndecoded n u).putSkipped n f
      else if u.rasl then t.putSkipped n f else s
    | [] => s

/-- Put out every unit at the head that is not to be decoded. -/
def State.skipUnits (s : State) (n : Nat) : State := s.putSkipped n (s.vstream n).units.length

/-- The access unit under assembly is complete (R279). -/
def VStream.endUnit (v : VStream) (codec : Nat) : VStream :=
  match v.cur with
  | some u => { v with cur := none, units := v.units ++ [u.close codec] }
  | none => v

/-- A packet was lost before the next one: the unit under assembly lacks something, and a fragment in it goes no
further. -/
def AccessUnit.lose (u : AccessUnit) : AccessUnit :=
  { u with lossy := true, broken := u.broken || u.unfinished, unfinished := false }

/-- A packet in its place: it ends the unit before it where its timestamp is new, and its own with the marker bit. -/
def VStream.take (v : VStream) (codec : Nat) (p : RtpPacket) (lossy : Bool) : VStream :=
  let v := if lossy then { v with cur := v.cur.map AccessUnit.lose } else v
  let v := match v.cur with
    | some u => if u.ts = p.ts then v else v.endUnit codec
    | none => v
  let u := v.cur.getD { ts := p.ts, dev := p.dev, lossy := lossy }
  let v := { v with cur := some (u.addPayload codec p.payload), next := some (p.seq + 1) }
  if p.marker then v.endUnit codec else v

/-- RTP_RELEASE (R279, R286): once a held packet's REORDER_TIME is over, the first packet held is released. -/
def State.rtpRelease (s : State) (n : Nat) : State :=
  let v := s.vstream n
  if v.held.any fun p => decide (p.at_ + s.nat Dict.reorderTime * 1000000 ≤ s.tb) then
    match v.held with
    | p :: r =>
      let lost := match v.next with
        | some k => (p.seq - k).toNat
        | none => 0
      let s := s.bump Dict.packetsLost n lost
      let codec := s.nat Dict.codec n
      (s.mapVstream n fun v => ({ v with held := r } : VStream).take codec p (decide (0 < lost))).skipUnits n
    | [] => s
  else s

/-! ### Slices (R282) -/

/-- The load a stream declares, in luma samples per second (R280). -/
def State.vload (s : State) (n : Nat) : Nat := s.nat Dict.maxWidth n * s.nat Dict.maxHeight n * s.nat Dict.maxFps n

/-- The streams of a core that have a unit ready. -/
def State.readyStreams (s : State) (core : Nat) : List Nat :=
  vstreams.filter fun n => s.flag Dict.vstreamEnable n && s.nat Dict.vdCore n == core && !(s.vstream n).units.isEmpty
    && (s.vstream n).st != .idle && (s.vstream n).st != .lost

/-- Core time of the unit that a stream's core works on. -/
def State.coreTime (s : State) (n : Nat) : Nat :=
  let core := s.nat Dict.vdCore n
  (s.vstream n).used + (if s.video.slice.look core = some n then s.tb - s.video.sliceAt.val s.tb core else 0)

/-- The slice under way ends: its time is the stream's. -/
def State.endSlice (s : State) (core : Nat) : State :=
  match s.video.slice.look core with
  | some n =>
    let used := s.coreTime n
    let s := s.mapVstream n fun v => { v with used := used }
    { s with video := { s.video with slice := s.video.slice.del core, sliceAt := s.video.sliceAt.del core } }
  | none => s

/-- Of streams with their standing, the one that stands highest; the lowest-numbered of equals. -/
def bestTurn : List (Nat × Int) → Option (Nat × Int)
  | [] => none
  | p :: r =>
    match bestTurn r with
    | some q => if p.2 < q.2 then some q else some p
    | none => some p

/-- DECODE_SLICE (R282): weighted round robin, each stream's standing rising by its load and the chosen one's falling by
the sum (log 36). A slice lasts 250 µs: before that there is no boundary. -/
def State.decodeSlice (s : State) (core : Nat) : State :=
  if s.tb < s.video.boundary.val 0 core then s else
  let s := s.endSlice core
  let s : State := { s with video := { s.video with boundary := s.video.boundary.ins core (s.tb + 250000) } }
  let s := (s.readyStreams core).foldl (fun s n => s.skipUnits n) s
  let ready := s.readyStreams core
  let total : Nat := sumNat (ready.map s.vload)
  let s := ready.foldl (fun s n => s.mapVstream n fun v => { v with turn := v.turn + s.vload n }) s
  match bestTurn (ready.map fun n => (n, (s.vstream n).turn)) with
  | some (n, _) =>
    let s := s.mapVstream n fun v => { v with turn := v.turn - total }
    { s with video := { s.video with slice := s.video.slice.ins core n, sliceAt := s.video.sliceAt.ins core s.tb } }
  | none => s

/-! ### Pictures (R283 to R287) -/

/-- The mean core time in ns of the pictures behind the running average (R285). -/
def VStream.average (v : VStream) : Nat := if v.times.isEmpty then 0 else sumNat v.times / v.times.length

/-- A stream's budget in ns (R285). -/
def State.vbudget (s : State) (n : Nat) : Nat :=
  let ceil := s.nat Dict.budgetCeil n * 1000
  let v := s.vstream n
  if v.times.length < 32 then ceil else min (s.nat Dict.budgetMult n * v.average) ceil

/-- The concealed samples of a plane of width `w` from a plane of width `ow`: those of the lost units are the co-located
ones of the last picture. `free` gives the samples of a place that the last picture does not have: the rule states none
(log 121). -/
def concealPlane (free : Nat → Nat) (w ow perRow size : Nat) (lost : List Nat) (plane old : List Nat) : List Nat :=
  plane.zipIdx.map fun p =>
    let x := p.2 % max 1 w
    let y := p.2 / max 1 w
    if lost.contains (y / max 1 size * perRow + x / max 1 size) then
      if x < ow ∧ y * ow + x < old.length then old.getD (y * ow + x) 0 else free p.2
    else p.1

/-- A frame with its lost units copied from the last output picture (R284). -/
def Frame420.conceal (f old : Frame420) (free : Nat → Nat) (size : Nat) (lost : List Nat) : Frame420 :=
  let perRow := ceilDiv f.w size
  let half (n : Nat) := (n + 1) / 2
  { f with
    y := concealPlane free f.w old.w perRow size lost f.y old.y
    u := concealPlane (fun i => free (f.y.length + i)) (half f.w) (half old.w) perRow (size / 2) lost f.u old.u
    v := concealPlane (fun i => free (f.y.length + f.u.length + i)) (half f.w) (half old.w) perRow (size / 2) lost
      f.v old.v }

/-- A frame with its lost units concealed from the stream's last output picture; where it needs a sample that picture
does not have, free values. -/
def State.concealed (s : State) (f old : Frame420) (size : Nat) (lost : List Nat) : Frame420 × State :=
  if lost.isEmpty then (f, s)
  else (f.conceal old (fun i => (Config.freeBits f.bits (s.free + i)).toNat) size lost,
    { s with free := s.free + f.y.length + f.u.length + f.v.length })

/-- The seconds and nanoseconds that a record carries of a device time: zero while time is not valid (R448). -/
def State.stampOf (s : State) (dev : Nat) : Nat × Nat := if s.timeValid then (dev / nsPerS, dev % nsPerS) else (0, 0)

/-- Post a damage record (R287); PIC_COUNT counts the pictures put out, this one among them (log 37). -/
def State.damageRecord (s : State) (n : Nat) (u : AccessUnit) (cause first damaged total : Nat) (mucked : Bool) :
    State :=
  let (sec, ns) := s.stampOf u.dev
  let w : BitVec 512 := BitVec.ofNat 512
    (2 ^ 508 + cause % 8 * 2 ^ 505 + s.nat Dict.codec n % 8 * 2 ^ 502 + n % 64 * 2 ^ 496 + u.ts.toNat * 2 ^ 464
      + (s.vstream n).count % 65536 * 2 ^ 448 + first % 16777216 * 2 ^ 424 + damaged % 16777216 * 2 ^ 400
      + total % 16777216 * 2 ^ 376 + ns % 4294967296 * 2 ^ 344 + sec % 65536 * 2 ^ 328 + mucked.toNat * 2 ^ 326)
  let (ok, s) := s.post (s.vdOf n) (s.nat Dict.damageQueue) (wordBytes w)
  if ok then s else s.bump Dict.damageRecordsDropped n

/-- The unit the core worked on is done with. -/
def State.nextUnit (s : State) (n : Nat) : State :=
  let core := s.nat Dict.vdCore n
  let s := s.mapVstream n fun v => { v with units := v.units.drop 1, used := 0 }
  if s.video.slice.look core = some n then
    { s with video := { s.video with sliceAt := s.video.sliceAt.ins core s.tb } }
  else s

/-- Go to WAIT_KEY, where not there. -/
def VStream.toWaitKey (v : VStream) (now : Nat) : VStream :=
  if v.st = .waitKey then v else { v with st := .waitKey, since := now }

/-- A key frame that is not decoded (R283). -/
def State.vUnsupported (s : State) (n : Nat) (u : AccessUnit) : State :=
  let s := ((s.bump Dict.unsupportedCount n).report (withSrc 0x06000B03 (s.vdOf n)) n).mapVstream n (·.toWaitKey s.tb)
  ((s.nextUnit n).putUndecoded n u).skipUnits n

/-- The damage of a picture (R284, R287): what the core found, packets of its unit that were lost, or bytes of it that
could not be parsed. -/
def AccessUnit.cause (u : AccessUnit) (d : Decoded) : Option Nat :=
  match d.damage with
  | some c => some c
  | none => if u.lossy then some 0 else if u.broken then some 1 else none

/-- A picture was decoded (R284): concealed or mucked where it is damaged, CONCEALED also where it refers to a concealed
one; a key frame moves the stream to RUN. -/
def State.pictureOut (s : State) (n : Nat) (u : AccessUnit) (d : Decoded) : State :=
  let v := s.vstream n
  let time := s.coreTime n
  let damaged := (u.cause d).isSome
  let total := ceilDiv d.frame.w d.unit * ceilDiv d.frame.h d.unit
  let lost := if damaged then d.lost else []
  let mucked := damaged && (decide (s.nat Dict.concealMaxArea n * total < 100 * lost.length) || v.pics.isEmpty)
  let old : Frame420 := (v.pics.head?.map (·.frame)).getD {}
  let (frame, s) := s.concealed d.frame old d.unit lost
  let pic : Picture :=
    { ts := u.ts, dev := u.dev, done := s.tb, frame := frame
      concealed := !mucked && (damaged || (!u.key && v.chain && d.chain)), mucked := mucked
      permille := lost.length * 1000 / max 1 total, real := u.dev }
  let s := s.mapVstream n fun v =>
    { v with st := if u.key then .run else v.st
             chain := damaged || (!u.key && v.chain)
             times := if damaged then v.times else (time :: v.times).take 32 }
  let s := (s.nextUnit n).putPicture n pic
  match u.cause d with
  | some c => s.damageRecord n u c (d.lost.foldl min (d.lost.headD 0)) lost.length total mucked
  | none => s

/-- The unit whose decode a stream's core runs: the one at the head of the stream whose slice it is. None in LOST, which
only a packet leaves (R283), and none that is not decoded in the stream's state. -/
def State.underDecode (s : State) (n : Nat) : Option AccessUnit :=
  let v := s.vstream n
  if s.video.slice.look (s.nat Dict.vdCore n) = some n ∧ v.st ≠ .lost ∧ v.st ≠ .idle then
    match v.units with
    | u :: _ => if v.keyOnly && !u.key || !v.keyOnly && u.rasl then none else some u
    | [] => none
  else none

/-- May a key frame be decoded (R283): within the declared size, and supported (R277)? -/
def State.decodable (s : State) (n : Nat) (d : Decoded) : Bool :=
  d.supported (s.nat Dict.codec n) && decide (d.frame.w ≤ s.nat Dict.maxWidth n)
    && decide (d.frame.h ≤ s.nat Dict.maxHeight n)

/-- PICTURE_DONE (R283, R284, R287): the decode of the unit under way completes, within its budget (R285). -/
def State.pictureDone (s : State) (n : Nat) (d : Decoded) : State :=
  match s.underDecode n with
  | some u =>
    if u.key && !s.decodable n d then s.vUnsupported n u
    else if s.vbudget n < s.coreTime n then s
    else (s.pictureOut n u d).skipUnits n
  | none => s

/-- VIDEO_BUDGET (R285): the unit being decoded has used its budget. -/
def State.videoBudget (s : State) (n first damaged total : Nat) : State :=
  match s.underDecode n with
  | some u =>
    if s.vbudget n ≤ s.coreTime n then
      let enter := (s.vstream n).st != .resync
      let s := s.mapVstream n fun v => { v with st := .resync, chain := true }
      let s := (s.nextUnit n).putRepeat n u false (damaged * 1000 / max 1 total)
      let s := s.damageRecord n u 2 first damaged total ((s.vstream n).pics.head?.elim true (·.mucked))
      let s := s.bump Dict.budgetOverruns n
      (if enter then s.report (withSrc 0x06000B02 (s.vdOf n)) n else s).skipUnits n
    else s
  | none => s

/-- VIDEO_STREAM_LOST (R283): its unit under decode stands still, for only the next packet leaves LOST (log 120). -/
def State.vstreamLost (s : State) (n : Nat) : State :=
  let v := s.vstream n
  let t0 := if v.st = .waitKey then max v.since v.lastPacket else v.lastPacket
  if v.st != .idle && v.st != .lost && decide (t0 + s.nat Dict.streamTimeout n * 1000000 ≤ s.tb) then
    let core := s.nat Dict.vdCore n
    let s := if s.video.slice.look core = some n then s.endSlice core else s
    (s.mapVstream n fun v => { v with st := .lost }).report (withSrc 0x06000B01 (s.vdOf n)) n
  else s

/-- May a stream be enabled (R280)? -/
def State.mayEnableStream (s : State) (n : Nat) : Bool :=
  let core := s.nat Dict.vdCore n
  let others := vstreams.filter fun k => k != n && s.flag Dict.vstreamEnable k && s.nat Dict.vdCore k == core
  decide (others.length < 8) && decide (sumNat (others.map s.vload) + s.vload n ≤ 500000000)
    && (s.power.pd.val {} (pdOf (0x2A + core))).st == .on

/-- VSTREAM_ENABLE takes effect (R280, R283): the stream starts afresh. -/
def State.setStreamEnable (s : State) (n : Nat) (on : Bool) : State :=
  let core := s.nat Dict.vdCore n
  let s := if s.video.slice.look core = some n then s.endSlice core else s
  (s.setNum Dict.vstreamEnable on.toNat n).mapVstream n fun _ =>
    if on then { st := .waitKey, since := s.tb, lastPacket := s.tb } else {}

end Sys2Proof.Machine
end

