-- ==== Sys2Proof/Machine/DeckOps.lean ====
section
/-! DEFINITION. The Deck: batch templates, the tensors of pictures, batch spaces and records (R288 to R294). -/

namespace Sys2Proof.Machine

/-! ### From a picture to a tensor (R289) -/

/-- A sample of a plane. -/
def sampleAt (plane : List Nat) (w x y : Nat) : Nat := plane.getD (y * w + x) 0

/-- Where output pixel `i` of `n` falls on a line of `w` pixels, centres aligned, in units of 1/(2n): kept on it. -/
def srcPos (i n w : Nat) : Nat :=
  let p := (2 * i + 1) * w - n
  min (if (2 * i + 1) * w < n then 0 else p) ((w - 1) * 2 * n)

/-- The bilinear value at output pixel (i, j), in units of 1/(4 × ow × oh). -/
def bilinear (plane : List Nat) (w h ow oh i j : Nat) : Nat :=
  let px := srcPos i ow w
  let py := srcPos j oh h
  let x0 := px / (2 * ow)
  let y0 := py / (2 * oh)
  let fx := px % (2 * ow)
  let fy := py % (2 * oh)
  let x1 := min (x0 + 1) (w - 1)
  let y1 := min (y0 + 1) (h - 1)
  (sampleAt plane w x0 y0 * (2 * ow - fx) + sampleAt plane w x1 y0 * fx) * (2 * oh - fy)
    + (sampleAt plane w x0 y1 * (2 * ow - fx) + sampleAt plane w x1 y1 * fx) * fy

/-- The luma weights of red and blue, in ten thousandths, of BT.601, BT.709 and BT.2020 (log 38). -/
def lumaWeights : Nat → Int × Int
  | 0 => (2990, 1140)
  | 1 => (2126, 722)
  | _ => (2627, 593)

/-- A channel as a quotient, kept in 0 to 1 (R289). -/
def unitRat (n : Int) (d : Nat) : Num := if n ≤ 0 then .zero else if (d : Int) ≤ n then .ofInt 1 0 else ratNum n d

/-- The RGB of an output pixel, each channel from 0 to 1 (R289): `y`, `u`, `v` in units of 1/D. -/
def toRgb (colour bits D : Nat) (mono : Bool) (y u v : Int) : List Num :=
  let full := colour.testBit 2
  let k : Int := 2 ^ (bits - 8)
  let offY : Int := if full then 0 else 16 * k
  let ry : Int := if full then 256 * k - 1 else 219 * k
  let offC : Int := 128 * k
  let rc : Int := if full then 256 * k - 1 else 224 * k
  let yn := y - offY * D
  let un := u - offC * D
  let vn := v - offC * D
  if mono then List.replicate 3 (unitRat yn (ry * D).toNat)
  else
    let (kr, kb) := lumaWeights (colour % 4)
    let Y := yn * rc * 10000
    let R := Y + 2 * (10000 - kr) * vn * ry
    let B := Y + 2 * (10000 - kb) * un * ry
    let den := ry * rc * D * 10000
    let kg := 10000 - kr - kb
    let G := 10000 * Y - kr * R - kb * B
    [unitRat R den.toNat, unitRat G (kg * den).toNat, unitRat B den.toNat]

/-- (x − mean) × scale in FP32 (R289). -/
def normed (x mean scale : Num) : Num := round32 (mulExact (add32 (round32 x) (negNum mean)) scale)

/-- The RGB of output pixel (i, j) of a frame. -/
def Frame420.rgb (f : Frame420) (colour ow oh i j : Nat) : List Num :=
  let cw := (f.w + 1) / 2
  let ch := (f.h + 1) / 2
  toRgb colour f.bits (4 * ow * oh) f.u.isEmpty (bilinear f.y f.w f.h ow oh i j) (bilinear f.u cw ch ow oh i j)
    (bilinear f.v cw ch ow oh i j)

/-- The bytes of a slot's tensor (R289, R290): planes R, G, B, each row-major. -/
def State.slotTensor (s : State) (tpl stream : Nat) (f : Frame420) : List Byte :=
  let ow := s.nat Dict.outWidth tpl
  let oh := s.nat Dict.outHeight tpl
  let fmt := s.nat Dict.outFormat tpl
  (List.range 3).flatMap fun c =>
    let mean := decodeElem 1 (s.numAt Dict.normMean c tpl).toNat
    let scale := decodeElem 1 (s.numAt Dict.normScale c tpl).toNat
    packRow fmt ((List.range (ow * oh)).map fun p =>
      (convert fmt none (normed
        ((f.rgb (s.nat Dict.colour stream) ow oh (p % ow) (p / ow)).getD c .zero) mean scale)).code)

/-! ### Slots (R288, R290) -/

/-- SLOT_STRIDE of a template (R290). -/
def State.slotStride (s : State) (tpl : Nat) : Nat :=
  let n := 3 * s.nat Dict.outWidth tpl * s.nat Dict.outHeight tpl * storeBits (s.nat Dict.outFormat tpl) / 8
  ceilDiv n 4096 * 4096

/-- Would the template's batch fit DECK_BATCH_BYTES (R290)? -/
def State.batchFits (s : State) (tpl : Nat) : Bool :=
  decide (4096 + s.nat Dict.slots tpl * s.slotStride tpl ≤ s.nat Dict.deckBatchBytes)

/-- The picture a slot takes (R288): the newest put out before the build instant and young enough. -/
def State.slotPicture (s : State) (tpl stream : Nat) : Option Picture :=
  (s.vstream stream).pics.find? fun p =>
    decide (p.done < s.tb) && decide (s.devNs ≤ p.dev + s.nat Dict.sampleMaxAge tpl * 1000000)

/-- What is built of a slot: its header, its tensor, its two mask bits, the state (a slot with no picture has no
arrival time to carry: that field is free, log 39). -/
def State.buildSlot (s : State) (tpl i : Nat) : BitVec 128 × List Byte × Bool × Bool × State :=
  let stream := ((s.blob Dict.slotStreams 0 tpl).getD i 0).toNat
  let fmt := s.nat Dict.outFormat tpl
  let zeros := packRow fmt (List.replicate (3 * (s.nat Dict.outWidth tpl * s.nat Dict.outHeight tpl)) (zeroCode fmt))
  let v := s.vstream stream
  let head (mucked concealed : Bool) (ts sec ns permille : Nat) : BitVec 128 := BitVec.ofNat 128
    (2 ^ 124 + concealed.toNat * 2 ^ 123 + mucked.toNat * 2 ^ 122 + stream % 64 * 2 ^ 114 + ts * 2 ^ 80
      + ns % 4294967296 * 2 ^ 48 + sec % 65536 * 2 ^ 32 + permille % 65536 * 2 ^ 16)
  let pic := if v.st = .idle ∨ v.st = .lost then none else s.slotPicture tpl stream
  match pic with
  | some p =>
    let (sec, ns) := s.stampOf p.dev
    if p.mucked then (head true false 0 sec ns p.permille, zeros, false, true, s)
    else (head false p.concealed p.ts.toNat sec ns p.permille, s.slotTensor tpl stream p.frame, p.concealed, false, s)
  | none =>
    let (x, s) := s.draw 48
    (head true false 0 (fld x 15 0) (fld x 47 16) 0, zeros, false, true, s)

/-- BATCH_ADDR of a space (R292). -/
def State.batchAddr (s : State) (space : Nat) : Nat :=
  hbmBase + s.nat Dict.deckBase + space * s.nat Dict.deckBatchBytes

/-- Build slots `i` on, `n` of them, into a space: the masks gather in `b`. -/
def State.buildSlots (s : State) (tpl addr i : Nat) (b : Batch) : Nat → Batch × State
  | 0 => (b, s)
  | n + 1 =>
    let (h, t, c, m, s) := s.buildSlot tpl i
    let s := (s.putHbm (addr + 16 * i) (wordBytes h)).putHbm (addr + 4096 + i * s.slotStride tpl) t
    s.buildSlots tpl addr (i + 1)
      { b with concealed := b.concealed + c.toNat * 2 ^ i, mucked := b.mucked + m.toNat * 2 ^ i } n

/-- The first free batch space (R292, log 40). -/
def State.freeSpace (s : State) : Option Nat :=
  (List.range (s.nat Dict.deckDepth)).find? fun k =>
    (s.video.spaces.look k).isNone && (s.video.building.look k).isNone

/-- BATCH_BUILD (R288, R292): at each build instant of an enabled template one batch is built, or skipped. -/
def State.batchBuild (s : State) (tpl : Nat) : State :=
  let n := s.video.instants.val 0 tpl
  if s.flag Dict.templateEnable tpl
      && decide (s.video.enabledAt.val 0 tpl + (n + 1) * s.nat Dict.buildPeriod tpl * 1000000 ≤ s.tb) then
    let s : State := { s with video := { s.video with instants := s.video.instants.ins tpl (n + 1) } }
    match s.freeSpace with
    | none => s.bump Dict.buildsSkipped
    | some k =>
      let seq := s.video.seqs.val 0 tpl
      let slots := s.nat Dict.slots tpl
      let addr := s.batchAddr k
      let s1 := s.putHbm addr (List.replicate 1024 0)
      let (b, s2) := s1.buildSlots tpl addr 0 { template := tpl, seq := seq, instant := s.devNs, slots := slots } slots
      { s2 with video := { s2.video with
          building := s2.video.building.ins k b
          seqs := s2.video.seqs.ins tpl ((seq + 1) % 4294967296) } }
  else s

/-- The batch record (R293); BATCH_SEQ counts the batches begun before it (log 41). -/
def State.batchRecord (s : State) (space : Nat) (b : Batch) : BitVec 512 :=
  let (sec, ns) := s.stampOf b.instant
  BitVec.ofNat 512
    (2 ^ 508 + (b.slots - 1) % 64 * 2 ^ 502 + b.template % 8 * 2 ^ 499 + b.seq % 4294967296 * 2 ^ 464
      + s.batchAddr space % 2 ^ 48 * 2 ^ 416 + sec % 2 ^ 48 * 2 ^ 352 + ns % 4294967296 * 2 ^ 320
      + b.concealed % 2 ^ 64 * 2 ^ 256 + b.mucked % 2 ^ 64 * 2 ^ 192 + space % 256 * 2 ^ 184)

/-- BATCH_COMPLETE (R292 to R294): the record is posted; the batch waits where the queue has no room for it. -/
def State.batchComplete (s : State) (space : Nat) : State :=
  match s.video.building.look space with
  | none => s
  | some b =>
    let q := s.nat Dict.deckQueue
    let (ok, s) := s.post mgt q (wordBytes (s.batchRecord space b))
    if ok then
      let cell := match ((s.queue q).unread ++ (s.queue q).fill).getLast? with
        | some p => p.cells.headD 0
        | none => 0
      let spaces := s.video.spaces.ins space cell
      let low := s.nat Dict.deckLowWater
      ({ s with video := { s.video with
          building := s.video.building.del space
          spaces := spaces
          armed := s.video.armed || (low != 0 && decide (low ≤ spaces.length)) } } : State).bump Dict.batchesBuilt
    else s

/-- TEMPLATE_ENABLE takes effect (R288): the build instants count from now. -/
def State.setTemplateEnable (s : State) (tpl : Nat) (on : Bool) : State :=
  let s := s.setNum Dict.templateEnable on.toNat tpl
  { s with video := { s.video with
      enabledAt := if on then s.video.enabledAt.ins tpl s.tb else s.video.enabledAt.del tpl
      instants := s.video.instants.del tpl } }

end Sys2Proof.Machine
end

