-- ==== Sys2Proof/Machine/FieldOps.lean ====
section
/-! DEFINITION. The field interface: input classes, debounce, wire breaks, output frames, protection, the logic-side
watchdog and the safe states (R261 to R276, R539). -/

namespace Sys2Proof.Machine

/-- Change the field interface. -/
def State.mapField (s : State) (f : Field → Field) : State := { s with field := f s.field }

/-- A field input. -/
def State.input (s : State) (n : Nat) : Input := s.field.inputs.val {} n

/-- Change a field input. -/
def State.mapInput (s : State) (n : Nat) (f : Input → Input) : State :=
  s.mapField fun x => { x with inputs := x.inputs.upd {} n f }

/-- A field output. -/
def State.output (s : State) (n : Nat) : Output := s.field.outputs.val {} n

/-- Change a field output. -/
def State.mapOutput (s : State) (n : Nat) (f : Output → Output) : State :=
  s.mapField fun x => { x with outputs := x.outputs.upd {} n f }

/-- The number whose bit k, below `n`, is `p k`. -/
def bitsOf (n : Nat) (p : Nat → Bool) : Nat := sumNat ((List.range n).map fun k => (p k).toNat * 2 ^ k)

/-! ### Inputs (R261 to R265) -/

/-- The voltage in mV at and above which an input reads ON (R262). -/
def State.vOn (s : State) (n : Nat) : Nat := if inMap (s.nat Dict.diType) (n / 8) then 11000 else 15000

/-- The raw class of a sample (R261): voltage in mV, current in uA, the previous class. -/
def rawClass (breakEn : Bool) (vOn mv ua : Nat) (prev : DiClass) : DiClass :=
  if ua < 200 then (if breakEn then .brk else .off)
  else if 2000 ≤ ua ∧ vOn ≤ mv then .on
  else if (300 ≤ ua ∧ ua ≤ 1500) ∨ mv ≤ 5000 then .off
  else prev

/-- A sample of an input (R261): its class, the start of its run, DI_CURRENT. The field side measures while it has
power; its debounce runs stand still while its supply is low (R265). -/
def State.diSample (s : State) (n mv ua : Nat) : State :=
  if s.field.powered then
    let s := s.setNum Dict.diCurrent (min (ua / 10) 65535 : Nat) n
    if s.field.supplyGood then
      let c := rawClass (s.flag Dict.wireBreakEn n) (s.vOn n) mv ua (s.input n).raw
      s.mapInput n fun x => if x.raw = c then x else { x with raw := c, since := s.tb, sinceDev := s.devNs }
    else s
  else s

/-- What an input reads (R264). -/
def State.inputOn (s : State) (n : Nat) : Bool :=
  let x := s.input n
  if x.brk then
    match s.nat Dict.breakValue n with
    | 0 => false
    | 1 => true
    | _ => x.on
  else x.on

/-- DI_STATE, as the inputs stand. -/
def State.diNow (s : State) : Nat := bitsOf 32 s.inputOn

/-- DI_STATE (R264, R265): frozen while the field supply is low. -/
def State.diState (s : State) : Nat := if s.field.supplyGood then s.diNow else s.field.frozen

/-- DI_BREAK (R264). -/
def State.diBreak (s : State) : Nat := bitsOf 32 fun n => (s.input n).brk

/-- An accepted change (R263): its stamp, its count, the event to hosts; the event's status word is free (log 33). -/
def State.diAccepted (s : State) (n : Nat) : State :=
  let s := (s.setNum Dict.diLastChange (if s.timeValid then time80Of (s.input n).sinceDev else 0 : Nat) n).bump
    Dict.diChangeCount n
  let (w, s) := s.draw 32
  s.event 2 w s.diState

/-- ON or OFF has held for DEBOUNCE and is accepted (R263). -/
def State.diChange (s : State) (n : Nat) : State :=
  let x := s.input n
  let on := x.raw == .on
  if s.field.supplyGood && x.raw != .brk && decide (x.since + s.nat Dict.debounce n * 1000 ≤ s.tb)
      && (x.brk || x.on != on) then
    (s.mapInput n fun x => { x with on := on, brk := false }).diAccepted n
  else s

/-- BREAK has held for BREAK_FILTER and is accepted (R263, R264). -/
def State.wireBreak (s : State) (n : Nat) : State :=
  let x := s.input n
  if s.field.supplyGood && x.raw == .brk && !x.brk && decide (x.since + s.nat Dict.breakFilter n * 1000000 ≤ s.tb) then
    (((s.mapInput n fun x => { x with brk := true }).diAccepted n).bump Dict.diBreakCount n).report 0x06D00A01 n
  else s

/-- Every output is driven off. -/
def State.outputsOff (s : State) : State :=
  (List.range 16).foldl (fun s k => s.mapOutput k fun o => { o with asked := false, driven := false }) s

/-- The field supply was below 19.2 V for 1 ms (R265). -/
def State.supplyLow (s : State) : State :=
  if s.field.powered && !s.field.low then
    let d := s.diState
    (s.mapField fun x => { x with supplyGood := false, low := true, frozen := d }).outputsOff.report 0x06D00A06
  else s

/-- The field supply was above 19.2 V for 10 ms (R265): debounce runs start again from OFF, and outputs that were switched
off wait for an intact frame (R271). -/
def State.supplyBack (s : State) : State :=
  if s.field.powered && !s.field.supplyGood then
    let s := if s.field.low then (s.mapField fun x => { x with low := false, gotFrame := false, intact := 0 }).outputsOff else s
    let s := s.mapField fun x => { x with supplyGood := true }
    (List.range 32).foldl (fun s n =>
      s.mapInput n fun x => { x with raw := .off, since := s.tb, sinceDev := s.devNs }) s
  else s

/-- The field side powers up (R271): every output off until the first intact frame. -/
def State.fieldPowerUp (s : State) : State :=
  let d := s.diState
  (s.mapField fun x => { x with
    powered := true, supplyGood := false, low := false, frozen := d, gotFrame := false, intact := 0, linkLost := false
    lastFrame := s.tb }).outputsOff

/-! ### Outputs (R266 to R273) -/

/-- Is any station in FAULT? -/
def State.anyFault (s : State) : Bool := stationIds.any fun sid => (s.station sid).seq == .fault

/-- The commanded state of an output (R266). -/
def State.commanded (s : State) (k : Nat) : Bool :=
  match s.nat Dict.doSource k with
  | 0 => inMap (s.nat Dict.doCommand) k
  | 1 => s.trump.st == .running
  | _ => s.anyFault

/-- Drive an output: protection overrides what is asked, and nothing is driven without the field supply (R265, R267). -/
def State.driveOut (s : State) (k : Nat) (level : Bool) : State :=
  let ok := !s.field.low && s.field.powered
  s.mapOutput k fun o => { o with asked := level, driven := level && ok && !o.tripped && !o.latched }

/-- Drive every output. -/
def State.driveAll (s : State) (p : Nat → Bool) : State :=
  (List.range 16).foldl (fun s k => s.driveOut k (p k)) s

/-- The field side takes an intact frame (R266, R269 to R271). -/
def State.frameTaken (s : State) (levels : Nat) (safe : Bool) : State :=
  let lost := s.field.linkLost
  let held := if s.field.gotFrame then s.field.intact else 0
  let s := s.mapField fun x =>
    { x with gotFrame := true, lastFrame := s.tb, linkLost := false
             intact := if safe then held else levels }
  let s := s.driveAll fun k => if safe then s.field.safeLevel held k else inMap levels k
  if lost then s.report 0x06D00A07 else s

/-- Are the output frames flagged SAFE (R269, R539, R540)? -/
def State.safeFrames (s : State) : Bool := s.field.safe || s.sec.serviceState

/-- An output frame (R266): the levels commanded, the flag, the sequence count, the CRC-8. -/
def State.outputFrame (s : State) (received : Bool) : State :=
  if s.boot.held.isSome then s
  else
    let levels := bitsOf 16 s.commanded
    let crc := Config.fieldCrc (BitVec.ofNat 16 levels) s.safeFrames s.field.count
    let s1 := (s.mapField fun x => { x with count := x.count + 1 }).emit
      (.field (BitVec.ofNat 16 levels) s.safeFrames s.field.count crc)
    if received && s.field.powered then s1.frameTaken levels s.safeFrames else s1

/-- No intact frame for 500 us (R270): the field side applies the safe states by itself; one that has had no frame since
it powered up keeps its outputs off (R271). -/
def State.fieldLinkLost (s : State) : State :=
  if s.field.powered && !s.field.linkLost && decide (s.field.lastFrame + 500000 ≤ s.tb) then
    let s := s.mapField fun x => { x with linkLost := true }
    if s.field.gotFrame then s.driveAll (s.field.safeLevel s.field.intact) else s
  else s

/-- The field side takes the safe states that DO_SAFE_STATE sets (R269, R270). -/
def State.sendSafeStates (s : State) : State :=
  let l := (List.range 16).map fun k => (k, s.nat Dict.doSafeState k)
  s.mapField fun x => { x with safeStates := l }

/-- Set a bit of DO_FAULT: reported once, when it is set (R267). -/
def State.setDoFault (s : State) (k b : Nat) (w : Word) : State :=
  let m := s.nat Dict.doFault k
  if inMap m b then s else (s.setNum Dict.doFault (m + 2 ^ b : Nat) k).report w k

/-- Clear a bit of DO_FAULT. -/
def State.clearDoFault (s : State) (k b : Nat) : State :=
  let m := s.nat Dict.doFault k
  if inMap m b then s.setNum Dict.doFault (m - 2 ^ b : Nat) k else s

/-- Overcurrent (R267): the output goes off, latched, or with DO_RESTART 1 until its next retry. A retry has failed
where the overcurrent comes back within 100 ms of it (log 34). -/
def State.overcurrent (s : State) (k : Nat) : State :=
  if (s.output k).driven then
    let s := (s.bump Dict.doOvercurrentCount k).setDoFault k 0 0x06D00A02
    let retry := s.nat Dict.doRestart k == 1
    s.mapOutput k fun o =>
      let failed := match o.retryAt with
        | some t => decide (s.tb < t + 100000000)
        | none => false
      let n := if failed then o.retries + 1 else 0
      { o with driven := false, tripped := true, offAt := s.tb, retries := n, retryAt := none
               latched := !retry || decide (10 ≤ n) }
  else s

/-- Does an output that tripped stay off until DO_FAULT_ACK (R267)? -/
def State.staysOff (s : State) (k : Nat) : Bool := (s.output k).latched || s.nat Dict.doRestart k == 0

/-- A retry, 100 ms after the output went off (R267). -/
def State.doRetry (s : State) (k : Nat) : State :=
  let o := s.output k
  if o.tripped && !s.staysOff k && decide (o.offAt + 100000000 ≤ s.tb) then
    (s.mapOutput k fun o => { o with tripped := false, retryAt := some s.tb }).driveOut k o.asked
  else s

/-- Open load: on, and the current below 2 mA for 100 ms (R267). -/
def State.openLoad (s : State) (k : Nat) : State :=
  if (s.output k).driven then (s.bump Dict.doOpenLoadCount k).setDoFault k 1 0x06D00A03 else s

/-- Mismatch: the readback has disagreed for 1 ms with what is driven (R267). -/
def State.mismatch (s : State) (k : Nat) : State :=
  if s.field.powered then (s.bump Dict.doMismatchCount k).setDoFault k 2 0x06D00A04 else s

/-- DO_FAULT_ACK (R267, R273): an overcurrent clears, but not of an output that waits for its next retry; in the safe
state the output takes its safe state, which is what was last asked of it. -/
def State.doFaultAck (s : State) (k : Nat) : State :=
  let o := s.output k
  if !o.tripped || s.staysOff k then
    ((s.mapOutput k fun o => { o with tripped := false, latched := false, retries := 0 }).clearDoFault k 0).driveOut k
      o.asked
  else s

/-! ### The logic-side watchdog (R268, R269, R272, R530) -/

/-- Does the supervisor kick (R530)? -/
def State.mayKick (s : State) : Bool :=
  decide (s.tb ≤ s.guard.lastBeat + s.nat Dict.heartbeatTimeout * 1000000) && decide (s.level < 3) && !s.guard.selfBad
    && !s.guard.lost

/-- The kick sequence: 0x5A, then 0xA5 within 10 us (R268). -/
def State.kick (s : State) (first second : BitVec 8) (gap : Nat) : State :=
  if first = 0x5A ∧ second = 0xA5 ∧ gap ≤ 10000 ∧ s.mayKick then
    s.mapField fun x => { x with deadline := some (s.tb + s.nat Dict.watchdogTime * 1000000), kicked := true }
  else s

/-- The watchdog's counter reaches zero (R269). -/
def State.watchdogExpiry (s : State) : State :=
  match s.field.deadline with
  | some d =>
    if d ≤ s.tb then
      ((s.mapField fun x => { x with deadline := none, kicked := false, safe := true }).bump
        Dict.watchdogExpiryCount).report 0x06D00A05
    else s
  | none => s

/-- May the outputs be released (R272): the watchdog was kicked after its expiry? -/
def State.mayRelease (s : State) : Bool := !s.field.safe || s.field.kicked

/-- SAFE_STATE_RELEASE is written 1 (R272). -/
def State.releaseOutputs (s : State) : State := s.mapField fun x => { x with safe := false }

/-- DO_STATE. -/
def State.doState (s : State) : Nat := bitsOf 16 fun k => (s.output k).driven

/-- DO_SAFE_ACTIVE: outputs are in the safe state, by the logic side or by the field side itself. -/
def State.safeActive (s : State) : Bool := s.safeFrames || s.field.linkLost

end Sys2Proof.Machine
end

