-- ==== Sys2Proof/Machine/GuardOps.lean ====
section
/-! DEFINITION. Guarding: sensors, heartbeat, self-check, a hung stop, held units (R523 to R534). -/

namespace Sys2Proof.Machine

/-! ### Sensors (R523, R524) -/

/-- A bound of a level: at or below `low`, or at or above `high`, in hundredths of the sensor's unit; and the bounds
within which it clears. -/
structure Bound where
  level : Nat
  low : Option Int := none
  high : Option Int := none
  lowClear : Int := 0
  highClear : Int := 0
deriving DecidableEq, Repr

/-- Is a sensor number listed (R523)? -/
def sensorListed (k : Nat) : Bool :=
  decide (k ≤ 6 ∨ (0x10 ≤ k ∧ k ≤ 0x38) ∨ (0x40 ≤ k ∧ k ≤ 0x43) ∨ k = 0x48)

/-- Is a sensor's reading a voltage in mV? The others read m°C. -/
def sensorVolts (k : Nat) : Bool := decide (k ≤ 6)

/-- The readings that a sensor's filter averages (R523). -/
def sensorWindow (k : Nat) : Nat := if k = 0 then 100 else if k ≤ 6 then 10 else if k = 0x48 then 10 else 8

/-- The set point of a voltage in mV: 48 V at J1; of a rail the spec gives none (log 64). -/
def setPoint (k : Nat) : Nat := if k = 0 then 48000 else Config.railSetPoint k

/-- A temperature bound in °C, clear 5 °C below it. -/
def tempBound (level c : Nat) : Bound := { level := level, high := some (c * 100000), highClear := (c * 100000 - 500000 : Int) }

/-- Voltage bounds in hundredths of mV, clear 2 % inside them. -/
def voltBound (level : Nat) (low high : Option Nat) : Bound :=
  { level := level, low := low.map Int.ofNat, high := high.map Int.ofNat
    lowClear := (low.getD 0 * 102 / 100 : Nat), highClear := (high.getD 0 * 98 / 100 : Nat) }

/-- The bounds of a sensor (R523). -/
def State.sensorBounds (s : State) (k : Nat) : List Bound :=
  if k = 0 then [voltBound 1 (some 4000000) (some 6000000), voltBound 4 none (some 6300000)]
  else if k ≤ 6 then
    [voltBound 1 (some (setPoint k * 95)) (some (setPoint k * 105)), voltBound 4 (some (setPoint k * 90)) (some (setPoint k * 110))]
  else if k ≤ 0x38 then [tempBound 1 100, tempBound 2 110, tempBound 3 118, tempBound 4 125]
  else if k ≤ 0x43 then [tempBound 1 85, tempBound 2 95, tempBound 3 100, tempBound 4 105]
  else [tempBound 1 (s.nat Dict.coolantWarn)]

/-- The sum of integers. -/
def sumInt (l : List Int) : Int := l.foldl (· + ·) 0

/-- Is the mean of the readings at or beyond a bound? -/
def Bound.beyond (b : Bound) (r : List Int) : Bool :=
  let m := sumInt r * 100
  let n : Int := r.length
  b.low.any (fun x => decide (m ≤ x * n)) || b.high.any (fun x => decide (x * n ≤ m))

/-- Does the mean of the readings lie inside the bound by its margin? -/
def Bound.inside (b : Bound) (r : List Int) : Bool :=
  let m := sumInt r * 100
  let n : Int := r.length
  b.low.all (fun _ => decide (b.lowClear * n ≤ m)) && b.high.all (fun _ => decide (m ≤ b.highClear * n))

/-- A sensor. -/
def State.sensor (s : State) (k : Nat) : Sensor := s.guard.sensors.val {} k

/-- Change a sensor. -/
def State.mapSensor (s : State) (k : Nat) (f : Sensor → Sensor) : State :=
  { s with guard := { s.guard with sensors := s.guard.sensors.upd {} k f } }

/-- SENSOR_STATE (R537). -/
def Sensor.num (x : Sensor) : Nat := if x.failed then 5 else x.levels.foldl max 0

/-- What raises a cause of a sensor. -/
def sensorWho (k : Nat) : Nat := 512 + k

/-- What raises the level 3 of a die (0 compute, 1 I/O) or a stack (2 to 5) left without a sensor. -/
def dieWho (d : Nat) : Nat := 1024 + d

/-- The sensors of a die or a stack (R468, R524). -/
def dieSensors (d : Nat) : List Nat :=
  if d = 0 then (List.range 36).map (· + 0x10) else if d = 1 then (List.range 5).map (· + 0x34) else [0x40 + d - 2]

/-- The die or stack of a sensor; none of the input, the rails and the coolant. -/
def dieOf (k : Nat) : Option Nat :=
  if 0x10 ≤ k ∧ k < 0x34 then some 0 else if 0x34 ≤ k ∧ k ≤ 0x38 then some 1
  else if 0x40 ≤ k ∧ k ≤ 0x43 then some (k - 0x40 + 2) else none

/-- A sensor fails (R524): it is left out; a die or stack without a working sensor raises level 3. -/
def State.sensorFail (s : State) (k : Nat) : State :=
  if (s.sensor k).failed then s
  else
    let s := (s.mapSensor k fun x => { x with failed := true }).report 0x06921706 k
    match dieOf k with
    | some d => if (dieSensors d).all fun j => (s.sensor j).failed then s.raise 3 0x06921706 (dieWho d) else s
    | none => s

/-- A level of a sensor is reached (R523, R531): reported; above the report level it stands as a cause. At level 4 the
module is held in reset for the input and the islands. -/
def State.sensorLevel (s : State) (k : Nat) (level : Nat) : State :=
  if (s.sensor k).levels.contains level then s
  else
    let s := s.mapSensor k fun x => { x with levels := x.levels ++ [level], inside := x.inside.del level }
    if level = 1 then s.report 0x06921704 k
    else
      let s := (s.report 0x06921705 k).raise level 0x06921705 (sensorWho k)
      if level = 4 && (k == 0 || (decide (0x10 ≤ k) && decide (k ≤ 0x38))) then
        { s with boot := { s.boot with held := some k } }
      else s

/-- What the reading does to one bound of a sensor. -/
def State.sensorBound (s : State) (k : Nat) (r : List Int) (b : Bound) : State :=
  if b.beyond r then
    (s.mapSensor k fun x => { x with inside := x.inside.del b.level }).sensorLevel k b.level
  else if (s.sensor k).levels.contains b.level then
    s.mapSensor k fun x => { x with
      inside := if b.inside r then (if (x.inside.look b.level).isSome then x.inside else x.inside.ins b.level s.tb)
                else x.inside.del b.level }
  else s

/-- Lower a job-domain island by one point, in the order of R473 (R523). -/
def State.heatLower (s : State) : State :=
  let order := s.capOrder.filter fun e => e.1 != 35
  match order.findSome? fun e => (s.pointBelow e.1 e.2 (s.island e.1).point).map fun p => (e.1, p) with
  | some (i, p) => s.capNote.mapIsland i fun x => { x with point := p }
  | none => s

/-- Lower `n` times. -/
def State.heatLowers (s : State) : Nat → State
  | 0 => s
  | n + 1 => s.heatLower.heatLowers n

/-- While an island sensor stands at its report level, one point every 10 us goes, until every one lies below 95 °C
(R523). -/
def State.heat (s : State) : State :=
  let islands := (s.guard.sensors.filter fun p => decide (0x10 ≤ p.1) && decide (p.1 ≤ 0x38)).map (·.2)
  let hot := islands.any fun x => x.levels.contains 1
  let cool := islands.all fun x => decide (sumInt x.readings < 95000 * x.readings.length) || x.readings.isEmpty
  if s.guard.lowering then
    if cool then { s with guard := { s.guard with lowering := false } }
    else
      let n := (s.tb - s.guard.lastLower) / 10000
      (({ s with guard := { s.guard with lastLower := s.guard.lastLower + n * 10000 } } : State)).heatLowers (min n 512)
  else if hot then
    ({ s with guard := { s.guard with lowering := true, lastLower := s.tb } } : State).heatLower
  else s

/-- Is a reading one that fails its sensor (R524)? -/
def implausible (k : Nat) (v : Int) : Bool :=
  if sensorVolts k then decide (v < 0 ∨ (2 * setPoint k : Nat) < v) else decide (v < -55000 ∨ 150000 < v)

/-- SENSOR_SAMPLE (R523, R524): a reading in mV or m°C. The mean's rounding in SENSOR_VALUE is open (log 65). -/
def State.sensorSample (s : State) (k : Nat) (v : Int) : State :=
  if !sensorListed k || (s.sensor k).failed then s
  else if implausible k v then s.sensorFail k
  else
    let r := (v :: (s.sensor k).readings).take (sensorWindow k)
    let n : Int := r.length
    let (up, s) := s.draw 1
    let mean := sumInt r / n + (if sumInt r % n = 0 then 0 else up.toNat)
    let first := (s.sensor k).readings.isEmpty
    let s := s.mapSensor k fun x => { x with
      readings := r, value := mean, peak := if first then mean else max x.peak mean }
    let s := (s.sensorBounds k).foldl (fun s b => if s.boot.held.isSome then s else s.sensorBound k r b) s
    if 0x10 ≤ k ∧ k ≤ 0x38 then s.heat else s

/-- SENSOR_SILENT (R524): no reading for ten periods. -/
def State.sensorSilent (s : State) (k : Nat) : State := if sensorListed k then s.sensorFail k else s

/-- SENSOR_CLEAR (R524): every level whose reading has lain inside for 1 s clears. -/
def State.sensorClear (s : State) (k : Nat) : State :=
  let x := s.sensor k
  let gone := (x.inside.filter fun p => decide (p.2 + nsPerS ≤ s.tb)).map (·.1)
  if x.failed then s
  else
    let s := s.mapSensor k fun x => { x with
      levels := x.levels.filter fun l => !gone.contains l, inside := x.inside.filter fun p => !gone.contains p.1 }
    (s.clearCauses fun c => c.2.2 == sensorWho k && gone.contains c.1).schedule

/-! ### Heartbeat and self-check (R530, R534) -/

/-- MGT_HEARTBEAT (R530, R534): where it was lost, level 3 clears. -/
def State.heartbeat (s : State) : State :=
  let s := { s with guard := { s.guard with lastBeat := s.tb } }
  if s.guard.lost then
    ({ s with guard := { s.guard with lost := false } } : State).clearCauses fun c => c.2.1 == 0x06921703
  else s

/-- MGT_HEARTBEAT_LOST (R534): none for HEARTBEAT_TIMEOUT since the cluster was started. -/
def State.heartbeatLost (s : State) : State :=
  if s.boot.booted && !s.guard.lost && decide (s.guard.lastBeat + s.nat Dict.heartbeatTimeout * 1000000 ≤ s.tb) then
    let s := { s with guard := { s.guard with lost := true, lostAt := s.tb } }
    ((s.bump Dict.heartbeatLosses).report 0x06921703).raise 3 0x06921703 mgt
  else s

/-- HEARTBEAT_RESET (R534): still absent RESET_AFTER later, with AUTO_RESET 1. -/
def State.heartbeatReset (s : State) : State :=
  if s.guard.lost && s.flag Dict.autoReset && decide (s.guard.lostAt + s.nat Dict.resetAfter * 1000000 ≤ s.tb) then
    s.raise 4 0x06921703 mgt
  else s

/-- SUP_SELF_CHECK (R530): `good` says that the code region's CRC-32 is the one taken at start. -/
def State.selfCheck (s : State) (good : Bool) : State :=
  if good then
    ({ s with guard := { s.guard with selfBad := false } } : State).clearCauses fun c => c.2.1 == 0x06921707
  else if s.guard.selfBad then s
  else (({ s with guard := { s.guard with selfBad := true } } : State).report 0x06921707).raise 3 0x06921707 0

/-- TRUMP_STOP_HUNG (R532): STOPPING for longer than 2 × DRAIN_TIMEOUT + 1 ms. -/
def State.stopHung (s : State) : State :=
  if s.trump.st = .stopping && decide (s.trump.stoppingSince + 2 * s.nat Dict.drainTimeout * 1000 + 1000000 ≤ s.tb)
      && !(s.guard.causes.any fun c => c.2.1 == 0x06921702) then
    (s.report 0x06921702).raise 3 0x06921702 0
  else s

/-- UNITS_HELD. -/
def State.unitsHeld (s : State) : Nat := (s.stations.filter fun p => p.2.held).length

end Sys2Proof.Machine
end

