-- ==== Sys2Proof/Machine/Hss.lean ====
section
/-! DEFINITION. The hash-based signatures that the module verifies (R486): HSS of RFC 8554 over the LMS and LM-OTS types
that the spec lists; any other type fails. And those it makes: one level, LMS_SHA256_M32_H20 over LMOTS_SHA256_N32_W8
(R491). -/

namespace Sys2Proof.Machine

/-- The height of the tree of an LMS type (R486). -/
def lmsHeight : Nat → Option Nat
  | 6 => some 10
  | 7 => some 15
  | 8 => some 20
  | _ => none

/-- The width of a chain's digits and the number of digits of an LM-OTS type (R486). -/
def otsShape : Nat → Option (Nat × Nat)
  | 3 => some (4, 67)
  | 4 => some (8, 34)
  | _ => none

/-- The bytes of an unsigned number, the most significant first. -/
def highFirst (n v : Nat) : List Byte := (leBytes n v).reverse

/-- The number in `n` bytes from `i` on, the first the most significant. -/
def beAt (l : List Byte) (i n : Nat) : Nat := beNat ((l.drop i).take n)

/-- Digit `i`, of `w` bits, of a byte string, the first the most significant. -/
def digitAt (l : List Byte) (i w : Nat) : Nat :=
  ((l.getD (i * w / 8) 0).toNat / 2 ^ (8 - w - i * w % 8)) % 2 ^ w

/-- The hash with its checksum (RFC 8554, 4.4): what is left to the top of every digit, in the upper bits of two bytes. -/
def withChecksum (w : Nat) (q : List Byte) : List Byte :=
  let sum := sumNat ((List.range (256 / w)).map fun i => 2 ^ w - 1 - digitAt q i w)
  q ++ highFirst 2 (if w = 4 then sum * 16 else sum)

/-- A chain goes on from digit `a` to its top. -/
def chainUp (pre : List Byte) (a : Nat) (x : List Byte) : Nat → List Byte
  | 0 => x
  | n + 1 => chainUp pre (a + 1) (sha256 (pre ++ highFirst 1 a ++ x)) n

/-- The candidate for the one-time public key (RFC 8554, 4.6), from the leaf's prefix `I` and `q`. -/
def otsCandidate (pre sig msg : List Byte) (w p : Nat) : List Byte :=
  let q := withChecksum w (sha256 (pre ++ highFirst 2 0x8181 ++ (sig.drop 4).take 32 ++ msg))
  let tops := (List.range p).flatMap fun i =>
    let a := digitAt q i w
    chainUp (pre ++ highFirst 2 i) a ((sig.drop (36 + 32 * i)).take 32) (2 ^ w - 1 - a)
  sha256 (pre ++ highFirst 2 0x8080 ++ tops)

/-- The root that a path leads to from node `node`, which holds `x` (RFC 8554, 5.4). -/
def pathRoot (id : List Byte) (node : Nat) (x path : List Byte) : Nat → List Byte
  | 0 => x
  | n + 1 =>
    let other := path.take 32
    let pre := id ++ highFirst 4 (node / 2) ++ highFirst 2 0x8383
    let up := if node % 2 = 1 then sha256 (pre ++ other ++ x) else sha256 (pre ++ x ++ other)
    pathRoot id (node / 2) up (path.drop 32) n

/-- The bytes of an LMS signature of a public key's types; none where the spec lists no such type. -/
def lmsLength (pub : List Byte) : Option Nat :=
  match lmsHeight (beAt pub 0 4), otsShape (beAt pub 4 4) with
  | some h, some (_, p) => some (4 + 36 + 32 * p + 4 + 32 * h)
  | _, _ => none

/-- Does an LMS signature over a message verify under a public key of 56 bytes (RFC 8554, 5.4)? -/
def lmsVerify (pub msg sig : List Byte) : Bool :=
  match lmsHeight (beAt pub 0 4), otsShape (beAt pub 4 4) with
  | some h, some (w, p) =>
    let id := (pub.drop 8).take 16
    let q := beAt sig 0 4
    let ots := 36 + 32 * p
    let leaf := sha256 (id ++ highFirst 4 (2 ^ h + q) ++ highFirst 2 0x8282
      ++ otsCandidate (id ++ highFirst 4 q) (sig.drop 4) msg w p)
    pub.length == 56 && sig.length == 4 + ots + 4 + 32 * h && beAt sig 4 4 == beAt pub 4 4
      && beAt sig (4 + ots) 4 == beAt pub 0 4 && decide (q < 2 ^ h)
      && pathRoot id (2 ^ h + q) leaf (sig.drop (8 + ots)) h == (pub.drop 24).take 32
  | _, _ => false

/-- The signed public keys of the levels that are left, each under the key above it, and then the message (RFC 8554,
6.3). -/
def hssLevels (pub msg l : List Byte) : Nat → Bool
  | 0 => lmsVerify pub msg l
  | n + 1 =>
    match lmsLength pub with
    | some k =>
      let next := (l.drop k).take 56
      lmsVerify pub next (l.take k) && hssLevels next msg (l.drop (k + 56)) n
    | none => false

/-- Does an HSS signature verify under a public key of 60 bytes (R486, R490): 1 to 3 levels, as many as the key says? -/
def hssVerify (key msg sig : List Byte) : Bool :=
  let levels := beAt key 0 4
  decide (1 ≤ levels ∧ levels ≤ 3) && beAt sig 0 4 + 1 == levels
    && hssLevels (key.drop 4) msg (sig.drop 4) (levels - 1)

/-! ### Signing (R491) -/

/-- The height of an attestation tree. -/
def attHeight : Nat := 20

/-- The start of chain `i` of leaf `q`, from the tree's private seed and identifier (RFC 8554, Appendix A; log 66). -/
def chainStart (seed id : List Byte) (q i : Nat) : List Byte :=
  sha256 (id ++ highFirst 4 q ++ highFirst 2 i ++ 0xFF :: seed)

/-- Every chain of leaf `q`, each run up from its start by `steps` of its number. -/
def chainsOf (seed id : List Byte) (q : Nat) (steps : Nat → Nat) : List Byte :=
  (List.range 34).flatMap fun i => chainUp (id ++ highFirst 4 q ++ highFirst 2 i) 0 (chainStart seed id q i) (steps i)

/-- Node `r` of a tree, which stands `k` levels above the leaves (RFC 8554, 5.3). -/
def treeNode (seed id : List Byte) : Nat → Nat → List Byte
  | 0, r =>
    let q := r - 2 ^ attHeight
    let top := sha256 (id ++ highFirst 4 q ++ highFirst 2 0x8080 ++ chainsOf seed id q fun _ => 255)
    sha256 (id ++ highFirst 4 r ++ highFirst 2 0x8282 ++ top)
  | k + 1, r =>
    sha256 (id ++ highFirst 4 r ++ highFirst 2 0x8383 ++ treeNode seed id k (2 * r) ++ treeNode seed id k (2 * r + 1))

/-- The HSS signature, of one level, of a message by leaf `q`, with randomizer `c` (RFC 8554, 4.5, 5.4, 6.2): 1,776 bytes. -/
def hssSign (seed id : List Byte) (q : Nat) (c msg : List Byte) : List Byte :=
  let digest := withChecksum 8 (sha256 (id ++ highFirst 4 q ++ highFirst 2 0x8181 ++ c ++ msg))
  let path := (List.range attHeight).flatMap fun k => treeNode seed id k ((2 ^ attHeight + q) / 2 ^ k ^^^ 1)
  highFirst 4 0 ++ highFirst 4 q ++ highFirst 4 4 ++ c ++ chainsOf seed id q (fun i => digitAt digest i 8)
    ++ highFirst 4 8 ++ path

end Sys2Proof.Machine
end

