-- ==== Sys2Proof/Machine/RecOps.lean ====
section
/-! DEFINITION. The event recorder's flash and the performance counters (R502 to R517). -/

namespace Sys2Proof.Machine

/-! ### The recorder's flash (R506 to R510) -/

/-- The slots an area holds (R506). -/
def areaSlots (area : Nat) : Nat := match area with | 0 => 17408 | 1 => 1024 | _ => 256

/-- The next slot of an area. -/
def Recorder.areaNext (r : Recorder) (area : Nat) : Nat :=
  match area with | 0 => r.circNext | 1 => r.firstNext | _ => r.keyNext

/-- Write slot `next` of an area; at the start of a sector of the circulating area the sector is erased first (R506). -/
def Recorder.putSlot (r : Recorder) (area : Nat) (v : RecSlot) : Recorder :=
  let n := r.areaNext area
  match area with
  | 0 =>
    let c : Tab RecSlot := if n % 1024 = 0 then r.circ.filter fun p => p.1 / 1024 != n / 1024 else r.circ
    { r with circ := c.put {} n v, circNext := (n + 1) % 17408 }
  | 1 => { r with first := r.first.put {} n v, firstNext := n + 1 }
  | _ => { r with key := r.key.put {} n v, keyNext := n + 1 }

/-- Is an area full (R506)? The circulating one never is. -/
def Recorder.areaFull (r : Recorder) (area : Nat) : Bool := area != 0 && decide (areaSlots area ≤ r.areaNext area)

/-- Write a record into an area, through the failed attempts first (R507). -/
def State.putArea (s : State) (area : Nat) (rec : BitVec 512) : List SlotFail → State
  | [] =>
    if s.recorder.areaFull area then s
    else { s with recorder := s.recorder.putSlot area { dev0 := some rec, dev1 := some rec } }
  | f :: rest =>
    if f.area != area || (!f.dev0 && !f.dev1) then s.putArea area rec rest
    else if s.recorder.areaFull area then s
    else
      let v : RecSlot := { dev0 := if f.dev0 then none else some rec, dev1 := if f.dev1 then none else some rec }
      (({ s with recorder := s.recorder.putSlot area v } : State).bump Dict.recFlashErrors).putArea area rec rest

/-- Write a record into every area whose rule it meets (R506, R512). -/
def State.writeRecord (s : State) (rec : BitVec 512) (fails : List SlotFail) : State :=
  let seq := fld rec 499 468
  let s := if seq < 1024 then s.putArea 1 rec fails else s
  let s :=
    if bit rec 507 then
      (if s.recorder.areaFull 2 then s.bump Dict.recKeyFull else s.putArea 2 rec fails)
    else s
  if s.recorder.clearedBelow ≤ seq then s.putArea 0 rec fails else s

/-- Once space is there again, what was dropped is recorded (R510). -/
def State.overflowRecord (s : State) : State :=
  if 0 < s.recorder.dropped ∧ s.recorder.queue.length < recCap then
    let n := s.recorder.dropped
    ({ s with recorder := { s.recorder with dropped := 0 } } : State).record 0x07911604 255 (leBytes 4 n)
  else s

/-- The oldest queued record goes to flash. -/
def State.flushOne (s : State) (fails : List SlotFail) : State :=
  match s.recorder.queue with
  | r :: rest =>
    (({ s with recorder := { s.recorder with queue := rest } } : State).writeRecord r fails).overflowRecord
  | [] => s

/-- REC_FLASH_WRITE (R510): the oldest record is written. During an erase of the circulating area only what a clear
removes from it may go (R512). -/
def State.recFlashWrite (s : State) (fails : List SlotFail) : State :=
  match s.recorder.queue with
  | r :: _ =>
    if s.recorder.stopped || (s.recorder.erasing && decide (s.recorder.clearedBelow ≤ fld r 499 468)) then s
    else s.flushOne fails
  | [] => s

/-- REC_CLEAR written 1 (R512): refused during an erase. The circulating area is emptied, REC_CLEARED is queued. -/
def State.writeRecClear (s : State) (v : Nat) : Word × State :=
  if v = 0 then (0, s)
  else if s.recorder.erasing then (abAccess, s)
  else
    let n := s.recorder.nextSeq
    let r : Recorder := { s.recorder with erasing := true, clearedBelow := n, circ := [], circNext := 0 }
    (0, (({ s with recorder := r } : State).settle.record 0x07911603 255
      (leBytes 4 ((n + 4294967295) % 4294967296))).settle)

/-- Write records up to REC_CLEARED, at most `k`. -/
def State.flushTo (s : State) (seq : Nat) : Nat → State
  | 0 => s
  | k + 1 =>
    match s.recorder.queue with
    | r :: _ => if fld r 499 468 ≤ seq then (s.flushOne []).flushTo seq k else s
    | [] => s

/-- REC_ERASE_DONE: the erase has ended, and REC_CLEARED is written first into the cleared area (R512). -/
def State.recEraseDone (s : State) : State :=
  if s.recorder.erasing then
    let s := { s with recorder := { s.recorder with erasing := false } }
    s.flushTo s.recorder.clearedBelow s.recorder.queue.length
  else s

/-! ### Operating time and the loss of power (R508, R509) -/

/-- The operating time is written to the recorder's region (R508). -/
def State.opTimeSave (s : State) : State := { s with recorder := { s.recorder with opSaved := s.recorder.opNs } }

/-- The input falls below 36 V (R509): no more records are taken, the operating time and POWER_LOSS are written, what was
queued is lost, and the module is without power. -/
def State.powerLoss (s : State) : State :=
  if s.boot.powered then
    let s := s.opTimeSave
    let n := s.recorder.queue.length
    let rec_ := s.mkRecord s.recorder.nextSeq 0x07911602 255 (leBytes 4 n)
    let s := ({ s with recorder := { s.recorder with queue := [], nextSeq := s.recorder.nextSeq + 1 } } : State)
    let s := s.writeRecord rec_ []
    { s with
      recorder := { s.recorder with stopped := true }
      mem := { s.mem with psram0 := {}, psram1 := {} }
      boot := { s.boot with powered := false, booted := false, recoveryLoader := false } }
  else s

/-! ### Reading records (R507, R511) -/

/-- What a slot reads: device 0, else device 1, checked against REC_CRC; 64 zero bytes where both are bad. -/
def RecSlot.read (v : RecSlot) : BitVec 512 :=
  let good (r : BitVec 512) : Bool := crc32 ((wordBytes r).drop 4) == fld r 31 0
  match v.dev0.filter good, v.dev1.filter good with
  | some r, _ => r
  | none, some r => r
  | none, none => 0

/-- The record with a REC_SEQ in the circulating area. -/
def Recorder.circRecord (r : Recorder) (seq : Nat) : BitVec 512 :=
  match r.circ.find? fun p => p.2.read != 0 && fld p.2.read 499 468 == seq with
  | some p => p.2.read
  | none => 0

/-- What REC_WINDOW returns for a position (R511). -/
def State.recordAt (s : State) (area pos : Nat) : BitVec 512 :=
  let r := s.recorder
  match area with
  | 0 => if r.erasing then 0 else r.circRecord pos
  | 1 => (r.first.val {} pos).read
  | _ => (r.key.val {} pos).read

/-- REC_OLDEST_SEQ: the lowest REC_SEQ of the circulating area. -/
def State.oldestSeq (s : State) : Nat :=
  ((s.recorder.circ.map fun p => p.2.read).filter (· != 0)).foldl (fun a r => min a (fld r 499 468)) s.recorder.nextSeq

/-! ### Performance counters (R513 to R517) -/

/-- Does a block exist (R513)? -/
def State.blockExists (s : State) (b : Nat) : Bool :=
  if b < 0x100 then s.exists' b
  else decide (b < 0x180 ∨ (0x180 ≤ b ∧ b ≤ 0x188) ∨ (0x190 ≤ b ∧ b ≤ 0x1A1))

/-- A block's counters. -/
def State.block (s : State) (b : Nat) : CounterBlock := s.counters.val {} b

/-- What the counters of a block become after the events of a period, `seen` giving how often each event of the table
occurred, and whether they passed their top (R513, R514). -/
def CounterBlock.count (c : CounterBlock) (seen : Nat → Nat) : List (Nat × Bool) :=
  (List.range 8).map fun i =>
    let top := 281474976710656
    let own := c.vals.getD i 0 + seen (c.events.getD i 0)
    if i % 2 = 1 && inMap c.chain (i / 2) then
      let below := c.vals.getD (i - 1) 0 + seen (c.events.getD (i - 1) 0)
      ((c.vals.getD i 0 + below / top) % top, c.ovf.getD i false)
    else if inMap c.chain (i / 2) then (own % top, c.ovf.getD i false)
    else (own % top, c.ovf.getD i false || decide (top ≤ own))

/-- A counter's word in the page (R516). -/
def counterWord (v : Nat × Bool) : Nat := 9223372036854775808 + v.2.toNat * 4611686018427387904 + v.1

/-- Does a block have an event of the table that names the blocks it belongs to (R513)? -/
def hasEvent (b e : Nat) : Bool :=
  if e = 2 ∨ e = 3 then decide (b < 0x100)
  else if 0x10 ≤ e ∧ e ≤ 0x12 then decide (b < 0x10 ∨ (0x80 ≤ b ∧ b < 0xA0))
  else if 0x13 ≤ e ∧ e ≤ 0x17 then decide (0x100 ≤ b ∧ b < 0x180)
  else if e = 0x18 ∨ e = 0x19 then decide (b = 0x24 ∨ b = 0x25)
  else if e = 0x1A ∨ e = 0x1B then decide (0x180 ≤ b ∧ b ≤ 0x187)
  else if e = 0x1C then decide ((0x180 ≤ b ∧ b ≤ 0x187) ∨ (0x190 ≤ b ∧ b ≤ 0x19F))
  else decide (1 ≤ e ∧ e < 0x10)

/-- A block at the strobe (R515): its counters are latched; those whose settings were written restart under them. -/
def State.strobeBlock (s : State) (seen : Nat → Nat → Nat) (b : Nat) : State :=
  let c := s.block b
  let vals := c.count (fun e => if hasEvent b e then seen b e else 0)
  let events := (List.range 8).map fun i => (s.numAt Dict.pcEvent i b).toNat
  let chain := s.nat Dict.pcChain b
  let fresh (i : Nat) : Bool := c.restart.getD i false || events.getD i 0 != c.events.getD i 0
    || inMap chain (i / 2) != inMap c.chain (i / 2)
  let d : CounterBlock := {
    events := events
    chain := chain
    vals := (List.range 8).map fun i => if fresh i then 0 else (vals.getD i (0, false)).1
    ovf := (List.range 8).map fun i => if fresh i then false else (vals.getD i (0, false)).2
    snap := vals.map counterWord }
  { s with counters := s.counters.put {} b d }

/-- The blocks of the page. -/
def State.blocks (s : State) : List Nat := (List.range 0x1A2).filter s.blockExists

/-- The bytes of the counters of a page. -/
def State.pageBytes (s : State) : List Byte :=
  (List.range 0x1A2).flatMap fun b =>
    if s.blockExists b then (s.block b).snap.flatMap (leBytes 8) else List.replicate 64 0

/-- The header of a snapshot (R516). -/
def State.pageHeader (s : State) (n : Nat) : List Byte :=
  leBytes 64 ((1 <<< 508) + ((n % 4294967296) <<< 448) + (s.sec' <<< 400) + (s.ns' <<< 368)
    + (s.nat Dict.counterPeriod <<< 336))

/-- COUNTER_STROBE (R515, R516): `seen` lists, by block, how often each event of R513's table occurred since the last
strobe. The snapshot's page is written, its header last. -/
def State.counterStrobe (s : State) (seen : List (Nat × List Nat)) : State :=
  let f (b e : Nat) : Nat := ((seen.find? fun p => p.1 == b).elim [] (·.2)).getD e 0
  let s := s.blocks.foldl (fun s b => s.strobeBlock f b) s
  let n := s.nat Dict.snapSeq + 1
  let page := hbmBase + s.nat Dict.counterPageBase + n % 2 * 65536
  let s := (s.putHbm (page + 4096) s.pageBytes).putHbm page (s.pageHeader n)
  s.bump Dict.snapSeq

/-- A write of PC_EVENT of a counter, or of PC_CHAIN, restarts what it affects at the next strobe (R515). -/
def State.restartCounters (s : State) (b : Nat) (which : List Nat) : State :=
  { s with counters := s.counters.upd {} b fun c => { c with
    restart := (List.range 8).map fun i => c.restart.getD i false || which.contains i } }

/-- COUNTER_PAGE: the newest page, 64 KiB. -/
def State.newestPage (s : State) : List Byte :=
  s.rawRead (hbmBase + s.nat Dict.counterPageBase + s.nat Dict.snapSeq % 2 * 65536) 65536

end Sys2Proof.Machine
end

