-- ==== Sys2Proof/Machine/SecOps.lean ====
section
/-! DEFINITION. Signed objects, attestation leaves, debug, zeroisation, tamper (R482 to R499). -/

namespace Sys2Proof.Machine

/-! ### Signed objects (R487 to R490) -/

/-- A signed object (R487): its header, the signature over the header, the payload. -/
structure Signed where
  header : List Byte
  signature : List Byte
  payload : List Byte
deriving DecidableEq, Repr

/-- The header as a word. -/
def Signed.word (o : Signed) : BitVec 512 := bytesWord 512 o.header

/-- VERSION of a signed object. -/
def Signed.version (o : Signed) : Nat := fld o.word 367 336

/-- The parts of a signed object: the payload is its last LENGTH bytes; none where it is too short. -/
def splitSigned (l : List Byte) : Option Signed :=
  let len := fld (bytesWord 512 (l.take 64)) 335 288
  if l.length < 64 + len then none
  else some { header := l.take 64, signature := (l.drop 64).take (l.length - 64 - len), payload := l.drop (l.length - len) }

/-- Is a key set: not all zero bytes (R430, R490)? -/
def keySet (k : List Byte) : Bool := k.any (· != 0)

/-- The public key that SIGNER names; none where it is not enrolled, or names none that signs what enters (R487, R490). -/
def State.signerKey (s : State) (n : Nat) : Option (List Byte) :=
  match n with
  | 0 => some Config.vendorKey
  | 1 => some (s.blob Dict.integratorKey0) |>.filter keySet
  | 2 => some (s.blob Dict.integratorKey1) |>.filter keySet
  | _ => none

/-- Does an object pass R488 for a place that takes `kind`, from the vendor or the integrator, bound or not (R489)? -/
def State.signedOk (s : State) (kind : Nat) (vendor bound : Bool) (o : Signed) : Bool :=
  let h := o.word
  let bind := fld h 495 368
  let signer := fld h 503 502
  fld h 511 508 == 1 && fld h 507 504 == kind && (if vendor then signer == 0 else signer == 1 || signer == 2)
    && (s.signerKey signer).any (fun k => hssVerify k o.header o.signature)
    && (bind == 0 || bind == leNat (s.blob Dict.deviceId)) && (!bound || bind != 0)
    && fld h 335 288 == o.payload.length && fld h 255 0 == leNat (sha256 o.payload)
    && (decide (kind < 3) || decide (6 < kind) || decide ((s.numAt Dict.intVersionMin (kind - 3) 0).toNat ≤ o.version))

/-- The object, if it is accepted. -/
def State.accepted (s : State) (kind : Nat) (vendor bound : Bool) (l : List Byte) : Option Signed :=
  (splitSigned l).filter (s.signedOk kind vendor bound)

/-- A signed object is refused (R488, R500). -/
def State.sigFail (s : State) : State := (s.bump Dict.sigFailCount).report 0x06981501

/-- A write of an integrator key (R490): the first enrolment, while both are unset; else the other key must be enrolled
and verify the signed header that the write supplies, a condition between entries (R419, log 68). -/
def State.writeIntegratorKey (s : State) (which : Nat) (key header signature : List Byte) : Word × State :=
  let own := if which = 0 then Dict.integratorKey0 else Dict.integratorKey1
  let other := s.blob (if which = 0 then Dict.integratorKey1 else Dict.integratorKey0)
  let first := !keySet (s.blob own) && !keySet other
  if key.length ≠ 60 then (abLength, s)
  else if first || (keySet other && hssVerify other header signature) then (0, s.setBlob own 0 0 key)
  else (abRange, s)

/-! ### Attestation (R492 to R494) -/

/-- The number of anti-rollback marks. -/
def marks : Nat := 4096

/-- A leaf is reserved (R492): the next of the open block, or the first of the block of the lowest unburnt mark, which is
burnt; none where all are burnt and no block has a leaf left (R493). -/
def State.reserveLeaf (s : State) : Option (Nat × State) :=
  let openLeft := match s.sec.openBlock with
    | some b => if s.sec.nextLeaf < 1024 then some b else none
    | none => none
  match openLeft with
  | some b =>
    some (1024 * b + s.sec.nextLeaf, { s with sec := { s.sec with nextLeaf := s.sec.nextLeaf + 1 } })
  | none =>
    if s.sec.marksBurnt < marks then
      let b := s.sec.marksBurnt
      some (1024 * b, { s with sec := { s.sec with marksBurnt := b + 1, openBlock := some b, nextLeaf := 1 } })
    else none

/-- ATTEST_LEAVES_LEFT. -/
def State.leavesLeft (s : State) : Nat :=
  (marks - s.sec.marksBurnt) * 1024 + (if s.sec.openBlock.isSome then 1024 - s.sec.nextLeaf else 0)

/-- A nonce is refused: ATTEST_REFUSED, reported and recorded (R493, R500). -/
def State.attestRefuse (s : State) : Word × State := (0x02981503, (s.toErr mgt 0x02981503).record 0x02981503)

/-- A nonce of requester `who` (R494): the leaf is reserved; the requester's earlier report, and one still under way, go. -/
def State.writeNonce (s : State) (who : Nat) (nonce : List Byte) : Word × State :=
  if nonce.length ≠ 32 then (abLength, s)
  else if s.sec.attestRefused then s.attestRefuse
  else match s.reserveLeaf with
    | some (leaf, s) =>
      let waiting := s.sec.attesting.filter fun r => r.1 != who
      (0, { s with sec := { s.sec with
        attesting := waiting ++ [(who, leaf, nonce)], reports := s.sec.reports.del who } })
    | none => s.attestRefuse

/-! ### Zeroisation and debug (R496, R497) -/

/-- A fresh challenge (R496). -/
def State.drawChallenge (s : State) : State :=
  let (c, s) := s.draw 256
  { s with sec := { s.sec with challenge := wordBytes c } }

/-- A fresh CUSTOMER_SALT (R483). -/
def State.drawSalt (s : State) : State :=
  let (c, s) := s.draw 256
  { s with sec := { s.sec with salt := wordBytes c } }

/-- Both copies of the key area are erased and the new one holds only the new salt (R497). -/
def State.eraseKeys (s : State) : State :=
  let k := (writeOlder { s.boot.keysA with intact := false } s.boot.keysB (s.sealKeys {})).1
  { s with
    regs := { s.regs with sav := s.regs.sav.settings }
    boot := { s.boot with keysA := k, keysB := {} } }

/-- Zeroisation (R497): keys, sessions and the live adapter identity go; a new salt makes partitions 1 to 6 of the model
store unreadable, and the new partition table lists no image. -/
def State.zeroise (s : State) : State :=
  let s := s.drawSalt.eraseKeys.setNum Dict.adapterLiveId 0
  { s with
    adapt := { s.adapt with images := [], labels := [] }
    boot := { s.boot with modelRing := [] } }

/-- DEBUG_TOKEN (R496): a good one zeroises, is recorded in the permanent area and unlocks debug; a bad one draws a new
challenge. -/
def State.debugToken (s : State) (l : List Byte) : Word × State :=
  match (s.accepted 7 true true l).filter fun o => o.payload == s.sec.challenge with
  | some _ =>
    let s := (s.zeroise.commitSaved.report 0x06981504).drawChallenge
    (0, { s with sec := { s.sec with debugUnlocked := true } })
  | none => (abSignature, s.sigFail.drawChallenge)

/-! ### Tamper (R498, R499) -/

/-- An hour of operating time in ns. -/
def hourNs : Nat := 3600000000000

/-- TAMPER (R498, R499): key registers are cleared and the module resets, cause 0x04; a third within an hour of operating
time holds the service state. -/
def State.tamper (s : State) : State :=
  let op := s.recorder.opNs
  let ops := (s.sec.tamperOps.filter fun x => decide (op < x + hourNs)) ++ [op]
  let s := s.raise 4 0x06981505 0
  { s with sec := { s.sec with
    tamperOps := ops, tampers := s.sec.tampers + 1, tamperOwed := true
    tamperHeld := s.sec.tamperHeld || decide (3 ≤ ops.length) } }

/-- SECURITY_STATE (R501). -/
def State.securityState (s : State) : Nat := if s.sec.debugUnlocked then 2 else if s.sec.serviceState then 1 else 0

end Sys2Proof.Machine
end

