-- ==== Sys2Proof/Machine/BootOps.lean ====
section
/-! DEFINITION. Start-up, resets, phases, the update of firmware and model (R538 to R557). -/

namespace Sys2Proof.Machine

/-! ### Step 2: the firmware slot (R548, R549) -/

/-- The item of a list of outcomes. -/
def good (l : List Bool) (k : Nat) : Bool := l.getD k false

/-- The boot ROM falls back to slot `k`: reported, and a CONFIRMED record makes it active (R549). -/
def State.fwFallback (s : State) (k : Nat) : State :=
  let s := { s with boot := { s.boot with fwRing := ringCopy s.boot.fwRing k 3 0, running := k } }
  (s.bump Dict.fwFallbacks).report 0x06701801

/-- Does the object in a firmware slot check (R489): is it read as it was written, and signed? The image delivered is. -/
def State.slotChecks (s : State) (r : BootRun) (k : Nat) : Bool :=
  good r.fwGood k && (s.boot.fwImages.look k).all fun l => (s.accepted 0 true false l).isSome

/-- Does a certificate check (R489): is it read as it was written, signed and bound? The bytes of one are not in the spec:
where the entry lists none, the certificate of manufacture stands (log 98). -/
def State.certChecks (s : State) (e : Ent) (kind : Nat) (read : Bool) : Bool :=
  let l := s.blob e
  read && (l.isEmpty || (s.accepted kind true true l).isSome)

/-- The slot that runs (R549): the active one, a COMMITTED one with its ATTEMPTS raised; the other, if usable, where the
active one fails its signature or would reach ATTEMPTS 4 (log 69). Answers whether a slot runs. -/
def State.selectFirmware (s : State) (r : BootRun) : Bool × State :=
  match activeOf s.boot.fwRing with
  | none => (false, s)
  | some a =>
    let tries := (newestRecord s.boot.fwRing a).elim 0 fun x => fld x 501 498
    let committed := (newestRecord s.boot.fwRing a).any fun x => recState x == 2
    let spent := committed && decide (4 ≤ tries + 1)
    let other := (usableRecord s.boot.fwRing (1 - a)).isSome && s.slotChecks r (1 - a)
    if s.slotChecks r a && !spent then
      let ring := if committed then ringCopy s.boot.fwRing a 2 (tries + 1) else s.boot.fwRing
      (true, { s with boot := { s.boot with fwRing := ring, running := a } })
    else if other then (true, s.fwFallback (1 - a))
    else (s.slotChecks r a, { s with boot := { s.boot with running := a } })

/-! ### Steps 3 to 5 (R482, R489, R485, R417) -/

/-- The enabled arrays of a part number (R2); none for another name. -/
def partArrays (p : List Byte) : Option Nat :=
  if p = [0x53, 0x4B, 0x4D, 0x2D, 0x37, 0x31, 0x36, 0x30] then some 16
  else if p = [0x53, 0x4B, 0x4D, 0x2D, 0x37, 0x31, 0x34, 0x30] then some 14
  else if p = [0x53, 0x4B, 0x4D, 0x2D, 0x37, 0x31, 0x32, 0x30] then some 12
  else none

/-- Does a certificate enable as many arrays as its part number has (R2, R108)? -/
def GradeCert.fits (c : GradeCert) : Bool :=
  partArrays c.part == some ((List.range 16).filter fun n => c.map.getLsbD n).length

/-- The module is of the grade its certificate says (R2, R108, R469, R476): part number, enabled arrays, and the tables of
its islands. -/
def State.takeGrade (s : State) (c : GradeCert) : State :=
  let s := (s.setBlob Dict.partNumber 0 0 c.part).setNum Dict.arrayEnableMap c.map.toNat
  let s := ((List.range 41).filter adjustable).foldl (fun s i =>
    (List.range 8).foldl (fun s p => s.setNumAt Dict.pointFreq p i ((c.freqs.val [] i).getD p 0)) s) s
  { s with power := { s.power with cert := c.islands } }

/-- The root key and the certificates (R2, R4, R482, R489, R540). A grade certificate that enables another number of arrays
than its part number has fails its check (log 98). -/
def State.checkIdentity (s : State) (r : BootRun) : State :=
  let s := if r.pufGood then s else s.report 0x06981502
  let c := Config.gradeCert (s.blob Dict.gradeCert)
  let good := s.certChecks Dict.gradeCert 1 r.gradeGood && c.fits
  let s := if good then s.takeGrade c else s
  { s with sec := { s.sec with
    pufBad := !r.pufGood
    attestRefused := !s.certChecks Dict.identityCert 2 r.identityGood
    serviceState := !r.pufGood || !good || s.sec.tamperHeld } }

/-- The key area and the saved settings: the newer intact copy of each, else defaults and an event record (R417, R538). -/
def State.loadSaved (s : State) (r : BootRun) : State :=
  let b := s.boot
  let a' (c : SavedCopy) (g : Bool) : SavedCopy := { c with intact := c.intact && g }
  let savedA := a' b.savedA (good r.savedGood 0)
  let savedB := a' b.savedB (good r.savedGood 1)
  let opens (c : SavedCopy) (g : Bool) : SavedCopy := a' c (g && (s.openKeys c).isSome)
  let keysA := if s.sec.pufBad then b.keysA else opens b.keysA (good r.keysGood 0)
  let keysB := if s.sec.pufBad then b.keysB else opens b.keysB (good r.keysGood 1)
  let keys := if s.sec.pufBad then none else (newerIntact keysA keysB).bind s.openKeys
  let saved := newerIntact savedA savedB
  let set := ((saved.elim {} (·.set)) : Store).joined { blobs := (keys.getD []).filter fun p => p.1 != 0 }
  let s := { s with
    regs := { s.regs with sav := set }
    boot := { b with savedA := savedA, savedB := savedB, keysA := keysA, keysB := keysB }
    sec := { s.sec with salt := (keys.getD []).val [] 0 } }
  let s := (if saved.isNone then s.setNum Dict.trumpArrayMap s.arrayMapDefault else s).sendSafeStates
  let s := if saved.isNone || (keys.isNone && !s.sec.pufBad) then s.record 0x07701180 else s
  if s.sec.salt.isEmpty && !s.sec.pufBad then s.drawSalt else s

/-! ### Step 6: the margin plan (R477, R478) -/

/-- The committed plan; where none gives a voltage, as on a part not yet measured, that of the certificate's floors
(log 98). -/
def State.firstPlan (s : State) : State :=
  if s.power.plan.volts.isEmpty then
    let v := s.power.cert.map fun p => (p.1, p.2.floor)
    { s with power := if s.power.commitB then { s.power with planB := { s.power.planB with volts := v } }
        else { s.power with planA := { s.power.planA with volts := v } } }
  else s

/-- The start-up measurement (R475): a plan it leads to is committed and applied at once (R478). -/
def State.bootAges (s : State) (l : List (Nat × Nat × Nat × Int)) : State :=
  let s := l.foldl (fun s m => s.ageMeasure m.1 m.2.1 m.2.2.1 m.2.2.2) s
  if s.power.prepared then
    (((List.range 41).filter adjustable).foldl (fun s i => s.applyPlan i) s.planCommit).planState3
  else s

/-- The committed plan is applied to every island before it leaves its boot point; an uncommitted copy is erased. -/
def State.bootPlan (s : State) : State :=
  let s := s.firstPlan
  let erased := if s.power.commitB then { s.power with planA := if s.power.prepared then {} else s.power.planA }
    else { s.power with planB := if s.power.prepared then {} else s.power.planB }
  let s := { s with power := { erased with prepared := false } }
  let s := ((List.range 41).filter adjustable).foldl (fun s i => s.applyPlan i) s
  (s.setNum Dict.planSeq s.power.plan.seq).setNum Dict.planState 3

/-! ### Steps 7 and 8 -/

/-- The domains a start powers: the cluster, whose stations are IDLE, and the HBM controller groups. -/
def State.bootDomains (s : State) : State :=
  [58, 59, 60, 61, 62].foldl (fun s pd =>
    ({ s with power := { s.power with pd := s.power.pd.upd {} pd fun x => { x with st := .on } } } : State).stationsOn pd) s

/-- What saved settings ask of the units takes effect: enabled streams and templates, the KV page pool (R280, R288,
R317), the banks of enabled strip-pair queues (R379). -/
def State.applySaved (s : State) : State :=
  let s := (List.range 64).foldl (fun s n => if s.flag Dict.vstreamEnable n then s.setStreamEnable n true else s) s
  let s := (List.range 8).foldl (fun s k => if s.flag Dict.templateEnable k then s.setTemplateEnable k true else s) s
  let n := s.nat Dict.kvPoolPages
  let s := if n = 0 then s else s.setPoolPages n
  let key := Dict.queueEnable.key 0 0
  (s.regs.sav.nums.filter fun p => decide (key ≤ p.1 ∧ p.1 < key + 4096)).foldl (fun s p =>
    if s.flag Dict.queueMode (p.1 - key) then s.takeBanks (p.1 - key) else s) s

/-! ### Step 9: the model (R153, R554) -/

/-- The model of slot `k` is in force. -/
def State.modelIn (s : State) (k : Nat) : State :=
  { s with boot := { s.boot with
    activeModel := some k, modelLoaded := true, modelSwap := none
    modelLength := (newestRecord s.boot.modelRing k).elim 0 recLength } }

/-- A model image without its record's hash is refused (R153). -/
def State.hashMismatch (s : State) : State := s.toErr mgt (withSrc 0x05000506 mgt)

/-- The bytes of a slot's image, as its newest record says (R546). -/
def State.slotImage (s : State) (k : Nat) : List Byte :=
  let n := (newestRecord s.boot.modelRing k).elim 0 recLength
  (s.msRead (1 + k) 0 (blocksOf n)).take n

/-- Has the image of slot `k` its record's hash (R153, R546)? -/
def State.imageIntact (s : State) (k : Nat) : Bool :=
  match newestRecord s.boot.modelRing k, splitSigned (s.slotImage k) with
  | some r, some o => leNat (sha256 o.payload) == fld r 367 112
  | _, _ => false

/-- The model is loaded from the active slot, else from the other if usable (R554). `imageGood`: the device reads a slot
as it was written. -/
def State.bootModel (s : State) (r : BootRun) : State :=
  match activeOf s.boot.modelRing with
  | none => s
  | some a =>
    if good r.imageGood a && r.pufGood && s.imageIntact a then s.modelIn a
    else
      let s := s.hashMismatch
      let o := 1 - a
      if (usableRecord s.boot.modelRing o).isSome then
        if good r.imageGood o && r.pufGood && s.imageIntact o then
          let s := { s with boot := { s.boot with modelRing := ringCopy s.boot.modelRing o 2 0 } }
          (s.modelIn o).report 0x06701802
        else s.hashMismatch
      else s

/-! ### The end of start-up (R538, R540, R541, R547, R555) -/

/-- The incomplete slots, to be erased in the background, as (area, slot) (R547). -/
def State.incomplete (s : State) : List (Nat × Nat) :=
  [(0, 0), (0, 1), (1, 0), (1, 1)].filter fun p =>
    (usableRecord (if p.1 = 0 then s.boot.fwRing else s.boot.modelRing) p.2).isNone

/-- Start-up ends: the phase by the cause of the reset (R541), and TRUMP_AUTOSTART. -/
def State.startEnds (s : State) : State :=
  let s := { s with boot := { s.boot with slotErase := s.incomplete } }
  if s.sec.serviceState then
    let s := { s with boot := { s.boot with phase := .serviceState } }
    if s.sec.serviceReported then s
    else ({ s with sec := { s.sec with serviceReported := true } } : State).report 0x06701804
  else
    let s := if 3 ≤ s.boot.cause then { s with boot := { s.boot with phase := .recovery } } else s.enterService
    if s.flag Dict.trumpAutostart then s.trumpStart else s

/-- Steps 6 to 9 (R538), which a management restart runs too (R544). -/
def State.bootLate (s : State) (r : BootRun) : State :=
  let s := s.bootPlan.bootAges r.ages
  if !r.hbmGood then s.raise 4 0x06921703 mgt
  else
    let s := s.bootDomains
    let s := { s with guard := { s.guard with lastBeat := s.tb } }
    let s := (s.settle.record 0x07911601 255 (leBytes 1 s.boot.running ++ leBytes 1 s.boot.cause)).settle
    let s := { s with boot := { s.boot with booted := true } }
    let s := (s.drawChallenge.applySaved.bootModel r)
    let s := if s.boot.interrupted then
        ({ s with boot := { s.boot with interrupted := false } } : State).report 0x06701803
      else s
    let s := match s.adapt.voided with
      | some id => ({ s with adapt := { s.adapt with voided := none } } : State).report 0x06700D03 255 (leBytes 4 id)
      | none => s
    s.startEnds

/-- The operating time resumes from what was written last; a start after the input was absent counts (R508). -/
def State.bootTime (s : State) : State :=
  { s with recorder := { s.recorder with
    opNs := s.recorder.opSaved
    powerCycles := if s.boot.cause = 1 then s.recorder.powerCycles + 1 else s.recorder.powerCycles } }

/-- A tamper reset is recorded at the next start (R498). -/
def State.tamperRecord (s : State) : State :=
  if s.sec.tamperOwed then ({ s with sec := { s.sec with tamperOwed := false } } : State).report 0x06981505 else s

/-- The supervisor code of the running slot (R548): the payload of the signed object in it. -/
def State.runningImage (s : State) : List Byte :=
  let k := s.boot.running
  let l := match s.boot.fwImages.look k with
    | some l => l
    | none => if k = 0 then Config.deliveredFirmware else []
  ((splitSigned l).map (·.payload)).getD []

/-- BOOT (R538): the start of a module that has power, is not held in reset and has not started. -/
def State.bootModule (s : State) (r : BootRun) : State :=
  if !s.boot.powered || s.boot.held.isSome || s.boot.booted || s.boot.recoveryLoader then s
  else if s.boot.cause = 5 then s.bootLate r
  else
    let (runs, s) := s.bootTime.selectFirmware r
    let s := s.psramStart (s.runningImage)
    if runs then ((s.tamperRecord.checkIdentity r).loadSaved r).bootLate r
    else { s with boot := { s.boot with recoveryLoader := true } }

/-! ### Resets (R542 to R545, R576) -/

/-- A write of RESET_REQUEST is never refused for a commit under way (R545). -/
def State.writeReset (s : State) (v : Nat) : Word × State :=
  if v = 1 ∨ v = 2 then
    (0, if s.boot.request.isSome then s else { s with boot := { s.boot with request := some v, requestAt := s.tb } })
  else (abRange, s)

/-- RESET_TAKE_EFFECT: 10 ms after the response (R545). Before a management restart the Trump domain is stopped, and the
restart waits for that and for the strings' zeros (R544, log 70). -/
def State.resetEffect (s : State) : State :=
  match s.boot.request with
  | some v =>
    if s.tb < s.boot.requestAt + 10000000 then s
    else if v = 1 then s.resetModule 2
    else if s.trump.st != .stopped then s.trumpStop
    else if s.dealer.strings.any fun p => p.2.zero.isSome then s
    else s.restartModule
  | none => s

/-- INPUT_POWER_GOOD (R576): a module without power starts as a power-on reset. -/
def State.powerGood (s : State) : State :=
  if s.boot.powered then s
  else
    let s := s.resetModule 1
    { s with boot := { s.boot with powered := true, held := none } }

/-- RESET_HOLD_END (R523): the module is no longer held in reset. -/
def State.holdEnd (s : State) : State := { s with boot := { s.boot with held := none } }

/-! ### Phases (R541) -/

/-- A write of PHASE_REQUEST (R541): what the table does not allow is a range abort (log 71). -/
def State.writePhase (s : State) (v : Nat) : Word × State :=
  match v, s.boot.phase with
  | 1, .test => (0, s.enterService)
  | 1, .recovery => (0, s.enterService)
  | 2, .inService =>
    if s.trump.st = .stopped then (0, { s with boot := { s.boot with phase := .test } }) else (abRange, s)
  | 3, .inService => (0, { s with boot := { s.boot with phase := .recovery } })
  | 3, .test => (0, { s with boot := { s.boot with phase := .recovery } })
  | _, _ => (abRange, s)

/-! ### Firmware update (R548, R550) -/

/-- The slot a staged firmware goes to: A from the recovery loader, else the inactive one (R540, R548). -/
def State.fwTarget (s : State) : Nat := if s.boot.recoveryLoader then 0 else inactiveOf s.boot.fwRing

/-- An erase of the slot under way has ended before a SEG_INIT to it goes on (R547). -/
def State.eraseWaited (s : State) (area slot : Nat) : State :=
  { s with boot := { s.boot with slotErase := s.boot.slotErase.filter (· != (area, slot)) } }

/-- SEG_INIT of FW_STAGE: a STAGING record. -/
def State.fwInit (s : State) (total : Nat) : State :=
  let k := s.fwTarget
  let s := s.eraseWaited 0 k
  { s with boot := { s.boot with
    fwRing := ringPut s.boot.fwRing (commitRecord 0 k 1 0 (nextSeq s.boot.fwRing) total 0 0) } }

/-- SEG_END of FW_STAGE: a good object gets a COMMITTED record; the recovery loader then resets the module. -/
def State.fwEnd (s : State) (k : Nat) (l : List Byte) : Word × State :=
  let s := { s with boot := { s.boot with fwImages := s.boot.fwImages.ins k l } }
  match s.accepted 0 true false l with
  | some o =>
    let r := commitRecord 0 k 2 0 (nextSeq s.boot.fwRing) l.length o.version (bytesWord 256 (sha256 o.payload))
    let s := { s with boot := { s.boot with fwRing := ringPut s.boot.fwRing r } }
    (0, if s.boot.recoveryLoader then s.resetModule 2 else s)
  | none => (abSignature, if s.boot.recoveryLoader then s.sigFail.resetModule 2 else s.sigFail)

/-! ### Model commit (R551 to R553) -/

/-- MODEL_COMMIT_STATE: 0 once the swap line of an activation has passed. -/
def State.commitState (s : State) : Nat :=
  if s.boot.commitStage = 4 && s.boot.modelSwap.isSome && s.activeSlot != s.boot.activeModel then 0 else s.boot.commitStage

/-- Where the swap line has passed, the slot has taken over for good. -/
def State.settleModel (s : State) : State :=
  match s.boot.modelSwap with
  | some (_, k) =>
    if s.activeSlot = some k then
      { s.modelIn k with boot := { (s.modelIn k).boot with commitStage := if s.boot.commitStage = 4 then 0 else s.boot.commitStage } }
    else s
  | none => s

/-- SEG_INIT of MODEL_STAGE: stage 1, a STAGING record; BUSY while a commit is in progress. -/
def State.modelInit (s : State) (total : Nat) : Word × State :=
  if s.commitState != 0 then (abBusy, s)
  else
    let s := s.settleModel
    let k := inactiveOf s.boot.modelRing
    let s := s.eraseWaited 1 k
    (0, { s with boot := { s.boot with
      commitStage := 1, stagedBytes := 0
      modelRing := ringPut s.boot.modelRing (commitRecord 1 k 1 0 (nextSeq s.boot.modelRing) total 0 0) } })

/-- A model commit ends before its time (R551, R556). -/
def State.modelAbandon (s : State) : State :=
  ({ s with boot := { s.boot with commitStage := 0, stagedBytes := 0 } } : State).report 0x06701803

/-- SEG_END of MODEL_STAGE: stages 2 and 3, then 4 where MODEL_ACTIVATE_MODE is 1 (R551, R552). -/
def State.modelEnd (s : State) (k : Nat) (l : List Byte) : Word × State :=
  let s := s.msWrite (1 + k) 0 l (blocksOf l.length)
  match s.accepted 4 false false l with
  | some o =>
    let r := commitRecord 1 k 2 0 (nextSeq s.boot.modelRing) l.length o.version (bytesWord 256 (sha256 o.payload))
    let stage := if s.flag Dict.modelActivateMode then 4 else 0
    (0, { s with
      boot := { s.boot with modelRing := ringPut s.boot.modelRing r, commitStage := stage } })
  | none => (abSignature, s.sigFail.modelAbandon)

/-- MODEL_ACTIVATE_LOADED (R553): the new image is loaded; with the domain RUNNING a swap line is chosen under step 2 of
R338, else the slot is active at once. `imageGood`: the device reads it as it was written (R153). -/
def State.activateLoaded (s : State) (imageGood : Bool) : State :=
  match activeOf s.boot.modelRing with
  | some k =>
    if s.boot.commitStage = 4 && s.boot.modelSwap.isNone then
      if !(imageGood && s.imageIntact k) then
        let s := s.hashMismatch
        { s with boot := { s.boot with commitStage := 0 } }
      else if s.trump.st = .running then
        let ch := s.sharedEncoder
        let c := count48 (floor16 (s.posAt ch s.devNs) + max (s.num Dict.swapLeadCnt) (s.msCounts ch))
        { s with boot := { s.boot with modelSwap := some (c, k) } }
      else
        let s := s.modelIn k
        { s with boot := { s.boot with commitStage := 0 } }
    else s
  | none => s

/-- SLOT_ERASE_DONE (R547). -/
def State.eraseDone (s : State) (area slot : Nat) : State :=
  if s.boot.slotErase.contains (area, slot) then
    let s := s.eraseWaited area slot
    if area = 1 then
      { s with mem := { s.mem with
        store := s.mem.store.filter fun p => decide (p.1 < storeAt (1 + slot) 0) || decide (storeAt (2 + slot) 0 ≤ p.1) } }
    else { s with boot := { s.boot with fwImages := s.boot.fwImages.ins slot [] } }
  else s

/-- A write of MODEL_ACTIVATE_MODE (R553): 1 needs room for the image of the slot that is not active. -/
def State.activateModeOk (s : State) (v : Nat) : Bool :=
  let len := (newestRecord s.boot.modelRing (inactiveOf s.boot.modelRing)).elim 0 recLength
  v == 0 || decide (len ≤ Config.modelRoom s.boot.modelLength (s.nat Dict.trumpHbmLength))

end Sys2Proof.Machine
end

