-- ==== Sys2Proof/Machine/CoutOps.lean ====
section
/-! DEFINITION. The image output ports: choosing a frame, its header, its lines (R457 to R466). -/

namespace Sys2Proof.Machine

/-- Does a port send: enabled, its power domain on (R11, R467)? -/
def State.coutOn (s : State) (n : Nat) : Bool := s.flag Dict.coutEnable n && s.pdStateOf (52 + n) == .on

/-- A packet on a port's wires (R457). -/
def State.csi (s : State) (n vc type : Nat) (bytes : List Byte) : State := s.emit (.csi n vc type bytes)

/-- Bytes that an output engine reads, with the read rights of the Trump domain (R137, R458); a byte it may not read, and
a poisoned range, read as zero. -/
def State.coutRead (s : State) (a n : Nat) : List Byte :=
  if s.poisonedRange a n then List.replicate n 0 else s.readBytes decId a n

/-! ### Overlays (R461) -/

/-- The last source line of an overlay whose first is `base`. -/
def State.ovlLast (s : State) (n base : Nat) : Nat :=
  base + s.nat Dict.ovlDecimate n * (s.nat Dict.ovlLines n - 1)

/-- Are all of an overlay's source lines there, the last for CERT_L_LV + CERT_L_VL or longer (R461)? -/
def State.ovlReady (s : State) (n base : Nat) : Bool :=
  let r := s.dec.rings.val {} (s.nat Dict.ovlCam n)
  let k := max 1 (s.nat Dict.cropRingLines (s.nat Dict.ovlCam n))
  let b := s.ovlLast n base
  decide (b < r.lines) && (decide (b + k < r.lines)
    || decide (r.times.val 0 (b % k) + s.trump.cert.lLv + s.trump.cert.lVl ≤ s.devNs))

/-- OVERLAY_PENDING: the newest overlay that is ready becomes pending; an older one that has not started is dropped
(R461, R462). -/
def State.overlayPending (s : State) (n : Nat) : State :=
  let cam := s.nat Dict.ovlCam n
  if s.coutOn n && decide (cam < 16) && s.trump.st == .running then
    let span := s.nat Dict.ovlDecimate n * s.nat Dict.ovlLines n
    let newest := (s.dec.rings.val {} cam).lines / max 1 span
    let bases := (List.range 3).map fun j => (newest - j) * span
    match bases.find? fun b => decide ((s.cout n).nextOverlay ≤ b) && s.ovlReady n b with
    | some b =>
      let s := if (s.cout n).overlay.isSome then s.coutDrop n 1 else s
      s.mapCout n fun x => { x with overlay := some b, nextOverlay := b + span }
    | none => s
  else s

/-- The colour of a verdict's outline (R461). -/
def verdictColour (v : Nat) : Nat × Nat × Nat :=
  match v with
  | 0 => (0, 255, 0)
  | 1 => (255, 0, 0)
  | 2 => (255, 255, 0)
  | _ => (255, 0, 255)

/-- The outline of a verdict on the overlay whose first source line is `base` (R461). -/
def State.outlineOf (s : State) (n base : Nat) (v : Verdict) : Option Outline :=
  let r := s.dec.rings.val {} v.port
  let k := max 1 (s.nat Dict.cropRingLines v.port)
  let d := max 1 (s.nat Dict.ovlDecimate n)
  let rows := (List.range (s.nat Dict.ovlLines n)).filter fun y =>
    let p := r.at' k (base + d * y)
    decide (0 ≤ ahead48 p v.posFirst) && decide (0 ≤ ahead48 v.posLast p)
  match rows.head?, rows.getLast? with
  | some a, some b =>
    some { y0 := a, y1 := b, x0 := v.colFirst / d, x1 := v.colLast / d, colour := verdictColour (fld v.ctx 504 502) }
  | _, _ => none

/-- Does a pixel lie on an outline? -/
def Outline.hits (o : Outline) (x y : Nat) : Bool :=
  let inside := decide (o.x0 ≤ x) && decide (x ≤ o.x1) && decide (o.y0 ≤ y) && decide (y ≤ o.y1)
  inside && (x == o.x0 || x == o.x1 || y == o.y0 || y == o.y1)

/-- The painted colour of a pixel: of the verdict issued last. -/
def paintOf (l : List Outline) (x y : Nat) : Option (Nat × Nat × Nat) :=
  (l.reverse.find? fun o => o.hits x y).map (·.colour)

/-! ### Frames (R459, R464) -/

/-- The 32-byte frame header (R459). -/
def State.frameHeader (s : State) (n : Nat) (f : OutFrame) (lines : Nat) (pos : Int) : List Byte :=
  leBytes 32 ((1 <<< 252) + (f.kind <<< 250) + (f.cam <<< 246) + (f.width <<< 224) + (lines <<< 208)
    + ((s.cout n).dropped.getD f.kind 0 <<< 192) + ((BitVec.ofInt 48 pos).toNat <<< 144)
    + ((s.devNs / nsPerS % 2 ^ 48) <<< 96) + ((s.devNs % nsPerS) <<< 64))

/-- The frame number after the last one of a virtual channel (R459). -/
def State.frameNumber (s : State) (n vc : Nat) : Nat := (s.cout n).numbers.val 0 vc % 65535 + 1

/-- The end of a frame: its trailer, frame end, FRAMES_SENT; the report of lost lines; a mosaic's cell is released (R459,
R462, R463). -/
def State.endFrame (s : State) (n : Nat) (f : OutFrame) : State :=
  let s := s.csi n f.vc 0x31 (leBytes 4 ((1 <<< 28) + (min 65535 f.lost <<< 12)))
  let s := (s.csi n f.vc 1 (leBytes 2 ((s.cout n).numbers.val 0 f.vc))).bump Dict.framesSent n
  let s := s.mapCout n fun x => { x with frame := none }
  let s := if 0 < f.lost then s.report (BitVec.ofNat 32 (0x06A01302 + n * 65536)) n else s
  if f.kind = 2 then
    match (s.queue f.queue).held.find? fun p => p.id == f.packet with
    | some p =>
      let s := s.mapQueue f.queue fun x => { x with
        held := x.held.filter fun q => q.id != p.id, mark := if x.mark = some p.id then none else x.mark }
      (s.freePacket f.queue p.cells).tryExchange f.queue
    | none => s
  else s

/-- A frame starts: frame start, then the header packet, which for a crop is followed by the object's context (R459). -/
def State.startFrame (s : State) (n : Nat) (f : OutFrame) (lines : Nat) (pos : Int) (ctx : List Byte) : State :=
  let num := s.frameNumber n f.vc
  let s := (s.csi n f.vc 0 (leBytes 2 num)).csi n f.vc 0x30 (s.frameHeader n f lines pos ++ ctx)
  let s := s.mapCout n fun x => { x with
    frame := some f, dropped := x.dropped.set f.kind 0, numbers := x.numbers.put 0 f.vc num }
  if f.packets = 0 then s.endFrame n f else s

/-- Crop requests older than CROP_MAX_AGE are dropped (R464). -/
def State.ageCrops (s : State) (n : Nat) : State :=
  let old (c : CropReq) : Bool := decide (s.nat Dict.cropMaxAge n * 1000000 < s.tb - c.at_)
  let s' := ((s.cout n).crops.filter old).foldl (fun s _ => s.coutDrop n 0) s
  s'.mapCout n fun x => { x with crops := x.crops.filter fun c => !old c }

/-- Drop the oldest mosaic record: its cell is released (R463). -/
def State.dropMosaic (s : State) (n q : Nat) : State := ((s.takeRecord q).2.2).coutDrop n 2

/-- Mosaic records older than MOSAIC_MAX_AGE are dropped, looking at no more than `k` (R464). -/
def State.ageMosaics (s : State) (n q : Nat) : Nat → State
  | 0 => s
  | k + 1 =>
    match (s.queue q).unread with
    | p :: _ =>
      if s.nat Dict.mosaicMaxAge n * 1000000 < s.tb - p.posted then (s.dropMosaic n q).ageMosaics n q k else s
    | [] => s

/-- Is a mosaic record one that the layout and ranges allow (R463)? A row must fit a CSI-2 packet (log 61). -/
def mosaicOk (len : Nat) (r : BitVec 512) : Bool :=
  len == 64 && fld r 511 508 == 1 && decide (fld r 507 506 ≤ 1)
    && decide (fld r 495 480 * (if fld r 507 506 = 0 then 3 else 1) < 65536)

/-- The oldest good mosaic record starts its frame; bad ones before it are dropped, looking at no more than `k` (R463).
Answers whether a frame started. -/
def State.startMosaic (s : State) (n q : Nat) : Nat → Bool × State
  | 0 => (false, s)
  | k + 1 =>
    match (s.queue q).unread with
    | [] => (false, s)
    | p :: rest =>
      let r := bytesWord 512 (s.packetBytes p)
      if mosaicOk p.len r then
        let s := s.mapQueue q fun x => { x with unread := rest, held := x.held ++ [p] }
        let f : OutFrame := { kind := 2, vc := s.nat Dict.mosaicVc n, width := fld r 495 480, packets := fld r 479 464
                              fmt := fld r 507 506, rowBytes := fld r 463 440, addr := fld r 439 392
                              queue := q, packet := p.id }
        (true, s.startFrame n f f.packets 0 [])
      else (s.dropMosaic n q).startMosaic n q k

/-- A crop's frame starts (R460). -/
def State.startCrop (s : State) (n : Nat) (c : CropReq) : State :=
  let v := c.verdict
  let (a, cols) := s.cropCols v
  let ch := s.channels v.port
  let k := max 1 (s.nat Dict.cropRingLines v.port)
  let f : OutFrame := { kind := 0, cam := v.port, vc := s.nat Dict.cropVc n, width := cols, packets := c.lines * ch
                        line := c.first, col := a, per := ch }
  s.startFrame n f c.lines ((s.dec.rings.val {} v.port).at' k c.first) (wordBytes v.ctx)

/-- An overlay's frame starts: the verdicts issued so far are painted (R461). -/
def State.startOverlay (s : State) (n base : Nat) : State :=
  let cam := s.nat Dict.ovlCam n
  let d := max 1 (s.nat Dict.ovlDecimate n)
  let k := max 1 (s.nat Dict.cropRingLines cam)
  let f : OutFrame := { kind := 1, cam := cam, vc := s.nat Dict.ovlVc n, width := (s.nat Dict.lineWidth cam + d - 1) / d
                        packets := s.nat Dict.ovlLines n, line := base, step := d
                        marks := (s.dec.issued.filter fun v => v.port == cam).filterMap (s.outlineOf n base) }
  s.startFrame n f f.packets ((s.dec.rings.val {} cam).at' k base) []

/-- COUT_FRAME_START: aged requests and records are dropped, then the oldest crop, else the oldest mosaic, else the
pending overlay starts (R464). -/
def State.coutFrameStart (s : State) (n : Nat) : State :=
  if s.coutOn n && (s.cout n).frame.isNone then
    let s := s.ageCrops n
    let q := s.nat Dict.mosaicQueue n
    let s := if q < 4096 then s.ageMosaics n q (s.queue q).unread.length else s
    match (s.cout n).crops with
    | c :: r => (s.mapCout n fun x => { x with crops := r }).startCrop n c
    | [] =>
      let (done, s) := if q < 4096 then s.startMosaic n q (s.queue q).unread.length else (false, s)
      match done, (s.cout n).overlay with
      | false, some base => (s.mapCout n fun x => { x with overlay := none }).startOverlay n base
      | _, _ => s
  else s

/-! ### Lines (R460 to R465) -/

/-- Has the ring overwritten a line of the frame, or started afresh since (R462)? -/
def State.lineLost (s : State) (f : OutFrame) (i : Nat) : Bool :=
  let r := s.dec.rings.val {} f.cam
  decide (i + s.nat Dict.cropRingLines f.cam < r.lines) || decide (r.lines ≤ i)

/-- The UQ16 codes of channel `ch` of ring line `i`, columns `a`, `a + d`, and so on, `cols` of them. A channel that the
port does not have gives free codes (log 62). -/
def State.coutCodes (s : State) (f : OutFrame) (i ch a d cols : Nat) : List Nat :=
  let w := s.nat Dict.lineWidth f.cam
  let k := max 1 (s.nat Dict.cropRingLines f.cam)
  let base := hbmBase + s.nat Dict.cropRingBase f.cam + i % k * s.ringLineBytes f.cam + (ch * w + a) * 2
  if ch < s.channels f.cam then (List.range cols).map fun x => leNat (s.coutRead (base + x * d * 2) 2)
  else (List.range cols).map fun x => (Config.freeBits 16 (s.free + ch * 65536 + x)).toNat

/-- An overlay's line: each pixel blue, green, red, shifted right and saturated, outlines painted over (R461). -/
def State.overlayLine (s : State) (n : Nat) (f : OutFrame) (i y : Nat) : List Byte :=
  let rgb := s.nat Dict.ovlRgb n
  let sh := s.nat Dict.ovlShift n
  let get (c : Nat) : List Byte :=
    (s.coutCodes f i (c % 4) 0 f.step f.width).map fun v => BitVec.ofNat 8 (min 255 (v >>> sh))
  let px := (get rgb).zip ((get (rgb / 4)).zip (get (rgb / 16)))
  px.zipIdx.flatMap fun p =>
    match paintOf f.marks p.2 y with
    | some (r, g, b) => [BitVec.ofNat 8 b, BitVec.ofNat 8 g, BitVec.ofNat 8 r]
    | none => [p.1.1, p.1.2.1, p.1.2.2]

/-- Data type and payload of the frame's next packet, and the ring line that it found lost. -/
def State.nextLine (s : State) (n : Nat) (f : OutFrame) : Nat × List Byte × Option Nat :=
  match f.kind with
  | 0 =>
    let i := f.line + f.sent / max 1 f.per
    if s.lineLost f i then (0x2E, List.replicate (f.width * 2) 0, some i)
    else (0x2E, (s.coutCodes f i (f.sent % max 1 f.per) f.col 1 f.width).flatMap (leBytes 2), none)
  | 1 =>
    let i := f.line + f.sent * f.step
    if s.lineLost f i then (0x24, List.replicate (f.width * 3) 0, some i)
    else (0x24, s.overlayLine n f i f.sent, none)
  | _ =>
    let bytes := if f.fmt = 0 then f.width * 3 else f.width
    (if f.fmt = 0 then 0x24 else 0x2A, s.coutRead (f.addr + f.sent * f.rowBytes) bytes, none)

/-- The byte bucket of a port, in thousandths of a byte: depth 1 MiB, OUT_MAX_RATE MB/s (R465). -/
def State.lineTokens (s : State) (n : Nat) : Nat :=
  match (s.cout n).lineBucket with
  | some b => min (b.level + (s.tb - b.at_) * s.nat Dict.outMaxRate n) 1048576000
  | none => 1048576000

/-- COUT_LINE: the next line goes out if the bucket holds its packet's bytes, six of them overhead; a line the ring has
overwritten goes as zeros and counts once; after the last line the frame ends (R459, R462, R465). -/
def State.coutLine (s : State) (n : Nat) : State :=
  match (s.cout n).frame with
  | some f =>
    let (ty, bytes, lost) := s.nextLine n f
    let cost := (bytes.length + 6) * 1000
    if s.coutOn n && decide (cost ≤ s.lineTokens n) then
      let first := lost.isSome && lost != f.lostLine
      let f := { f with sent := f.sent + 1, lost := if first then f.lost + 1 else f.lost
                        lostLine := if lost.isSome then lost else f.lostLine }
      let lvl := s.lineTokens n - cost
      let s := { s.csi n f.vc ty bytes with free := if f.kind = 1 then s.free + 262144 else s.free }
      let s := s.mapCout n fun x => { x with frame := some f, lineBucket := some { level := lvl, at_ := s.tb } }
      let s := if first then s.bump Dict.coutLinesLostCount n else s
      if f.packets ≤ f.sent then s.endFrame n f else s
    else s
  | none => s

end Sys2Proof.Machine
end

