-- ==== Sys2Proof/Machine/FabOps.lean ====
section
/-! DEFINITION. The fabric: training, sleep, receipt, acknowledgement, transactions at both ends (R386 to R411). -/

namespace Sys2Proof.Machine

/-! ### Training (R390, R391) -/

/-- A lane. -/
def State.lane (s : State) (n : Nat) : Lane := s.fab.lanes.val {} n
/-- Change a lane. -/
def State.mapLane (s : State) (n : Nat) (f : Lane → Lane) : State :=
  { s with fab := { s.fab with lanes := s.fab.lanes.upd {} n f } }

/-- The lanes of a link. -/
def lanesOf (k : Nat) : List Nat := (List.range 4).map (· + 4 * k)

/-- Is the power domain of the link's lanes on (R11)? -/
def State.linkPowered (s : State) (k : Nat) : Bool := s.pdStateOf (if k < 4 then 56 else 57) == .on

/-- Training starts: idle blocks and markers go out, the lanes search (R390). -/
def State.train (s : State) (k : Nat) : State :=
  if s.linkPowered k then
    let s := (lanesOf k).foldl (fun s n => s.mapLane n fun _ => {}) s
    (s.mapLink k fun _ => { st := .training, stepAt := s.tb, rate := s.nat Dict.linkRate k }).emit
      (.fabric k (idleLanes k))
  else s

/-- Both ends have sent HELLO: the link is UP (R390). -/
def Link.greet (l : Link) (now : Nat) : Link :=
  if l.helloSent && l.helloSeen then { l with st := .up, ackAt := now, sentAt := now } else l

/-- Step 4 and 5: with a marker on all four lanes and a skew of up to 8 blocks the lanes are deskewed and HELLO goes
out. -/
def State.deskewed (s : State) (k skew : Nat) : State :=
  let l := s.link k
  if l.st = .training && !l.helloSent && (lanesOf k).all fun n => (s.lane n).marker then
    if skew ≤ 8 then
      ((s.mapLink k fun l => { l with deskew := skew, helloSent := true, stepAt := s.tb }).transmit k
        (s.controlFrame 11 0)).mapLink k (·.greet s.tb)
    else s.mapLink k fun l => { l with deskew := skew }
  else s

/-- CLOCK_DATA_LOCK: a lane in training gains clock-data lock; its marker may be seen with it. -/
def State.clockLock (s : State) (n : Nat) (marker : Bool) (skew : Nat) : State :=
  if (s.link (n / 4)).st = .training then
    (s.mapLane n fun l => { l with clock := true, block := l.block || marker, marker := l.marker || marker }).deskewed
      (n / 4) skew
  else s

/-- A write of 1 to BIT_SLIP: the block boundary of the lane moves by one bit (R390). On a link that is UP the lane's
block lock is then lost by LANE_LOCK_LOSS. -/
def State.bitSlip (s : State) (n : Nat) (marker : Bool) (skew : Nat) : State :=
  if (s.link (n / 4)).st = .training && (s.lane n).clock && !(s.lane n).marker then
    (s.mapLane n fun l => { l with slips := l.slips + 1, block := marker, marker := marker }).deskewed (n / 4) skew
  else s

/-- A frame lost with its link is counted. -/
def Link.lost (l : Link) : Nat := l.unacked.length + l.txq.length

/-- A link goes DOWN (R392): what it holds is lost; it trains again where AUTO_RETRAIN is 1 and it is not held. -/
def State.linkDown (s : State) (k : Nat) : State :=
  let l := s.link k
  let s := (s.bump Dict.framesLostLink k l.lost).bump Dict.linkDownCount k
  let s := (lanesOf k).foldl (fun s n => s.mapLane n fun _ => {}) s
  let s := s.mapLink k fun l => { peer := l.peer, held := l.held }
  let s := s.report 0x06F81003 k
  if s.flag Dict.linkEnable k && s.flag Dict.autoRetrain k && !(s.link k).held then s.train k else s

/-- Has training failed (R390): a lane without a marker after 66 slips, a skew above 8, no HELLO in 1 ms? -/
def State.alignFailed (s : State) (k : Nat) : Bool :=
  let l := s.link k
  l.st == .training
    && (((lanesOf k).any fun n => decide (66 ≤ (s.lane n).slips) && !(s.lane n).marker) || decide (8 < l.deskew)
      || (l.helloSent && !l.helloSeen && decide (l.stepAt + 1000000 ≤ s.tb)))

/-- FAB_ALIGN_FAIL: the link returns to DOWN. -/
def State.alignFail (s : State) (k : Nat) : State :=
  if s.alignFailed k then
    let s := (lanesOf k).foldl (fun s n => s.mapLane n fun _ => {}) s
    (s.mapLink k fun l => { peer := l.peer, held := l.held }).report 0x06F81005 k
  else s

/-- A write of LINK_ENABLE (R390): 1 trains a DOWN link, a held one too; 0 lets a link go down (log 54). -/
def State.writeLinkEnable (s : State) (k v : Nat) : Word × State :=
  let s := s.setNum Dict.linkEnable v k
  if v = 1 then (0, if (s.link k).st = .down then s.train k else s)
  else match (s.link k).st with
    | .up => (0, s.linkDown k)
    | .training => (0, s.mapLink k fun l => { peer := l.peer })
    | .down => (0, s)

/-- The power of a lane group comes on: its links with LINK_ENABLE 1 that are DOWN and not held train (R390, R471). -/
def State.trainPowered (s : State) (pd : Nat) : State :=
  if pd = 56 ∨ pd = 57 then
    ((List.range 4).map (4 * (pd - 56) + ·)).foldl (fun s k =>
      if s.flag Dict.linkEnable k && (s.link k).st == .down && !(s.link k).held then s.train k else s) s
  else s

/-- Does the peer of a HELLO conflict (R391): this module's own address, or another address on an UP link for the same
module (log 55)? -/
def State.peerConflict (s : State) (k peer : Nat) : Bool :=
  s.isLocal peer || ((List.range 8).any fun j => j != k && s.linkUp j
    && (s.link j).peer / 256 % 128 == peer / 256 % 128 && (s.link j).peer != peer)

/-- A HELLO in training (R390, R391). -/
def State.hello (s : State) (k : Nat) (f : Frame) : State :=
  if (s.link k).st = .training then
    let s := s.mapLink k fun l => { l with peer := f.src, helloSeen := true }
    if s.peerConflict k f.src then
      let s := s.mapLink k fun l => { peer := l.peer, held := true }
      s.report 0x06F81004 k
    else s.mapLink k (·.greet s.tb)
  else s

/-! ### Sleep (R393, R394) -/

/-- Must a link stay awake: it carries Trump streams and the domain runs? -/
def State.noSleep (s : State) (k : Nat) : Bool := s.trumpRuns && inMap (s.nat Dict.fabTrumpLinks) k

/-- TX_SLEEP: a transmitter idle for SLEEP_IDLE sends SLEEP and powers down. -/
def State.txSleep (s : State) (k : Nat) : State :=
  let l := s.link k
  if l.st = .up && l.awake && l.txq.isEmpty && l.unacked.isEmpty && !l.ackOwed && s.flag Dict.txSleepEn k
      && !s.noSleep k && decide (l.sentAt + s.nat Dict.sleepIdle k * 1000 ≤ s.tb) then
    (s.transmit k (s.controlFrame 10 0)).mapLink k fun l => { l with txAsleep := true }
  else s

/-- TX_WAKE: something is queued for a sleeping transmitter. -/
def State.txWake (s : State) (k : Nat) : State :=
  let l := s.link k
  if l.txAsleep && (!l.txq.isEmpty || l.ackOwed) then
    s.mapLink k fun l => { l with txAsleep := false, waking := some s.tb }
  else s

/-- Send an ACK naming the last frame accepted. -/
def State.sendAck (s : State) (k : Nat) : State :=
  let l := s.link k
  if l.awake then
    (s.transmit k (s.controlFrame 8 (l.expect - 1).toNat)).mapLink k fun l => { l with ackOwed := false }
  else s.mapLink k fun l => { l with ackOwed := true }

/-- TX_WAKE_END: 10 us after the wake began, the last 8 of them with idle blocks and markers on the lanes, the owed ACK
goes, then what is queued. -/
def State.txWakeEnd (s : State) (k : Nat) : State :=
  match (s.link k).waking with
  | some t =>
    if t + 10000 ≤ s.tb then
      let s := (s.mapLink k fun l => { l with waking := none }).emit (.fabric k (idleLanes k))
      let s := if (s.link k).ackOwed then s.sendAck k else s
      s.drainLink k (s.link k).txq.length
    else s
  | none => s

/-- RX_WAKE: a sleeping receiver sees the far transmitter's signal. -/
def State.rxWakeUp (s : State) (k : Nat) : State := s.mapLink k fun l => { l with rxAsleep := false }

/-- A SLEEP frame (R393). -/
def State.sleep (s : State) (k : Nat) (_ : Frame) : State :=
  if s.flag Dict.rxSleepEn k && !s.noSleep k then s.mapLink k fun l => { l with rxAsleep := true } else s

/-! ### Acknowledgement and replay (R398, R399) -/

/-- Does frame number `a` not come after `n`, in 12-bit serial arithmetic? -/
def lseqUpTo (a n : BitVec 12) : Bool := decide ((n - a).toNat < 2048)

/-- Frames up to number `n` are acknowledged. -/
def State.released (s : State) (k : Nat) (n : BitVec 12) : State :=
  let l := s.link k
  let rest := l.unacked.filter fun f => !lseqUpTo f.lseq n
  if rest.length = l.unacked.length then s
  else s.mapLink k fun l => { l with unacked := rest, ackAt := s.tb, replays := 0 }

/-- Resend every unacknowledged frame; where that would come after REPLAY_LIMIT replays in a row with no ACK advancing,
the link goes DOWN instead. -/
def State.replay (s : State) (k : Nat) : State :=
  let l := s.link k
  if l.unacked.isEmpty then s
  else if s.nat Dict.replayLimit k ≤ l.replays then s.linkDown k
  else
    let s := (s.bump Dict.replayCount k).mapLink k fun l =>
      { l with replays := l.replays + 1, ackAt := s.tb, sentAt := s.tb }
    l.unacked.foldl (fun s f => s.emit (.fabric k f.blocks)) s

/-- An ACK frame: released frames make room for queued ones. -/
def State.ack (s : State) (k : Nat) (f : Frame) : State :=
  let s := s.released k (BitVec.ofNat 12 f.addr)
  s.drainLink k (s.link k).txq.length

/-- A NAK frame: what it names is acknowledged, all after it is sent again. -/
def State.nak (s : State) (k : Nat) (f : Frame) : State :=
  let s := (s.released k (BitVec.ofNat 12 f.addr)).replay k
  s.drainLink k (s.link k).txq.length

/-- REPLAY_TIMEOUT: no ACK has advanced for that long. -/
def State.replayTimeout (s : State) (k : Nat) : State :=
  let l := s.link k
  if l.st = .up && decide (l.ackAt + s.nat Dict.replayTimeout k * 1000 ≤ s.tb) then s.replay k else s

/-- LANE_LOCK_LOSS: 16 bad sync headers in 64 blocks; the link goes DOWN (R392). -/
def State.lockLoss (s : State) (n : Nat) : State :=
  if (s.lane n).block then
    let s := (s.bump Dict.syncErrorCount n 16).mapLane n fun l => { l with block := false, marker := false }
    if (s.link (n / 4)).st = .up then s.linkDown (n / 4) else s
  else s

/-! ### Receipt (R397, R398) -/

/-- Send a NAK naming the last frame accepted, at most one per 2 us. -/
def State.sendNak (s : State) (k : Nat) : State :=
  let l := s.link k
  if l.st == .up && (match l.nakAt with
      | some t => decide (t + 2000 ≤ s.tb)
      | none => true) then
    let s := s.mapLink k fun l => { l with nakAt := some s.tb }
    s.queueFrame k controlFrames (s.controlFrame 9 (l.expect - 1).toNat)
  else s

/-- A frame of kind `kind` arrives on a link: CRC and form, then, if sequenced, its number; `f` takes it. A powered-down
receiver takes nothing. -/
def State.frameIn (s : State) (k kind : Nat) (f : Frame) (take : State → State) : State :=
  let l := s.link k
  if l.rxAsleep || l.st == .down then s
  else if !f.crcOk then (s.bump Dict.crcErrorCount k).sendNak k
  else if fld f.hdr 255 252 ≠ 1 ∨ 12 ≤ f.kind ∨ 64 < fld f.hdr 227 221 then s.bump Dict.frameBadCount k
  else if f.kind ≠ kind then s
  else if !f.sequenced then take s
  else if l.st != .up then s
  else if f.lseq = l.expect then
    let s := s.mapLink k fun l => { l with expect := l.expect + 1 }
    take (s.sendAck k)
  else if (f.lseq - l.expect).toNat < 2048 then s.sendNak k
  else s.sendAck k

/-! ### Transactions at the target (R402, R405, R406) -/

/-- The check of a TILE_HEAD that fails, and what counts it (R17, R22, R39, R42, R405). -/
def State.headRefusal (s : State) (sid : Nat) (d : Desc) : Option Word × State :=
  if !s.exists' sid then (some (withSrc 0x03000205 sid), s)
  else if !descCrcOk d then (some (withSrc 0x03000203 sid), s.bump Dict.descCheckCount sid)
  else if fld d 511 508 ≠ 1 then (some (withSrc 0x03000202 sid), s)
  else if BitVec.ofNat 16 (fld d 463 448) ≠ (s.station sid).epoch then
    (some (withSrc 0x03000201 sid), s.bump Dict.roleChangedCount sid)
  else (none, s)

/-- A TILE_HEAD for this module. -/
def State.tileHead (s : State) (f : Frame) : State :=
  let d : Desc := bytesWord 512 (f.payload.take 64)
  match s.headRefusal (f.dst % 256) d with
  | (some w, s) => (s.keepLanding f.key { desc := none }).answerFrame f 7 w (f.payload.take 64)
  | (none, s) =>
    if f.last then s.landTile f d (f.payload.drop 64) else s.keepLanding f.key { desc := some d, data := f.payload.drop 64 }

/-- A byte list with `p` at offset `o`; what is missing before it reads zero. -/
def putAt (l : List Byte) (o : Nat) (p : List Byte) : List Byte :=
  l.take o ++ List.replicate (o - l.length) 0 ++ p ++ l.drop (o + p.length)

/-- A TILE_DATA for this module. -/
def State.tileData (s : State) (f : Frame) : State :=
  match s.fab.landing.look f.key with
  | some x =>
    let x := { x with data := putAt x.data f.addr f.payload }
    match x.desc with
    | some d =>
      if f.last then s.landTile f d x.data
      else s.keepLanding f.key x
    | none => if f.last then { s with fab := { s.fab with landing := s.fab.landing.del f.key } } else s
  | none => s.discard Dict.discardTiles

/-- The landing engine (R406). -/
def State.landEngine (s : State) : Nat := 0x60 + s.nat Dict.fabLandDma % 8

/-- The landing engine writes: the status it meets, and the state (R127, R129, R156). A write issued before the
power-down of its group lands while the group still waits for it, and is a POISON_DROP after; where what is `old` is not
told, a write counts as old while a group that powers down waits for one (log 104). -/
def State.landWrite (s : State) (a : Nat) (l : List Byte) (old : Bool) : Word × State :=
  let e := s.landEngine
  let st := (s.rangeStatus e true a l.length).getD 0
  match placeOf a with
  | .group g =>
    if s.tooLate g old then
      let w := withSrc 0x05000401 e
      (w, (s.dropLate g).toErr e w)
    else if (s.group g).st == .poweringDown && decide (0 < (s.group g).inflight) && st == withSrc 0x05000404 e then
      (0, (s.rawWrite a l).mapGroup g fun x => { x with inflight := x.inflight - 1 })
    else (st, s.memWrite e a l)
  | _ => (st, s.memWrite e a l)

/-- A WRITE for this module. -/
def State.fabWrite (s : State) (f : Frame) (old : Bool) : State :=
  let (w, s) := s.landWrite f.addr f.payload old
  let was := s.fab.served.val {} f.key
  let st := if was.status = 0 then w else was.status
  if f.last then ({ s with fab := { s.fab with served := s.fab.served.del f.key } } : State).answerFrame f 5 st []
  else { s with fab := { s.fab with served := s.fab.served.put {} f.key { status := st } } }

/-- One piece of a READ_REQ's data, `n` bytes: what is read, and the status it meets. -/
def State.landPiece (s : State) (a n : Nat) : List Byte × Word × State :=
  let e := s.landEngine
  let w := (s.rangeStatus e false a n).getD (if s.poisonedRange a n then withSrc 0x05000502 e else 0)
  let (l, _, s) := s.memRead e a n
  (l, w, s)

/-- The pieces a READ_REQ is answered in: offset and length, `m` bytes at most each. -/
def readPieces (total m : Nat) : List (Nat × Nat) :=
  (List.range ((total + m - 1) / m)).map fun i => (i * m, min m (total - i * m))

/-- A READ_REQ for this module (R406): READ_RESP frames, data that fails as zeros, the LAST with the first status. -/
def State.fabRead (s : State) (f : Frame) : State :=
  let ps := readPieces (32 * (f.rlen + 1)) (s.frameMax f.src)
  (ps.zipIdx.foldl (fun (acc : Word × State) p =>
    let (l, w, s) := acc.2.landPiece (f.addr + p.1.1) p.1.2
    let st := if acc.1 = 0 then w else acc.1
    let last := p.2 + 1 == ps.length
    (st, (s.sendFrame (mkFrame 4 f.tc last f.src f.dst f.txn f.epoch (s.nat Dict.fabTtl) p.1.1 0
      (if last then st else 0) l)).2)) (0, s)).2

/-! ### Transactions at the issuer (R402, R404, R407 to R409) -/

/-- The transaction a reply belongs to: the tag is held with the reuse count the frame carries. -/
def State.transOf (s : State) (f : Frame) : Option Trans :=
  match s.fab.trans.look (f.txn % 4096) with
  | some x => if x.reuse % 16 = f.txn / 4096 then some x else none
  | none => none

/-- A frame for a fenced transaction (R409). -/
def State.fencedFrame (s : State) : State := (s.discard Dict.discardFabric).bump Dict.fabDiscardFrames

/-- A job that no longer holds a tag is not pinned: the scheduler tries again (R360, R361). -/
def State.unpin (s : State) (job : Nat) : State := if job != 0 && !s.pinned job then s.schedule else s

/-- The data of a read has landed: a compressed tile is expanded there, or a tile compressed (R122). -/
def State.recodeLanded (s : State) (x : Trans) : State :=
  if x.expand.isNone && x.compress.isNone then s
  else
    let d : DmaDesc := { src := 0, dst := 0, len := 0, expand := x.expand, compress := x.compress }
    let (l, _, s) := s.memRead x.station x.land x.len
    (s.memWrite x.station x.land (d.recode l)).poisonStep x.station d.mismatch

/-- A READ_RESP: its bytes land, the last one ends the read (R402, R407). -/
def State.readResp (s : State) (f : Frame) : State :=
  match s.transOf f with
  | none => s.fencedFrame
  | some x =>
    if x.kind != .read then s.fencedFrame
    else if BitVec.ofNat 16 f.epoch ≠ (s.station x.station).epoch then s.discard Dict.discardFabric
    else
      let l := f.payload.take (x.len - f.addr)
      let s := (s.landWrite (x.land + f.addr) l false).2
      let x := { x with got := max x.got (f.addr + l.length) }
      let s := { s with fab := { s.fab with trans := s.fab.trans.ins (f.txn % 4096) x } }
      if f.last then
        let s := s.endTrans (f.txn % 4096)
        let s := if f.status = 0 then s else (s.toErr x.station f.status).poisonStep x.station true
        (s.recodeLanded x).unpin x.job
      else s

/-- A tile under way counts no longer as unaccepted (R29 FENCE). -/
def State.tileGone (s : State) (x : Trans) : State :=
  if x.kind = .tile then s.mapStream x.stream fun y => { y with unacc := y.unacc - 1 } else s

/-- A status for the issuer of a transaction: to its error queue, or, where it is gone or has changed epoch, to the discard
pile (R43). -/
def State.toIssuer (s : State) (x : Trans) (w : Word) : State :=
  if s.exists' x.station && (s.station x.station).epoch == x.epoch then s.toErr x.station w
  else s.discard Dict.discardReturns

/-- A COMPLETE: the tile transfer or write ends; a status goes to the issuing station. -/
def State.completed (s : State) (f : Frame) : State :=
  match s.transOf f with
  | none => s.fencedFrame
  | some x =>
    if x.kind = .read then s.fencedFrame
    else
      let s := (s.endTrans (f.txn % 4096)).tileGone x
      let s := if f.status = 0 then s else s.toIssuer x f.status
      s.unpin x.job

/-- A RETURN: the tile transfer ends, its status in the producer's error queue (R405). -/
def State.fabReturn (s : State) (f : Frame) : State :=
  match s.transOf f with
  | none => s.fencedFrame
  | some x =>
    if x.kind != .tile then s.fencedFrame
    else
      let s := ((s.endTrans (f.txn % 4096)).tileGone x).toIssuer x f.status
      s.unpin x.job

/-- A CREDIT: the producer's credits are what X and the credits sent leave (R404). -/
def State.creditIn (s : State) (f : Frame) : State :=
  let i := f.addr / 4294967296 % 65536
  let x : Word := BitVec.ofNat 32 f.addr
  let s := s.mapFlow i fun y => { y with x := x, credits := f.rlen }
  s.mapStream i fun y => { y with credits := f.rlen - (y.next - x).toNat }

/-- Fence a transaction (R408): missing bytes of a read land as zeros (log 56). -/
def State.fence1 (s : State) (tag : Nat) (x : Trans) : State :=
  let s := s.endTrans tag
  let s := { s with fab := { s.fab with reuse := s.fab.reuse.put 0 tag ((x.reuse + 1) % 16) } }
  let s := ((s.bump Dict.fabTimeoutCount).toErr x.station (withSrc 0x05001001 x.station)).tileGone x
  if x.kind = .read then
    ((s.landWrite (x.land + x.got) (List.replicate (x.len - x.got) 0) false).2).poisonStep x.station true
  else s

/-- FAB_TIMEOUT: a transaction has not ended in time; a deferred pre-emption proceeds, and its job is told (R364). -/
def State.fabTimeout (s : State) (tag : Nat) : State :=
  match s.fab.trans.look tag with
  | some x =>
    if x.start + s.nat Dict.fabTimeout * 1000 ≤ s.tb then
      let s' := s.fence1 tag x
      let s' := if x.kind = .read && s.sched.switching.isSome && s.sched.owner.contains x.job then
          s'.jobReport x.job 0x06700E08
        else s'
      s'.unpin x.job
    else s
  | none => s

/-! ### Routing what arrives (R401) -/

/-- Forward a frame that came from `src`: TTL 0 is dropped, else it goes on with one hop less. -/
def State.forward (s : State) (f : Frame) (src : Nat) : State :=
  if f.ttl = 0 then (s.discard Dict.discardFabric).bump Dict.fabTtlDrop
  else (s.sendFrame (Frame.seal { f with hdr := setFld f.hdr 135 128 (f.ttl - 1) }) src).2

/-- Take a frame from `src` that names this module, or forward it. -/
def State.routed (s : State) (f : Frame) (src : Nat) (take : State → State) : State :=
  let s := s.creditOwed
  if s.isLocal f.dst then take s else s.forward f src

/-- Take a frame of this module by its kind; `old` as for a WRITE. -/
def State.takeKind (s : State) (f : Frame) (old : Bool) : State :=
  match f.kind with
  | 0 => s.tileHead f
  | 1 => s.tileData f
  | 2 => s.fabWrite f old
  | 3 => s.fabRead f
  | 4 => s.readResp f
  | 5 => s.completed f
  | 6 => s.creditIn f
  | 7 => s.fabReturn f
  | _ => s

/-- Is a datagram's BSEQ newer than the last of its source domain (R410)? -/
def State.bseqNewer (s : State) (dom : Nat) (n : Word) : Bool :=
  match s.fab.bseqIn.look dom with
  | some m => newer n m
  | none => true

/-- BRIDGE_DATAGRAM: a bridged frame is checked and routed (R410). -/
def State.bridgeIn (s : State) (h : BitVec 64) (f : Frame) : State :=
  let dom := fld h 59 53
  let n : Word := BitVec.ofNat 32 (fld h 31 0)
  if !s.isBridge then s
  else if fld h 63 60 ≠ 1 ∨ !s.bseqNewer dom n then s.bump Dict.bridgeDrop
  else
    let s := { s with fab := { s.fab with bseqIn := s.fab.bseqIn.ins dom n } }
    if !f.crcOk || fld f.hdr 255 252 != 1 || decide (8 ≤ f.kind) || decide (64 < fld f.hdr 227 221) then s
    else s.routed f ownFrames fun s => s.takeKind f false

/-! ### DMA transfers (R119, R122, R145, R146, R402) -/

/-- A read from another module in pieces of up to 64 KiB, each with its own tag while tags last (R396, R402). -/
def State.remoteRead (s : State) (sid dst : Nat) (d : DmaDesc) : State :=
  (readPieces d.len 65536).foldl (fun s p =>
    if s.mayIssue sid then
      let whole := decide (d.len ≤ 65536)
      let x : Trans :=
        { kind := .read, reuse := 0, station := sid, land := d.dst + p.1, len := p.2
          expand := if whole then d.expand else none
          compress := if whole then d.compress else none }
      let r := s.beginTrans x
      let q := r.2.sendAll sid (r.1 % 4096)
        [mkFrame 3 false false dst (s.addrOf sid) r.1 (s.station sid).epoch.toNat (s.nat Dict.fabTtl) (d.src + p.1)
          ((p.2 + 31) / 32 - 1) 0 []]
      if q.1 then q.2 else (q.2.landWrite (d.dst + p.1) (List.replicate p.2 0) false).2.poisonStep sid true
    else s.capStall sid) s

/-- A write to another module: up to 2,048 WRITE frames a transaction (R402). -/
def State.remoteWrite (s : State) (sid dst : Nat) (d : DmaDesc) : State :=
  let (l, bad, s) := s.dmaRead sid d
  let m := s.frameMax dst
  let s := s.poisonStep sid bad
  (readPieces l.length (2048 * m)).foldl (fun s p =>
    if s.mayIssue sid then
      let r := s.beginTrans { kind := .write, reuse := 0, station := sid }
      let ps := pieces m (d.dst + p.1) ((l.drop p.1).take p.2) 2048
      (r.2.sendAll sid (r.1 % 4096) (ps.zipIdx.map fun q =>
        mkFrame 2 false (q.2 + 1 == ps.length) dst (s.addrOf sid) r.1 (s.station sid).epoch.toNat (s.nat Dict.fabTtl)
          q.1.1 0 0 q.1.2)).2
    else s.capStall sid) s

/-- DMA_TRANSFER: a DMA engine that is not OFF or in FAULT executes a descriptor. Trump-domain engines read and write
within the module only (R402). -/
def State.dmaTransfer (s : State) (sid : Nat) (d : DmaDesc) : State :=
  let seq := (s.station sid).seq
  if kindOf sid != .dma || seq == .off || seq == .fault then s
  else match d.refusal sid with
    | some w => s.toErr sid w
    | none =>
      if s.dmaWaits d then s
      else if d.needsTag && !s.mayIssue sid then s.capStall sid
      else
      let s := s.dmaDeclare sid d
      match d.remoteSrc, d.remoteDst with
      | some a, _ => if s.isTrump sid then s else s.remoteRead sid a d
      | none, some a => if s.isTrump sid then s else s.remoteWrite sid a d
      | none, none => s.dmaLocal sid d

end Sys2Proof.Machine
end

