-- ==== Sys2Proof/Machine/TimeOps.lean ====
section
/-! DEFINITION. Device time: the servo, steps, the override, masters (R446 to R453). -/

namespace Sys2Proof.Machine

/-! ### Applying a step (R449, R451, R452) -/

/-- Change the clock. -/
def State.mapClk (s : State) (f : Clock → Clock) : State := { s with clk := f s.clk }

/-- Add a step to a time held in device ns. -/
def shiftNat (d : Int) (t : Nat) : Nat := (t + d).toNat

/-- The edge times held move with an applied step (R449). -/
def Encoder.shift (d : Int) (e : Encoder) : Encoder :=
  { e with
    ring := e.ring.map fun k => { k with time := k.time + d }
    ssiTime := e.ssiTime + d
    frameAt := e.frameAt.map (· + d) }

/-- Committed latches stand on the time base (R234, R449): their device times move with a step. -/
def VString.shift (d : Int) (x : VString) : VString :=
  { x with
    lastLatch := x.lastLatch.map (shiftNat d)
    committed := x.committed.map fun l => { l with dev := shiftNat d l.dev }
    zero := x.zero.map fun l => { l with dev := shiftNat d l.dev }
    since := x.since.map fun p => (p.1, shiftNat d p.2) }

/-- The times at which a window's parts opened move with a step (R449). -/
def Window.shift (d : Int) (w : Window) : Window :=
  { w with parts := w.parts.map fun p => match p.st with
    | .held t => { p with st := .held (shiftNat d t) }
    | _ => p }

/-- Is the override armed now (R452)? -/
def State.armed (s : State) : Bool :=
  match s.clk.armedAt with
  | some t => decide (s.tb < t + s.nat Dict.overrideWindow * nsPerS)
  | none => false

/-- Is a step allowed (R451)? -/
def State.stepAllowed (s : State) (d : Int) : Bool :=
  s.armed || (s.trump.st != .running && (decide (d.natAbs ≤ s.nat Dict.stepLimit) || s.clk.st == .unset))

/-- Apply a step of `d` ns: device time, the edge bases, the records; the override clears and TIME_STATE is FREE. -/
def State.applyStep (s : State) (d : Int) : State :=
  let span : Int := 281474976710656 * nsPerS * fracNs
  let s := s.mapClk fun c => { c with
    dev := ((c.dev + d * fracNs) % span).toNat, st := .free, small := 0, refused := [], armedAt := none }
  let s := { s with
    enc := s.enc.mapVal {} (Encoder.shift d)
    dealer := { s.dealer with
      strings := s.dealer.strings.mapVal {} (VString.shift d)
      slots := s.dealer.slots.map fun (p : Nat × Window) => (p.1, p.2.shift d)
      closing := s.dealer.closing.map (Window.shift d) } }
  (s.bump Dict.stepCount).report 0x06B01202 255 (leBytes 8 (wrap 64 d))

/-- Report a refused step (R451). -/
def State.reportRefused (s : State) (d : Int) : State := s.report 0x06B01201 255 (leBytes 8 (wrap 64 d))

/-- Enter HOLDOVER: INCREMENT is held at its last locked value (R448). -/
def State.holdover (s : State) : State :=
  if s.clk.st = .free ∨ s.clk.st = .locked then
    s.mapClk fun c => { c with st := .holdover, inc := c.lockedInc, small := 0 }
  else s

/-- A step the servo requests (R451). -/
def State.servoStep (s : State) (d : Int) : State :=
  if s.stepAllowed d then s.applyStep d
  else
    let gm := s.blob Dict.gmIdentity
    let s := s.bump Dict.stepRefusedCount
    let s := if s.clk.refused.contains gm then s
      else (s.mapClk fun c => { c with refused := gm :: c.refused }).reportRefused d
    s.holdover

/-! ### The servo (R447, R448, R450) -/

/-- An INCREMENT within the range of R447 that the servo chooses: which one is left open (log 57). -/
def State.chooseIncrement (s : State) : State :=
  let (b, s) := s.draw 32
  let v := max 0x0FFBE76D (min 0x10041893 b.toNat)
  s.mapClk fun c => { c with inc := v, lockedInc := if c.st = .locked then v else c.lockedInc }

/-- Slew: INCREMENT changes; 16 offsets below 1 us in a row lock a FREE clock. -/
def State.slew (s : State) (o : Int) : State :=
  let s := s.mapClk fun c => { c with small := if o.natAbs < 1000 then c.small + 1 else 0 }
  let s := if s.clk.st = .free ∧ 16 ≤ s.clk.small then s.mapClk fun c => { c with st := .locked } else s
  s.chooseIncrement

/-- Act on an offset by the first row that applies (R450). HOLDOVER is left once it lies within STEP_LIMIT (R451). -/
def State.servo (s : State) (o : Int) : State :=
  if s.clk.st = .unset then s.servoStep (-o)
  else if s.nat Dict.stepLimit < o.natAbs then s.servoStep (-o)
  else
    let s := if s.clk.st = .holdover then s.mapClk fun c => { c with st := .free } else s
    if s.trump.st != .running && decide (100000 < o.natAbs) then s.servoStep (-o) else s.slew o

/-- Half of a number of ns; which neighbour an odd one gives is left open (log 58). -/
def State.half (s : State) (n : Int) : Int × State :=
  if n % 2 = 0 then (n / 2, s) else let (b, s) := s.draw 1; (n / 2 + b.toNat, s)

/-- Does the servo take messages of a port? -/
def State.ptpPort (s : State) (port : Nat) : Bool := s.flag Dict.ptpEnable && inMap (s.nat Dict.ptpPorts) port

/-- PTP_DELAY_RESP: the offset and the mean path delay, then the servo. -/
def State.delayResp (s : State) (port : Nat) (t1 t2 t3 t4 : Int) : State :=
  if s.ptpPort port then
    let (o, s) := s.half ((t2 - t1) - (t4 - t3))
    let (m, s) := s.half ((t2 - t1) + (t4 - t3))
    ((s.setNum Dict.offset o).setNum Dict.meanPathDelay (m % 4294967296)).servo o
  else s

/-- PTP_ENABLE written 0 (R448): no master is followed any more. -/
def State.ptpOff (s : State) : State :=
  let s := s.mapClk fun c => { c with master := none, masters := [] }
  if s.clk.st = .unset then s else s.mapClk fun c => { c with st := .free, small := 0 }

/-! ### Masters (R450, R453) -/

/-- The order of two masters by the data sets of IEEE 1588 (log 59): is `a` the better? -/
def Announce.better (a b : Announce) : Bool :=
  let key (x : Announce) : List Nat :=
    [x.priority1, x.cls, x.accuracy, x.variance, x.priority2] ++ x.identity.map (·.toNat) ++ [x.steps]
  decide (key a < key b)

/-- The best of the masters heard. -/
def bestMaster : List (Announce × Nat) → Option Announce
  | [] => none
  | (a, _) :: r =>
    match bestMaster r with
    | some b => if b.better a then some b else some a
    | none => some a

/-- Follow the best master heard; another identity is reported and written (R453). -/
def State.chooseMaster (s : State) : State :=
  match bestMaster s.clk.masters with
  | some m =>
    let s := s.mapClk fun c => { c with master := some m }
    if m.identity = s.blob Dict.gmIdentity then s
    else (s.setBlob Dict.gmIdentity 0 0 m.identity).report 0x06B01204 255 m.identity
  | none => s

/-- PTP_ANNOUNCE: masters not heard for three intervals are forgotten, the best one is chosen. -/
def State.announce (s : State) (port : Nat) (a : Announce) : State :=
  if s.ptpPort port then
    let kept := s.clk.masters.filter fun m =>
      m.1.identity != a.identity && decide (s.tb < m.2 + 3 * m.1.intervalNs)
    (s.mapClk fun c => { c with masters := (a, s.tb) :: kept }).chooseMaster
  else s

/-- Has the master followed not been heard for three announce intervals? -/
def State.masterSilent (s : State) : Bool :=
  match s.clk.master with
  | some m => s.clk.masters.all fun x => x.1.identity != m.identity || decide (x.2 + 3 * m.intervalNs ≤ s.tb)
  | none => false

/-- PTP_MASTER_LOST: HOLDOVER, and the best of those still heard is chosen. -/
def State.masterLost (s : State) : State :=
  if s.flag Dict.ptpEnable && s.masterSilent then
    let s := (s.holdover.mapClk fun c => { c with
      master := none
      masters := c.masters.filter fun x => decide (s.tb < x.2 + 3 * x.1.intervalNs) }).report 0x06B01203
    s.chooseMaster
  else s

/-! ### TIME_SET and the override (R451, R452) -/

/-- A write of TIME_SET. -/
def State.writeTime (s : State) (sec ns : Nat) : Word × State :=
  if s.flag Dict.ptpEnable then (abAccess, s)
  else if nsPerS ≤ ns then (abRange, s)
  else
    let d : Int := (sec * nsPerS + ns : Nat) - (s.devNs : Int)
    if s.stepAllowed d then (0, s.applyStep d)
    else (abAccess, (s.bump Dict.stepRefusedCount).reportRefused d)

/-- A write of STEP_OVERRIDE. -/
def State.writeOverride (s : State) (v : Nat) : Word × State :=
  if v = 1 then (0, s.mapClk fun c => { c with armedAt := some s.tb })
  else if v = 0 then (0, s) else (abRange, s)

/-- OVERRIDE_EXPIRY. -/
def State.overrideEnds (s : State) : State :=
  match s.clk.armedAt with
  | some t =>
    if t + s.nat Dict.overrideWindow * nsPerS ≤ s.tb then s.mapClk fun c => { c with armedAt := none } else s
  | none => s

end Sys2Proof.Machine
end

