-- ==== Sys2Proof/Machine/NetOps.lean ====
section
/-! DEFINITION. The Ethernet switch, its transparent clock, and what the internal port answers (R440 to R445). -/

namespace Sys2Proof.Machine

/-! ### Reading a frame -/

/-- The bytes of a number, the most significant first. -/
def beBytes (n v : Nat) : List Byte := (leBytes n v).reverse

/-- `n` bytes of a frame from `o` on. -/
def slice (l : List Byte) (o n : Nat) : List Byte := (l.drop o).take n

/-- A big-endian field of a frame. -/
def fieldAt (l : List Byte) (o n : Nat) : Nat := beNat (slice l o n)

/-- Replace `p.length` bytes at offset `o`. -/
def setAt (l : List Byte) (o : Nat) (p : List Byte) : List Byte := l.take o ++ p ++ l.drop (o + p.length)

/-- Is the frame tagged (IEEE 802.1Q)? -/
def frameTagged (l : List Byte) : Bool := fieldAt l 12 2 == 0x8100

/-- Where the EtherType's payload begins. -/
def frameHead (l : List Byte) : Nat := if frameTagged l then 18 else 14

/-- The EtherType. -/
def frameType (l : List Byte) : Nat := fieldAt l (frameHead l - 2) 2

/-- Destination and source address. -/
def frameDst (l : List Byte) : Nat := fieldAt l 0 6
/-- Source address. -/
def frameSrc (l : List Byte) : Nat := fieldAt l 6 6

/-- Is the destination a group address? -/
def isGroup (mac : Nat) : Bool := (mac / 1099511627776).testBit 0

/-- The broadcast address. -/
def macAll : Nat := 0xFFFFFFFFFFFF

/-- Bytes of the IPv4 header. -/
def ipHeader (l : List Byte) : Nat := 4 * (fieldAt l (frameHead l) 1 % 16)

/-- Where a UDP datagram's header begins; none where the frame holds none. -/
def udpAt (l : List Byte) : Option Nat :=
  if frameType l = 0x0800 ∧ fieldAt l (frameHead l + 9) 1 = 17 then some (frameHead l + ipHeader l) else none

/-! ### The transparent clock (R443, R444) -/

/-- Where a PTP event message begins (UDP port 319, or EtherType 0x88F7), and where its UDP header, if any: Sync,
Delay_Req, Pdelay_Req, Pdelay_Resp. -/
def ptpEvent (l : List Byte) : Option (Nat × Option Nat) :=
  let at_ (o : Nat) (u : Option Nat) := if fieldAt l o 1 % 16 < 4 then some (o, u) else none
  if frameType l = 0x88F7 then at_ (frameHead l) none
  else match udpAt l with
    | some u => if fieldAt l (u + 2) 2 = 319 then at_ (u + 8) (some u) else none
    | none => none

/-- The ones' complement sum of 16-bit words. -/
def onesSum (ws : List Nat) : Nat := ws.foldl (fun a w => let t := a + w; if 65535 < t then t - 65535 else t) 0

/-- A checksum after words change from `old` to `new` (RFC 1624). -/
def checksumUpdate (c : Nat) (old new : List Nat) : Nat :=
  65535 - onesSum ((65535 - c) :: old.map (65535 - ·) ++ new)

/-- The 16-bit words of 8 bytes. -/
def words4 (l : List Byte) : List Nat := (List.range 4).map fun i => fieldAt l (2 * i) 2

/-- Add a residence in ns to the correctionField of the message at `o`; a non-zero UDP checksum follows. -/
def correctFrame (l : List Byte) (o : Nat) (u : Option Nat) (ns : Int) : List Byte :=
  let old := slice l (o + 8) 8
  let new := beBytes 8 (wrap 64 ((beNat old : Int) + ns * 65536))
  let l := setAt l (o + 8) new
  match u with
  | some u =>
    let c := fieldAt l (u + 6) 2
    if c = 0 then l else 
      let c := checksumUpdate c (words4 old) (words4 new)
      setAt l (u + 6) (beBytes 2 (if c = 0 then 65535 else c))
  | none => l

/-- Correct a forwarded event message and count it (R443, R444). -/
def State.correct (s : State) (inp out : Nat) (l : List Byte) (residence : Nat) : List Byte × State :=
  match ptpEvent l with
  | some (o, u) =>
    let r : Int := residence - s.nat Dict.ethRxDelay inp - s.nat Dict.ethTxDelay out
    let s := s.bump Dict.tcCorrectedCount
    let s := if (s.nat Dict.tcMaxResidence : Int) < r then s.setNum Dict.tcMaxResidence r else s
    (correctFrame l o u r, s)
  | none => (l, s)

/-! ### The internal port (R441, R442) -/

/-- MAC_ADDRESS as a number. -/
def State.myMac (s : State) : Nat := beNat (s.blob Dict.macAddress)

/-- The listed multicast groups. -/
def State.mcastGroups (s : State) : List Nat :=
  let b := s.blob Dict.mcastGroups
  (List.range (b.length / 4)).map fun i => leNat (slice b (4 * i) 4)

/-- The group address of an IPv4 group. -/
def groupMac (g : Nat) : Nat := 0x01005E000000 + g % 8388608

/-- Does the frame's destination reach the internal port? -/
def State.toInternal (s : State) (l : List Byte) : Bool :=
  let d := frameDst l
  !frameTagged l && (d == s.myMac || d == macAll || (isGroup d && (if frameType l = 0x0800 then
      s.mcastGroups.contains (fieldAt l 30 4) else s.mcastGroups.any fun g => groupMac g == d)))

/-- Send a frame on a port whose link is up. -/
def State.ethSend (s : State) (port : Nat) (l : List Byte) : State :=
  if s.flag Dict.ethLink port then (s.emit (.eth port l)).bump Dict.txFrames port else s

/-- The answer to an ARP request for this module's address. -/
def State.arpReply (s : State) (l : List Byte) : Option (List Byte) :=
  if frameType l = 0x0806 ∧ fieldAt l 20 2 = 1 ∧ fieldAt l 38 4 = s.nat Dict.ipv4Address then
    some (slice l 6 6 ++ beBytes 6 s.myMac ++ slice l 12 8 ++ beBytes 2 2 ++ beBytes 6 s.myMac
      ++ beBytes 4 (s.nat Dict.ipv4Address) ++ slice l 22 10 ++ List.replicate 18 0)
  else none

/-- The answer to an ICMP echo request. -/
def State.echoReply (s : State) (l : List Byte) : Option (List Byte) :=
  let o := 14 + ipHeader l
  if frameType l = 0x0800 ∧ fieldAt l 23 1 = 1 ∧ fieldAt l 30 4 = s.nat Dict.ipv4Address ∧ fieldAt l o 2 = 0x0800 then
    let c := checksumUpdate (fieldAt l (o + 2) 2) [0x0800] [0]
    let l' := setAt (setAt (setAt (setAt l 26 (slice l 30 4)) 30 (slice l 26 4)) o [0, 0]) (o + 2) (beBytes 2 c)
    some (setAt (setAt l' 0 (slice l 6 6)) 6 (beBytes 6 s.myMac))
  else none

/-- The UDP ports the module serves: FDP, the bridge, PTP and those of the enabled video streams (R442). -/
def State.portServed (s : State) (port : Nat) : Bool :=
  [47810, 47812, 319, 320].contains port ||
    (List.range 64).any fun k => s.flag Dict.vstreamEnable k && s.nat Dict.udpPort k == port

/-- Does the module take a frame at all? A datagram of any other port or protocol is dropped without an answer (R442);
ARP, ICMP, IGMP and PTP over Ethernet are taken, a frame of another EtherType is not. -/
def State.serves (s : State) (l : List Byte) : Bool :=
  match udpAt l with
  | some u => s.portServed (fieldAt l (u + 2) 2)
  | none =>
    if frameType l = 0x0800 then [1, 2].contains (fieldAt l (frameHead l + 9) 1)
    else [0x0806, 0x88F7].contains (frameType l)

/-- A frame at the internal port: RX_LIMIT frames in a second at most (R441); ARP and ICMP echo are answered, what is
not served is dropped (R442). -/
def State.internal (s : State) (port : Nat) (l : List Byte) : State :=
  let sec := s.tb / nsPerS
  let n := if s.net.second = sec then s.net.count else 0
  if s.nat Dict.rxLimit ≤ n then
    (s.bump Dict.rxLimitDrops).reportEvery (60 * nsPerS) 0x06B01206
  else
    let s := { s with net := { s.net with second := sec, count := n + 1 } }
    let s := if s.serves l then s.emit (.eth 2 l) else s
    match s.arpReply l with
    | some r => s.ethSend port r
    | none => match s.echoReply l with
      | some r => s.ethSend port r
      | none => s

/-! ### The switch (R440, R441) -/

/-- Learn a source address: 1,024 entries, old ones forgotten. -/
def State.learn (s : State) (port : Nat) (l : List Byte) : State :=
  let keep := s.net.macs.filter fun m => decide (s.tb < m.2.2 + s.nat Dict.macTableAge * nsPerS)
  let src := frameSrc l
  if isGroup src || (decide (1024 ≤ keep.length) && (Tab.look keep src).isNone) then
    { s with net := { s.net with macs := keep } }
  else { s with net := { s.net with macs := Tab.ins keep src (port, s.tb) } }

/-- Does a frame go out of the other external port: a known station there, an unknown one, or a group? -/
def State.toOther (s : State) (port : Nat) (l : List Byte) : Bool :=
  let d := frameDst l
  if d = s.myMac then false
  else if isGroup d then true
  else match s.net.macs.look d with
    | some m => m.1 != port
    | none => true

/-- ETH_FRAME. -/
def State.ethFrame (s : State) (port : Nat) (l : List Byte) (fcsOk : Bool) (residence : Nat) : State :=
  if s.num Dict.ethMode port = 0 ∨ !s.flag Dict.ethLink port then s
  else if !fcsOk || decide (1518 < l.length) then s.bump Dict.rxErrors port
  else
    let s := (s.bump Dict.rxFrames port).learn port l
    let out := 1 - port
    let s := if s.toOther port l && s.num Dict.ethMode out != 0 then
        let (l', s) := if s.flag Dict.ethLink out then s.correct port out l residence else (l, s)
        s.ethSend out l'
      else s
    if s.toInternal l then s.internal port l else s

/-- Join the listed groups on a port (R441). -/
def State.joinGroups (s : State) (port : Nat) : State :=
  if s.num Dict.ethMode port != 0 && s.flag Dict.ethLink port then
    s.mcastGroups.foldl (fun s g => s.emit (.igmp port g)) s
  else s

/-- ETH_LINK_UP. -/
def State.ethUp (s : State) (port : Nat) : State :=
  if s.num Dict.ethMode port = 0 ∨ s.flag Dict.ethLink port then s else (s.setNum Dict.ethLink 1 port).joinGroups port

/-- ETH_LINK_DOWN (R455). -/
def State.ethDown (s : State) (port : Nat) : State :=
  if s.flag Dict.ethLink port then
    ((s.setNum Dict.ethLink 0 port).bump Dict.ethLinkDownCount port).report 0x06B01205 port
  else s

end Sys2Proof.Machine
end

