-- ==== Sys2Proof/Machine/DictRead.lean ====
section
/-! DEFINITION. What a read of a dictionary entry returns (R413 to R416, R419, R560): stored values, and values that the
entries' chapters take from the state. -/

namespace Sys2Proof.Machine

/-! ### Requesters and selectors (R415, R416) -/

/-- Who makes a request: its role, and 0 for the I3C target, else the number of the FDP session. -/
structure By where
  role : Role
  who : Nat
deriving DecidableEq, Repr

/-- The selector entry of a kind of unit. -/
def Sel.ent : Sel → Option Ent
  | .none => Option.none
  | .station => some Dict.stationSelect
  | .array => some Dict.arraySelect
  | .bank => some Dict.bankSelect
  | .group => some Dict.groupSelect
  | .channel => some Dict.channelSelect
  | .port => some Dict.portSelect
  | .track => some Dict.trackSelect
  | .string => some Dict.stringSelect
  | .encoder => some Dict.encSelect
  | .input => some Dict.diSelect
  | .output => some Dict.doSelect
  | .vstream => some Dict.vstreamSelect
  | .template => some Dict.templateSelect
  | .job => some Dict.jobSelect
  | .queue => some Dict.queueSelect
  | .link => some Dict.linkSelect
  | .lane => some Dict.laneSelect
  | .eth => some Dict.ethSelect
  | .cout => some Dict.coutSelect
  | .island => some Dict.islandSelect
  | .block => some Dict.blockSelect
  | .sensor => some Dict.sensorSelect

/-- The selectors of a requester. -/
def State.selectors (s : State) (who : Nat) : Tab Int :=
  if who = 0 then s.host.i3c.selectors else (s.host.sessions.look who).elim [] (·.selectors)

/-- A requester's own copy of a selector (R416). -/
def State.selected (s : State) (who : Nat) (e : Ent) : Int := (s.selectors who).val e.dflt (e.key 0 0)

/-- Write a requester's own copy of a selector. -/
def State.select (s : State) (who : Nat) (e : Ent) (v : Int) : State :=
  if who = 0 then
    { s with host := { s.host with i3c := { s.host.i3c with
      selectors := s.host.i3c.selectors.put e.dflt (e.key 0 0) v } } }
  else match s.host.sessions.look who with
    | some x =>
      { s with host := { s.host with sessions := s.host.sessions.ins who { x with
        selectors := x.selectors.put e.dflt (e.key 0 0) v } } }
    | none => s

/-- Does a selector's value name a unit of this module (log 72)? -/
def State.unitExists (s : State) (k : Sel) (v : Nat) : Bool :=
  match k with
  | .station => s.isLocal v && s.exists' (v % 256)
  | .block => s.blockExists v
  | .sensor => sensorListed v
  | _ => true

/-- The instance of an entry that a request reaches: 0 where it refers to no selector, else the unit that the requester's
copy names; none where there is no such unit. -/
def State.unitOf (s : State) (who : Nat) (e : Ent) : Option Nat :=
  match e.sel.ent with
  | none => some 0
  | some x =>
    let v := (s.selected who x).toNat
    if s.unitExists e.sel v then some (if e.sel = .station then v % 256 else v) else none

/-! ### Values taken from the state -/

/-- A number read: by whom, of which sub-index and unit. -/
abbrev NumView := State → By → Nat → Nat → Int

/-- Bytes read. -/
abbrev BlobView := State → By → Nat → Nat → List Byte

/-- A value of one unit. -/
def unitView (f : State → Nat → Nat) : NumView := fun s _ _ k => f s k

/-- A value of the module. -/
def moduleView (f : State → Nat) : NumView := fun s _ _ _ => f s

/-- SPEED: the FP32 code nearest to d × 10^9 / T, 0 while T is not valid (R258). -/
def State.speed (s : State) (ch : Nat) : Nat :=
  let e := s.encoder ch
  let fwd := (e.ring.head?).any (·.fwd)
  if s.encValid ch then encode32 (round32 (ratNum ((if fwd then 1 else -1) * 65536000000000) e.t16)) else 0

/-- LINE_STATE. -/
def State.lineStateOf (s : State) (ch : Nat) : Nat := bitsOf 3 fun i => (s.encoder ch).lineFault.contains i

/-- The links' values (R412). -/
def State.laneStatusOf (s : State) (n : Nat) : Nat :=
  let l := s.lane n
  l.clock.toNat + 2 * l.block.toNat + 4 * l.marker.toNat

/-- Bit r: the key of role r is set (R430); the Service key is a factory value. -/
def State.keysSet (s : State) : Nat :=
  (keySet (s.blob Dict.keyView)).toNat + 2 * (keySet (s.blob Dict.keyOperate)).toNat
    + 4 * (keySet (s.blob Dict.keyIntegrate)).toNat + 8

/-- I3C_PID (R432): manufacturer in [47:33], part in [31:16], instance in [15:12] (log 75). -/
def State.pid (s : State) : Nat :=
  fld Config.pidVendor 26 12 * 2 ^ 33 + 0x7160 * 2 ^ 16 + s.nat Dict.i3cInstance * 2 ^ 12 + fld Config.pidVendor 11 0

/-- The voltage of an island now. -/
def State.voltNow (s : State) (i : Nat) : Nat :=
  if adjustable i then (s.island i).volt.getD (s.island i).point 0 else Config.fixedVolt i

/-- Views of chapters 2 to 10. -/
def views1 : List (Ent × NumView) := [
  (Dict.certLLv, moduleView fun s => s.trump.cert.lLv),
  (Dict.certLVl, moduleView fun s => s.trump.cert.lVl),
  (Dict.certStampOffset, moduleView fun s => s.trump.cert.stampOffset),
  (Dict.seqState, unitView fun s k => (s.station k).seq.num),
  (Dict.activeStep, unitView fun s k => (s.station k).pc),
  (Dict.roleEpoch, unitView fun s k => (s.station k).epoch.toNat),
  (Dict.shadowSlot, unitView fun s k => (s.station k).shadow.num),
  (Dict.enabledArrays, moduleView fun s => ((List.range 16).filter s.arrayEnabled).length),
  (Dict.groupState, unitView fun s k => (s.group k).st.num),
  (Dict.inflightCap, unitView fun s k => (s.station k).cap),
  (Dict.inflightNow, unitView fun s k => (s.station k).tags),
  (Dict.msActiveSlot, moduleView fun s => 1 + s.activeSlot.getD 0),
  (Dict.msWear, moduleView fun s => if s.mem.msWritten = 0 then 0 else (Config.msWear s.mem.msWritten).toNat),
  (Dict.tracksLive, moduleView fun s => (s.trk.ctx.filter fun p => ctxState p.2 != 0).length),
  (Dict.windowsLive, moduleView fun s => s.dealer.slots.length)]

/-- Views of chapters 11 to 16. -/
def views2 : List (Ent × NumView) := [
  (Dict.position, fun s _ _ k => count48 (s.encoder k).pos),
  (Dict.speed, unitView State.speed),
  (Dict.periodValid, unitView fun s k => (s.encValid k).toNat),
  (Dict.lineState, unitView State.lineStateOf),
  (Dict.diState, moduleView State.diState),
  (Dict.diBreak, moduleView State.diBreak),
  (Dict.diSupplyOk, moduleView fun s => s.field.supplyGood.toNat),
  (Dict.doState, moduleView State.doState),
  (Dict.doSafeActive, moduleView fun s => s.safeActive.toNat),
  (Dict.streamState, unitView fun s k => (s.vstream k).st.num),
  (Dict.avgDecode, unitView fun s k => (s.vstream k).average / 1000),
  (Dict.deckReady, moduleView fun s => s.video.spaces.length),
  (Dict.kittyLevel, moduleView fun s => s.attn.kittyLevel),
  (Dict.adaptState, moduleView fun s => s.adapt.st.num),
  (Dict.bank0State, moduleView fun s => s.adapt.bank0.num),
  (Dict.bank1State, moduleView fun s => s.adapt.bank1.num),
  (Dict.candidateId, moduleView fun s => s.adapt.cand.elim 0 (·.id)),
  (Dict.trumpState, moduleView fun s => s.trump.st.num),
  (Dict.jobState, unitView fun s k => (s.job? k).elim 3 (·.st.num)),
  (Dict.jobResident, unitView fun s k => ((s.job? k).elim false (·.resident)).toNat),
  (Dict.jobPinned, unitView fun s k => (s.pinned k).toNat),
  (Dict.ownerJob, moduleView fun s => s.sched.owner.headD 0),
  (Dict.residentCount, moduleView fun s => s.residents.length)]

/-- Views of chapters 17 to 20. -/
def views3 : List (Ent × NumView) := [
  (Dict.cellsFree, moduleView fun s => 65536 - s.queues.links.length),
  (Dict.qCells, unitView State.cellsOf),
  (Dict.qUnread, unitView fun s k => (s.queue k).unread.length + (s.queue k).fill.length),
  (Dict.qHeld, unitView fun s k => (s.queue k).held.length),
  (Dict.qIncarn, unitView fun s k => (s.queue k).incarn.toNat),
  (Dict.linkState, unitView fun s k => (s.link k).st.num),
  (Dict.linkPeer, unitView fun s k => (s.link k).peer),
  (Dict.sleepState, unitView fun s k => (s.link k).txAsleep.toNat + 2 * (s.link k).rxAsleep.toNat),
  (Dict.deskew, unitView fun s k => (s.link k).deskew),
  (Dict.laneStatus, unitView State.laneStatusOf),
  (Dict.storeState, moduleView fun s => s.boot.saveDirtyAt.isSome.toNat),
  (Dict.keysSet, moduleView State.keysSet),
  (Dict.sessionsOpen, moduleView fun s => s.host.sessions.length),
  (Dict.sessionRole, fun _ b _ _ => b.role.num),
  (Dict.i3cDynAddr, moduleView fun s => s.host.i3c.addr),
  (Dict.i3cPid, moduleView State.pid),
  (Dict.fdpEventMask, fun s b _ _ => (s.host.sessions.look b.who).elim 0 fun x => x.mask.toNat),
  (Dict.deviceTime, moduleView fun s => s.sec' + s.ns' * 2 ^ 48),
  (Dict.timeState, moduleView fun s => s.clk.st.num),
  (Dict.increment, moduleView fun s => s.clk.inc),
  (Dict.tbCount, moduleView fun s => s.tb),
  (Dict.overrideArmed, moduleView fun s => s.armed.toNat)]

/-- Views of chapters 22 to 26. -/
def views4 : List (Ent × NumView) := [
  (Dict.pdState, moduleView State.pdMap),
  (Dict.islandFreqNow, unitView State.islandFreqNow),
  (Dict.islandVoltNow, unitView State.voltNow),
  (Dict.islandPoint, unitView fun s k => if adjustable k then (s.island k).point else 0xFF),
  (Dict.pointFreq, fun s _ j k => s.pointFreqOf k j),
  (Dict.pointVolt, fun s _ j k => s.power.plan.volt k j),
  (Dict.securityState, moduleView State.securityState),
  (Dict.marksBurnt, moduleView fun s => s.sec.marksBurnt),
  (Dict.attestLeavesLeft, moduleView State.leavesLeft),
  (Dict.tamperCount, moduleView fun s => s.sec.tampers),
  (Dict.recNewestSeq, moduleView fun s => (s.recorder.nextSeq + 4294967295) % 4294967296),
  (Dict.recOldestSeq, moduleView State.oldestSeq),
  (Dict.recFirstUsed, moduleView fun s => s.recorder.firstNext),
  (Dict.recKeyUsed, moduleView fun s => s.recorder.keyNext),
  (Dict.recBacklog, moduleView fun s => s.recorder.queue.length),
  (Dict.opHoursNow, moduleView fun s => s.opSec / 3600),
  (Dict.powerCyclesNow, moduleView fun s => s.recorder.powerCycles),
  (Dict.pcValue, fun s _ j k => (s.block k).snap.getD j 0),
  (Dict.escalationLevel, moduleView State.level),
  (Dict.escalationCause, moduleView fun s => s.levelCause.toNat),
  (Dict.unitsHeld, moduleView State.unitsHeld),
  (Dict.sensorValue, fun s _ _ k => (s.sensor k).value),
  (Dict.sensorState, unitView fun s k => (s.sensor k).num),
  (Dict.sensorPeak, fun s _ _ k => (s.sensor k).peak),
  (Dict.modulePhase, moduleView fun s => s.boot.phase.num),
  (Dict.lastResetCause, moduleView fun s => s.boot.cause),
  (Dict.fwRunningSlot, moduleView fun s => s.boot.running),
  (Dict.fwCommittedSlot, moduleView fun s => (activeOf s.boot.fwRing).getD 0),
  (Dict.fwAttempts, moduleView fun s =>
    (newestRecord s.boot.fwRing s.boot.running).elim 0 fun r => fld r 501 498),
  (Dict.modelCommitState, moduleView State.commitState),
  (Dict.msCommittedSlot, moduleView fun s => 1 + (activeOf s.boot.modelRing).getD 0),
  (Dict.modelStagedBytes, moduleView fun s => s.boot.stagedBytes),
  (Dict.modelHbmRoom, moduleView fun s => Config.modelRoom s.boot.modelLength (s.nat Dict.trumpHbmLength))]

/-- Every number that is taken from the state. -/
def numViews : List (Ent × NumView) := views1 ++ views2 ++ views3 ++ views4

/-- A record position of REC_WINDOW (R511): sub-index offset `j` from REC_CURSOR_SELECT. -/
def State.recWindow (s : State) (who j : Nat) : List Byte :=
  wordBytes (s.recordAt (s.selected who Dict.recAreaSelect).toNat ((s.selected who Dict.recCursorSelect).toNat + j))

/-- FIRMWARE_RELEASE: "1.3" of the firmware delivered, version 0 in its commit record (log 63); another version's name is
not given (log 77). -/
def State.releaseName (s : State) : List Byte :=
  match (newestRecord s.boot.fwRing s.boot.running).elim 0 fun r => fld r 399 368 with
  | 0 => Dict.firmwareRelease.dfltB
  | v => Config.firmwareRelease v

/-- Byte values taken from the state, but for D_DIGEST. -/
def blobViews : List (Ent × BlobView) := [
  (Dict.firmwareRelease, fun s _ _ _ => s.releaseName),
  (Dict.trumpCertificate, fun s _ _ _ =>
    if s.trump.st = .stopped then [] else Config.certificateBytes s.trump.cert),
  (Dict.histogram, fun s _ _ k => (s.cam k).hist),
  (Dict.zoneAverages, fun s _ _ k => (s.cam k).zones),
  (Dict.trackContext, fun s _ _ k => wordBytes (s.ctx k)),
  (Dict.currentImage, fun s _ _ k => wordBytes (s.vstring k).image),
  (Dict.attestReport, fun s b _ _ => s.sec.reports.val [] b.who),
  (Dict.debugChallenge, fun s _ _ _ => s.sec.challenge),
  (Dict.recWindow, fun s b j _ => s.recWindow b.who j),
  (Dict.counterPage, fun s _ _ _ => s.newestPage)]

/-- The view of an entry. -/
def viewOf {α : Type} (l : List (Ent × α)) (e : Ent) : Option α :=
  (l.find? fun p => p.1.i == e.i && p.1.s == e.s).map (·.2)

/-- Is the entry a selector (R416)? The write role View is theirs, and that of INTEGRATE_KEY_ENROL, which is WO (R415,
R430). -/
def Ent.selector (e : Ent) : Bool := e.wr == .view && e.acc == .rw

/-- The number that entry `e` reads. -/
def State.readNum (s : State) (b : By) (e : Ent) (j k : Nat) : Int :=
  if e.selector then s.selected b.who e
  else match viewOf numViews e with
    | some f => f s b j k
    | none => s.numAt e j k

/-- The bytes that entry `e` reads, but for D_DIGEST. -/
def State.readStored (s : State) (b : By) (e : Ent) (j k : Nat) : List Byte :=
  if e.ty.isNum then leBytes e.ty.size (wrap (8 * e.ty.size) (s.readNum b e j k))
  else match viewOf blobViews e with
    | some f => f s b j k
    | none => s.blob e j k

/-! ### D_DIGEST (R439, R560) -/

/-- Insert an entry and sub-index offset by index and sub-index. -/
def insertItem (p : Ent × Nat) : List (Ent × Nat) → List (Ent × Nat)
  | [] => [p]
  | q :: r => if p.1.key p.2 0 ≤ q.1.key q.2 0 then p :: q :: r else q :: insertItem p r

/-- The determinism-relevant entries in ascending index and sub-index. -/
def detItems : List (Ent × Nat) :=
  (((Dict.all.filter (·.det)).flatMap fun e => (List.range e.n).map fun j => (e, j))).foldr insertItem []

/-- The selector values that name existing units, ascending. -/
def State.unitsFor (s : State) (e : Ent) : List Nat :=
  match e.sel.ent with
  | none => [0]
  | some x =>
    if e.sel = .station then ((List.range 256).map (s.addrOf 0 + ·)).filter (s.unitExists e.sel)
    else (List.range (x.hi.toNat + 1)).filter (s.unitExists e.sel)

/-- The encoding of a value: STR and OCTETS after their length, a DOMAIN as its SHA-256. -/
def digestValue (e : Ent) (v : List Byte) : List Byte :=
  if e.ty.isNum then v else if e.ty = .domain then sha256 v else leBytes 2 v.length ++ v

/-- D_DIGEST. -/
def State.digest (s : State) (b : By) : List Byte :=
  sha256 (detItems.flatMap fun p =>
    (s.unitsFor p.1).flatMap fun u =>
      (p.1.sel.ent.elim [] fun x => leBytes x.ty.size u)
        ++ leBytes 2 p.1.i ++ leBytes 1 (p.1.s + p.2)
        ++ digestValue p.1 (s.readStored b p.1 p.2 (if p.1.sel = .station then u % 256 else u)))

/-- The value an entry reads, as bytes. -/
def State.readValue (s : State) (b : By) (e : Ent) (j k : Nat) : List Byte :=
  if e == Dict.dDigest then s.digest b else s.readStored b e j k

end Sys2Proof.Machine
end

