-- ==== Sys2Proof/Machine/AttestOps.lean ====
section
/-! DEFINITION. The attestation report (R494, R495). -/

namespace Sys2Proof.Machine

/-- IMAGE_HASH of the newest record of a slot, zero where it has none. -/
def slotHash (ring : List (BitVec 512)) (slot : Nat) : Nat := (newestRecord ring slot).elim 0 fun r => fld r 367 112

/-- PART (R495): 0 to 2 by the part number's third character from its end. -/
def State.partCode (s : State) : Nat :=
  match ((s.blob Dict.partNumber).reverse.getD 1 0).toNat with
  | 0x34 => 1 | 0x32 => 2 | _ => 0

/-- The payload of the report of requester `b` with a nonce and a leaf (R495). -/
def State.attestPayload (s : State) (b : By) (leaf : Nat) (nonce : List Byte) : List Byte :=
  let adapter := (s.adapterWeights (s.nat Dict.adapterLiveId)).elim 0 fun w => leNat (sha256 w)
  let n : Nat := (1 <<< 2044) + (s.partCode <<< 2036) + (s.boot.running <<< 2028) + (s.clk.st.num <<< 2020)
    + (s.nat Dict.arrayEnableMap <<< 2004) + (s.nat Dict.adapterLiveId <<< 1972)
    + (s.recorder.powerCycles % 4294967296 <<< 1940) + (s.opSec / 3600 % 4294967296 <<< 1908) + (s.sec' <<< 1860)
    + (s.ns' <<< 1828) + (leNat (s.blob Dict.deviceId) <<< 1700) + (leNat nonce <<< 1444)
    + (slotHash s.boot.fwRing s.boot.running <<< 1188) + (leNat (s.trump.programHash.take 32) <<< 932)
    + (s.activeSlot.elim 0 (slotHash s.boot.modelRing) <<< 676) + (adapter <<< 420) + (leNat (s.digest b) <<< 164)
    + (leaf / 1048576 % 4 <<< 162)
  leBytes 256 n

/-- The signed header of a report (R487, R494): KIND 8, signer 3, bound; VERSION is not given (log 81). -/
def State.attestHeader (s : State) (version : Nat) (payload : List Byte) : List Byte :=
  let n : Nat := (1 <<< 508) + (8 <<< 504) + (3 <<< 502) + (leNat (s.blob Dict.deviceId) <<< 368) + (version <<< 336)
    + (payload.length <<< 288) + leNat (sha256 payload)
  leBytes 64 n

/-- ATT_SEED_t (R483). -/
def State.attSeed (s : State) (t : Nat) : List Byte :=
  kdf Config.rootKey (skm ++ [0x41, 0x54, 0x54, BitVec.ofNat 8 t]) (s.blob Dict.deviceId) 32

/-- ATT_ID_t (R483). -/
def State.attId (s : State) (t : Nat) : List Byte :=
  kdf Config.rootKey (skm ++ [0x41, 0x49, 0x44, BitVec.ofNat 8 t]) (s.blob Dict.deviceId) 16

/-- The signature of a header by global leaf `g`, which is leaf g mod 2^20 of tree g div 2^20 (R491). -/
def State.attSign (s : State) (g : Nat) (c header : List Byte) : List Byte :=
  let t := g / 1048576
  hssSign (s.attSeed t) (s.attId t) (g % 1048576) c header

/-- The role of a requester: that of its session, or of I3C. -/
def State.roleOfWho (s : State) (who : Nat) : Role :=
  if who = 0 then roleOf (s.nat Dict.i3cRole) else (s.host.sessions.look who).elim .view (·.role)

/-- ATTEST_REPORT_READY: the oldest report under way is signed and readable by its requester. -/
def State.attestReady (s : State) : State :=
  match s.sec.attesting with
  | [] => s
  | (who, leaf, nonce) :: rest =>
    let (v, s) := s.draw 32
    let p := s.attestPayload { role := s.roleOfWho who, who := who } leaf nonce
    let h := s.attestHeader v.toNat p
    let (c, s) := s.draw 256
    let report := h ++ s.attSign leaf (wordBytes c) h ++ p
    ({ s with sec := { s.sec with
      attesting := rest, reports := s.sec.reports.ins who report } } : State).bump Dict.attestCount

/-- Meaning of ATTEST_REPORT_READY (R494, R495). -/
def execAttestReportReady (t : Nat) (s : State) : Host.Outcome State Fault Refusal := .next (s.at t).attestReady

end Sys2Proof.Machine
end

