-- ==== Sys2Proof/Machine/AttnCmds.lean ====
section
/-! DEFINITION. The meanings of the commands of attention and the KV cache (chapter 14). -/

namespace Sys2Proof.Machine

/-- Meaning of ATTN (R307, R309 to R314, R318, R320 to R322, R324). -/
def execAttn (t : Nat) (st : BitVec 8) (count : Nat) (s : State) : Host.Outcome State Fault Refusal :=
  .next ((s.at t).attention st.toNat count)

/-- Meaning of SEQ_LOCK (R306, R308). -/
def execSeqLock (t : Nat) (st : BitVec 8) (s : State) : Host.Outcome State Fault Refusal :=
  .next ((s.at t).seqLock st.toNat)

/-- Meaning of KITTY_TAKE (R312 to R315). -/
def execKittyTake (t : Nat) (st : BitVec 8) (s : State) : Host.Outcome State Fault Refusal :=
  .next ((s.at t).kittyTake st.toNat)

/-- Meaning of KITTY_EMPTY (R316, R318). -/
def execKittyEmpty (t : Nat) (st : BitVec 8) (s : State) : Host.Outcome State Fault Refusal :=
  .next ((s.at t).kittyEmpty st.toNat)

/-- Meaning of KITTY_REFILL (R317). -/
def execKittyRefill (t : Nat) (s : State) : Host.Outcome State Fault Refusal := .next (s.at t).kittyRefill

/-- Meaning of KV_OPEN (R319, R322). -/
def execKvOpen (t : Nat) (st : BitVec 8) (s : State) : Host.Outcome State Fault Refusal :=
  .next ((s.at t).kvop st.toNat 0 fun s w d _ => s.kvOpen st.toNat (fld w 72 61) d)

/-- Meaning of KV_FORK (R319, R322). -/
def execKvFork (t : Nat) (st : BitVec 8) (s : State) : Host.Outcome State Fault Refusal :=
  .next ((s.at t).kvop st.toNat 1 fun s w d ds => s.kvFork st.toNat (fld w 60 49) (fld w 72 61) ds d)

/-- Meaning of KV_CLOSE (R319). -/
def execKvClose (t : Nat) (st : BitVec 8) (s : State) : Host.Outcome State Fault Refusal :=
  .next ((s.at t).kvop st.toNat 2 fun s w d _ => s.kvClose st.toNat (fld w 72 61) d)

/-- Meaning of KV_FREE (R315, R319, R322). -/
def execKvFree (t : Nat) (st : BitVec 8) (s : State) : Host.Outcome State Fault Refusal :=
  .next ((s.at t).kvop st.toNat 3 fun s w d _ => s.kvFree st.toNat (fld w 72 61) d)

end Sys2Proof.Machine
end

