-- ==== Sys2Proof/Machine/BeltCmds.lean ====
section
/-! DEFINITION. The meanings of the commands of DEC, TRK, the Dealer and the encoders (chapters 9 to 11). -/

namespace Sys2Proof.Machine

/-- Meaning of DECIDE (R201 to R210). -/
def execDecide (t : Nat) (s : State) : Host.Outcome State Fault Refusal := .next (s.at t).decideStep

/-- Meaning of TRACK (R213 to R217). -/
def execTrack (t : Nat) (s : State) : Host.Outcome State Fault Refusal := .next (s.at t).track

/-- Meaning of TRACK_EJECTING (R214, R241). -/
def execTrackEjecting (t : Nat) (port : BitVec 4) (s : State) : Host.Outcome State Fault Refusal :=
  .next ((s.at t).trackEjecting port.toNat)

/-- Meaning of TRACK_RETIRE (R214). -/
def execTrackRetire (t : Nat) (index : BitVec 16) (s : State) : Host.Outcome State Fault Refusal :=
  .next ((s.at t).trackRetire index.toNat)

/-- Meaning of TRACK_EXPIRED (R214, R219). -/
def execTrackExpired (t : Nat) (index : BitVec 16) (addr : BitVec 48) (s : State) :
    Host.Outcome State Fault Refusal := .next ((s.at t).trackExpired index.toNat addr.toNat)

/-- Meaning of WINDOW_NEW (R221 to R224). -/
def execWindowNew (t : Nat) (s : State) : Host.Outcome State Fault Refusal := .next ((s.at t).dealNext 0)

/-- Meaning of WINDOW_AMEND (R221 to R224). -/
def execWindowAmend (t : Nat) (s : State) : Host.Outcome State Fault Refusal := .next ((s.at t).dealNext 1)

/-- Meaning of WINDOW_CANCEL (R221 to R224). -/
def execWindowCancel (t : Nat) (s : State) : Host.Outcome State Fault Refusal := .next ((s.at t).dealNext 2)

/-- Meaning of LATCH_COMMIT (R226 to R234). -/
def execLatchCommit (t : Nat) (string : BitVec 4) (s : State) : Host.Outcome State Fault Refusal :=
  .next ((s.at t).latchCommit string.toNat)

/-- Meaning of LATCH_STROBE (R232 to R237, R241). -/
def execLatchStrobe (t : Nat) (string : BitVec 4) (diag : BitVec 256) (addr : BitVec 48) (s : State) :
    Host.Outcome State Fault Refusal := .next ((s.at t).latchStrobe string.toNat diag addr.toNat)

/-- Meaning of BELT_STALL (R227). -/
def execBeltStall (t : Nat) (enc : BitVec 3) (s : State) : Host.Outcome State Fault Refusal :=
  .next ((s.at t).beltStall enc.toNat)

/-- Meaning of DRIVER_FAULT (R238). -/
def execDriverFault (t : Nat) (string : BitVec 4) (s : State) : Host.Outcome State Fault Refusal :=
  .next ((s.at t).driverFault string.toNat)

/-- Meaning of STRING_REFRESH (R239). -/
def execStringRefresh (t : Nat) (string : BitVec 4) (s : State) : Host.Outcome State Fault Refusal :=
  .next ((s.at t).stringRefresh string.toNat)

/-- Meaning of STRING_ZERO_LATCH (R240). -/
def execStringZeroLatch (t : Nat) (string : BitVec 4) (diag : BitVec 256) (s : State) :
    Host.Outcome State Fault Refusal := .next ((s.at t).zeroLatch string.toNat diag)

/-- Meaning of ENCODER_EDGE (R245, R247, R249, R227). -/
def execEncoderEdge (t : Nat) (enc : BitVec 3) (a b : Bool) (s : State) : Host.Outcome State Fault Refusal :=
  .next (((s.at t).levels enc.toNat a b ((s.at t).encoder enc.toNat).z).afterEdge s enc.toNat)

/-- Meaning of EDGE_FAULT (R248, R259). -/
def execEdgeFault (t : Nat) (enc : BitVec 3) (s : State) : Host.Outcome State Fault Refusal :=
  .next ((s.at t).edgeFault enc.toNat)

/-- Meaning of MAG_STEP (R250, R227). -/
def execMagStep (t : Nat) (enc : BitVec 3) (uvw : BitVec 3) (s : State) : Host.Outcome State Fault Refusal :=
  .next (((s.at t).levels enc.toNat (bit uvw 2) (bit uvw 1) (bit uvw 0)).afterEdge s enc.toNat)

/-- Meaning of SSI_FRAME_START (R251). -/
def execSsiFrameStart (t : Nat) (enc : BitVec 3) (s : State) : Host.Outcome State Fault Refusal :=
  .next ((s.at t).ssiStart enc.toNat)

/-- Meaning of SSI_FRAME_END (R251 to R253, R227). -/
def execSsiFrameEnd (t : Nat) (enc : BitVec 3) (raw : BitVec 49) (notReady recoveryBad : Bool) (s : State) :
    Host.Outcome State Fault Refusal :=
  .next (((s.at t).ssiEnd enc.toNat raw.toNat notReady recoveryBad).afterEdge s enc.toNat)

/-- Meaning of ENC_INDEX (R254, R255). -/
def execEncIndex (t : Nat) (enc : BitVec 3) (s : State) : Host.Outcome State Fault Refusal :=
  .next ((s.at t).indexEdge enc.toNat)

/-- Meaning of LINE_FAULT (R256). -/
def execLineFault (t : Nat) (enc : BitVec 3) (pair : Fin 3) (s : State) : Host.Outcome State Fault Refusal :=
  .next ((s.at t).lineFault enc.toNat pair)

/-- Meaning of LINE_FAULT_CLEAR (R256). -/
def execLineFaultClear (t : Nat) (enc : BitVec 3) (pair : Fin 3) (s : State) : Host.Outcome State Fault Refusal :=
  .next ((s.at t).lineClear enc.toNat pair)

/-- Meaning of PERIOD_INVALID (R258). -/
def execPeriodInvalid (t : Nat) (enc : BitVec 3) (s : State) : Host.Outcome State Fault Refusal :=
  .next ((s.at t).periodInvalid enc.toNat)

end Sys2Proof.Machine
end

