-- ==== Sys2Proof/Machine/BootCmds.lean ====
section
/-! DEFINITION. The meanings of the commands of start-up, resets and updates (chapters 26 and 28). -/

namespace Sys2Proof.Machine

/-- Meaning of INPUT_POWER_GOOD (R576). -/
def execInputPowerGood (t : Nat) (s : State) : Host.Outcome State Fault Refusal := .next (s.at t).powerGood

/-- Meaning of BOOT (R538). -/
def execBoot (t : Nat) (r : BootRun) (s : State) : Host.Outcome State Fault Refusal := .next ((s.at t).bootModule r)

/-- Meaning of HOST_RESET (R542, R545). -/
def execHostReset (t : Nat) (role : Role) (s : State) : Host.Outcome State Fault Refusal :=
  .next (finish ((s.at t).gated role Dict.resetRequest fun s => s.writeReset 1))

/-- Meaning of MGT_RESTART (R544, R545). -/
def execMgtRestart (t : Nat) (role : Role) (s : State) : Host.Outcome State Fault Refusal :=
  .next (finish ((s.at t).gated role Dict.resetRequest fun s => s.writeReset 2))

/-- Meaning of RESET_TAKE_EFFECT (R542, R544, R545). -/
def execResetTakeEffect (t : Nat) (s : State) : Host.Outcome State Fault Refusal := .next (s.at t).resetEffect

/-- Meaning of PHASE_IN_SERVICE (R541). -/
def execPhaseInService (t : Nat) (role : Role) (s : State) : Host.Outcome State Fault Refusal :=
  .next (finish ((s.at t).gated role Dict.phaseRequest fun s => s.writePhase 1))

/-- Meaning of PHASE_TEST (R541). -/
def execPhaseTest (t : Nat) (role : Role) (s : State) : Host.Outcome State Fault Refusal :=
  .next (finish ((s.at t).gated role Dict.phaseRequest fun s => s.writePhase 2))

/-- Meaning of PHASE_RECOVERY (R541). -/
def execPhaseRecovery (t : Nat) (role : Role) (s : State) : Host.Outcome State Fault Refusal :=
  .next (finish ((s.at t).gated role Dict.phaseRequest fun s => s.writePhase 3))

/-- Meaning of SLOT_ERASE_DONE (R547). -/
def execSlotEraseDone (t : Nat) (area slot : Fin 2) (s : State) : Host.Outcome State Fault Refusal :=
  .next ((s.at t).eraseDone area.val slot.val)

/-- Meaning of MODEL_ACTIVATE_LOADED (R553). -/
def execModelActivateLoaded (t : Nat) (imageGood : Bool) (s : State) : Host.Outcome State Fault Refusal :=
  .next ((s.at t).activateLoaded imageGood)

/-- Meaning of RESET_HOLD_END (R523). -/
def execResetHoldEnd (t : Nat) (s : State) : Host.Outcome State Fault Refusal := .next (s.at t).holdEnd

end Sys2Proof.Machine
end

