-- ==== Sys2Proof/Machine/CamCmds.lean ====
section
/-! DEFINITION. The meanings of the camera and develop commands (chapters 7 and 9). -/

namespace Sys2Proof.Machine

/-- Count a corrected header of an enabled port (R160). -/
def State.camHeader (s : State) (n : Nat) (corrected : Bool) : State :=
  if corrected then s.camBump n Dict.eccCorrected else s

/-- Meaning of FRAME_START (R164, R167, R169). -/
def execFrameStart (t : Nat) (port : BitVec 4) (vc : BitVec 5) (number : BitVec 16) (corrected fifoLow : Bool)
    (s : State) : Host.Outcome State Fault Refusal :=
  let n := port.toNat
  .next (if (s.at t).flag Dict.portEnable n then
      let s := (s.at t).camHeader n corrected
      if 16 ≤ vc.toNat then s.camBump n Dict.packetIgnored else s.frameStart n vc.toNat number fifoLow
    else s.at t)

/-- Meaning of FRAME_END (R164, R167, R169). -/
def execFrameEnd (t : Nat) (port : BitVec 4) (vc : BitVec 5) (corrected fifoLow : Bool) (s : State) :
    Host.Outcome State Fault Refusal :=
  let n := port.toNat
  .next (if (s.at t).flag Dict.portEnable n then
      let s := (s.at t).camHeader n corrected
      if 16 ≤ vc.toNat then s.camBump n Dict.packetIgnored else s.frameEnd n vc.toNat fifoLow
    else s.at t)

/-- Meaning of IMAGE_LINE (R159 to R167, R169). -/
def execImageLine (t : Nat) (port : BitVec 4) (packet : LinePacket) (fifoLow : Bool) (s : State) :
    Host.Outcome State Fault Refusal := .next ((s.at t).imageLine port.toNat packet fifoLow)

/-- Meaning of METADATA_PACKET (R166, R167, R169). -/
def execMetadataPacket (t : Nat) (port : BitVec 4) (vc : BitVec 5) (dt : BitVec 6) (crcOk corrected : Bool)
    (payload : List Byte) (full : Bool) (addr : BitVec 48) (s : State) : Host.Outcome State Fault Refusal :=
  .next ((s.at t).metadata port.toNat vc.toNat dt.toNat crcOk corrected payload full addr.toNat)

/-- Meaning of PACKET_IGNORED (R159). -/
def execPacketIgnored (t : Nat) (port : BitVec 4) (corrected : Bool) (s : State) : Host.Outcome State Fault Refusal :=
  .next (if (s.at t).flag Dict.portEnable port.toNat then
      ((s.at t).camHeader port.toNat corrected).camBump port.toNat Dict.packetIgnored
    else s.at t)

/-- Meaning of LINE_TIMEOUT (R167, R168). -/
def execLineTimeout (t : Nat) (port : BitVec 4) (addr : BitVec 48) (fifoLow : Bool) (s : State) :
    Host.Outcome State Fault Refusal := .next ((s.at t).lineTimeout port.toNat addr.toNat fifoLow)

/-- Meaning of DEVELOP_LINE (R165, R170, R171, R174, R175, R197, R198, R211). -/
def execDevelopLine (t : Nat) (port : BitVec 4) (addr : BitVec 48) (s : State) : Host.Outcome State Fault Refusal :=
  .next ((s.at t).developLine port.toNat addr.toNat)

/-- Meaning of STATS_WINDOW_END (R175 to R177, R179). -/
def execStatsWindowEnd (t : Nat) (port : BitVec 4) (s : State) : Host.Outcome State Fault Refusal :=
  .next ((s.at t).windowEnd port.toNat)

/-- Meaning of GAIN_APPLY (R178): at a line boundary, 100 us or more after the window's end. -/
def execGainApply (t : Nat) (port : BitVec 4) (s : State) : Host.Outcome State Fault Refusal :=
  .next (if (s.at t).trump.st == .running then (s.at t).applyGains port.toNat (s.at t).tb else s.at t)

/-- Meaning of CROP_SAMPLE (R212). -/
def execCropSample (t : Nat) (s : State) : Host.Outcome State Fault Refusal := .next (s.at t).cropSample

end Sys2Proof.Machine
end

