-- ==== Sys2Proof/Machine/CoutCmds.lean ====
section
/-! DEFINITION. The meanings of the commands of the image output ports (chapter 21). -/

namespace Sys2Proof.Machine

/-- Meaning of COUT_FRAME_START (R464). -/
def execCoutFrameStart (t : Nat) (port : BitVec 2) (s : State) : Host.Outcome State Fault Refusal :=
  .next ((s.at t).coutFrameStart port.toNat)

/-- Meaning of OVERLAY_PENDING (R461). -/
def execOverlayPending (t : Nat) (port : BitVec 2) (s : State) : Host.Outcome State Fault Refusal :=
  .next ((s.at t).overlayPending port.toNat)

/-- Meaning of COUT_LINE (R465). -/
def execCoutLine (t : Nat) (port : BitVec 2) (s : State) : Host.Outcome State Fault Refusal :=
  .next ((s.at t).coutLine port.toNat)

end Sys2Proof.Machine
end

