-- ==== Sys2Proof/Machine/WriteRules.lean ====
section
/-! DEFINITION. What the chapters state of the value and the moment of a write: the conditions they call access aborts, and
the conditions between entries, which are range aborts (R419, steps 4 and 5). -/

namespace Sys2Proof.Machine

/-! ### Placements in the HBM (R136, R139, R292, R298, R373, R517) -/

/-- Does [a, a + n) lie in [b, b + m)? -/
def insideOf (a n b m : Nat) : Bool := decide (b ≤ a ∧ a + n ≤ b + m)

/-- Does an HBM range lie in the HBM and wholly outside the Trump region? -/
def State.outsideTrump (s : State) (a n : Nat) : Bool :=
  let b := s.nat Dict.trumpHbmBase
  decide (a + n ≤ hbmLen) && (n == 0 || decide (a + n ≤ b) || decide (b + s.nat Dict.trumpHbmLength ≤ a))

/-- Does an HBM range lie wholly in the Trump region? -/
def State.insideTrump (s : State) (a n : Nat) : Bool :=
  n == 0 || insideOf a n (s.nat Dict.trumpHbmBase) (s.nat Dict.trumpHbmLength)

/-- Does an HBM range lie wholly in the adapter staging window? -/
def State.insideStaging (s : State) (a n : Nat) : Bool :=
  insideOf a n (s.nat Dict.adapterStageBase) (s.nat Dict.adapterStageLength)

/-- The structures of R298 lie where they may, the page pool at a multiple of its slot. -/
def State.kvPlaced (s : State) : Bool :=
  let pages := s.nat Dict.kvPoolPages
  let slot := s.nat Dict.kvSlotBytes
  s.nat Dict.kvPoolBase % slot == 0 && s.outsideTrump (s.nat Dict.kvPoolBase) (pages * slot)
    && s.outsideTrump (s.nat Dict.kvRefBase) (2 * pages) && s.outsideTrump (s.nat Dict.kvSummaryBase) (256 * pages)
    && s.outsideTrump (s.nat Dict.kvDirBase) 65536 && s.outsideTrump (s.nat Dict.kittyBase) (4 * s.nat Dict.kittySize)

/-- The crop rings lie in the Trump region (R211). -/
def State.ringsPlaced (s : State) : Bool :=
  (List.range 16).all fun n =>
    s.insideTrump (s.nat Dict.cropRingBase n) (s.nat Dict.cropRingLines n * s.ringLineBytes n)

/-- Every structure that an entry places in the HBM lies where R139 wants it, and the Trump region in the HBM. -/
def State.hbmPlaced (s : State) : Bool :=
  decide (s.nat Dict.trumpHbmBase + s.nat Dict.trumpHbmLength ≤ hbmLen)
    && insideOf (s.nat Dict.adapterStageBase) (s.nat Dict.adapterStageLength) (s.nat Dict.trumpHbmBase)
        (s.nat Dict.trumpHbmLength)
    && s.outsideTrump (s.nat Dict.queuePoolBase) 0x1000000 && s.outsideTrump (s.nat Dict.counterPageBase) 0x20000
    && s.outsideTrump (s.nat Dict.deckBase) (s.nat Dict.deckDepth * s.nat Dict.deckBatchBytes) && s.kvPlaced
    && s.ringsPlaced && s.insideStaging (s.nat Dict.cropAreaBase) (s.nat Dict.cropSlots * s.nat Dict.cropSlotBytes)
    && s.insideStaging (s.nat Dict.adapterBank0Base) (2 * s.nat Dict.adapterBankBytes)

/-- The entries that place a structure, set its size, or move the regions. -/
def placers : List Ent := [
  Dict.trumpHbmBase, Dict.trumpHbmLength, Dict.adapterStageBase, Dict.adapterStageLength, Dict.queuePoolBase,
  Dict.counterPageBase, Dict.deckBase, Dict.deckBatchBytes, Dict.deckDepth, Dict.kvPoolBase, Dict.kvPoolPages,
  Dict.kvSlotBytes, Dict.kvRefBase, Dict.kvSummaryBase, Dict.kvDirBase, Dict.kittyBase, Dict.kittySize,
  Dict.cropRingBase, Dict.cropRingLines, Dict.lineWidth, Dict.channels, Dict.cropAreaBase, Dict.cropSlots,
  Dict.cropSlotBytes, Dict.adapterBank0Base, Dict.adapterBankBytes]

/-! ### Camera ports (R162, R163, R171, R197, R590) -/

/-- Each of `n` channels is mapped by exactly one of the virtual channels `vcs`, and none beyond. -/
def State.mapsEach (s : State) (p : Nat) (vcs : List Nat) (n : Nat) : Bool :=
  vcs.all (fun v => decide (fld (s.vcMapOf p v) 6 5 < n))
    && (List.range n).all fun c => (vcs.filter fun v => fld (s.vcMapOf p v) 6 5 == c).length == 1

/-- The conditions of VC_MAP (R162). -/
def State.vcMapOk (s : State) (p : Nat) : Bool :=
  let vcs := (List.range 16).filter fun v => s.vcImage p v
  if s.interleaved p then vcs.length == 1 else s.mapsEach p vcs (s.channels p)

/-- The conditions of PATTERN on an interleaved head. -/
def State.patternOk (s : State) (p : Nat) : Bool :=
  let period := fld (BitVec.ofInt 16 (s.num Dict.pattern p)) 15 12
  let carried := (List.range period).map fun c => s.patternAt p c
  !s.interleaved p || (decide (2 ≤ period ∧ period ≤ 4) && carried.all (fun c => decide (c < s.channels p))
    && (List.range (s.channels p)).all fun c => carried.contains c)

/-- The conditions of DEFECT_TABLE. -/
def State.defectsOk (s : State) (p : Nat) : Bool :=
  (defectEntries (s.blob Dict.defectTable 0 p)).all fun e =>
    decide (e.1 < s.nat Dict.lineWidth p) && decide (e.2.2 < s.channels p)
      && (if s.area p then decide (e.2.1 < s.nat Dict.frameLines p) else e.2.1 == 0xFFFF)

/-- The conditions of SHADING_TABLE. -/
def State.shadingOk (s : State) (p : Nat) : Bool :=
  let n := (s.blob Dict.shadingTable 0 p).length
  n == 0 || n == 2 * s.channels p * (if s.area p then 33 * 33 else s.nat Dict.lineWidth p)

/-- The conditions between the entries of one port (R590). -/
def State.portOk (s : State) (p : Nat) : Bool :=
  let lanes := s.nat Dict.lanes p
  let lines := s.nat Dict.frameLines p
  (if s.nat Dict.phyMode p = 0 then lanes == 1 || lanes == 2 || lanes == 4 else decide (1 ≤ lanes ∧ lanes ≤ 3))
    && (if s.area p then decide (1 ≤ lines ∧ lines ≤ 8192) else decide (64 ≤ lines ∧ lines ≤ 4096))
    && s.vcMapOk p && s.patternOk p && s.defectsOk p && s.shadingOk p

/-- R590: the conditions hold on every enabled port. -/
def State.portGood (s : State) (p : Nat) : Bool := !s.flag Dict.portEnable p || s.portOk p

/-- The sum of MAX_PIXEL_RATE over enabled ports is within 16,000 (R163). -/
def State.rateGood (s : State) : Bool :=
  decide (sumNat ((List.range 16).map fun p => if s.flag Dict.portEnable p then s.nat Dict.maxPixelRate p else 0) ≤ 16000)

/-- The delays of a planar head's channels fit (R171). -/
def State.alignGood (s : State) (p : Nat) : Bool :=
  s.nat Dict.headKind p != 0
    || decide (sumNat ((List.range (s.channels p)).map fun c => (s.numAt Dict.alignLines c p).toNat)
        * s.nat Dict.lineWidth p ≤ 393216)

/-- At most four ports are privileged, and each has a line width that is a multiple of its factor (R197). -/
def State.privilegedGood (s : State) : Bool :=
  let ports := (List.range 16).filter fun p => s.nat Dict.s2dFactor p != 0
  decide (ports.length ≤ 4) && ports.all fun p => s.nat Dict.lineWidth p % s.nat Dict.s2dFactor p == 0

/-- One entry of VC_MAP: role and data type (R162). -/
def vcEntryOk (v : Nat) : Bool :=
  let w := BitVec.ofNat 16 v
  let dt := fld w 12 7
  if fld w 14 13 = 0 then decide (0x2B ≤ dt ∧ dt ≤ 0x2E) else fld w 14 13 == 1 && decide (0x30 ≤ dt ∧ dt ≤ 0x37)

/-! ### Queues (R374, R379) -/

/-- The sum of QUEUE_LIMIT over enabled Trump-domain queues. -/
def State.trumpLimits (s : State) : Nat :=
  let key := Dict.queueEnable.key 0 0
  sumNat ((s.regs.sav.nums.filter fun p => decide (key ≤ p.1 ∧ p.1 < key + 4096)).map fun p =>
    if s.flag Dict.queueDomain (p.1 - key) then s.nat Dict.queueLimit (p.1 - key) else 0)

/-- A write may not raise the sum above TRUMP_CELLS. -/
def limitsKept (s t : State) : Bool := decide (t.trumpLimits ≤ max s.trumpLimits (t.nat Dict.trumpCells))

/-- An enable of a strip-pair queue finds its limit and its banks' cells (R379, log 78). -/
def State.bankCells (s : State) (q : Nat) : Bool :=
  let n := 2 * s.nat Dict.stripCells q
  !(s.flag Dict.queueEnable q && s.flag Dict.queueMode q)
    || (decide (n ≤ s.nat Dict.queueLimit q) && (s.freeCells q n).length == n)

/-! ### Other conditions between entries -/

/-- The taps of a lane (R389). -/
def State.tapsOk (s : State) (n : Nat) : Bool :=
  let pre := s.nat Dict.txPre n
  let main := s.nat Dict.txMain n
  let post := s.nat Dict.txPost n
  decide (pre + main + post ≤ 63) && decide (16 + pre + post ≤ main)

/-- The three sources of an image output port lie on different virtual channels (R465). -/
def State.vcsApart (s : State) (n : Nat) : Bool :=
  let a := s.nat Dict.cropVc n
  let b := s.nat Dict.ovlVc n
  let c := s.nat Dict.mosaicVc n
  a != b && b != c && a != c

/-- The landing engine is owned by the job domain (R406). -/
def State.landingOk (s : State) : Bool := !inMap (s.nat Dict.dmaOwnerMap) (s.nat Dict.fabLandDma)

/-- Is a netmask contiguous? -/
def maskOk (v : Nat) : Bool := (List.range 33).any fun k => v == 2 ^ 32 - 2 ^ k

/-- A condition between entries: of the state before, the state with the value, and the unit written. -/
abbrev RangeRule := State → State → Nat → Bool

/-- A condition on the state with the value. -/
def after (f : State → Nat → Bool) : RangeRule := fun _ t k => f t k

/-- A condition on the value alone. -/
def onValue (e : Ent) (f : Nat → Bool) : RangeRule := fun _ t k => f (t.nat e k)

/-- One rule for several entries. -/
def forAll {α : Type} (l : List Ent) (f : α) : List (Ent × α) := l.map fun e => (e, f)

/-- The conditions between entries, by the entry written (R419, step 5). -/
def rangeRules : List (Ent × RangeRule) :=
  forAll placers (after fun t _ => t.hbmPlaced)
  ++ forAll [Dict.portEnable, Dict.phyMode, Dict.lanes, Dict.headKind, Dict.lineWidth, Dict.frameLines, Dict.vcMap,
      Dict.channels, Dict.pattern, Dict.defectTable, Dict.shadingTable] (after State.portGood)
  ++ forAll [Dict.portEnable, Dict.maxPixelRate] (after fun t _ => t.rateGood)
  ++ forAll [Dict.linePeriodMin, Dict.linePeriodMax] (after fun t k =>
      decide (t.nat Dict.linePeriodMin k < t.nat Dict.linePeriodMax k))
  ++ [(Dict.vcMap, after fun t k => (List.range 16).all fun v => vcEntryOk (t.vcMapOf k v).toNat)]
  ++ forAll [Dict.alignLines, Dict.lineWidth, Dict.channels, Dict.headKind] (after State.alignGood)
  ++ [(Dict.alignLines, after fun t k => !t.area k
        || (List.range 4).all fun c => t.numAt Dict.alignLines c k == 0)]
  ++ forAll [Dict.kittyLowWater, Dict.kittySize] (after fun t _ =>
      decide (t.nat Dict.kittyLowWater ≤ t.nat Dict.kittySize))
  ++ forAll [Dict.expGainMin, Dict.expGainMax] (after fun t k =>
      decide (t.nat Dict.expGainMin k ≤ t.nat Dict.expGainMax k))
  ++ forAll [Dict.wbGainMin, Dict.wbGainMax] (after fun t k =>
      (List.range 4).all fun c => decide (t.numAt Dict.wbGainMin c k ≤ t.numAt Dict.wbGainMax c k))
  ++ forAll [Dict.s2dFactor, Dict.lineWidth] (after fun t _ => t.privilegedGood)
  ++ forAll [Dict.rejDeltaMin, Dict.rejDeltaMax] (after fun t _ =>
      decide (t.num Dict.rejDeltaMin ≤ t.num Dict.rejDeltaMax))
  ++ [(Dict.refreshPeriod, onValue Dict.refreshPeriod fun v => v == 0 || decide (100 ≤ v)),
      (Dict.colour, onValue Dict.colour fun v => v % 4 != 3),
      (Dict.ovlCam, onValue Dict.ovlCam fun v => decide (v ≤ 15) || v == 0xFF),
      (Dict.mosaicQueue, onValue Dict.mosaicQueue fun v => decide (v ≤ 4095) || v == 0xFFFF),
      (Dict.netmask, onValue Dict.netmask maskOk)]
  ++ forAll [Dict.cropVc, Dict.ovlVc, Dict.mosaicVc] (after State.vcsApart)
  ++ forAll [Dict.txPre, Dict.txMain, Dict.txPost] (after State.tapsOk)
  ++ forAll [Dict.fdpEnable, Dict.i3cEnable] (after fun t _ => t.flag Dict.fdpEnable || t.flag Dict.i3cEnable)
  ++ forAll [Dict.queueLimit, Dict.queueDomain, Dict.queueEnable] (fun s t _ => limitsKept s t)
  ++ [(Dict.queueEnable, fun s t k => s.flag Dict.queueEnable k || t.bankCells k)]
  ++ [(Dict.pcEvent, after fun t k => (List.range 8).all fun j => decide (t.numAt Dict.pcEvent j k ≤ 0x1C)),
      (Dict.intVersionMin, fun s t k =>
        (List.range 4).all fun j => decide (s.numAt Dict.intVersionMin j k ≤ t.numAt Dict.intVersionMin j k)),
      (Dict.modelActivateMode, fun s t _ => s.activateModeOk (t.nat Dict.modelActivateMode))]
  ++ forAll [Dict.fabLandDma, Dict.dmaOwnerMap] (after fun t _ => t.landingOk)
  ++ forAll [Dict.acceptThreshold, Dict.rejectThreshold] (after fun t _ =>
      t.thresholdsOk (t.nat Dict.acceptThreshold) (t.nat Dict.rejectThreshold))
  ++ [(Dict.vstreamEnable, fun s t k => !t.flag Dict.vstreamEnable k || s.flag Dict.vstreamEnable k
        || s.mayEnableStream k),
      (Dict.templateEnable, after fun t k => !t.flag Dict.templateEnable k || t.batchFits k),
      (Dict.trumpArrayMap, fun s t _ => s.arrayMapOk (t.nat Dict.trumpArrayMap)),
      (Dict.trumpSplitMap, fun s t _ => s.splitMapOk (t.nat Dict.trumpSplitMap))]

/-! ### Access aborts (R419, step 4) -/

/-- When a write is allowed: the state, the unit, the value (0 for a value held as bytes). -/
abbrev AccessRule := State → Nat → Int → Bool

/-- No template is enabled (R292). -/
def State.noTemplate (s : State) : Bool := (List.range 8).all fun k => !s.flag Dict.templateEnable k

/-- Is the domain of a station stopped (R70): the Trump domain STOPPED, the job domain without an owner? -/
def State.domainStopped (s : State) (sid : Nat) : Bool :=
  if s.isTrump sid then !s.trumpRuns else s.sched.owner.isEmpty

/-- The conditions that chapters state as access aborts, by the entry written. -/
def accessRules : List (Ent × AccessRule) :=
  [(Dict.roundSeed, fun s k _ => s.domainStopped k), (Dict.exposureGain, fun s k _ => !s.flag Dict.exposureLoop k), (Dict.wbGain, fun s k _ => !s.flag Dict.wbLoop k)]
  ++ forAll [Dict.codec, Dict.vdCore, Dict.maxWidth, Dict.maxHeight, Dict.maxFps, Dict.colour]
      (fun s k _ => !s.flag Dict.vstreamEnable k)
  ++ forAll [Dict.deckBase, Dict.deckBatchBytes, Dict.deckDepth, Dict.slots, Dict.slotStreams, Dict.outWidth,
      Dict.outHeight, Dict.outFormat, Dict.buildPeriod, Dict.sampleMaxAge, Dict.normMean, Dict.normScale]
      (fun s _ _ => s.noTemplate)
  ++ forAll [Dict.queueClass, Dict.queueMode] (fun s k _ => !s.flag Dict.queueEnable k)
  ++ [(Dict.rewindEnable, fun s k _ => (s.queue k).held.isEmpty),
      (Dict.integrateKeyEnrol, fun s _ _ => !keySet (s.blob Dict.keyIntegrate)),
      (Dict.safeStateRelease, fun s _ v => v == 0 || s.mayRelease),
      (Dict.dmaOwnerMap, fun s _ v => s.dmaMapOk v.toNat),
      (Dict.trumpControl, fun s _ v => v == 0 || s.trump.st != .stopping),
      (Dict.restoreDefaults, fun s _ v => v == 0 || !s.trumpRuns),
      (Dict.timeSet, fun s _ _ => !s.flag Dict.ptpEnable),
      (Dict.recClear, fun s _ v => v == 0 || !s.recorder.erasing)]

/-- Every rule of a table that is about `e` holds. -/
def rulesHold {α : Type} (l : List (Ent × α)) (e : Ent) (p : α → Bool) : Bool :=
  l.all fun r => !(r.1.i == e.i && r.1.s == e.s) || p r.2

end Sys2Proof.Machine
end

