-- ==== Sys2Proof/Machine/DictWrite.lean ====
section
/-! DEFINITION. What a write of a dictionary entry does: the checks of R419 in their order, then the entry's effect. -/

namespace Sys2Proof.Machine

/-! ### Values (R413) -/

/-- The number that bytes spell in a type. -/
def EntTy.value (t : EntTy) (l : List Byte) : Int := if t.isSigned then signed (8 * t.size) (leNat l) else leNat l

/-- Does a length match the entry's type? A DOMAIN is moved only by segmented transfer. -/
def Ent.lengthOk (e : Ent) (n : Nat) : Bool :=
  match e.ty with
  | .domain => false
  | .str => decide (n ≤ e.maxLen)
  | .octets => n == e.maxLen
  | t => n == t.size

/-- Is a number within the entry's own range: its bounds, its step, its list; no NaN and no infinity (R413)? -/
def Ent.inRange (e : Ent) (v : Int) : Bool :=
  !e.ty.isNum || (decide (e.lo ≤ v ∧ v ≤ e.hi) && v % e.step == 0 && (e.oneOf.isEmpty || e.oneOf.contains v)
    && (e.ty != .f32 || v.toNat / 8388608 % 256 != 255))

/-- The state with the value stored, nothing else. -/
def State.store (s : State) (b : By) (e : Ent) (j k : Nat) (v : Int) (l : List Byte) : State :=
  if e.selector then s.select b.who e v
  else if e.ty.isNum then s.setNumAt e j k v
  else s.setBlob e j k l

/-! ### Effects -/

/-- An effect: of the state before, the requester, the sub-index offset, the unit, the value as number and bytes, to the
status and the state after. -/
abbrev Effect := State → By → Nat → Nat → Int → List Byte → Word × State

/-- An effect that succeeds. -/
def does (f : State → Nat → Int → State) : Effect := fun s _ _ k v _ => (0, f s k v)

/-- An effect that a BOOL or command entry has only when 1 is written. -/
def onOne (f : State → Nat → State) : Effect := fun s _ _ k v _ => (0, if v = 1 then f s k else s)

/-- The segmented transfer of a requester (R422). -/
def State.xferOf (s : State) (who : Nat) : Option Xfer :=
  if who = 0 then s.host.i3c.xfer else (s.host.sessions.look who).bind (·.xfer)

/-- Set the transfer of a requester, and whether time has cancelled one. -/
def State.setXfer (s : State) (who : Nat) (x : Option Xfer) (out : Bool) : State :=
  if who = 0 then { s with host := { s.host with i3c := { s.host.i3c with xfer := x, timedOut := out } } }
  else match s.host.sessions.look who with
    | some y =>
      { s with host := { s.host with sessions := s.host.sessions.ins who { y with xfer := x, timedOut := out } } }
    | none => s

/-- Is a transfer a write of entry `e`? -/
def Xfer.writes (x : Xfer) (e : Ent) : Bool := x.write && x.idx == e.i && x.sub == e.s

/-- A transfer ends before its SEG_END (R422): a model commit at stage 1 ends with it (R551). -/
def State.cancelXfer (s : State) (who : Nat) (out : Bool) : State :=
  match s.xferOf who with
  | some x =>
    let s := s.setXfer who none out
    if x.writes Dict.modelStage && s.boot.commitStage == 1 then s.modelAbandon else s
  | none => s

/-- Close a session (R427): its transfer is cancelled; selectors, subscription and report go with it. -/
def State.closeSession (s : State) (n : Nat) : State :=
  let s := s.cancelXfer n false
  { s with
    host := { s.host with sessions := s.host.sessions.del n }
    sec := { s.sec with
      reports := s.sec.reports.del n, attesting := s.sec.attesting.filter fun x => x.1 != n } }

/-- Close the sessions that `p` names. -/
def State.closeSessions (s : State) (p : Session → Bool) : State :=
  ((s.host.sessions.filter fun x => p x.2).map (·.1)).foldl State.closeSession s

/-- With FDP disabled every session closes (R437); a write in a session takes effect after its response. -/
def State.closeIfOff (s : State) : State := if s.flag Dict.fdpEnable then s else s.closeSessions fun _ => true

/-- A role key is written: its sessions close (R427, R430). -/
def keyEffect (e : Ent) (r : Role) : Effect := fun s _ _ _ _ l => (0, (s.setBlob e 0 0 l).closeSessions fun x => x.role == r)

/-- A threshold is written (R208). -/
def thresholdEffect (accept : Bool) : Effect := fun s b _ _ v _ =>
  let acc := if accept then v.toNat else s.nat Dict.acceptThreshold
  let rej := if accept then s.nat Dict.rejectThreshold else v.toNat
  (0, s.setThresholds acc rej 0 b.role.num State.adaptRestart)

/-- A bound of the envelope is written (R208): thresholds outside are clamped; refused where a maximum would fall below its
minimum, or the clamps would leave REJECT_THRESHOLD not below ACCEPT_THRESHOLD. -/
def envelopeEffect (e : Ent) : Effect := fun s b _ _ v _ =>
  let t := s.setNum e v
  let a1 := t.nat Dict.accThrMin
  let a2 := t.nat Dict.accThrMax
  let r1 := t.nat Dict.rejThrMin
  let r2 := t.nat Dict.rejThrMax
  let c := clampedThresholds (s.nat Dict.acceptThreshold) (s.nat Dict.rejectThreshold) a1 a2 r1 r2
  if a1 ≤ a2 ∧ r1 ≤ r2 ∧ c.2 < c.1 then (0, t.setThresholds c.1 c.2 1 b.role.num State.adaptRestart) else (abRange, s)

/-- QUEUE_ENABLE (R374, R379). -/
def State.setQueueEnable (s : State) (q : Nat) (v : Int) : State :=
  if s.num Dict.queueEnable q = v then s
  else if v = 1 then
    let s := s.setNum Dict.queueEnable 1 q
    if s.flag Dict.queueMode q then s.takeBanks q else s
  else (s.queueDisable q).setNum Dict.queueEnable 0 q

/-- A queue command written by a host is the management cluster's (R376): to a disabled queue it is refused (R378). -/
def queueEffect (f : State → Nat → State) : Effect := fun s _ _ k v _ =>
  if v = 0 then (0, s)
  else if s.queueOn k then (0, f s k)
  else (withSrc 0x02000F04 mgt, s.toErr mgt (withSrc 0x02000F04 mgt))

/-- The counters of a block that a change of PC_CHAIN affects (R514, R515): those of the pairs whose bit changes. -/
def chainCounters (old new : Nat) : List Nat :=
  ((List.range 4).filter fun i => inMap old i != inMap new i).flatMap fun i => [2 * i, 2 * i + 1]

/-- The counters that a listed setting of PC_EVENT or PC_CHAIN going to its default affects. -/
def counterOf (s : State) (p : Nat × Int) : List Nat :=
  let sub := p.1 / 4294967296 % 256
  if sub ≤ 8 then [sub - 1] else chainCounters (s.nat Dict.pcChain (p.1 % 4294967296)) 0

/-- The saved set with every entry but the role keys at its default. -/
def Store.defaults (r : Store) : Store := { nums := [], blobs := r.blobs.filter fun p => p.1 / 1099511627776 == 0x1100 }

/-- PORT_ENABLE changes: the port starts over, with no frame and no last frame number (R167). -/
def State.setPortEnable (s : State) (n : Nat) (v : Int) : State :=
  if s.num Dict.portEnable n = v then s else (s.setNum Dict.portEnable v n).mapCam n Cam.restart

/-- EXPOSURE_LOOP or WB_LOOP is written: switched on, its references are set anew (R179). -/
def State.setLoop (s : State) (e : Ent) (wb : Bool) (n : Nat) (v : Int) : State :=
  let on := !s.flag e n && v == 1
  let s := s.setNum e v n
  if on then s.loopOn n wb else s

/-- RESTORE_DEFAULTS (R418): every saved entry but the role keys takes its default, as if written, and the set is committed. -/
def State.restoreDefaults (s : State) : State :=
  let s := (List.range 16).foldl (fun s k => s.setPortEnable k 0) s
  let s := (List.range 64).foldl (fun s k => if s.flag Dict.vstreamEnable k then s.setStreamEnable k false else s) s
  let s := (List.range 8).foldl (fun s k => if s.flag Dict.templateEnable k then s.setTemplateEnable k false else s) s
  let key := Dict.queueEnable.key 0 0
  let on := (s.regs.sav.nums.filter fun p => decide (key ≤ p.1 ∧ p.1 < key + 4096)).map fun p => p.1 - key
  let s := on.foldl (fun s q => s.setQueueEnable q 0) s
  let s := (List.range 8).foldl (fun s k => if s.flag Dict.linkEnable k then (s.writeLinkEnable k 0).2 else s) s
  let s := (s.writeSplitMap 0).2
  let s := (s.writeArrayMap s.arrayMapDefault).2
  let s := if s.nat Dict.sharedOwnerMap = 0 then s else s.setSharedMap 0
  let s := if s.nat Dict.dmaOwnerMap = 0 then s else s.setDmaMap 0
  let s := if s.nat Dict.kvPoolPages = 0 then s else s.setPoolPages 0
  let s := (List.range 8).foldl (fun s ch =>
    let s := (s.setPeriodEdges ch 4).setIndexMode ch 0
    if s.nat Dict.encMode ch = 0 then s else (s.setNum Dict.encMode 0 ch).enterMode ch) s
  let s := (s.regs.sav.nums.filter fun p => p.1 / 1099511627776 == 0x8101).foldl (fun s p =>
    s.restartCounters (p.1 % 4294967296) (counterOf s p)) s
  let s := { s with regs := { s.regs with sav := s.regs.sav.defaults } }
  (s.setNum Dict.trumpArrayMap s.arrayMapDefault).sendSafeStates.commitSaved

/-- The integrator key that an entry holds is written: no signed header comes with the value, so only a first enrolment
passes (R490). -/
def integratorEffect (which : Nat) : Effect := fun s _ _ _ _ l => s.writeIntegratorKey which l [] []

/-- BIT_SLIP: whether the marker is then seen, and with what skew, is free (R390). -/
def State.slipDrawn (s : State) (n : Nat) : State :=
  let (m, s) := s.draw 1
  let (k, s) := s.draw 8
  s.bitSlip n (m == 1) k.toNat

/-- Join the multicast groups on both ports (R441). -/
def State.joinBoth (s : State) : State := (s.joinGroups 0).joinGroups 1

/-- The effects of entries that do more, or other, than store the value. -/
def effects : List (Ent × Effect) := [
  (Dict.acceptThreshold, thresholdEffect true), (Dict.rejectThreshold, thresholdEffect false),
  (Dict.accThrMin, envelopeEffect Dict.accThrMin), (Dict.accThrMax, envelopeEffect Dict.accThrMax),
  (Dict.rejThrMin, envelopeEffect Dict.rejThrMin), (Dict.rejThrMax, envelopeEffect Dict.rejThrMax),
  (Dict.position, does fun s k v => s.setPosition k v),
  (Dict.encMode, does fun s k v => (s.setNum Dict.encMode v k).enterMode k),
  (Dict.periodEdges, does State.setPeriodEdges), (Dict.indexMode, does State.setIndexMode),
  (Dict.safeStateRelease, onOne fun s _ => s.releaseOutputs),
  (Dict.doSafeState, does fun s k v => (s.setNum Dict.doSafeState v k).sendSafeStates),
  (Dict.doFaultAck, onOne State.doFaultAck),
  (Dict.portEnable, does State.setPortEnable),
  (Dict.stringEnable, does State.setStringEnable),
  (Dict.exposureLoop, does fun s k v => s.setLoop Dict.exposureLoop false k v),
  (Dict.wbLoop, does fun s k v => s.setLoop Dict.wbLoop true k v),
  (Dict.vstreamEnable, does fun s k v =>
    if s.num Dict.vstreamEnable k = v then s else s.setStreamEnable k (v == 1)),
  (Dict.templateEnable, does fun s k v =>
    if s.num Dict.templateEnable k = v then s else s.setTemplateEnable k (v == 1)),
  (Dict.kvPoolPages, does fun s _ v => s.setPoolPages v.toNat),
  (Dict.sharedOwnerMap, does fun s _ v => s.setSharedMap v.toNat),
  (Dict.dmaOwnerMap, does fun s _ v => s.setDmaMap v.toNat),
  (Dict.queueEnable, does State.setQueueEnable),
  (Dict.queueFlush, queueEffect fun s k => s.queueFlush mgt k false),
  (Dict.queueReset, queueEffect State.queueClear),
  (Dict.trumpControl, fun s _ _ _ v _ => if v = 1 then s.writeStart else s.writeStop),
  (Dict.trumpArrayMap, fun s _ _ _ v _ => s.writeArrayMap v.toNat),
  (Dict.trumpSplitMap, fun s _ _ _ v _ => s.writeSplitMap v.toNat),
  (Dict.jobSubmit, fun s _ _ _ _ l => s.submit (bytesWord 512 l)),
  (Dict.jobAbort, fun s _ _ _ v _ => s.writeAbort v.toNat),
  (Dict.adaptApprove, fun s b _ _ v _ => s.writeApprove b.role v.toNat),
  (Dict.adaptRefuse, fun s b _ _ v _ => s.writeRefuse b.role v.toNat),
  (Dict.adaptRollback, fun s _ _ _ v _ => s.writeRollback v.toNat),
  (Dict.linkEnable, fun s _ _ k v _ => s.writeLinkEnable k v.toNat),
  (Dict.bitSlip, onOne State.slipDrawn),
  (Dict.ethMode, does fun s k v =>
    let s := s.setNum Dict.ethMode v k
    if v = 0 then s.ethDown k else s),
  (Dict.timeSet, fun s _ _ _ v _ => s.writeTime (v.toNat % 281474976710656) (v.toNat / 281474976710656)),
  (Dict.stepOverride, fun s _ _ _ v _ => s.writeOverride v.toNat),
  (Dict.ptpEnable, does fun s _ v =>
    let s := s.setNum Dict.ptpEnable v
    if v = 0 then s.ptpOff else s),
  (Dict.unitRelease, fun s _ _ _ v _ => (0, s.releaseUnit v.toNat)),
  (Dict.recClear, fun s _ _ _ v _ => s.writeRecClear v.toNat),
  (Dict.resetRequest, fun s _ _ _ v _ => s.writeReset v.toNat),
  (Dict.phaseRequest, fun s _ _ _ v _ => s.writePhase v.toNat),
  (Dict.storeNow, onOne fun s _ => s.commitSaved),
  (Dict.restoreDefaults, onOne fun s _ => s.restoreDefaults),
  (Dict.keyView, keyEffect Dict.keyView .view), (Dict.keyOperate, keyEffect Dict.keyOperate .operate),
  (Dict.keyIntegrate, keyEffect Dict.keyIntegrate .integrate),
  (Dict.integrateKeyEnrol, fun s _ _ _ _ l => (0, (s.setBlob Dict.keyIntegrate 0 0 l).commitSaved)),
  (Dict.fdpEnable, fun s b _ _ v _ =>
    let s := s.setNum Dict.fdpEnable v
    (0, if b.who = 0 then s.closeIfOff else s)),
  (Dict.integratorKey0, integratorEffect 0), (Dict.integratorKey1, integratorEffect 1),
  (Dict.attestNonce, fun s b _ _ _ l => s.writeNonce b.who l),
  (Dict.pcEvent, fun s _ j k v _ => (0, (s.setNumAt Dict.pcEvent j k v).restartCounters k [j])),
  (Dict.pcChain, does fun s k v =>
    (s.setNum Dict.pcChain v k).restartCounters k (chainCounters (s.nat Dict.pcChain k) v.toNat))]

/-! ### The write (R415, R419, R430, R438, R540) -/

/-- The role a write needs: that of the entry, but Service for the all-zero KEY_INTEGRATE (R430), whoever asks. -/
def Ent.needs (e : Ent) (_b : By) (l : List Byte) : Role :=
  if e == Dict.keyIntegrate && !keySet l then .service else e.wr

/-- The abort of a write by its access code and by the conditions stated as access aborts (R414, R419 step 4, R540). -/
def State.accessRefused (s : State) (e : Ent) (k : Nat) (v : Int) : Bool :=
  e.acc == .ro || (e.acc == .rws && s.trumpRuns) || (s.sec.serviceState && !serviceWritable e)
    || !rulesHold accessRules e fun f => f s k v

/-- The effect of a write that has passed every check of steps 1 to 5. -/
def State.writeEffect (s : State) (b : By) (e : Ent) (j k : Nat) (v : Int) (l : List Byte) : Word × State :=
  let r := match viewOf effects e with
    | some f => f s b j k v l
    | none => (0, s.store b e j k v l)
  if r.1 = 0 then (0, r.2.savedWrite e) else r

/-- A write of sub-index offset `j` of entry `e`, unit `k`: steps 2 to 6 of R419. -/
def State.writeAt (s : State) (b : By) (e : Ent) (j k : Nat) (l : List Byte) : Word × State :=
  let v := if e.ty.isNum then e.ty.value l else 0
  if !b.role.reaches (e.needs b l) then (abRole, s)
  else if !e.lengthOk l.length then (abLength, s)
  else if s.accessRefused e k v then (abAccess, s)
  else if !(e.inRange v && rulesHold rangeRules e fun f => f s (s.store b e j k v l) k) then (abRange, s)
  else s.writeEffect b e j k v l

/-- What a request reaches at an index and sub-index: the entry, the offset and the unit, or the answer (R419 step 1,
R438). -/
def State.reach (s : State) (b : By) (i sub : Nat) : Except Word (Ent × Nat × Nat) :=
  if 0xF000 ≤ i ∧ b.role = .service ∧ !s.sec.debugUnlocked then .error abAccess
  else match Dict.find i sub with
    | none => .error abNoObject
    | some e =>
      match s.unitOf b.who e with
      | some k => .ok (e, sub - e.s, k)
      | none => .error abNoObject

/-- The abort of a write of INTEGRATE_KEY_ENROL over FDP: that it is for I3C alone is a condition of its chapter, looked
at after role and length (R419, R420, R430; log 82). -/
def enrolElsewhere (b : By) (e : Ent) (l : List Byte) : Word :=
  if !b.role.reaches (e.needs b l) then abRole else if !e.lengthOk l.length then abLength else abAccess

/-- A write of one value by index and sub-index (R419). -/
def State.writeEntry (s : State) (b : By) (i sub : Nat) (l : List Byte) : Word × State :=
  match s.reach b i sub with
  | .ok (e, j, k) =>
    if e == Dict.integrateKeyEnrol && b.who != 0 then (enrolElsewhere b e l, s) else s.writeAt b e j k l
  | .error w => (w, s)

end Sys2Proof.Machine
end

