-- ==== Sys2Proof/Machine/EntryCmds.lean ====
section
/-! DEFINITION. The meanings of the commands that write one entry with an effect of its own (chapters 5 to 17, 19). -/

namespace Sys2Proof.Machine

/-- A write of entry `e`, unit `k`, by role: the value is its bytes (R413, R419). -/
def State.entryWrite (s : State) (role : Role) (e : Ent) (k : Nat) (l : List Byte) : State :=
  finish (s.writeAt { role := role, who := 0 } e 0 k l)

/-- The same, the value a number in the entry's width. -/
def State.numberWrite (s : State) (role : Role) (e : Ent) (k v : Nat) : State :=
  s.entryWrite role e k (leBytes e.ty.size v)

/-- Meaning of OWNER_MAP_WRITE (R123, R125, R130). -/
def execOwnerMapWrite (t : Nat) (role : Role) (dma : Bool) (value : BitVec 8) (s : State) :
    Host.Outcome State Fault Refusal :=
  .next ((s.at t).numberWrite role (if dma then Dict.dmaOwnerMap else Dict.sharedOwnerMap) 0 value.toNat)

/-- Meaning of PORT_ENABLE_WRITE (R163, R590). -/
def execPortEnableWrite (t : Nat) (role : Role) (port : BitVec 4) (value : BitVec 8) (s : State) :
    Host.Outcome State Fault Refusal := .next ((s.at t).numberWrite role Dict.portEnable port.toNat value.toNat)

/-- Meaning of THRESHOLD_WRITE (R208). -/
def execThresholdWrite (t : Nat) (role : Role) (accept : Bool) (value : BitVec 16) (s : State) :
    Host.Outcome State Fault Refusal :=
  .next ((s.at t).numberWrite role (if accept then Dict.acceptThreshold else Dict.rejectThreshold) 0 value.toNat)

/-- The entry of an envelope bound. -/
def envelopeEnt (which : Fin 4) : Ent :=
  match which with
  | 0 => Dict.accThrMin | 1 => Dict.accThrMax | 2 => Dict.rejThrMin | 3 => Dict.rejThrMax

/-- Meaning of ENVELOPE_WRITE (R208). -/
def execEnvelopeWrite (t : Nat) (role : Role) (which : Fin 4) (value : BitVec 16) (s : State) :
    Host.Outcome State Fault Refusal := .next ((s.at t).numberWrite role (envelopeEnt which) 0 value.toNat)

/-- Meaning of POSITION_WRITE (R246). -/
def execPositionWrite (t : Nat) (role : Role) (enc : BitVec 3) (value : BitVec 64) (s : State) :
    Host.Outcome State Fault Refusal := .next ((s.at t).numberWrite role Dict.position enc.toNat value.toNat)

/-- Meaning of INDEX_ARM_WRITE (R254). -/
def execIndexArmWrite (t : Nat) (role : Role) (enc : BitVec 3) (value : BitVec 8) (s : State) :
    Host.Outcome State Fault Refusal := .next ((s.at t).numberWrite role Dict.indexArm enc.toNat value.toNat)

/-- Meaning of SAFE_STATE_RELEASE (R272). -/
def execSafeStateRelease (t : Nat) (role : Role) (value : BitVec 8) (s : State) : Host.Outcome State Fault Refusal :=
  .next ((s.at t).numberWrite role Dict.safeStateRelease 0 value.toNat)

/-- Meaning of DO_FAULT_ACK (R267). -/
def execDoFaultAck (t : Nat) (role : Role) (output : BitVec 4) (value : BitVec 8) (s : State) :
    Host.Outcome State Fault Refusal := .next ((s.at t).numberWrite role Dict.doFaultAck output.toNat value.toNat)

/-- Meaning of VSTREAM_ENABLE_WRITE (R280). -/
def execVstreamEnableWrite (t : Nat) (role : Role) (stream : BitVec 6) (value : BitVec 8) (s : State) :
    Host.Outcome State Fault Refusal := .next ((s.at t).numberWrite role Dict.vstreamEnable stream.toNat value.toNat)

/-- Meaning of TEMPLATE_ENABLE_WRITE (R288, R291). -/
def execTemplateEnableWrite (t : Nat) (role : Role) (template : BitVec 3) (value : BitVec 8) (s : State) :
    Host.Outcome State Fault Refusal :=
  .next ((s.at t).numberWrite role Dict.templateEnable template.toNat value.toNat)

/-- Meaning of KV_POOL_PAGES_WRITE (R298, R317). -/
def execKvPoolPagesWrite (t : Nat) (role : Role) (value : BitVec 32) (s : State) : Host.Outcome State Fault Refusal :=
  .next ((s.at t).numberWrite role Dict.kvPoolPages 0 value.toNat)

/-- Meaning of QUEUE_ENABLE_WRITE (R374, R379). -/
def execQueueEnableWrite (t : Nat) (role : Role) (q : BitVec 12) (value : BitVec 8) (s : State) :
    Host.Outcome State Fault Refusal := .next ((s.at t).numberWrite role Dict.queueEnable q.toNat value.toNat)

/-- Meaning of OBJECT_WRITE (R419). -/
def execObjectWrite (t : Nat) (role : Role) (who index : BitVec 16) (sub : BitVec 8) (value : List Byte) (s : State) :
    Host.Outcome State Fault Refusal :=
  .next (finish ((s.at t).writeEntry { role := role, who := who.toNat } index.toNat sub.toNat value)).closeIfOff

/-- Meaning of STORE_NOW (R417). -/
def execStoreNow (t : Nat) (role : Role) (value : BitVec 8) (s : State) : Host.Outcome State Fault Refusal :=
  .next ((s.at t).numberWrite role Dict.storeNow 0 value.toNat)

/-- Meaning of RESTORE_DEFAULTS (R418). -/
def execRestoreDefaults (t : Nat) (role : Role) (value : BitVec 8) (s : State) : Host.Outcome State Fault Refusal :=
  .next ((s.at t).numberWrite role Dict.restoreDefaults 0 value.toNat)

/-- The entry of a role key. -/
def keyEnt (which : Fin 3) : Ent :=
  match which with
  | 0 => Dict.keyView | 1 => Dict.keyOperate | 2 => Dict.keyIntegrate

/-- Meaning of ROLE_KEY_WRITE (R430). -/
def execRoleKeyWrite (t : Nat) (role : Role) (which : Fin 3) (key : List Byte) (s : State) :
    Host.Outcome State Fault Refusal := .next ((s.at t).entryWrite role (keyEnt which) 0 key)

/-- Meaning of INTEGRATE_KEY_ENROL (R430). -/
def execIntegrateKeyEnrol (t : Nat) (role : Role) (key : List Byte) (s : State) : Host.Outcome State Fault Refusal :=
  .next ((s.at t).entryWrite role Dict.integrateKeyEnrol 0 key)

/-- Meaning of FDP_ENABLE_WRITE (R437). -/
def execFdpEnableWrite (t : Nat) (role : Role) (value : BitVec 8) (s : State) : Host.Outcome State Fault Refusal :=
  .next ((s.at t).numberWrite role Dict.fdpEnable 0 value.toNat)

end Sys2Proof.Machine
end

