-- ==== Sys2Proof/Machine/FabCmds.lean ====
section
/-! DEFINITION. The meanings of the commands of the fabric, and of DMA transfers (chapters 5 and 18). -/

namespace Sys2Proof.Machine

/-- Meaning of DMA_TRANSFER (R119, R122, R145, R402). -/
def execDmaTransfer (t : Nat) (st : BitVec 8) (d : DmaDesc) (s : State) : Host.Outcome State Fault Refusal :=
  .next ((s.at t).dmaTransfer st.toNat d)

/-- Meaning of LINK_ENABLE_WRITE (R390). -/
def execLinkEnableWrite (t : Nat) (role : Role) (link : BitVec 3) (value : BitVec 8) (s : State) :
    Host.Outcome State Fault Refusal :=
  .next (finish ((s.at t).gated role Dict.linkEnable fun s =>
    if value.toNat < 2 then s.writeLinkEnable link.toNat value.toNat else (abRange, s)))

/-- Meaning of BIT_SLIP (R390). -/
def execBitSlip (t : Nat) (role : Role) (lane : BitVec 5) (marker : Bool) (skew : Nat) (s : State) :
    Host.Outcome State Fault Refusal :=
  .next (finish ((s.at t).gated role Dict.bitSlip fun s => (0, s.bitSlip lane.toNat marker skew)))

/-- Meaning of CLOCK_DATA_LOCK (R390). -/
def execClockDataLock (t : Nat) (lane : BitVec 5) (marker : Bool) (skew : Nat) (s : State) :
    Host.Outcome State Fault Refusal := .next ((s.at t).clockLock lane.toNat marker skew)

/-- Meaning of FAB_ALIGN_FAIL (R390). -/
def execFabAlignFail (t : Nat) (link : BitVec 3) (s : State) : Host.Outcome State Fault Refusal :=
  .next ((s.at t).alignFail link.toNat)

/-- Meaning of LANE_LOCK_LOSS (R392). -/
def execLaneLockLoss (t : Nat) (lane : BitVec 5) (s : State) : Host.Outcome State Fault Refusal :=
  .next ((s.at t).lockLoss lane.toNat)

/-- Meaning of TX_SLEEP (R393, R394). -/
def execTxSleep (t : Nat) (link : BitVec 3) (s : State) : Host.Outcome State Fault Refusal :=
  .next ((s.at t).txSleep link.toNat)

/-- Meaning of TX_WAKE (R393). -/
def execTxWake (t : Nat) (link : BitVec 3) (s : State) : Host.Outcome State Fault Refusal :=
  .next ((s.at t).txWake link.toNat)

/-- Meaning of TX_WAKE_END (R393, R398). -/
def execTxWakeEnd (t : Nat) (link : BitVec 3) (s : State) : Host.Outcome State Fault Refusal :=
  .next ((s.at t).txWakeEnd link.toNat)

/-- Meaning of RX_WAKE (R393). -/
def execRxWake (t : Nat) (link : BitVec 3) (s : State) : Host.Outcome State Fault Refusal :=
  .next ((s.at t).rxWakeUp link.toNat)

/-- Meaning of HELLO (R390, R391). -/
def execHello (t : Nat) (link : BitVec 3) (f : Frame) (s : State) : Host.Outcome State Fault Refusal :=
  .next ((s.at t).frameIn link.toNat 11 f fun s => s.hello link.toNat f)

/-- Meaning of SLEEP (R393, R394). -/
def execSleep (t : Nat) (link : BitVec 3) (f : Frame) (s : State) : Host.Outcome State Fault Refusal :=
  .next ((s.at t).frameIn link.toNat 10 f fun s => s.sleep link.toNat f)

/-- Meaning of ACK (R398). -/
def execAck (t : Nat) (link : BitVec 3) (f : Frame) (s : State) : Host.Outcome State Fault Refusal :=
  .next ((s.at t).frameIn link.toNat 8 f fun s => s.ack link.toNat f)

/-- Meaning of NAK (R399). -/
def execNak (t : Nat) (link : BitVec 3) (f : Frame) (s : State) : Host.Outcome State Fault Refusal :=
  .next ((s.at t).frameIn link.toNat 9 f fun s => s.nak link.toNat f)

/-- Meaning of REPLAY_TIMEOUT (R399). -/
def execReplayTimeout (t : Nat) (link : BitVec 3) (s : State) : Host.Outcome State Fault Refusal :=
  .next ((s.at t).replayTimeout link.toNat)

/-- Meaning of TILE_HEAD (R397, R398, R401, R17, R22, R39, R42, R405). -/
def execTileHead (t : Nat) (link : BitVec 3) (f : Frame) (s : State) : Host.Outcome State Fault Refusal :=
  .next ((s.at t).frameIn link.toNat 0 f fun s => s.routed f link.toNat fun s => s.tileHead f)

/-- Meaning of TILE_DATA (R397, R398, R401, R402, R403). -/
def execTileData (t : Nat) (link : BitVec 3) (f : Frame) (s : State) : Host.Outcome State Fault Refusal :=
  .next ((s.at t).frameIn link.toNat 1 f fun s => s.routed f link.toNat fun s => s.tileData f)

/-- Meaning of FAB_READ_REQ (R397, R398, R401, R406). -/
def execFabReadReq (t : Nat) (link : BitVec 3) (f : Frame) (s : State) : Host.Outcome State Fault Refusal :=
  .next ((s.at t).frameIn link.toNat 3 f fun s => s.routed f link.toNat fun s => s.fabRead f)

/-- Meaning of READ_RESP (R397, R398, R401, R407, R409). -/
def execReadResp (t : Nat) (link : BitVec 3) (f : Frame) (s : State) : Host.Outcome State Fault Refusal :=
  .next ((s.at t).frameIn link.toNat 4 f fun s => s.routed f link.toNat fun s => s.readResp f)

/-- Meaning of COMPLETE (R397, R398, R401, R402, R409). -/
def execComplete (t : Nat) (link : BitVec 3) (f : Frame) (s : State) : Host.Outcome State Fault Refusal :=
  .next ((s.at t).frameIn link.toNat 5 f fun s => s.routed f link.toNat fun s => s.completed f)

/-- Meaning of CREDIT (R397, R398, R401, R404). -/
def execCredit (t : Nat) (link : BitVec 3) (f : Frame) (s : State) : Host.Outcome State Fault Refusal :=
  .next ((s.at t).frameIn link.toNat 6 f fun s => s.routed f link.toNat fun s => s.creditIn f)

/-- Meaning of FAB_RETURN (R397, R398, R401, R405, R409). -/
def execFabReturn (t : Nat) (link : BitVec 3) (f : Frame) (s : State) : Host.Outcome State Fault Refusal :=
  .next ((s.at t).frameIn link.toNat 7 f fun s => s.routed f link.toNat fun s => s.fabReturn f)

/-- Meaning of FAB_WRITE (R397, R398, R401, R406). -/
def execFabWrite (t : Nat) (link : BitVec 3) (f : Frame) (old : Bool) (s : State) : Host.Outcome State Fault Refusal :=
  .next ((s.at t).frameIn link.toNat 2 f fun s => s.routed f link.toNat fun s => s.fabWrite f old)

/-- Meaning of FAB_TIMEOUT (R364, R408). -/
def execFabTimeout (t : Nat) (tag : BitVec 12) (s : State) : Host.Outcome State Fault Refusal :=
  .next ((s.at t).fabTimeout tag.toNat)

/-- Meaning of BRIDGE_DATAGRAM (R401, R410). -/
def execBridgeDatagram (t : Nat) (header : BitVec 64) (f : Frame) (s : State) : Host.Outcome State Fault Refusal :=
  .next ((s.at t).bridgeIn header f)

end Sys2Proof.Machine
end

