-- ==== Sys2Proof/Machine/FieldCmds.lean ====
section
/-! DEFINITION. The meanings of the commands of the field interface (chapter 12) and of the encoder supplies (R579). -/

namespace Sys2Proof.Machine

/-- Meaning of ENC_5V_OVERLOAD (R579). -/
def execEnc5vOverload (t : Nat) (enc : BitVec 3) (s : State) : Host.Outcome State Fault Refusal :=
  let s := s.at t
  .next { s with sup := s.sup.upd {} enc.toNat fun x => { x with enc5vOff := true, enc5vAt := s.tb } }

/-- Meaning of ENC_5V_RETRY (R579): 100 ms after the supply went off it is tried again. -/
def execEnc5vRetry (t : Nat) (enc : BitVec 3) (s : State) : Host.Outcome State Fault Refusal :=
  let s := s.at t
  .next { s with sup := s.sup.upd {} enc.toNat fun x =>
    if x.enc5vAt + 100000000 ≤ s.tb then { x with enc5vOff := false, enc5vAt := 0 } else x }

/-- Meaning of DI_SAMPLE (R261). -/
def execDiSample (t : Nat) (input : BitVec 5) (millivolts microamps : Nat) (s : State) : Host.Outcome State Fault Refusal :=
  .next ((s.at t).diSample input.toNat millivolts microamps)

/-- Meaning of DI_CHANGE (R263). -/
def execDiChange (t : Nat) (input : BitVec 5) (s : State) : Host.Outcome State Fault Refusal :=
  .next ((s.at t).diChange input.toNat)

/-- Meaning of FIELD_WIRE_BREAK (R263, R264). -/
def execFieldWireBreak (t : Nat) (input : BitVec 5) (s : State) : Host.Outcome State Fault Refusal :=
  .next ((s.at t).wireBreak input.toNat)

/-- Meaning of FIELD_SUPPLY_LOW (R265). -/
def execFieldSupplyLow (t : Nat) (s : State) : Host.Outcome State Fault Refusal :=
  .next ((s.at t).supplyLow)

/-- Meaning of FIELD_SUPPLY_GOOD (R265). -/
def execFieldSupplyGood (t : Nat) (s : State) : Host.Outcome State Fault Refusal :=
  .next ((s.at t).supplyBack)

/-- Meaning of OUTPUT_FRAME (R266, R269 to R273). -/
def execOutputFrame (t : Nat) (received : Bool) (s : State) : Host.Outcome State Fault Refusal :=
  .next ((s.at t).outputFrame received)

/-- Meaning of FIELD_OUT_OVERCURRENT (R267). -/
def execFieldOutOvercurrent (t : Nat) (output : BitVec 4) (s : State) : Host.Outcome State Fault Refusal :=
  .next ((s.at t).overcurrent output.toNat)

/-- Meaning of DO_RETRY (R267). -/
def execDoRetry (t : Nat) (output : BitVec 4) (s : State) : Host.Outcome State Fault Refusal :=
  .next ((s.at t).doRetry output.toNat)

/-- Meaning of FIELD_OUT_OPEN_LOAD (R267). -/
def execFieldOutOpenLoad (t : Nat) (output : BitVec 4) (s : State) : Host.Outcome State Fault Refusal :=
  .next ((s.at t).openLoad output.toNat)

/-- Meaning of FIELD_OUT_MISMATCH (R267). -/
def execFieldOutMismatch (t : Nat) (output : BitVec 4) (s : State) : Host.Outcome State Fault Refusal :=
  .next ((s.at t).mismatch output.toNat)

/-- Meaning of DO_FAULT_CLEAR (R267). -/
def execDoFaultClear (t : Nat) (output : BitVec 4) (mismatch : Bool) (s : State) : Host.Outcome State Fault Refusal :=
  .next ((s.at t).clearDoFault output.toNat (if mismatch then 2 else 1))

/-- Meaning of WATCHDOG_KICK (R268, R530). -/
def execWatchdogKick (t : Nat) (first second : BitVec 8) (gap : Nat) (s : State) : Host.Outcome State Fault Refusal :=
  .next ((s.at t).kick first second gap)

/-- Meaning of WATCHDOG_EXPIRY (R269). -/
def execWatchdogExpiry (t : Nat) (s : State) : Host.Outcome State Fault Refusal :=
  .next ((s.at t).watchdogExpiry)

/-- Meaning of FIELD_LINK_LOST (R270). -/
def execFieldLinkLost (t : Nat) (s : State) : Host.Outcome State Fault Refusal :=
  .next ((s.at t).fieldLinkLost)

/-- Meaning of FIELD_POWER_UP (R271). -/
def execFieldPowerUp (t : Nat) (s : State) : Host.Outcome State Fault Refusal :=
  .next ((s.at t).fieldPowerUp)

end Sys2Proof.Machine
end

