-- ==== Sys2Proof/Machine/GuardCmds.lean ====
section
/-! DEFINITION. The meanings of the commands of guarding and faults (chapter 25). -/

namespace Sys2Proof.Machine

/-- Meaning of DRAIN_TIMEOUT (R527). -/
def execDrainTimeout (t : Nat) (sid : BitVec 8) (addr scale written : Nat) (s : State) :
    Host.Outcome State Fault Refusal := .next ((s.at t).drainTimeout sid.toNat addr scale written)

/-- Meaning of DRAIN_REPORT (R527). -/
def execDrainReport (t : Nat) (sid : BitVec 8) (s : State) : Host.Outcome State Fault Refusal :=
  .next ((s.at t).drainReport sid.toNat)

/-- Meaning of SENSOR_SAMPLE (R523, R524). -/
def execSensorSample (t : Nat) (sensor : BitVec 8) (value : Int) (s : State) : Host.Outcome State Fault Refusal :=
  .next ((s.at t).sensorSample sensor.toNat value)

/-- Meaning of SENSOR_SILENT (R524). -/
def execSensorSilent (t : Nat) (sensor : BitVec 8) (s : State) : Host.Outcome State Fault Refusal :=
  .next ((s.at t).sensorSilent sensor.toNat)

/-- Meaning of SENSOR_CLEAR (R524). -/
def execSensorClear (t : Nat) (sensor : BitVec 8) (s : State) : Host.Outcome State Fault Refusal :=
  .next ((s.at t).sensorClear sensor.toNat)

/-- Meaning of MGT_HEARTBEAT (R530, R534). -/
def execMgtHeartbeat (t : Nat) (s : State) : Host.Outcome State Fault Refusal := .next (s.at t).heartbeat

/-- Meaning of MGT_HEARTBEAT_LOST (R534). -/
def execMgtHeartbeatLost (t : Nat) (s : State) : Host.Outcome State Fault Refusal := .next (s.at t).heartbeatLost

/-- Meaning of HEARTBEAT_RESET (R534). -/
def execHeartbeatReset (t : Nat) (s : State) : Host.Outcome State Fault Refusal := .next (s.at t).heartbeatReset

/-- Meaning of SUP_SELF_CHECK (R530). -/
def execSupSelfCheck (t : Nat) (good : Bool) (s : State) : Host.Outcome State Fault Refusal :=
  .next ((s.at t).selfCheck good)

/-- Meaning of TRUMP_STOP_HUNG (R532). -/
def execTrumpStopHung (t : Nat) (s : State) : Host.Outcome State Fault Refusal := .next (s.at t).stopHung

/-- Meaning of UNIT_RELEASE (R533). -/
def execUnitRelease (t : Nat) (role : Role) (address : Nat) (s : State) : Host.Outcome State Fault Refusal :=
  .next (finish ((s.at t).gated role Dict.unitRelease fun s => (0, s.releaseUnit address)))

end Sys2Proof.Machine
end

