-- ==== Sys2Proof/Machine/HostOps.lean ====
section
/-! DEFINITION. What both host paths share: reads, descriptions and segmented transfers (R419 to R422). -/

namespace Sys2Proof.Machine

/-! ### Reads (R419) -/

/-- Is ATTEST_REPORT asked for before there is one (R494)? -/
def State.reportMissing (s : State) (b : By) (e : Ent) : Bool :=
  e == Dict.attestReport && (s.sec.reports.look b.who).isNone

/-- The abort of a read of an entry: role, then for a DOMAIN outside a transfer the length, then the access code. -/
def State.readRefused (s : State) (b : By) (e : Ent) (moved : Bool) : Option Word :=
  if !b.role.reaches e.rd then some abRole
  else if (e.ty == .domain) != moved then some abLength
  else if e.acc == .wo || s.reportMissing b e then some abAccess
  else none

/-- An item of a READ response (R424, R433): type, length, value. -/
def State.readItem (s : State) (b : By) (i sub : Nat) : Word × List Byte :=
  match s.reach b i sub with
  | .error w => (w, [])
  | .ok (e, j, k) =>
    match s.readRefused b e false with
    | some w => (w, [])
    | none =>
      let v := s.readValue b e j k
      (0, BitVec.ofNat 8 e.ty.code :: BitVec.ofNat 8 v.length :: v)

/-! ### Descriptions (R421) -/

/-- MIN, MAX and DEFAULT of an entry: zero for values held as bytes and TIME80; of an F32 that takes every finite number,
the least and the greatest. -/
def State.bounds (s : State) (e : Ent) : Nat × Nat × Nat :=
  let w := fun (v : Int) => wrap 64 v
  if !e.ty.isNum || e.ty == .time80 then (0, 0, 0)
  else if e.ty == .f32 then (0xFF7FFFFF, 0x7F7FFFFF, w e.dflt)
  else (w e.lo, w e.hi, w (if e == Dict.trumpArrayMap then s.arrayMapDefault else e.dflt))

/-- The bytes of a name. -/
def nameBytes (n : String) : List Byte := n.toList.map fun c => BitVec.ofNat 8 c.toNat

/-- The record of R421, then the name after its length. -/
def State.describe (s : State) (e : Ent) : List Byte :=
  let (lo, hi, d) := s.bounds e
  let n : Nat := (e.ty.code <<< 248) + (e.acc.code <<< 244) + (e.rd.num <<< 242) + (e.wr.num <<< 240)
    + (e.pers.code <<< 238) + (e.det.toNat <<< 237) + (e.selector.toNat <<< 236)
    + (min e.maxLen 4294967295 <<< 192) + (lo <<< 128) + (hi <<< 64) + d
  leBytes 32 n ++ (BitVec.ofNat 8 e.name.length :: nameBytes e.name)

/-- DESCRIBE of an index and sub-index. -/
def State.describeAt (s : State) (b : By) (i sub : Nat) : Word × List Byte :=
  match s.reach b i sub with
  | .error w => (w, [])
  | .ok (e, _, _) => (0, s.describe e)

/-! ### The end of a DOMAIN's write (R422) -/

/-- Does the length of a whole value match the entry (R413, R181, R412, R455)? -/
def domainLength (e : Ent) (n : Nat) : Bool :=
  if e == Dict.defectTable then n % 6 == 0
  else if e == Dict.shadingTable then n % 2 == 0
  else if e == Dict.fabRoute then n == 256
  else if e == Dict.bridgePeers then n == 512
  else if e == Dict.mcastGroups then n % 4 == 0
  else true

/-- TRUMP_PROGRAM takes a signed object of KIND 3 (R487, R489). -/
def programEffect : Effect := fun s _ _ _ _ l =>
  match s.accepted 3 false false l with
  | some _ => (0, s.setBlob Dict.trumpProgram 0 0 l)
  | none => (abSignature, s.sigFail)

/-- DEBUG_TOKEN: a good one closes every session with the zeroisation it makes (R496, R497). -/
def tokenEffect : Effect := fun s _ _ _ _ l =>
  let r := s.debugToken l
  (r.1, if r.1 = 0 then r.2.closeSessions fun _ => true else r.2)

/-- The effects of DOMAIN entries that do more, or other, than store the value. -/
def domainEffects : List (Ent × Effect) := [
  (Dict.trumpProgram, programEffect), (Dict.debugToken, tokenEffect),
  (Dict.fwStage, fun s _ _ _ _ l => s.fwEnd s.fwTarget l),
  (Dict.modelStage, fun s _ _ _ _ l => s.modelEnd (inactiveOf s.boot.modelRing) l),
  (Dict.mcastGroups, fun s _ _ _ _ l => (0, (s.setBlob Dict.mcastGroups 0 0 l).joinBoth))]

/-- The whole value of a DOMAIN replaces the old one, or its abort (R419, R422, R590). -/
def State.domainWrite (s : State) (b : By) (e : Ent) (k : Nat) (l : List Byte) : Word × State :=
  if !domainLength e l.length then (abLength, s)
  else if s.accessRefused e k 0 then (abAccess, s)
  else if !rulesHold rangeRules e fun f => f s (s.store b e 0 k 0 l) k then (abRange, s)
  else
    let r := match viewOf domainEffects e with
      | some f => f s b 0 k 0 l
      | none => (0, s.store b e 0 k 0 l)
    if r.1 = 0 then (0, r.2.savedWrite e) else r

/-! ### Segmented transfers (R422) -/

/-- Five seconds in ns. -/
def segIdle : Nat := 5000000000

/-- Is a write of this DOMAIN open with another requester? -/
def State.openElsewhere (s : State) (who : Nat) (e : Ent) (k : Nat) : Bool :=
  (0 :: s.host.sessions.map (·.1)).any fun n => n != who && (s.xferOf n).any fun x =>
    x.writes e && x.inst == k && decide (s.tb < x.last + segIdle)

/-- The size that TOTAL may have: MAX_LEN, but of a model 300 GB (R551). -/
def Ent.maxTotal (e : Ent) : Nat := if e == Dict.modelStage then 300000000000 else e.maxLen

/-- The abort of a SEG_INIT that writes `total` bytes: what can be known before the value. -/
def State.segWriteRefused (s : State) (b : By) (e : Ent) (k total : Nat) : Option Word :=
  if !b.role.reaches e.wr then some abRole
  else if e.ty != .domain || decide (e.maxTotal < total) then some abLength
  else if e.acc == .ro || (s.sec.serviceState && !serviceWritable e) then some abAccess
  else if s.openElsewhere b.who e k then some abBusy
  else none

/-- What a SEG_INIT that writes starts beside the transfer: a staging record (R548, R551). -/
def State.stageInit (s : State) (e : Ent) (total : Nat) : Word × State :=
  if e == Dict.fwStage then (0, s.fwInit total)
  else if e == Dict.modelStage then s.modelInit total
  else (0, s)

/-- SEG_INIT: the status and, of a read, the total length. A new one cancels the old transfer. -/
def State.segInit (s : State) (b : By) (i sub : Nat) (write : Bool) (total : Nat) : (Word × Nat) × State :=
  let s := (s.cancelXfer b.who false).setXfer b.who none false
  match s.reach b i sub with
  | .error w => ((w, 0), s)
  | .ok (e, _, k) =>
    let x : Xfer := { idx := e.i, sub := e.s, inst := k, write := write, last := s.tb }
    if write then
      match s.segWriteRefused b e k total with
      | some w => ((w, 0), s)
      | none =>
        let r := s.stageInit e total
        if r.1 = 0 then ((0, 0), r.2.setXfer b.who (some { x with total := total }) false) else ((r.1, 0), s)
    else
      match s.readRefused b e true with
      | some w => ((w, 0), s)
      | none =>
        let v := s.readValue b e 0 k
        ((0, v.length), s.setXfer b.who (some { x with total := v.length, data := v }) false)

/-- The transfer that a SEG_DATA or SEG_END goes to, or its status: cancelled by time, or none open. -/
def State.segFind (s : State) (who : Nat) : Except (Word × State) Xfer :=
  let out := if who = 0 then s.host.i3c.timedOut else (s.host.sessions.look who).any (·.timedOut)
  match s.xferOf who with
  | some x => if x.last + segIdle ≤ s.tb then .error (abSegTimeout, s.cancelXfer who false) else .ok x
  | none => .error (if out then abSegTimeout else abSegSeq, s.setXfer who none false)

/-- The bytes of a model that have arrived (R557). -/
def State.noteStaged (s : State) (x : Xfer) : State :=
  if x.writes Dict.modelStage then { s with boot := { s.boot with stagedBytes := x.data.length } } else s

/-- SEG_DATA of segment `no` with `data`, at most `size` bytes: the status and, of a read, the segment. A body that has not
the form of the transfer's direction executes no part (R424). -/
def State.segData (s : State) (who size no : Nat) (data : List Byte) : (Word × List Byte) × State :=
  match s.segFind who with
  | .error (w, s) => ((w, []), s)
  | .ok x =>
    if size < data.length ∨ (!x.write ∧ data ≠ []) then ((abLength, []), s)
    else if no ≠ x.next then ((abSegSeq, []), s.cancelXfer who false)
    else if x.write then
      if x.total < x.data.length + data.length then ((abLength, []), s.cancelXfer who false)
      else
        let x := { x with next := no + 1, data := x.data ++ data, last := s.tb }
        ((0, []), (s.setXfer who (some x) false).noteStaged x)
    else
      ((0, (x.data.drop (size * no)).take size), s.setXfer who (some { x with next := no + 1, last := s.tb }) false)

/-- A staged model whose SEG_END is refused leaves its commit abandoned (R551). -/
def endStaged (x : Xfer) (r : Word × State) : Word × State :=
  if r.1 ≠ 0 ∧ x.writes Dict.modelStage ∧ r.2.boot.commitStage = 1 then (r.1, r.2.modelAbandon) else r

/-- SEG_END: of a write, the whole value is checked and replaces the old one. -/
def State.segEnd (s : State) (b : By) : Word × State :=
  match s.segFind b.who with
  | .error (w, s) => (w, s)
  | .ok x =>
    if x.write then
      if x.data.length ≠ x.total then (abLength, s.cancelXfer b.who false)
      else match Dict.find x.idx x.sub with
        | some e => endStaged x ((s.setXfer b.who none false).domainWrite b e x.inst x.data)
        | none => (abNoObject, s.setXfer b.who none false)
    else (0, s.setXfer b.who none false)

/-- SEG_TIMEOUT: a transfer idle for 5 s is cancelled. -/
def State.segTimeout (s : State) (who : Nat) : State :=
  match s.xferOf who with
  | some x => if x.last + segIdle ≤ s.tb then s.cancelXfer who true else s
  | none => s

end Sys2Proof.Machine
end

