-- ==== Sys2Proof/Machine/FdpOps.lean ====
section
/-! DEFINITION. The Field Dictionary Protocol: sessions and messages (R423 to R431, R437). -/

namespace Sys2Proof.Machine

/-! ### Datagrams and keys (R423, R425, R429, R430) -/

/-- Are the host paths served (R538): steps 1 to 8 have passed, and no reset holds the module? -/
def State.served (s : State) : Bool := s.boot.booted && s.boot.held.isNone

/-- The key of a role; none where it is unset, or none can be decrypted (R430, R540). -/
def State.roleKey (s : State) (r : Role) : Option (List Byte) :=
  if s.sec.pufBad then none
  else match r with
    | .view => some (s.blob Dict.keyView) |>.filter keySet
    | .operate => some (s.blob Dict.keyOperate) |>.filter keySet
    | .integrate => some (s.blob Dict.keyIntegrate) |>.filter keySet
    | .service => some Config.serviceKey

/-- Is a source address ignored now (R429)? -/
def State.lockedOut (s : State) (src : Nat) : Bool := decide (s.tb < (s.host.lockouts.val {} src).until_)

/-- Does the module take a datagram at all: it serves FDP, on the port set, from an address not locked out? -/
def State.hears (s : State) (m : Datagram) : Bool :=
  s.served && s.flag Dict.fdpEnable && inMap (s.nat Dict.fdpPorts) m.port.toNat && !s.lockedOut m.src.toNat

/-- A datagram is discarded without answer and counted; the sixteenth of a source within 1 s locks it out (R429). -/
def State.authFail (s : State) (src : Nat) : State :=
  let s := s.bump Dict.fdpAuthFailCount
  let bad := ((s.host.lockouts.val {} src).bad.filter fun t => decide (s.tb < t + nsPerS)) ++ [s.tb]
  if bad.length < 16 then
    { s with host := { s.host with lockouts := s.host.lockouts.ins src { bad := bad } } }
  else
    let s := { s with host := { s.host with
      lockouts := s.host.lockouts.ins src { until_ := s.tb + s.nat Dict.fdpLockoutTime * nsPerS } } }
    (s.bump Dict.fdpLockouts).report 0x06701110

/-- The TAG that a request must carry under a key (R423). -/
def Datagram.tagOf (m : Datagram) (key : List Byte) (kind : Nat) : List Byte :=
  hmac256 key (fdpMessage kind false m.version.toNat m.session.toNat m.seq 0 m.body)

/-! ### Opening a session (R425, R428) -/

/-- A number for a new session: non-zero and unlike any open one, the first such from `v` on, looking at `n`. -/
def State.freeSession (s : State) (v : Nat) : Nat → Nat
  | 0 => v
  | n + 1 =>
    if v % 65536 = 0 || (s.host.sessions.look (v % 65536)).isSome then s.freeSession (v + 1) n else v % 65536

/-- Answer an OPEN_REQ, and keep the answer for its nonce. -/
def State.openAnswer (s : State) (m : Datagram) (key : List Byte) (ver ses : Nat) (status : Word) (body : List Byte) :
    State :=
  let d := fdpDatagram key 1 ver ses m.seq status body
  let kept := s.host.nonces.filter fun x => decide (s.tb < x.time + 10000000000)
  ({ s with host := { s.host with
    nonces := kept ++ [{ nonce := (m.body.drop 3).take 16, time := s.tb, resp := d }] } } : State).emit (.fdp ses d)

/-- A session opens: its number and the module nonce are free values. -/
def State.openSession (s : State) (m : Datagram) (role : Role) (key : List Byte) : State :=
  let (v, s) := s.draw 16
  let (nonce, s) := s.draw 128
  let n := s.freeSession v.toNat 10
  let client := (m.body.drop 3).take 16
  let sk := hmac256 key ([0x46, 0x44, 0x50, 0x31] ++ client ++ wordBytes nonce ++ leBytes 2 n)
  let ses : Session := { role := role, key := sk, openedAt := s.tb, lastGood := s.tb }
  let s := { s with host := { s.host with sessions := s.host.sessions.ins n ses } }
  s.openAnswer m key 1 n 0 (1 :: leBytes 2 n ++ wordBytes nonce ++ leBytes 2 (s.nat Dict.sessionTimeout))

/-- OPEN_REQ with a good TAG: a repeated nonce has the same answer; then the body's form, the protocol version, the number
of sessions. -/
def State.openChecked (s : State) (m : Datagram) (role : Role) (key : List Byte) : State :=
  let fresh := s.host.nonces.filter fun x => decide (s.tb < x.time + 10000000000)
  if m.body.length ≠ 19 then s.emit (.fdp 0 (fdpDatagram key 1 0 0 m.seq abLength []))
  else match fresh.find? fun x => x.nonce == (m.body.drop 3).take 16 with
    | some x => s.emit (.fdp 0 x.resp)
    | none =>
      if 1 < (m.body.getD 1 0).toNat ∨ (m.body.getD 2 0).toNat < 1 then s.openAnswer m key 0 0 abVersion []
      else if 8 ≤ s.host.sessions.length then s.openAnswer m key 0 0 abSessionLimit []
      else s.openSession m role key

/-- OPEN_REQ. -/
def State.fdpOpen (s : State) (m : Datagram) : State :=
  if !s.hears m then s
  else
    let r := (m.body.getD 0 4).toNat
    match if r < 4 then s.roleKey (roleOf r) else none with
    | some key => if m.tag == m.tagOf key 0 then s.openChecked m (roleOf r) key else s.authFail m.src.toNat
    | none => s.authFail m.src.toNat

/-! ### Messages within a session (R424, R426, R427, R429) -/

/-- A message kind's work: of the session's number and role, and the body, to the status, the response body and the state
after. -/
abbrev FdpWork := By → List Byte → State → Word × List Byte × State

/-- Answer a request in its session: the response is kept where the session is still open. A write of 0 to FDP_ENABLE
then takes effect (R437). -/
def State.fdpAnswer (s : State) (kind : Nat) (m : Datagram) (key : List Byte) (w : Word) (body : List Byte) : State :=
  let n := m.session.toNat
  let d := fdpDatagram key kind 1 n m.seq w body
  let s := match s.host.sessions.look n with
    | some x =>
      { s with host := { s.host with sessions := s.host.sessions.ins n { x with lastSeq := m.seq, kept := d } } }
    | none => s
  ((s.emit (.fdp n d)).noteAbort w).closeIfOff

/-- A request with a good TAG: executed, answered again, or discarded, by its SEQ (R426). -/
def State.fdpGood (s : State) (kind : Nat) (m : Datagram) (x : Session) (f : FdpWork) : State :=
  let n := m.session.toNat
  let x := { x with lastGood := s.tb, seen := true }
  let s := { s with host := { s.host with sessions := s.host.sessions.ins n x } }
  if newer m.seq x.lastSeq then
    let r := f { role := x.role, who := n } m.body s
    r.2.2.fdpAnswer kind m x.key r.1 r.2.1
  else if m.seq = x.lastSeq ∧ !x.kept.isEmpty then (s.bump Dict.fdpDuplicates).emit (.fdp n x.kept)
  else s

/-- A message of a session. -/
def State.fdpIn (s : State) (kind : Nat) (m : Datagram) (f : FdpWork) : State :=
  if !s.hears m then s
  else match s.host.sessions.look m.session.toNat with
    | some x =>
      if m.version = 1 ∧ m.tag = m.tagOf x.key kind then s.fdpGood kind m x f else s.authFail m.src.toNat
    | none => s.authFail m.src.toNat

/-- A request that must have an empty body. -/
def emptyBody (f : By → State → State) : FdpWork := fun b l s => if l.isEmpty then (0, [], f b s) else (abLength, [], s)

/-! ### READ and WRITE (R419, R424) -/

/-- The items of a READ, as index and sub-index. -/
def readItems : List Byte → Option (List (Nat × Nat))
  | [] => some []
  | a :: b :: c :: _ :: r => (readItems r).map fun l => (a.toNat + 256 * b.toNat, c.toNat) :: l
  | _ => none

/-- Is a number of items allowed? -/
def countOk (n : Nat) : Bool := decide (1 ≤ n ∧ n ≤ 32)

/-- Read items in order: at the first that aborts it stops, and those before it stand. -/
def State.readAll (s : State) (b : By) : List (Nat × Nat) → Word × List Byte
  | [] => (0, [])
  | (i, sub) :: r =>
    let v := s.readItem b i sub
    if v.1 ≠ 0 then (v.1, [])
    else
      let rest := s.readAll b r
      (rest.1, leBytes 2 i ++ leBytes 1 sub ++ v.2 ++ rest.2)

/-- READ: a response above 1,400 bytes reads nothing. -/
def fdpRead : FdpWork := fun b l s =>
  match readItems l with
  | some items =>
    if countOk items.length then
      let r := s.readAll b items
      if 1400 < r.2.length then (abTooLong, [], s) else (r.1, r.2, s)
    else (abLength, [], s)
  | none => (abLength, [], s)

/-- The items of a WRITE, as index, sub-index and value; none where the body does not match its lengths. `n` bounds the
bytes looked at. -/
def writeItems (l : List Byte) : Nat → Option (List (Nat × Nat × List Byte))
  | 0 => if l.isEmpty then some [] else none
  | n + 1 =>
    match l with
    | [] => some []
    | a :: b :: c :: k :: r =>
      if r.length < k.toNat then none
      else (writeItems (r.drop k.toNat) n).map fun x => (a.toNat + 256 * b.toNat, c.toNat, r.take k.toNat) :: x
    | _ => none

/-- Write items in order: at the first that aborts it stops; its number, and what was written before it stands. -/
def State.writeAll (s : State) (b : By) (k : Nat) : List (Nat × Nat × List Byte) → Word × List Byte × State
  | [] => (0, [], s)
  | (i, sub, v) :: r =>
    let x := s.writeEntry b i sub v
    if x.1 ≠ 0 then (x.1, leBytes 1 k, x.2) else x.2.writeAll b (k + 1) r

/-- WRITE. -/
def fdpWrite : FdpWork := fun b l s =>
  match writeItems l l.length with
  | some items => if countOk items.length then s.writeAll b 0 items else (abLength, [], s)
  | none => (abLength, [], s)

/-! ### The other kinds -/

/-- DESCRIBE: one item. -/
def fdpDescribe : FdpWork := fun b l s =>
  match readItems l with
  | some [(i, sub)] =>
    let r := s.describeAt b i sub
    (r.1, r.2, s)
  | _ => (abLength, [], s)

/-- SEG_INIT: index, sub-index, DIR, and TOTAL of a write. -/
def fdpSegInit : FdpWork := fun b l s =>
  let go := fun (write : Bool) (total : Nat) =>
    let r := s.segInit b (leNat (l.take 2)) (l.getD 2 0).toNat write total
    (r.1.1, if r.1.1 = 0 ∧ !write then leBytes 4 r.1.2 else [], r.2)
  if l.length = 4 ∧ l.getD 3 0 = 0 then go false 0
  else if l.length = 8 ∧ l.getD 3 0 = 1 then go true (leNat (l.drop 4))
  else (abLength, [], s)

/-- SEG_DATA: SEG_NO, and the data of a write. -/
def fdpSegData : FdpWork := fun b l s =>
  if l.length < 4 then (abLength, [], s)
  else
    let r := s.segData b.who 1024 (leNat (l.take 4)) (l.drop 4)
    (r.1.1, if r.1.1 = 0 then l.take 4 ++ r.1.2 else [], r.2)

/-- SEG_END. -/
def fdpSegEnd : FdpWork := fun b l s =>
  if l.isEmpty then
    let r := s.segEnd b
    (r.1, [], r.2)
  else (abLength, [], s)

/-- SUBSCRIBE: bits 4 to 31 of the mask must be zero (R431). -/
def fdpSubscribe : FdpWork := fun b l s =>
  if l.length ≠ 4 then (abLength, [], s)
  else if 16 ≤ leNat l then (abRange, [], s)
  else match s.host.sessions.look b.who with
    | some x =>
      (0, [], { s with host := { s.host with
        sessions := s.host.sessions.ins b.who { x with mask := BitVec.ofNat 32 (leNat l) } } })
    | none => (0, [], s)

/-- A kind that is reserved, or no request of a session (R420, R424). -/
def fdpBadKind : FdpWork := fun _ _ s => (abBadKind, [], s)

/-- Is a message kind one that no session may send: OPEN_RESP, EVENT, and 12 to 15? -/
def badKind (k : Nat) : Bool := k == 1 || k == 9 || decide (12 ≤ k)

/-! ### Timeouts (R425, R427) -/

/-- SESSION_TIMEOUT: no message with a good TAG for SESSION_TIMEOUT. -/
def State.sessionTimeout (s : State) (n : Nat) : State :=
  match s.host.sessions.look n with
  | some x =>
    if x.lastGood + s.nat Dict.sessionTimeout * nsPerS ≤ s.tb then s.closeSession n else s
  | none => s

/-- SESSION_OPEN_IDLE: no request with a good TAG within 2 s of opening. -/
def State.openIdle (s : State) (n : Nat) : State :=
  match s.host.sessions.look n with
  | some x => if !x.seen && decide (x.openedAt + 2000000000 ≤ s.tb) then s.closeSession n else s
  | none => s

/-- SETTINGS_COMMIT: 2 s after the last saved write of a burst (R417). -/
def State.settingsCommit (s : State) : State :=
  match s.boot.saveDirtyAt with
  | some t => if t + 2000000000 ≤ s.tb then s.commitSaved else s
  | none => s

end Sys2Proof.Machine
end

