-- ==== Sys2Proof/Machine/I3cOps.lean ====
section
/-! DEFINITION. The I3C target: private writes and reads, events, CCCs (R432 to R436). -/

namespace Sys2Proof.Machine

/-- Change the I3C target. -/
def State.mapI3c (s : State) (f : I3c → I3c) : State := { s with host := { s.host with i3c := f s.host.i3c } }

/-- The role of every I3C request (R433); View alone where no key can be decrypted, and the recovery loader's own right to
take firmware (R540). -/
def State.i3cBy (s : State) : By :=
  { who := 0
    role := if s.boot.recoveryLoader then .service else if s.sec.pufBad then .view else roleOf (s.nat Dict.i3cRole) }

/-- Does the target answer: served with I3C_ENABLE 1, or the recovery loader (R538, R540)? -/
def State.i3cOn (s : State) : Bool := s.boot.recoveryLoader || (s.served && s.flag Dict.i3cEnable)

/-! ### Results (R432, R434, R435) -/

/-- Put a result in place of any other: cut to its status where it is longer than the read length in force. `slow`: a
DOMAIN segment or SEG_END. -/
def State.i3cResult (s : State) (slow : Bool) (w : Word) (body : List Byte) : State :=
  let r := leBytes 4 w.toNat ++ body
  let r := if s.host.i3c.mrl < r.length + 1 then leBytes 4 abLength.toNat else r
  (s.mapI3c fun x => { x with
    result := some (r ++ [BitVec.ofNat 8 (crc8 r)]), writtenAt := s.tb, slow := slow, ready := false }).noteAbort w

/-- A private write that fails its CRC-8 or its layout (R435). -/
def State.badFrame (s : State) : State := (s.bump Dict.i3cCrcErrors).i3cResult false abI3cFrame []

/-- A private write of command `cmd` with `body` and its CRC-8; `ok`: is the body long enough, and no longer than its
layout? In the recovery loader only what `loader` allows is executed (R540), and no write where no key can be decrypted. -/
def State.i3cWrite (s : State) (cmd : Nat) (body : List Byte) (crc : BitVec 8) (ok : Bool) (loader : Bool)
    (f : By → State → State) : State :=
  if !(s.i3cOn && s.host.i3c.addr != 0) then s.emit .nack
  else
    let s := s.mapI3c fun x => { x with hdr := x.hdr && s.flag Dict.i3cHdrEn }
    if crc.toNat ≠ crc8 (BitVec.ofNat 8 cmd :: body) ∨ !ok then s.badFrame
    else if s.boot.recoveryLoader && !loader then s.i3cResult false abAccess []
    else f s.i3cBy s

/-- The index a body names. -/
def bodyIndex (l : List Byte) : Nat := leNat (l.take 2)

/-- Is an index in the range the recovery loader lets read? -/
def loaderIndex (i : Nat) : Bool := i / 256 == 0x10

/-- READ. -/
def State.i3cRead (s : State) (body : List Byte) (crc : BitVec 8) : State :=
  s.i3cWrite 1 body crc (body.length == 3) (loaderIndex (bodyIndex body)) fun b s =>
    let r := s.readItem b (bodyIndex body) (body.getD 2 0).toNat
    s.i3cResult false r.1 r.2

/-- A WRITE of a value longer than 64 bytes is answered with TYPE_LENGTH, after the index and the role (R419, R432). -/
def State.longWrite (s : State) (b : By) (i sub : Nat) (v : List Byte) : Word :=
  match s.reach b i sub with
  | .ok (e, _, _) => if b.role.reaches (e.needs b v) then abLength else abRole
  | .error w => w

/-- WRITE. -/
def State.i3cWriteEntry (s : State) (body : List Byte) (crc : BitVec 8) : State :=
  s.i3cWrite 2 body crc (decide (4 ≤ body.length) && body.length == 4 + (body.getD 3 0).toNat) false fun b s =>
    let v := body.drop 4
    let sub := (body.getD 2 0).toNat
    if s.sec.pufBad then s.i3cResult false abAccess []
    else if 64 < v.length then s.i3cResult false (s.longWrite b (bodyIndex body) sub v) []
    else
      let r := s.writeEntry b (bodyIndex body) sub v
      r.2.i3cResult false r.1 []

/-- Does a SEG_INIT write FW_STAGE? -/
def stagesFirmware (body : List Byte) : Bool :=
  bodyIndex body == Dict.fwStage.i && (body.getD 2 0).toNat == Dict.fwStage.s && body.getD 3 0 == 1

/-- SEG_INIT: index, sub-index, DIR, TOTAL. -/
def State.i3cSegInit (s : State) (body : List Byte) (crc : BitVec 8) : State :=
  s.i3cWrite 3 body crc (body.length == 8 && decide ((body.getD 3 0).toNat < 2)) (stagesFirmware body) fun b s =>
    if s.sec.pufBad && body.getD 3 0 == 1 then s.i3cResult false abAccess []
    else
      let r := s.segInit b (bodyIndex body) (body.getD 2 0).toNat (body.getD 3 0 == 1) (leNat (body.drop 4))
      r.2.i3cResult false r.1.1 (leBytes 4 r.1.2)

/-- SEG_DATA: SEG_NO, data of up to 64 bytes when writing. -/
def State.i3cSegData (s : State) (body : List Byte) (crc : BitVec 8) : State :=
  s.i3cWrite 4 body crc (decide (4 ≤ body.length ∧ body.length ≤ 68)) true fun b s =>
    let r := s.segData b.who 64 (leNat (body.take 4)) (body.drop 4)
    r.2.i3cResult true r.1.1 (if r.1.1 = 0 then body.take 4 ++ r.1.2 else [])

/-- SEG_END. The recovery loader resets the module after it, and no result stays. -/
def State.i3cSegEnd (s : State) (body : List Byte) (crc : BitVec 8) : State :=
  s.i3cWrite 5 body crc body.isEmpty true fun b s =>
    let r := s.segEnd b
    if s.boot.recoveryLoader && !r.2.boot.recoveryLoader then r.2 else r.2.i3cResult true r.1 []

/-- DESCRIBE. -/
def State.i3cDescribe (s : State) (body : List Byte) (crc : BitVec 8) : State :=
  s.i3cWrite 6 body crc (body.length == 3) false fun b s =>
    let r := s.describeAt b (bodyIndex body) (body.getD 2 0).toNat
    s.i3cResult false r.1 r.2

/-- EVENT_POP: the oldest event, which goes, or none. -/
def State.eventPop (s : State) (body : List Byte) (crc : BitVec 8) : State :=
  s.i3cWrite 7 body crc body.isEmpty false fun _ s =>
    match s.host.i3c.events with
    | e :: r => (s.mapI3c fun x => { x with events := r }).i3cResult false 0 e
    | [] => s.i3cResult false 0 []

/-- I3C_RESULT_READ (R434): given once it is ready, at the latest 200 µs after the write's STOP, DOMAIN segments and
SEG_END excepted; whether it is ready sooner is free. -/
def State.resultRead (s : State) : State :=
  let i := s.host.i3c
  match if s.i3cOn && i.addr != 0 then i.result else none with
  | none => s.emit .nack
  | some r =>
    if i.ready || (!i.slow && decide (i.writtenAt + 200000 ≤ s.tb)) then
      (s.mapI3c fun x => { x with ready := true }).emit (.i3c r)
    else
      let (b, s) := s.draw 1
      if b = 1 then (s.mapI3c fun x => { x with ready := true }).emit (.i3c r) else s.emit .nack

/-- I3C_IBI (R436): the mandatory byte and the oldest event's status word. -/
def State.raiseIbi (s : State) : State :=
  match s.host.i3c.events with
  | e :: _ => if s.i3cOn && s.host.i3c.ibi && s.host.i3c.addr != 0 then s.emit (.ibi (1 :: e.take 4)) else s
  | [] => s

/-! ### CCCs (R432, R436) -/

/-- A CCC that the target takes: it ends HDR mode; where the target does not answer it is not acknowledged. -/
def State.ccc (s : State) (ok : Bool) (f : State → State) : State :=
  if s.i3cOn && ok then f (s.mapI3c fun x => { x with hdr := false }) else s.emit .nack

/-- The target takes a dynamic address: IBIs are enabled from then on. -/
def State.takeAddr (s : State) (a : Nat) : State := s.mapI3c fun x => { x with addr := a, ibi := true }

/-- ENTDAA. -/
def State.entdaa (s : State) (a : Nat) : State := s.ccc (s.host.i3c.addr == 0) fun s => s.takeAddr a

/-- SETDASA at I3C_STATIC_ADDR. -/
def State.setdasa (s : State) (static a : Nat) : State :=
  s.ccc (s.host.i3c.addr == 0 && static == s.nat Dict.i3cStaticAddr) fun s => s.takeAddr a

/-- Does the target have a dynamic address? -/
def State.addressed (s : State) : Bool := s.host.i3c.addr != 0

/-- SETNEWDA leaves the setting of IBIs as it stands. -/
def State.setnewda (s : State) (a : Nat) : State := s.ccc s.addressed fun s => s.mapI3c fun x => { x with addr := a }

/-- RSTDAA. -/
def State.rstdaa (s : State) : State := s.ccc true fun s => s.mapI3c fun x => { x with addr := 0, ibi := false }

/-- ENEC and DISEC: bit 0 of the events names IBIs. -/
def State.setIbi (s : State) (on : Bool) (events : Nat) : State :=
  s.ccc s.addressed fun s => if inMap events 0 then s.mapI3c fun x => { x with ibi := on } else s

/-- A CCC that reads bytes. -/
def State.cccGet (s : State) (f : State → List Byte × State) : State :=
  s.ccc s.addressed fun s =>
    let r := f s
    r.2.emit (.i3c r.1)

/-- Two bytes whose value the spec does not give (GETSTATUS, GETMXDS). -/
def twoFree (s : State) : List Byte × State :=
  let (v, s) := s.draw 16
  (wordBytes v, s)

/-- The bytes of a number, the most significant first. -/
def beOf (n v : Nat) : List Byte := (leBytes n v).reverse

/-- SETMWL and SETMRL: a length from 16 to the greatest is taken. -/
def State.setLength (s : State) (top v : Nat) (f : I3c → Nat → I3c) : State :=
  s.ccc s.addressed fun s => if 16 ≤ v ∧ v ≤ top then s.mapI3c fun x => f x v else s

/-- ENTHDR0: HDR-DDR is entered where I3C_HDR_EN is 1. -/
def State.enthdr0 (s : State) : State :=
  s.ccc (s.flag Dict.i3cHdrEn) fun s => s.mapI3c fun x => { x with hdr := true }

end Sys2Proof.Machine
end

