-- ==== Sys2Proof/Machine/HostCmds.lean ====
section
/-! DEFINITION. The meanings of the commands of the host paths (chapter 19). -/

namespace Sys2Proof.Machine

/-- Meaning of FDP_OPEN_REQ (R425, R428). -/
def execFdpOpenReq (t : Nat) (m : Datagram) (s : State) : Host.Outcome State Fault Refusal := .next ((s.at t).fdpOpen m)

/-- Meaning of FDP_CLOSE (R427). -/
def execFdpClose (t : Nat) (m : Datagram) (s : State) : Host.Outcome State Fault Refusal :=
  .next ((s.at t).fdpIn 2 m (emptyBody fun b s => s.closeSession b.who))

/-- Meaning of FDP_READ (R419, R424). -/
def execFdpRead (t : Nat) (m : Datagram) (s : State) : Host.Outcome State Fault Refusal :=
  .next ((s.at t).fdpIn 3 m fdpRead)

/-- Meaning of FDP_WRITE (R419, R424). -/
def execFdpWrite (t : Nat) (m : Datagram) (s : State) : Host.Outcome State Fault Refusal :=
  .next ((s.at t).fdpIn 4 m fdpWrite)

/-- Meaning of FDP_DESCRIBE (R421). -/
def execFdpDescribe (t : Nat) (m : Datagram) (s : State) : Host.Outcome State Fault Refusal :=
  .next ((s.at t).fdpIn 5 m fdpDescribe)

/-- Meaning of FDP_SEG_INIT (R422). -/
def execFdpSegInit (t : Nat) (m : Datagram) (s : State) : Host.Outcome State Fault Refusal :=
  .next ((s.at t).fdpIn 6 m fdpSegInit)

/-- Meaning of FDP_SEG_DATA (R422). -/
def execFdpSegData (t : Nat) (m : Datagram) (s : State) : Host.Outcome State Fault Refusal :=
  .next ((s.at t).fdpIn 7 m fdpSegData)

/-- Meaning of FDP_SEG_END (R422). -/
def execFdpSegEnd (t : Nat) (m : Datagram) (s : State) : Host.Outcome State Fault Refusal :=
  .next ((s.at t).fdpIn 8 m fdpSegEnd)

/-- Meaning of FDP_SUBSCRIBE (R431). -/
def execFdpSubscribe (t : Nat) (m : Datagram) (s : State) : Host.Outcome State Fault Refusal :=
  .next ((s.at t).fdpIn 10 m fdpSubscribe)

/-- Meaning of FDP_KEEPALIVE (R427). -/
def execFdpKeepalive (t : Nat) (m : Datagram) (s : State) : Host.Outcome State Fault Refusal :=
  .next ((s.at t).fdpIn 11 m (emptyBody fun _ s => s))

/-- Meaning of FDP_BAD_KIND (R424). -/
def execFdpBadKind (t : Nat) (kind : BitVec 4) (m : Datagram) (s : State) : Host.Outcome State Fault Refusal :=
  .next (if badKind kind.toNat then (s.at t).fdpIn kind.toNat m fdpBadKind else s.at t)

/-- Meaning of FDP_AUTH_FAIL (R429). -/
def execFdpAuthFail (t : Nat) (m : Datagram) (s : State) : Host.Outcome State Fault Refusal :=
  .next (if (s.at t).hears m then (s.at t).authFail m.src.toNat else s.at t)

/-- Meaning of SEG_TIMEOUT (R422). -/
def execSegTimeout (t : Nat) (who : BitVec 16) (s : State) : Host.Outcome State Fault Refusal :=
  .next ((s.at t).segTimeout who.toNat)

/-- Meaning of SESSION_TIMEOUT (R427). -/
def execSessionTimeout (t : Nat) (session : BitVec 16) (s : State) : Host.Outcome State Fault Refusal :=
  .next ((s.at t).sessionTimeout session.toNat)

/-- Meaning of SESSION_OPEN_IDLE (R425). -/
def execSessionOpenIdle (t : Nat) (session : BitVec 16) (s : State) : Host.Outcome State Fault Refusal :=
  .next ((s.at t).openIdle session.toNat)

/-- Meaning of SETTINGS_COMMIT (R417). -/
def execSettingsCommit (t : Nat) (s : State) : Host.Outcome State Fault Refusal := .next (s.at t).settingsCommit

/-- Meaning of I3C_READ (R433). -/
def execI3cRead (t : Nat) (body : List Byte) (crc : BitVec 8) (s : State) : Host.Outcome State Fault Refusal :=
  .next ((s.at t).i3cRead body crc)

/-- Meaning of I3C_WRITE (R432, R433). -/
def execI3cWrite (t : Nat) (body : List Byte) (crc : BitVec 8) (s : State) : Host.Outcome State Fault Refusal :=
  .next ((s.at t).i3cWriteEntry body crc)

/-- Meaning of I3C_SEG_INIT (R422, R433). -/
def execI3cSegInit (t : Nat) (body : List Byte) (crc : BitVec 8) (s : State) : Host.Outcome State Fault Refusal :=
  .next ((s.at t).i3cSegInit body crc)

/-- Meaning of I3C_SEG_DATA (R422, R433). -/
def execI3cSegData (t : Nat) (body : List Byte) (crc : BitVec 8) (s : State) : Host.Outcome State Fault Refusal :=
  .next ((s.at t).i3cSegData body crc)

/-- Meaning of I3C_SEG_END (R422, R433, R540). -/
def execI3cSegEnd (t : Nat) (body : List Byte) (crc : BitVec 8) (s : State) : Host.Outcome State Fault Refusal :=
  .next ((s.at t).i3cSegEnd body crc)

/-- Meaning of I3C_DESCRIBE (R421, R433). -/
def execI3cDescribe (t : Nat) (body : List Byte) (crc : BitVec 8) (s : State) : Host.Outcome State Fault Refusal :=
  .next ((s.at t).i3cDescribe body crc)

/-- Meaning of EVENT_POP (R433, R436). -/
def execEventPop (t : Nat) (body : List Byte) (crc : BitVec 8) (s : State) : Host.Outcome State Fault Refusal :=
  .next ((s.at t).eventPop body crc)

/-- Meaning of I3C_RESULT_READ (R434). -/
def execI3cResultRead (t : Nat) (s : State) : Host.Outcome State Fault Refusal := .next (s.at t).resultRead

/-- Meaning of I3C_IBI (R436). -/
def execI3cIbi (t : Nat) (s : State) : Host.Outcome State Fault Refusal := .next (s.at t).raiseIbi

/-- Meaning of ENTDAA (R432, R436). -/
def execEntdaa (t : Nat) (address : BitVec 7) (s : State) : Host.Outcome State Fault Refusal :=
  .next ((s.at t).entdaa address.toNat)

/-- Meaning of SETDASA (R432, R436). -/
def execSetdasa (t : Nat) (static address : BitVec 7) (s : State) : Host.Outcome State Fault Refusal :=
  .next ((s.at t).setdasa static.toNat address.toNat)

/-- Meaning of SETNEWDA (R432, R436). -/
def execSetnewda (t : Nat) (address : BitVec 7) (s : State) : Host.Outcome State Fault Refusal :=
  .next ((s.at t).setnewda address.toNat)

/-- Meaning of RSTDAA (R432, R436). -/
def execRstdaa (t : Nat) (s : State) : Host.Outcome State Fault Refusal := .next (s.at t).rstdaa

/-- Meaning of ENEC (R432, R436). -/
def execEnec (t : Nat) (events : BitVec 8) (s : State) : Host.Outcome State Fault Refusal :=
  .next ((s.at t).setIbi true events.toNat)

/-- Meaning of DISEC (R432, R436). -/
def execDisec (t : Nat) (events : BitVec 8) (s : State) : Host.Outcome State Fault Refusal :=
  .next ((s.at t).setIbi false events.toNat)

/-- Meaning of GETPID (R432). -/
def execGetpid (t : Nat) (s : State) : Host.Outcome State Fault Refusal :=
  .next ((s.at t).cccGet fun s => (beOf 6 s.pid, s))

/-- Meaning of GETBCR (R432). -/
def execGetbcr (t : Nat) (s : State) : Host.Outcome State Fault Refusal := .next ((s.at t).cccGet fun s => ([0x06], s))

/-- Meaning of GETDCR (R432). -/
def execGetdcr (t : Nat) (s : State) : Host.Outcome State Fault Refusal := .next ((s.at t).cccGet fun s => ([0x00], s))

/-- Meaning of GETSTATUS (R432): the spec gives no value (log 80). -/
def execGetstatus (t : Nat) (s : State) : Host.Outcome State Fault Refusal := .next ((s.at t).cccGet twoFree)

/-- Meaning of GETMWL (R432). -/
def execGetmwl (t : Nat) (s : State) : Host.Outcome State Fault Refusal :=
  .next ((s.at t).cccGet fun s => (beOf 2 s.host.i3c.mwl, s))

/-- Meaning of SETMWL (R432). -/
def execSetmwl (t : Nat) (length : BitVec 16) (s : State) : Host.Outcome State Fault Refusal :=
  .next ((s.at t).setLength 72 length.toNat fun x v => { x with mwl := v })

/-- Meaning of GETMRL (R432): the read length, then the 5 bytes of an IBI's payload. -/
def execGetmrl (t : Nat) (s : State) : Host.Outcome State Fault Refusal :=
  .next ((s.at t).cccGet fun s => (beOf 2 s.host.i3c.mrl ++ [5], s))

/-- Meaning of SETMRL (R432). -/
def execSetmrl (t : Nat) (length : BitVec 16) (s : State) : Host.Outcome State Fault Refusal :=
  .next ((s.at t).setLength 264 length.toNat fun x v => { x with mrl := v })

/-- Meaning of GETMXDS (R432): the spec gives no value (log 80). -/
def execGetmxds (t : Nat) (s : State) : Host.Outcome State Fault Refusal := .next ((s.at t).cccGet twoFree)

/-- Meaning of ENTHDR0 (R432). -/
def execEnthdr0 (t : Nat) (s : State) : Host.Outcome State Fault Refusal := .next (s.at t).enthdr0

end Sys2Proof.Machine
end

