-- ==== Sys2Proof/Machine/JobCmds.lean ====
section
/-! DEFINITION. The meanings of the commands of the Trump domain and the job scheduler (chapter 16). -/

namespace Sys2Proof.Machine

/-- Meaning of TRUMP_START (R346, R348, R540, R541). -/
def execTrumpStart (t : Nat) (role : Role) (s : State) : Host.Outcome State Fault Refusal :=
  .next (finish ((s.at t).gated role Dict.trumpControl State.writeStart))

/-- Meaning of TRUMP_STARTED (R194, R329, R348). -/
def execTrumpStarted (t : Nat) (s : State) : Host.Outcome State Fault Refusal := .next (s.at t).trumpStarted

/-- Meaning of TRUMP_STOP (R338, R342, R346, R350). -/
def execTrumpStop (t : Nat) (role : Role) (s : State) : Host.Outcome State Fault Refusal :=
  .next (finish ((s.at t).gated role Dict.trumpControl State.writeStop))

/-- Meaning of TRUMP_STOPPED (R346). -/
def execTrumpStopped (t : Nat) (s : State) : Host.Outcome State Fault Refusal := .next (s.at t).trumpHalted

/-- Meaning of TRUMP_ARRAY_MAP_WRITE (R347). -/
def execTrumpArrayMapWrite (t : Nat) (role : Role) (split : Bool) (value : BitVec 16) (s : State) :
    Host.Outcome State Fault Refusal :=
  .next (finish ((s.at t).gated role (if split then Dict.trumpSplitMap else Dict.trumpArrayMap) fun s =>
    if split then s.writeSplitMap value.toNat else s.writeArrayMap value.toNat))

/-- Meaning of JOB_SUBMIT (R352, R356, R365). -/
def execJobSubmit (t : Nat) (role : Role) (d : Option Desc) (s : State) : Host.Outcome State Fault Refusal :=
  .next ((s.at t).jobSubmit role d)

/-- Meaning of JOB_BLOCKED (R355). -/
def execJobBlocked (t : Nat) (id : BitVec 32) (s : State) : Host.Outcome State Fault Refusal :=
  .next ((s.at t).jobBlocked id.toNat)

/-- Meaning of JOB_UNBLOCKED (R355). -/
def execJobUnblocked (t : Nat) (id : BitVec 32) (s : State) : Host.Outcome State Fault Refusal :=
  .next ((s.at t).jobUnblocked id.toNat)

/-- Meaning of RESIDENT_LOAD_DONE (R358, R359, R554). -/
def execResidentLoadDone (t : Nat) (id : BitVec 32) (tables : List (BitVec 8 × Nat × List StepWord))
    (entries : List MapEntry) (credits : Nat) (moved : List (BitVec 48 × List Byte)) (usesModel : Bool) (s : State) :
    Host.Outcome State Fault Refusal :=
  .next ((s.at t).loadDone id.toNat (tables.map fun x => (x.1.toNat, x.2)) entries credits
    (moved.map fun x => (x.1.toNat, x.2)) usesModel)

/-- Meaning of PREEMPT_BOUNDARY (R149, R362 to R364). -/
def execPreemptBoundary (t : Nat) (absent : Bool) (switchNs : Fin 50001) (s : State) :
    Host.Outcome State Fault Refusal := .next ((s.at t).boundary absent switchNs.val)

/-- Meaning of JOB_DEADLINE_MISSED (R357). -/
def execJobDeadlineMissed (t : Nat) (id : BitVec 32) (s : State) : Host.Outcome State Fault Refusal :=
  .next ((s.at t).deadlineMissed id.toNat)

/-- Meaning of JOB_OVERRUN (R357, R370). -/
def execJobOverrun (t : Nat) (id : BitVec 32) (s : State) : Host.Outcome State Fault Refusal :=
  .next ((s.at t).overrun id.toNat)

/-- Meaning of JOB_ABORT (R370). -/
def execJobAbort (t : Nat) (role : Role) (id : BitVec 32) (s : State) : Host.Outcome State Fault Refusal :=
  .next (finish ((s.at t).gated role Dict.jobAbort fun s => s.writeAbort id.toNat))

/-- Meaning of JOB_END (R368, R369). -/
def execJobEnd (t : Nat) (id : BitVec 32) (s : State) : Host.Outcome State Fault Refusal :=
  .next ((s.at t).jobEnd id.toNat)

end Sys2Proof.Machine
end

