-- ==== Sys2Proof/Machine/MemoryCmds.lean ====
section
/-! DEFINITION. The meanings of the buffer and memory commands (chapters 5 and 6). -/

namespace Sys2Proof.Machine

/-- Meaning of BUF_ACCESS (R112 to R116, R118, R124, R127). -/
def execBufAccess (t : Nat) (bank : BitVec 9) (reqs : List BankReq) (s : State) : Host.Outcome State Fault Refusal :=
  .next ((s.at t).bankCycle bank.toNat reqs)

/-- Meaning of DMA_GRANT_FORCED (R113): a cycle of the bank, where a DMA request has been refused for 32 cycles and no
burst holds the bank. -/
def execDmaGrantForced (t : Nat) (bank : BitVec 9) (reqs : List BankReq) (s : State) :
    Host.Outcome State Fault Refusal :=
  .next (if (s.at t).forcedNow bank.toNat reqs then (s.at t).bankCycle bank.toNat reqs else s.at t)

/-- Meaning of GROUP_POWER_DOWN (R126, R127). -/
def execGroupPowerDown (t : Nat) (group : Fin 24) (outstanding : Nat) (s : State) : Host.Outcome State Fault Refusal :=
  .next ((s.at t).groupDown group outstanding)

/-- Meaning of GROUP_OFF (R127, R128). -/
def execGroupOff (t : Nat) (group : Fin 24) (waiting : List (BitVec 8)) (s : State) :
    Host.Outcome State Fault Refusal := .next ((s.at t).groupOff group waiting)

/-- Meaning of GROUP_FORCED_OFF (R127, R128). -/
def execGroupForcedOff (t : Nat) (group : Fin 24) (waiting : List (BitVec 8)) (s : State) :
    Host.Outcome State Fault Refusal := .next ((s.at t).groupForcedOff group waiting)

/-- Meaning of GROUP_POWER_UP (R126, R128). -/
def execGroupPowerUp (t : Nat) (group : Fin 24) (s : State) : Host.Outcome State Fault Refusal :=
  .next ((s.at t).groupUp group)

/-- Meaning of GROUP_CLEAR_DONE (R126). -/
def execGroupClearDone (t : Nat) (group : Fin 24) (s : State) : Host.Outcome State Fault Refusal :=
  .next ((s.at t).groupReady group)

/-- Meaning of OWNER_FILL_DONE (R125). -/
def execOwnerFillDone (t : Nat) (group : Fin 8) (s : State) : Host.Outcome State Fault Refusal :=
  .next ((s.at t).fillDone group)

/-- Meaning of HBM_ACCESS (R133, R137, R140, R141, R143 to R146, R149). -/
def execHbmAccess (t : Nat) (st : BitVec 8) (off hint len : Nat) (rowOpen : Bool) (write : Option (List Byte))
    (ecc : EccResult) (s : State) : Host.Outcome State Fault Refusal :=
  .next ((s.at t).hbmAccess st.toNat off hint len rowOpen write ecc)

/-- Meaning of PF_ISSUE (R147). -/
def execPfIssue (t : Nat) (pf : BitVec 8) (s : State) : Host.Outcome State Fault Refusal :=
  .next ((s.at t).pfIssue pf.toNat)

/-- Meaning of HBM_SCRUB (R133). -/
def execHbmScrub (t : Nat) (off : Nat) (claimed : Bool) (ecc : EccResult) (s : State) :
    Host.Outcome State Fault Refusal := .next ((s.at t).scrub off claimed ecc)

/-- Meaning of MS_COMMAND (R149 to R151). -/
def execMsCommand (t : Nat) (st : BitVec 8) (write : Bool) (part block count off : Nat) (s : State) :
    Host.Outcome State Fault Refusal := .next ((s.at t).msCommand ⟨st.toNat, write, part, block, count, off⟩)

/-- Meaning of MS_COMPLETE (R149, R152). -/
def execMsComplete (t : Nat) (index : Nat) (mediaError : Bool) (s : State) : Host.Outcome State Fault Refusal :=
  .next ((s.at t).msComplete index mediaError)

/-- Meaning of PSRAM_READ (R154). -/
def execPsramRead (t word : Nat) (dev0 dev1 : EccResult) (s : State) : Host.Outcome State Fault Refusal :=
  .next ((s.at t).psramRead word dev0 dev1)

end Sys2Proof.Machine
end

