-- ==== Sys2Proof/Machine/NetCmds.lean ====
section
/-! DEFINITION. The meanings of the commands of the Ethernet ports and of device time (chapter 20). -/

namespace Sys2Proof.Machine

/-- Meaning of ETH_FRAME (R440 to R444). -/
def execEthFrame (t : Nat) (port : BitVec 1) (bytes : List Byte) (fcsOk : Bool) (residence : Nat) (s : State) :
    Host.Outcome State Fault Refusal := .next ((s.at t).ethFrame port.toNat bytes fcsOk residence)

/-- Meaning of ETH_LINK_UP (R440). -/
def execEthLinkUp (t : Nat) (port : BitVec 1) (s : State) : Host.Outcome State Fault Refusal :=
  .next ((s.at t).ethUp port.toNat)

/-- Meaning of ETH_LINK_DOWN (R455). -/
def execEthLinkDown (t : Nat) (port : BitVec 1) (s : State) : Host.Outcome State Fault Refusal :=
  .next ((s.at t).ethDown port.toNat)

/-- Meaning of PTP_DELAY_RESP (R448, R450, R451). -/
def execPtpDelayResp (t : Nat) (port : BitVec 1) (t1 t2 t3 t4 : Int) (s : State) : Host.Outcome State Fault Refusal :=
  .next ((s.at t).delayResp port.toNat t1 t2 t3 t4)

/-- Meaning of PTP_ANNOUNCE (R450, R453). -/
def execPtpAnnounce (t : Nat) (port : BitVec 1) (a : Announce) (s : State) : Host.Outcome State Fault Refusal :=
  .next ((s.at t).announce port.toNat a)

/-- Meaning of PTP_MASTER_LOST (R453). -/
def execPtpMasterLost (t : Nat) (s : State) : Host.Outcome State Fault Refusal := .next (s.at t).masterLost

/-- Meaning of TIME_SET (R451, R452). -/
def execTimeSet (t : Nat) (role : Role) (seconds : BitVec 48) (ns : BitVec 32) (s : State) :
    Host.Outcome State Fault Refusal :=
  .next (finish ((s.at t).gated role Dict.timeSet fun s => s.writeTime seconds.toNat ns.toNat))

/-- Meaning of STEP_OVERRIDE (R452). -/
def execStepOverride (t : Nat) (role : Role) (value : BitVec 8) (s : State) : Host.Outcome State Fault Refusal :=
  .next (finish ((s.at t).gated role Dict.stepOverride fun s => s.writeOverride value.toNat))

/-- Meaning of OVERRIDE_EXPIRY (R452). -/
def execOverrideExpiry (t : Nat) (s : State) : Host.Outcome State Fault Refusal := .next (s.at t).overrideEnds

end Sys2Proof.Machine
end

