-- ==== Sys2Proof/Machine/PowerCmds.lean ====
section
/-! DEFINITION. The meanings of the commands of power and ageing (chapter 22). -/

namespace Sys2Proof.Machine

/-- Meaning of PD_REQUEST (R126, R471, R472). -/
def execPdRequest (t : Nat) (pd : BitVec 6) (on : Bool) (outstanding : Nat) (s : State) :
    Host.Outcome State Fault Refusal := .next ((s.at t).pdRequest pd.toNat on outstanding)

/-- Meaning of PD_POWER_UP_DONE (R390, R471, R472). -/
def execPdPowerUpDone (t : Nat) (pd : BitVec 6) (s : State) : Host.Outcome State Fault Refusal :=
  .next (((s.at t).pdUpDone pd.toNat).trainPowered pd.toNat)

/-- Meaning of PD_POWER_DOWN_DONE (R134, R471, R472). -/
def execPdPowerDownDone (t : Nat) (pd : BitVec 6) (s : State) : Host.Outcome State Fault Refusal :=
  .next ((s.at t).pdDownDone pd.toNat)

/-- Meaning of POWER_SAMPLE (R473, R474). -/
def execPowerSample (t : Nat) (milliwatts : Nat) (s : State) : Host.Outcome State Fault Refusal :=
  .next ((s.at t).powerSample milliwatts)

/-- Meaning of AGE_MEASURE (R475, R476, R479). -/
def execAgeMeasure (t : Nat) (island : Fin 41) (reference stressed : Nat) (slack : Int) (s : State) :
    Host.Outcome State Fault Refusal := .next ((s.at t).ageMeasure island.val reference stressed slack)

/-- Meaning of MARGIN_PLAN_COMMIT (R477, R479). -/
def execMarginPlanCommit (t : Nat) (s : State) : Host.Outcome State Fault Refusal := .next (s.at t).planCommit

/-- Meaning of PLAN_APPLY_WINDOW (R478). -/
def execPlanApplyWindow (t : Nat) (island : Fin 41) (s : State) : Host.Outcome State Fault Refusal :=
  .next ((s.at t).planWindow island.val)

end Sys2Proof.Machine
end

