-- ==== Sys2Proof/Machine/QueueCmds.lean ====
section
/-! DEFINITION. The meanings of the queue commands (chapter 17). -/

namespace Sys2Proof.Machine

/-- Meaning of QUEUE_PUSH (R375, R377 to R379, R381). -/
def execQueuePush (t : Nat) (issuer : BitVec 8) (q : BitVec 12) (packet : List Byte) (stream stripEnd mismatch : Bool)
    (s : State) : Host.Outcome State Fault Refusal :=
  .next ((s.at t).queuePush issuer.toNat q.toNat packet stream stripEnd mismatch).2

/-- Meaning of QUEUE_POP (R377 to R381). -/
def execQueuePop (t : Nat) (issuer : BitVec 8) (q : BitVec 12) (mismatch parity : Bool) (s : State) :
    Host.Outcome State Fault Refusal := .next ((s.at t).queuePop issuer.toNat q.toNat mismatch parity)

/-- Meaning of QUEUE_RELEASE (R377 to R379, R381, R383). -/
def execQueueRelease (t : Nat) (issuer : BitVec 8) (q : BitVec 12) (mismatch : Bool) (s : State) :
    Host.Outcome State Fault Refusal := .next ((s.at t).queueRelease issuer.toNat q.toNat mismatch)

/-- Meaning of QUEUE_FLUSH (R381, R382). -/
def execQueueFlush (t : Nat) (issuer : BitVec 8) (q : BitVec 12) (mismatch : Bool) (s : State) :
    Host.Outcome State Fault Refusal := .next ((s.at t).queueFlush issuer.toNat q.toNat mismatch)

/-- Meaning of FLUSH_BOUNDARY (R382). -/
def execFlushBoundary (t : Nat) (q : BitVec 12) (s : State) : Host.Outcome State Fault Refusal :=
  .next ((s.at t).flushBoundary q.toNat)

/-- Meaning of QUEUE_MARK (R381, R383). -/
def execQueueMark (t : Nat) (issuer : BitVec 8) (q : BitVec 12) (mismatch : Bool) (s : State) :
    Host.Outcome State Fault Refusal := .next ((s.at t).queueMark issuer.toNat q.toNat mismatch)

/-- Meaning of QUEUE_REWIND (R381, R383). -/
def execQueueRewind (t : Nat) (issuer : BitVec 8) (q : BitVec 12) (mismatch : Bool) (s : State) :
    Host.Outcome State Fault Refusal := .next ((s.at t).queueRewind issuer.toNat q.toNat mismatch)

/-- Meaning of QUEUE_RESET (R381). -/
def execQueueReset (t : Nat) (issuer : BitVec 8) (q : BitVec 12) (s : State) : Host.Outcome State Fault Refusal :=
  .next ((s.at t).queueReset issuer.toNat q.toNat)

/-- Meaning of Q_SWEEP_DONE (R381). -/
def execQSweepDone (t : Nat) (q : BitVec 12) (s : State) : Host.Outcome State Fault Refusal :=
  .next ((s.at t).sweepDone q.toNat).landWaiting

end Sys2Proof.Machine
end

