-- ==== Sys2Proof/Machine/RecCmds.lean ====
section
/-! DEFINITION. The meanings of the commands of the event recorder and the counters (chapter 24). -/

namespace Sys2Proof.Machine

/-- Meaning of REC_FLASH_WRITE (R506, R507, R510). -/
def execRecFlashWrite (t : Nat) (fails : List SlotFail) (s : State) : Host.Outcome State Fault Refusal :=
  .next ((s.at t).recFlashWrite fails)

/-- Meaning of OP_TIME_SAVE (R508). -/
def execOpTimeSave (t : Nat) (s : State) : Host.Outcome State Fault Refusal := .next (s.at t).opTimeSave

/-- Meaning of POWER_LOSS (R509). -/
def execPowerLoss (t : Nat) (s : State) : Host.Outcome State Fault Refusal := .next (s.at t).powerLoss

/-- Meaning of REC_CLEAR (R512). -/
def execRecClear (t : Nat) (role : Role) (value : Nat) (s : State) : Host.Outcome State Fault Refusal :=
  .next (finish ((s.at t).gated role Dict.recClear fun s => s.writeRecClear value))

/-- Meaning of REC_ERASE_DONE (R512). -/
def execRecEraseDone (t : Nat) (s : State) : Host.Outcome State Fault Refusal := .next (s.at t).recEraseDone

/-- Meaning of COUNTER_STROBE (R515, R516). -/
def execCounterStrobe (t : Nat) (seen : List (Nat × List Nat)) (s : State) : Host.Outcome State Fault Refusal :=
  .next ((s.at t).counterStrobe seen)

end Sys2Proof.Machine
end

