-- ==== Sys2Proof/Machine/SecCmds.lean ====
section
/-! DEFINITION. The meanings of the commands of security (chapter 23). -/

namespace Sys2Proof.Machine

/-- Meaning of ATTEST_NONCE (R492 to R494). -/
def execAttestNonce (t : Nat) (role : Role) (who : BitVec 16) (nonce : List Byte) (s : State) :
    Host.Outcome State Fault Refusal :=
  .next (finish ((s.at t).gated role Dict.attestNonce fun s => s.writeNonce who.toNat nonce))

/-- Meaning of INTEGRATOR_KEY_WRITE (R490). -/
def execIntegratorKeyWrite (t : Nat) (role : Role) (which : Fin 2) (key header signature : List Byte) (s : State) :
    Host.Outcome State Fault Refusal :=
  .next (finish ((s.at t).gated role (if which = 0 then Dict.integratorKey0 else Dict.integratorKey1) fun s =>
    s.writeIntegratorKey which.val key header signature))

/-- Meaning of TAMPER (R498, R499). -/
def execTamper (t : Nat) (s : State) : Host.Outcome State Fault Refusal := .next (s.at t).tamper

end Sys2Proof.Machine
end

