-- ==== Sys2Proof/Machine/VideoCmds.lean ====
section
/-! DEFINITION. The meanings of the commands of video decode and the Deck (chapter 13). -/

namespace Sys2Proof.Machine

/-- Meaning of RTP_PACKET (R278, R279, R283). -/
def execRtpPacket (t : Nat) (source : BitVec 32) (port : BitVec 16) (payloadType : BitVec 7) (seq : BitVec 16)
    (stamp : BitVec 32) (marker : Bool) (payload : List Byte) (s : State) : Host.Outcome State Fault Refusal :=
  let s := s.at t
  .next (s.rtpPacket source.toNat port.toNat payloadType.toNat
    { seq := seq, ts := stamp, marker := marker, payload := payload, at_ := s.tb, dev := s.devNs })

/-- Meaning of RTP_RELEASE (R279, R286). -/
def execRtpRelease (t : Nat) (stream : BitVec 6) (s : State) : Host.Outcome State Fault Refusal :=
  .next ((s.at t).rtpRelease stream.toNat)

/-- Meaning of DECODE_SLICE (R282, R286). -/
def execDecodeSlice (t : Nat) (core : BitVec 3) (s : State) : Host.Outcome State Fault Refusal :=
  .next ((s.at t).decodeSlice core.toNat)

/-- Meaning of PICTURE_DONE (R283, R284, R287). -/
def execPictureDone (t : Nat) (stream : BitVec 6) (result : Decoded) (s : State) : Host.Outcome State Fault Refusal :=
  .next ((s.at t).pictureDone stream.toNat result)

/-- Meaning of VIDEO_BUDGET (R285, R287). -/
def execVideoBudget (t : Nat) (stream : BitVec 6) (first damaged total : BitVec 24) (s : State) :
    Host.Outcome State Fault Refusal :=
  .next ((s.at t).videoBudget stream.toNat first.toNat damaged.toNat total.toNat)

/-- Meaning of VIDEO_STREAM_LOST (R283). -/
def execVideoStreamLost (t : Nat) (stream : BitVec 6) (s : State) : Host.Outcome State Fault Refusal :=
  .next ((s.at t).vstreamLost stream.toNat)

/-- Meaning of BATCH_BUILD (R288 to R290, R292). -/
def execBatchBuild (t : Nat) (template : BitVec 3) (s : State) : Host.Outcome State Fault Refusal :=
  .next ((s.at t).batchBuild template.toNat)

/-- Meaning of BATCH_COMPLETE (R292 to R294). -/
def execBatchComplete (t : Nat) (space : BitVec 6) (s : State) : Host.Outcome State Fault Refusal :=
  .next ((s.at t).batchComplete space.toNat)

end Sys2Proof.Machine
end

