-- ==== Sys2Proof/Machine/Dispatch.lean ====
section
/-! DEFINITION. The dispatch of a command to its meaning, one arm per constructor. -/

namespace Sys2Proof.Machine

/-- The effect of a command on everything but the queue. -/
def exec (i : Instr) (s : State) : Host.Outcome State Fault Refusal :=
  match i with
  | .tileReceive t dst port d => Sys2Proof.Machine.execTileReceive t dst port d s
  | .stepStart t st => Sys2Proof.Machine.execStepStart t st s
  | .tileEmit t st addr scale sot eot => Sys2Proof.Machine.execTileEmit t st addr scale sot eot s
  | .nop t st => Sys2Proof.Machine.execNop t st s
  | .loop t st => Sys2Proof.Machine.execLoop t st s
  | .endloop t st => Sys2Proof.Machine.execEndloop t st s
  | .fence t st => Sys2Proof.Machine.execFence t st s
  | .fenceDone t st => Sys2Proof.Machine.execFenceDone t st s
  | .endTable t st => Sys2Proof.Machine.execEndTable t st s
  | .tableLoad t st table => Sys2Proof.Machine.execTableLoad t st table s
  | .tableArm t st cond => Sys2Proof.Machine.execTableArm t st cond s
  | .tableDisarm t st sameCycle => Sys2Proof.Machine.execTableDisarm t st sameCycle s
  | .streamMapLoad t entries credits => Sys2Proof.Machine.execStreamMapLoad t entries credits s
  | .stationStart t st => Sys2Proof.Machine.execStationStart t st s
  | .stationFault t st status => Sys2Proof.Machine.execStationFault t st status s
  | .stationClear t st => Sys2Proof.Machine.execStationClear t st s
  | .wload t st run => Sys2Proof.Machine.execWload t st run s
  | .mmul t st run => Sys2Proof.Machine.execMmul t st run s
  | .osmul t st run => Sys2Proof.Machine.execOsmul t st run s
  | .bload t st run => Sys2Proof.Machine.execBload t st run s
  | .check t st run word => Sys2Proof.Machine.execCheck t st run word s
  | .mvmul t st => Sys2Proof.Machine.execMvmul t st s
  | .rampDown t array cycles completed => Sys2Proof.Machine.execRampDown t array cycles completed s
  | .rampUpDone t array => Sys2Proof.Machine.execRampUpDone t array s
  | .halfFence t st status => Sys2Proof.Machine.execHalfFence t st status s
  | .arraySplit t array => Sys2Proof.Machine.execArraySplit t array s
  | .arrayJoin t array => Sys2Proof.Machine.execArrayJoin t array s
  | .bufAccess t bank reqs => Sys2Proof.Machine.execBufAccess t bank reqs s
  | .dmaGrantForced t bank reqs => Sys2Proof.Machine.execDmaGrantForced t bank reqs s
  | .dmaTransfer t st d => Sys2Proof.Machine.execDmaTransfer t st d s
  | .groupPowerDown t group outstanding => Sys2Proof.Machine.execGroupPowerDown t group outstanding s
  | .groupOff t group waiting => Sys2Proof.Machine.execGroupOff t group waiting s
  | .groupForcedOff t group waiting => Sys2Proof.Machine.execGroupForcedOff t group waiting s
  | .groupPowerUp t group => Sys2Proof.Machine.execGroupPowerUp t group s
  | .groupClearDone t group => Sys2Proof.Machine.execGroupClearDone t group s
  | .ownerMapWrite t role dma value => Sys2Proof.Machine.execOwnerMapWrite t role dma value s
  | .ownerFillDone t group => Sys2Proof.Machine.execOwnerFillDone t group s
  | .hbmAccess t st off hint len rowOpen write ecc => Sys2Proof.Machine.execHbmAccess t st off hint len rowOpen write ecc s
  | .pfIssue t pf => Sys2Proof.Machine.execPfIssue t pf s
  | .hbmScrub t off claimed ecc => Sys2Proof.Machine.execHbmScrub t off claimed ecc s
  | .msCommand t st write part block count off => Sys2Proof.Machine.execMsCommand t st write part block count off s
  | .msComplete t index mediaError => Sys2Proof.Machine.execMsComplete t index mediaError s
  | .psramRead t word dev0 dev1 => Sys2Proof.Machine.execPsramRead t word dev0 dev1 s
  | .portEnableWrite t role port value => Sys2Proof.Machine.execPortEnableWrite t role port value s
  | .frameStart t port vc number corrected fifoLow => Sys2Proof.Machine.execFrameStart t port vc number corrected fifoLow s
  | .frameEnd t port vc corrected fifoLow => Sys2Proof.Machine.execFrameEnd t port vc corrected fifoLow s
  | .imageLine t port packet fifoLow => Sys2Proof.Machine.execImageLine t port packet fifoLow s
  | .metadataPacket t port vc dt crcOk corrected payload full addr => Sys2Proof.Machine.execMetadataPacket t port vc dt crcOk corrected payload full addr s
  | .packetIgnored t port corrected => Sys2Proof.Machine.execPacketIgnored t port corrected s
  | .lineTimeout t port addr fifoLow => Sys2Proof.Machine.execLineTimeout t port addr fifoLow s
  | .developLine t port addr => Sys2Proof.Machine.execDevelopLine t port addr s
  | .statsWindowEnd t port => Sys2Proof.Machine.execStatsWindowEnd t port s
  | .gainApply t port => Sys2Proof.Machine.execGainApply t port s
  | .fwload t st => Sys2Proof.Machine.execFwload t st s
  | .fconv t st => Sys2Proof.Machine.execFconv t st s
  | .fpool t st => Sys2Proof.Machine.execFpool t st s
  | .vpool t st => Sys2Proof.Machine.execVpool t st s
  | .decide t => Sys2Proof.Machine.execDecide t s
  | .cropSample t => Sys2Proof.Machine.execCropSample t s
  | .track t => Sys2Proof.Machine.execTrack t s
  | .trackEjecting t port => Sys2Proof.Machine.execTrackEjecting t port s
  | .trackRetire t index => Sys2Proof.Machine.execTrackRetire t index s
  | .trackExpired t index addr => Sys2Proof.Machine.execTrackExpired t index addr s
  | .thresholdWrite t role accept value => Sys2Proof.Machine.execThresholdWrite t role accept value s
  | .envelopeWrite t role which value => Sys2Proof.Machine.execEnvelopeWrite t role which value s
  | .windowNew t => Sys2Proof.Machine.execWindowNew t s
  | .windowAmend t => Sys2Proof.Machine.execWindowAmend t s
  | .windowCancel t => Sys2Proof.Machine.execWindowCancel t s
  | .latchCommit t string => Sys2Proof.Machine.execLatchCommit t string s
  | .latchStrobe t string diag addr => Sys2Proof.Machine.execLatchStrobe t string diag addr s
  | .beltStall t enc => Sys2Proof.Machine.execBeltStall t enc s
  | .driverFault t string => Sys2Proof.Machine.execDriverFault t string s
  | .stringRefresh t string => Sys2Proof.Machine.execStringRefresh t string s
  | .stringZeroLatch t string diag => Sys2Proof.Machine.execStringZeroLatch t string diag s
  | .encoderEdge t enc a b => Sys2Proof.Machine.execEncoderEdge t enc a b s
  | .edgeFault t enc => Sys2Proof.Machine.execEdgeFault t enc s
  | .magStep t enc uvw => Sys2Proof.Machine.execMagStep t enc uvw s
  | .ssiFrameStart t enc => Sys2Proof.Machine.execSsiFrameStart t enc s
  | .ssiFrameEnd t enc raw notReady recoveryBad => Sys2Proof.Machine.execSsiFrameEnd t enc raw notReady recoveryBad s
  | .encIndex t enc => Sys2Proof.Machine.execEncIndex t enc s
  | .lineFault t enc pair => Sys2Proof.Machine.execLineFault t enc pair s
  | .lineFaultClear t enc pair => Sys2Proof.Machine.execLineFaultClear t enc pair s
  | .periodInvalid t enc => Sys2Proof.Machine.execPeriodInvalid t enc s
  | .positionWrite t role enc value => Sys2Proof.Machine.execPositionWrite t role enc value s
  | .indexArmWrite t role enc value => Sys2Proof.Machine.execIndexArmWrite t role enc value s
  | .enc5vOverload t enc => Sys2Proof.Machine.execEnc5vOverload t enc s
  | .enc5vRetry t enc => Sys2Proof.Machine.execEnc5vRetry t enc s
  | .diSample t input millivolts microamps => Sys2Proof.Machine.execDiSample t input millivolts microamps s
  | .diChange t input => Sys2Proof.Machine.execDiChange t input s
  | .fieldWireBreak t input => Sys2Proof.Machine.execFieldWireBreak t input s
  | .fieldSupplyLow t => Sys2Proof.Machine.execFieldSupplyLow t s
  | .fieldSupplyGood t => Sys2Proof.Machine.execFieldSupplyGood t s
  | .outputFrame t received => Sys2Proof.Machine.execOutputFrame t received s
  | .fieldOutOvercurrent t output => Sys2Proof.Machine.execFieldOutOvercurrent t output s
  | .doRetry t output => Sys2Proof.Machine.execDoRetry t output s
  | .fieldOutOpenLoad t output => Sys2Proof.Machine.execFieldOutOpenLoad t output s
  | .fieldOutMismatch t output => Sys2Proof.Machine.execFieldOutMismatch t output s
  | .doFaultClear t output mismatch => Sys2Proof.Machine.execDoFaultClear t output mismatch s
  | .watchdogKick t first second gap => Sys2Proof.Machine.execWatchdogKick t first second gap s
  | .watchdogExpiry t => Sys2Proof.Machine.execWatchdogExpiry t s
  | .fieldLinkLost t => Sys2Proof.Machine.execFieldLinkLost t s
  | .fieldPowerUp t => Sys2Proof.Machine.execFieldPowerUp t s
  | .safeStateRelease t role value => Sys2Proof.Machine.execSafeStateRelease t role value s
  | .doFaultAck t role output value => Sys2Proof.Machine.execDoFaultAck t role output value s
  | .rtpPacket t source port payloadType seq stamp marker payload => Sys2Proof.Machine.execRtpPacket t source port payloadType seq stamp marker payload s
  | .rtpRelease t stream => Sys2Proof.Machine.execRtpRelease t stream s
  | .decodeSlice t core => Sys2Proof.Machine.execDecodeSlice t core s
  | .pictureDone t stream result => Sys2Proof.Machine.execPictureDone t stream result s
  | .videoBudget t stream first damaged total => Sys2Proof.Machine.execVideoBudget t stream first damaged total s
  | .videoStreamLost t stream => Sys2Proof.Machine.execVideoStreamLost t stream s
  | .vstreamEnableWrite t role stream value => Sys2Proof.Machine.execVstreamEnableWrite t role stream value s
  | .templateEnableWrite t role template value => Sys2Proof.Machine.execTemplateEnableWrite t role template value s
  | .batchBuild t template => Sys2Proof.Machine.execBatchBuild t template s
  | .batchComplete t space => Sys2Proof.Machine.execBatchComplete t space s
  | .attn t st count => Sys2Proof.Machine.execAttn t st count s
  | .seqLock t st => Sys2Proof.Machine.execSeqLock t st s
  | .kittyTake t st => Sys2Proof.Machine.execKittyTake t st s
  | .kittyEmpty t st => Sys2Proof.Machine.execKittyEmpty t st s
  | .kittyRefill t => Sys2Proof.Machine.execKittyRefill t s
  | .kvPoolPagesWrite t role value => Sys2Proof.Machine.execKvPoolPagesWrite t role value s
  | .kvOpen t st => Sys2Proof.Machine.execKvOpen t st s
  | .kvFork t st => Sys2Proof.Machine.execKvFork t st s
  | .kvClose t st => Sys2Proof.Machine.execKvClose t st s
  | .kvFree t st => Sys2Proof.Machine.execKvFree t st s
  | .teacherBatch t job labels => Sys2Proof.Machine.execTeacherBatch t job labels s
  | .trainingStart t job => Sys2Proof.Machine.execTrainingStart t job s
  | .trainingEnd t result => Sys2Proof.Machine.execTrainingEnd t result s
  | .bankSealed t job => Sys2Proof.Machine.execBankSealed t job s
  | .validationEnd t objects => Sys2Proof.Machine.execValidationEnd t objects s
  | .shiftStart t => Sys2Proof.Machine.execShiftStart t s
  | .adaptApprove t role id => Sys2Proof.Machine.execAdaptApprove t role id s
  | .adaptRefuse t role id => Sys2Proof.Machine.execAdaptRefuse t role id s
  | .approvalTimeout t => Sys2Proof.Machine.execApprovalTimeout t s
  | .swapArm t => Sys2Proof.Machine.execSwapArm t s
  | .swapSwitched t count => Sys2Proof.Machine.execSwapSwitched t count s
  | .watchEvaluate t => Sys2Proof.Machine.execWatchEvaluate t s
  | .adaptRollback t role id => Sys2Proof.Machine.execAdaptRollback t role id s
  | .watchAccept t => Sys2Proof.Machine.execWatchAccept t s
  | .trumpStart t role => Sys2Proof.Machine.execTrumpStart t role s
  | .trumpStarted t => Sys2Proof.Machine.execTrumpStarted t s
  | .trumpStop t role => Sys2Proof.Machine.execTrumpStop t role s
  | .trumpStopped t => Sys2Proof.Machine.execTrumpStopped t s
  | .trumpArrayMapWrite t role split value => Sys2Proof.Machine.execTrumpArrayMapWrite t role split value s
  | .jobSubmit t role d => Sys2Proof.Machine.execJobSubmit t role d s
  | .jobBlocked t id => Sys2Proof.Machine.execJobBlocked t id s
  | .jobUnblocked t id => Sys2Proof.Machine.execJobUnblocked t id s
  | .residentLoadDone t id tables entries credits moved usesModel => Sys2Proof.Machine.execResidentLoadDone t id tables entries credits moved usesModel s
  | .preemptBoundary t absent switchNs => Sys2Proof.Machine.execPreemptBoundary t absent switchNs s
  | .jobDeadlineMissed t id => Sys2Proof.Machine.execJobDeadlineMissed t id s
  | .jobOverrun t id => Sys2Proof.Machine.execJobOverrun t id s
  | .jobAbort t role id => Sys2Proof.Machine.execJobAbort t role id s
  | .jobEnd t id => Sys2Proof.Machine.execJobEnd t id s
  | .queueEnableWrite t role q value => Sys2Proof.Machine.execQueueEnableWrite t role q value s
  | .queuePush t issuer q packet stream stripEnd mismatch => Sys2Proof.Machine.execQueuePush t issuer q packet stream stripEnd mismatch s
  | .queuePop t issuer q mismatch parity => Sys2Proof.Machine.execQueuePop t issuer q mismatch parity s
  | .queueRelease t issuer q mismatch => Sys2Proof.Machine.execQueueRelease t issuer q mismatch s
  | .queueFlush t issuer q mismatch => Sys2Proof.Machine.execQueueFlush t issuer q mismatch s
  | .flushBoundary t q => Sys2Proof.Machine.execFlushBoundary t q s
  | .queueMark t issuer q mismatch => Sys2Proof.Machine.execQueueMark t issuer q mismatch s
  | .queueRewind t issuer q mismatch => Sys2Proof.Machine.execQueueRewind t issuer q mismatch s
  | .queueReset t issuer q => Sys2Proof.Machine.execQueueReset t issuer q s
  | .qSweepDone t q => Sys2Proof.Machine.execQSweepDone t q s
  | .linkEnableWrite t role link value => Sys2Proof.Machine.execLinkEnableWrite t role link value s
  | .bitSlip t role lane marker skew => Sys2Proof.Machine.execBitSlip t role lane marker skew s
  | .fabAlignFail t link => Sys2Proof.Machine.execFabAlignFail t link s
  | .laneLockLoss t lane => Sys2Proof.Machine.execLaneLockLoss t lane s
  | .txSleep t link => Sys2Proof.Machine.execTxSleep t link s
  | .txWake t link => Sys2Proof.Machine.execTxWake t link s
  | .hello t link f => Sys2Proof.Machine.execHello t link f s
  | .sleep t link f => Sys2Proof.Machine.execSleep t link f s
  | .ack t link f => Sys2Proof.Machine.execAck t link f s
  | .nak t link f => Sys2Proof.Machine.execNak t link f s
  | .replayTimeout t link => Sys2Proof.Machine.execReplayTimeout t link s
  | .tileHead t link f => Sys2Proof.Machine.execTileHead t link f s
  | .tileData t link f => Sys2Proof.Machine.execTileData t link f s
  | .fabWrite t link f old => Sys2Proof.Machine.execFabWrite t link f old s
  | .fabReadReq t link f => Sys2Proof.Machine.execFabReadReq t link f s
  | .readResp t link f => Sys2Proof.Machine.execReadResp t link f s
  | .complete t link f => Sys2Proof.Machine.execComplete t link f s
  | .credit t link f => Sys2Proof.Machine.execCredit t link f s
  | .fabReturn t link f => Sys2Proof.Machine.execFabReturn t link f s
  | .fabTimeout t tag => Sys2Proof.Machine.execFabTimeout t tag s
  | .bridgeDatagram t header f => Sys2Proof.Machine.execBridgeDatagram t header f s
  | .objectWrite t role who index sub value => Sys2Proof.Machine.execObjectWrite t role who index sub value s
  | .fdpOpenReq t m => Sys2Proof.Machine.execFdpOpenReq t m s
  | .fdpClose t m => Sys2Proof.Machine.execFdpClose t m s
  | .fdpRead t m => Sys2Proof.Machine.execFdpRead t m s
  | .fdpWrite t m => Sys2Proof.Machine.execFdpWrite t m s
  | .fdpDescribe t m => Sys2Proof.Machine.execFdpDescribe t m s
  | .fdpSegInit t m => Sys2Proof.Machine.execFdpSegInit t m s
  | .fdpSegData t m => Sys2Proof.Machine.execFdpSegData t m s
  | .fdpSegEnd t m => Sys2Proof.Machine.execFdpSegEnd t m s
  | .fdpSubscribe t m => Sys2Proof.Machine.execFdpSubscribe t m s
  | .fdpKeepalive t m => Sys2Proof.Machine.execFdpKeepalive t m s
  | .fdpBadKind t kind m => Sys2Proof.Machine.execFdpBadKind t kind m s
  | .fdpAuthFail t m => Sys2Proof.Machine.execFdpAuthFail t m s
  | .segTimeout t who => Sys2Proof.Machine.execSegTimeout t who s
  | .sessionTimeout t session => Sys2Proof.Machine.execSessionTimeout t session s
  | .sessionOpenIdle t session => Sys2Proof.Machine.execSessionOpenIdle t session s
  | .settingsCommit t => Sys2Proof.Machine.execSettingsCommit t s
  | .storeNow t role value => Sys2Proof.Machine.execStoreNow t role value s
  | .restoreDefaults t role value => Sys2Proof.Machine.execRestoreDefaults t role value s
  | .roleKeyWrite t role which key => Sys2Proof.Machine.execRoleKeyWrite t role which key s
  | .integrateKeyEnrol t role key => Sys2Proof.Machine.execIntegrateKeyEnrol t role key s
  | .fdpEnableWrite t role value => Sys2Proof.Machine.execFdpEnableWrite t role value s
  | .i3cRead t body crc => Sys2Proof.Machine.execI3cRead t body crc s
  | .i3cWrite t body crc => Sys2Proof.Machine.execI3cWrite t body crc s
  | .i3cSegInit t body crc => Sys2Proof.Machine.execI3cSegInit t body crc s
  | .i3cSegData t body crc => Sys2Proof.Machine.execI3cSegData t body crc s
  | .i3cSegEnd t body crc => Sys2Proof.Machine.execI3cSegEnd t body crc s
  | .i3cDescribe t body crc => Sys2Proof.Machine.execI3cDescribe t body crc s
  | .eventPop t body crc => Sys2Proof.Machine.execEventPop t body crc s
  | .i3cResultRead t => Sys2Proof.Machine.execI3cResultRead t s
  | .i3cIbi t => Sys2Proof.Machine.execI3cIbi t s
  | .entdaa t address => Sys2Proof.Machine.execEntdaa t address s
  | .setdasa t static address => Sys2Proof.Machine.execSetdasa t static address s
  | .setnewda t address => Sys2Proof.Machine.execSetnewda t address s
  | .rstdaa t => Sys2Proof.Machine.execRstdaa t s
  | .enec t events => Sys2Proof.Machine.execEnec t events s
  | .disec t events => Sys2Proof.Machine.execDisec t events s
  | .getpid t => Sys2Proof.Machine.execGetpid t s
  | .getbcr t => Sys2Proof.Machine.execGetbcr t s
  | .getdcr t => Sys2Proof.Machine.execGetdcr t s
  | .getstatus t => Sys2Proof.Machine.execGetstatus t s
  | .getmwl t => Sys2Proof.Machine.execGetmwl t s
  | .setmwl t length => Sys2Proof.Machine.execSetmwl t length s
  | .getmrl t => Sys2Proof.Machine.execGetmrl t s
  | .setmrl t length => Sys2Proof.Machine.execSetmrl t length s
  | .getmxds t => Sys2Proof.Machine.execGetmxds t s
  | .enthdr0 t => Sys2Proof.Machine.execEnthdr0 t s
  | .ethFrame t port bytes fcsOk residence => Sys2Proof.Machine.execEthFrame t port bytes fcsOk residence s
  | .ethLinkDown t port => Sys2Proof.Machine.execEthLinkDown t port s
  | .ptpDelayResp t port t1 t2 t3 t4 => Sys2Proof.Machine.execPtpDelayResp t port t1 t2 t3 t4 s
  | .ptpAnnounce t port a => Sys2Proof.Machine.execPtpAnnounce t port a s
  | .ptpMasterLost t => Sys2Proof.Machine.execPtpMasterLost t s
  | .timeSet t role seconds ns => Sys2Proof.Machine.execTimeSet t role seconds ns s
  | .stepOverride t role value => Sys2Proof.Machine.execStepOverride t role value s
  | .overrideExpiry t => Sys2Proof.Machine.execOverrideExpiry t s
  | .coutFrameStart t port => Sys2Proof.Machine.execCoutFrameStart t port s
  | .overlayPending t port => Sys2Proof.Machine.execOverlayPending t port s
  | .coutLine t port => Sys2Proof.Machine.execCoutLine t port s
  | .pdRequest t pd on outstanding => Sys2Proof.Machine.execPdRequest t pd on outstanding s
  | .pdPowerUpDone t pd => Sys2Proof.Machine.execPdPowerUpDone t pd s
  | .pdPowerDownDone t pd => Sys2Proof.Machine.execPdPowerDownDone t pd s
  | .powerSample t milliwatts => Sys2Proof.Machine.execPowerSample t milliwatts s
  | .ageMeasure t island reference stressed slack => Sys2Proof.Machine.execAgeMeasure t island reference stressed slack s
  | .marginPlanCommit t => Sys2Proof.Machine.execMarginPlanCommit t s
  | .planApplyWindow t island => Sys2Proof.Machine.execPlanApplyWindow t island s
  | .attestNonce t role who nonce => Sys2Proof.Machine.execAttestNonce t role who nonce s
  | .attestReportReady t => Sys2Proof.Machine.execAttestReportReady t s
  | .integratorKeyWrite t role which key header signature => Sys2Proof.Machine.execIntegratorKeyWrite t role which key header signature s
  | .tamper t => Sys2Proof.Machine.execTamper t s
  | .recFlashWrite t fails => Sys2Proof.Machine.execRecFlashWrite t fails s
  | .opTimeSave t => Sys2Proof.Machine.execOpTimeSave t s
  | .powerLoss t => Sys2Proof.Machine.execPowerLoss t s
  | .recClear t role value => Sys2Proof.Machine.execRecClear t role value s
  | .recEraseDone t => Sys2Proof.Machine.execRecEraseDone t s
  | .counterStrobe t seen => Sys2Proof.Machine.execCounterStrobe t seen s
  | .drainTimeout t sid addr scale written => Sys2Proof.Machine.execDrainTimeout t sid addr scale written s
  | .drainReport t sid => Sys2Proof.Machine.execDrainReport t sid s
  | .sensorSample t sensor value => Sys2Proof.Machine.execSensorSample t sensor value s
  | .sensorSilent t sensor => Sys2Proof.Machine.execSensorSilent t sensor s
  | .sensorClear t sensor => Sys2Proof.Machine.execSensorClear t sensor s
  | .mgtHeartbeat t => Sys2Proof.Machine.execMgtHeartbeat t s
  | .mgtHeartbeatLost t => Sys2Proof.Machine.execMgtHeartbeatLost t s
  | .heartbeatReset t => Sys2Proof.Machine.execHeartbeatReset t s
  | .supSelfCheck t good => Sys2Proof.Machine.execSupSelfCheck t good s
  | .trumpStopHung t => Sys2Proof.Machine.execTrumpStopHung t s
  | .unitRelease t role address => Sys2Proof.Machine.execUnitRelease t role address s
  | .inputPowerGood t => Sys2Proof.Machine.execInputPowerGood t s
  | .boot t r => Sys2Proof.Machine.execBoot t r s
  | .hostReset t role => Sys2Proof.Machine.execHostReset t role s
  | .mgtRestart t role => Sys2Proof.Machine.execMgtRestart t role s
  | .resetTakeEffect t => Sys2Proof.Machine.execResetTakeEffect t s
  | .phaseInService t role => Sys2Proof.Machine.execPhaseInService t role s
  | .phaseTest t role => Sys2Proof.Machine.execPhaseTest t role s
  | .phaseRecovery t role => Sys2Proof.Machine.execPhaseRecovery t role s
  | .slotEraseDone t area slot => Sys2Proof.Machine.execSlotEraseDone t area slot s
  | .modelActivateLoaded t imageGood => Sys2Proof.Machine.execModelActivateLoaded t imageGood s
  | .ethLinkUp t port => Sys2Proof.Machine.execEthLinkUp t port s
  | .rxWake t link => Sys2Proof.Machine.execRxWake t link s
  | .txWakeEnd t link => Sys2Proof.Machine.execTxWakeEnd t link s
  | .clockDataLock t lane marker skew => Sys2Proof.Machine.execClockDataLock t lane marker skew s
  | .resetHoldEnd t => Sys2Proof.Machine.execResetHoldEnd t s

end Sys2Proof.Machine
end

