-- ==== Sys2Proof/Safety.lean ====
section
/-! DEFINITION. The terms in which statements speak of a run: what stays, where a station stands. -/

namespace Sys2Proof.Machine

/-- Every byte of the module address space reads as before. -/
def sameBytes (s u : State) : Prop := ∀ a, u.byteAt a = s.byteAt a

/-- A station stands at the step `w` of its table, in RUN or BLOCKED, with no step in flight (R31, R33). -/
def State.standsAt (s : State) (sid : Nat) (w : StepWord) : Prop :=
  ((s.station sid).seq = .run ∨ (s.station sid).seq = .blocked) ∧ (s.station sid).running = none
    ∧ (s.station sid).word = some w

/-- From `s` to `u` time passed to `t` and nothing else changed but station `sid`. -/
def onlyStation (s u : State) (t sid : Nat) : Prop :=
  u = { s.at t with stations := u.stations } ∧ ∀ n, n ≠ sid → u.station n = s.station n

/-- The step word does not hand over to an armed table (R35): no YIELD bit, or no table armed with AT_YIELD. -/
def noSwitch (st : Station) (w : StepWord) : Prop :=
  wordYield w = false ∨ ∀ tbl, st.shadow ≠ .armed tbl .atYield

/-- A request reaches bank `b` in a cycle: nothing refuses it, the bank has its port, its group is not being filled. -/
def State.reachesBank (s : State) (b : Nat) (r : BankReq) : Bool :=
  (s.reqStatus r).isNone && r.portOk b && !s.waitsFill r && bankOf r.addr == b

/-- A write of entry `e`, unit `k`, by a role passes every check of R419 and the conditions on the entry. -/
def State.writePasses (s : State) (role : Role) (e : Ent) (k : Nat) (l : List Byte) : Prop :=
  let v := if e.ty.isNum then e.ty.value l else 0
  let b : By := { role := role, who := 0 }
  role.reaches (e.needs b l) = true ∧ e.lengthOk l.length = true ∧ s.accessRefused e k v = false ∧ e.inRange v = true
    ∧ (rulesHold rangeRules e fun f => f s (s.store b e 0 k v l) k) = true

/-- The same for a number written in the entry's width. -/
def State.numberPasses (s : State) (role : Role) (e : Ent) (k v : Nat) : Prop :=
  s.writePasses role e k (leBytes e.ty.size v)

/-- The counter `e` of unit `k` goes up by one, modulo its width. -/
def countsOne (s u : State) (e : Ent) (k : Nat) : Prop := u.num e k = (s.num e k + 1) % (2 : Int) ^ (8 * e.ty.size)

/-- The place of a sliding step's next output row, once what has arrived at its port is taken in (R185, R189): the
sequence and the row; none where the lines the row reads are not all present. -/
def State.slidesTo (s : State) (sid : Nat) (r : Running) : Option (Nat × Nat) :=
  let a := winArgs sid r.word
  let i := (s.intake sid (wordInA r.word) a.chans r).2
  let p := (i.front sid).ports.val {} (wordInA r.word)
  let qv := a.nextRow p ((i.front sid).rows.val (0, 0) (i.station sid).pc)
  if a.rowReady p qv.1 qv.2 then some qv else none

/-- Are the tiles of partial sums there that an FCONV takes for its next output row: none but where INIT says so (R190)? -/
def State.partsThere (s : State) (sid : Nat) (r : Running) : Bool :=
  let a := winArgs sid r.word
  let x := s.intake sid (wordInA r.word) a.chans r
  let i := (x.2.keep sid x.1).noteEnds sid
  let cols := a.produced (ceilDiv (i.width sid (wordInA r.word)) a.stride)
  (i.feedN sid (wordInB r.word) x.1 (if fld r.word 53 52 = 2 then ceilDiv (cols.2 - cols.1) 128 else 0)).isSome

/-- A frame of kind `kind` that passes its checks (R395, R397). -/
def Frame.good (f : Frame) (kind : Nat) : Prop :=
  f.crcOk = true ∧ fld f.hdr 255 252 = 1 ∧ f.kind = kind ∧ fld f.hdr 227 221 ≤ 64

/-- A sequenced frame of kind `kind` for this module that link `k`, UP and awake, takes next (R398, R401). -/
def State.takesNext (s : State) (k : Nat) (f : Frame) (kind : Nat) : Prop :=
  f.good kind ∧ (s.link k).rxAsleep = false ∧ (s.link k).st = .up ∧ f.lseq = (s.link k).expect ∧ s.isLocal f.dst = true

/-- The first attestation leaf that no signature can have used yet (R492): the open block's next leaf, or the first leaf
of the lowest unburnt mark. -/
def State.leafFront (s : State) : Nat :=
  match s.sec.openBlock with
  | some b => 1024 * b + s.sec.nextLeaf
  | none => 1024 * s.sec.marksBurnt

/-- The attestation leaves stand as R492 says: at most 4,096 marks, the open block is that of the last mark burnt and its
leaf 0 is taken, and every report under way holds a leaf before the front. -/
def State.leavesInOrder (s : State) : Prop :=
  s.sec.marksBurnt ≤ 4096 ∧ (∀ b, s.sec.openBlock = some b → b + 1 = s.sec.marksBurnt ∧ 1 ≤ s.sec.nextLeaf
    ∧ s.sec.nextLeaf ≤ 1024) ∧ ∀ r ∈ s.sec.attesting, r.2.1 < s.leafFront

/-- No cause of level 4 stands: raising one resets the module, and the reset leaves no cause (R531, R535). -/
def State.noLevelFour (s : State) : Prop := ∀ c ∈ s.guard.causes, c.1 < 4

end Sys2Proof.Machine
end

