-- ==== Sys2Proof/Certificates/Slice0/Obligations.lean ====
section
/-! DEFINITION. The statements about the model, one definition each. -/

section
open Sys2Proof Sys2Proof.Machine

/-- When a command waits at the front of the queue, a step is its effect on the state with the rest of the queue.

With no command waiting the block idles (the model's choice, log 2). -/
def Obligations.StepRunsFrontCommand : Prop :=
  (∀ (c : Instr) (rest : List Instr) (s : State), step { s with pending := c :: rest } = exec c { s with pending := rest })
  ∧ (∀ s : State, s.pending = [] → step s = .next s)

/-- R36, R29 to R33: the control opcodes a station stands at, each changing that station and nothing else. NOP, a met
FENCE and FENCE_DONE go on to the next word; LOOP opens a loop of COUNT_M1 + 1 runs; ENDLOOP runs it again or closes it;
an unmet FENCE blocks.

R29, R35, R36: END makes an armed AT_END or AT_YIELD table active at step 0, the old one going to the shadow slot as
LOADED; with none armed it restarts the table (REPEAT) or leaves the station IDLE. An array whose steps are not all
complete stands at an END without REPEAT until they are (the model's choice, log 100).

R32, R35: a table that passes the check goes to the shadow slot where none is armed, and a loaded one is armed; Trump
stations of a running domain take AT_SWAP only (R37). -/
def Obligations.SequencerMoves : Prop :=
  (∀ (t : Nat) (st : BitVec 8) (s : State) (w : StepWord), s.standsAt st.toNat w → noSwitch (s.station st.toNat) w →
    let x := s.station st.toNat
    (wordOp w = 0 → ∃ u, exec (.nop t st) s = .next u ∧ onlyStation s u t st.toNat
      ∧ (u.station st.toNat).pc = x.pc + 1 ∧ (u.station st.toNat).seq = .run ∧ (u.station st.toNat).loops = x.loops)
    ∧ (wordOp w = 1 → ∃ u, exec (.loop t st) s = .next u ∧ onlyStation s u t st.toNat
      ∧ (u.station st.toNat).pc = x.pc + 1 ∧ (u.station st.toNat).seq = .run
      ∧ (u.station st.toNat).loops = (x.pc + 1, fld w 23 0) :: x.loops)
    ∧ (∀ start r, wordOp w = 2 → x.loops = (start, 0) :: r → ∃ u, exec (.endloop t st) s = .next u
      ∧ onlyStation s u t st.toNat ∧ (u.station st.toNat).pc = x.pc + 1 ∧ (u.station st.toNat).seq = .run
      ∧ (u.station st.toNat).loops = r)
    ∧ (∀ start n r, wordOp w = 2 → x.loops = (start, n + 1) :: r → ∃ u, exec (.endloop t st) s = .next u
      ∧ onlyStation s u t st.toNat ∧ (u.station st.toNat).pc = start ∧ (u.station st.toNat).seq = .run
      ∧ (u.station st.toNat).loops = (start, n) :: r)
    ∧ (wordOp w = 3 → s.fenceMet st.toNat = true → ∃ u, exec (.fence t st) s = .next u ∧ onlyStation s u t st.toNat
      ∧ (u.station st.toNat).pc = x.pc + 1 ∧ (u.station st.toNat).seq = .run)
    ∧ (wordOp w = 3 → s.fenceMet st.toNat = false → ∃ u, exec (.fence t st) s = .next u ∧ onlyStation s u t st.toNat
      ∧ (u.station st.toNat).pc = x.pc ∧ (u.station st.toNat).seq = .blocked)
    ∧ (wordOp w = 3 → s.fenceMet st.toNat = true → ∃ u, exec (.fenceDone t st) s = .next u
      ∧ onlyStation s u t st.toNat ∧ (u.station st.toNat).pc = x.pc + 1 ∧ (u.station st.toNat).seq = .run))
  ∧ (∀ (t : Nat) (st : BitVec 8) (s : State) (w : StepWord), s.standsAt st.toNat w → wordOp w = 4 →
    let x := s.station st.toNat
    (∀ tbl c, x.shadow = .armed tbl c → (c = .atEnd ∨ c = .atYield) → ∃ u, exec (.endTable t st) s = .next u
      ∧ onlyStation s u t st.toNat ∧ (u.station st.toNat).active = tbl ∧ (u.station st.toNat).shadow = .loaded x.active
      ∧ (u.station st.toNat).pc = 0 ∧ (u.station st.toNat).seq = .run)
    ∧ ((∀ tbl c, x.shadow ≠ .armed tbl c) → ∃ u, exec (.endTable t st) s = .next u ∧ onlyStation s u t st.toNat
      ∧ (u.station st.toNat).active = x.active ∧ (u.station st.toNat).shadow = x.shadow
      ∧ if bit w 0 = false ∧ s.unitsBusy st.toNat = true then u.station st.toNat = x
        else (u.station st.toNat).pc = 0 ∧ (u.station st.toNat).seq = if bit w 0 then .run else .idle))
  ∧ (∀ (t : Nat) (st : BitVec 8) (s : State),
    let x := s.station st.toNat
    (∀ tbl, s.exists' st.toNat = true → (∀ tb c, x.shadow ≠ .armed tb c) → s.tableCheck argsOk st.toNat tbl = none →
      ∃ u, exec (.tableLoad t st tbl) s = .next u ∧ u = { s.at t with stations := u.stations, out := [.answer 0] }
      ∧ u.station st.toNat = { x with shadow := .loaded tbl } ∧ ∀ n, n ≠ st.toNat → u.station n = s.station n)
    ∧ (∀ tbl c, x.shadow = .loaded tbl → s.armAllowed st.toNat c = true → ∃ u, exec (.tableArm t st c) s = .next u
      ∧ onlyStation s u t st.toNat ∧ u.station st.toNat = { x with shadow := .armed tbl c }))

/-- R33, R68: a started station that was IDLE with a table runs it from step 0, its loops closed and its rounding
generator loaded with ROUND_SEED; a start of any other station changes no sequencer.

R33, R41: clearing a faulted station that may be cleared puts it in IDLE at step 0, its epoch raised by a role
change (past 0xFFFF to 1), with no step in flight; the bytes of memory stay.

R33, R531: a station that finds a fault enters FAULT with no fresh work, and the status word with its station ID
reaches the management cluster; a second fault of a station in FAULT, or of one without power, changes nothing. -/
def Obligations.StationStates : Prop :=
  (∀ (t : Nat) (st : BitVec 8) (s : State), s.exists' st.toNat = true → s.startAllowed st.toNat = true →
    (s.streams = [] → (s.station st.toNat).seq = .idle → (s.station st.toNat).active ≠ [] →
      (∀ tbl c, (s.station st.toNat).shadow ≠ .armed tbl c) →
      ∃ u, exec (.stationStart t st) s = .next u ∧ onlyStation s u t st.toNat
      ∧ u.station st.toNat
        = { s.station st.toNat with
            seq := .run, pc := 0, loops := [], yielded := false
            rng := some (BitVec.ofNat 32 (s.nat Dict.roundSeed st.toNat)) })
    ∧ ((s.station st.toNat).seq ≠ .idle → ∃ u, exec (.stationStart t st) s = .next u ∧ onlyStation s u t st.toNat
      ∧ u.station st.toNat = s.station st.toNat))
  ∧ (∀ (t : Nat) (st : BitVec 8) (s : State), s.mayClear st.toNat = true → s.sched.owner = [] → s.sched.jobs = [] →
    ∃ u, exec (.stationClear t st) s = .next u ∧ (u.station st.toNat).seq = .idle ∧ (u.station st.toNat).running = none
    ∧ (u.station st.toNat).pc = 0
    ∧ (u.station st.toNat).epoch = (if (s.station st.toNat).epoch = 0xFFFF then 1 else (s.station st.toNat).epoch + 1)
    ∧ (∀ n, n ≠ st.toNat → u.station n = s.station n) ∧ u.mem = s.mem)
  ∧ (∀ (t : Nat) (st : BitVec 8) (status : Word) (s : State), fld status 31 24 = 4 →
    (s.exists' st.toNat = true → (s.station st.toNat).seq = .idle → s.isTrump st.toNat = false → isArray st.toNat = false →
      s.sched.jobs = [] → s.sched.owner = [] → (s.station st.toNat).faults = [] → 1 < s.nat Dict.faultLimit →
      ∃ u, exec (.stationFault t st status) s = .next u ∧ (u.station st.toNat).seq = .fault
      ∧ withSrc status st.toNat ∈ u.errq.val [] mgt
      ∧ (∀ n, n ≠ st.toNat → u.station n = s.station n) ∧ u.mem = s.mem)
    ∧ ((s.station st.toNat).seq = .fault ∨ (s.station st.toNat).seq = .off →
      exec (.stationFault t st status) s = .next (s.at t)))

/-- R26, R27: a map entry in order is loaded: its stream starts anew with the credits given, and the load is answered
with success. The bytes of memory stay.

R25: a tile that arrives in order at a station which takes input joins its port's queue after what the port held, and
the stream's expected SEQ goes one on; nothing but that station, that stream and the ramp of a stopped array that it wakes
changes. A tile of an old role epoch (R42) goes back to its sender's error queue with `ROLE_CHANGED` and its credit
returns; no station changes. Where the sender has changed epoch since, the message goes to the discard pile (R43). -/
def Obligations.StreamsAndTiles : Prop :=
  (∀ (t : Nat) (e : MapEntry) (credits : Nat) (s : State), s.isLocal (mapCons e) = true → s.entryBad e = none →
    (s.trumpRuns && mapTrump e) = false → ∃ u, exec (.streamMapLoad t [e] credits) s = .next u
    ∧ u.streams.look (mapStream e) = some { entry := e, credits := credits } ∧ Out.answer 0 ∈ u.out ∧ u.mem = s.mem)
  ∧ (∀ (t : Nat) (dst : BitVec 24) (port : BitVec 4) (d : Desc) (s : State) (x : Stream),
    let sid := dst.toNat % 256
    s.isLocal dst.toNat = true → s.exists' sid = true → descCrcOk d = true → fld d 511 508 = 1 →
    s.streams.look (fld d 479 464) = some x →
    (s.inStream sid port.toNat = some (fld d 479 464, x) → BitVec.ofNat 16 (fld d 463 448) = (s.station sid).epoch →
      (s.station sid).seq ≠ .drain → (s.station sid).seq ≠ .fault → s.trump.adapter = none →
      mapViaQueue x.entry = false → x.expect = BitVec.ofNat 32 (fld d 447 416) → ∃ u, exec (.tileReceive t dst port d) s = .next u
      ∧ u = { s.at t with stations := u.stations, streams := u.streams, arrays := u.arrays }
      ∧ (u.station sid).inq.val [] port.toNat = (s.station sid).inq.val [] port.toNat ++ [.tile d]
      ∧ u.streams.look (fld d 479 464) = some { x with expect := x.expect + 1, unacc := x.unacc - 1 }
      ∧ ∀ n, n ≠ sid → u.station n = s.station n)
    ∧ (BitVec.ofNat 16 (fld d 463 448) ≠ (s.station sid).epoch → s.isLocal (fld d 413 392) = true →
      let src := fld d 399 392
      s.exists' src = true → ∃ u, exec (.tileReceive t dst port d) s = .next u
      ∧ (s.senderChanged src (fld d 479 464) (BitVec.ofNat 32 (fld d 447 416)) = false →
        u.errq.val [] src = s.errq.val [] src ++ [withSrc 0x03000201 sid])
      ∧ (s.senderChanged src (fld d 479 464) (BitVec.ofNat 32 (fld d 447 416)) = true →
        u.errq = s.errq ∧ countsOne s u Dict.discardReturns 0)
      ∧ u.streams.look (fld d 479 464)
        = some { x with credits := if s.queued x.entry then x.credits else x.credits + 1, unacc := x.unacc - 1 }
      ∧ u.stations = s.stations ∧ u.mem = s.mem))

/-- R31, R33: a station that stands at a station-specific step starts it once every input port the step waits on holds a
tile (or a missing one), its output port a credit of every stream and, at a develop lane, its camera port has the data;
with one of them lacking it is BLOCKED and consumes nothing.

R31, R84: the sequencer of an array hands the step it stands at to the step's unit (the weight loader, the bias
register or the multiply path) and goes on; a unit that was idle starts it once its tiles and credits are there. Where
they are not, the station is BLOCKED and consumes nothing.

R19, R31: a step whose output is computed emits its next tile: its bytes land at the payload address where the
station's writes are served, no other byte of memory changes unless the tile goes into a queue of this module, and after
the last tile the station goes on. -/
def Obligations.StepsStartAndEmit : Prop :=
  (∀ (t : Nat) (st : BitVec 8) (s : State) (w : StepWord), s.standsAt st.toNat w → 0x10 ≤ wordOp w →
    isArray st.toNat = false → (∀ tbl c, (s.station st.toNat).shadow ≠ .armed tbl c) →
    let ready := (s.boundInputs st.toNat w).all (s.portReady st.toNat) = true ∧ s.lineReady st.toNat = true
      ∧ (wordHasOut st.toNat w = true → s.creditsReady st.toNat (wordOut w) = true)
    (ready →
      ∃ u r, exec (.stepStart t st) s = .next u ∧ (u.station st.toNat).seq = .run
      ∧ (u.station st.toNat).running = some r ∧ r.word = w ∧ (u.station st.toNat).pc = (s.station st.toNat).pc
      ∧ (∀ n, n ≠ st.toNat → u.station n = s.station n) ∧ u.mem = s.mem)
    ∧ (¬ ready → ∃ u, exec (.stepStart t st) s = .next u
      ∧ onlyStation s u t st.toNat ∧ u.station st.toNat = (s.station st.toNat).block (max t s.tb)))
  ∧ (∀ (t : Nat) (st : BitVec 8) (s : State) (w : StepWord), s.standsAt st.toNat w → 0x10 ≤ wordOp w →
    isArray st.toNat = true → (∀ tbl c, (s.station st.toNat).shadow ≠ .armed tbl c) → s.unitsBusy st.toNat = false →
    (s.arr (arrayOf st.toNat)).loads = [] → (s.path st.toNat).shadow = none →
    (s.stepReady st.toNat w = true →
      ∃ u r, exec (.stepStart t st) s = .next u ∧ (u.station st.toNat).seq = .run
      ∧ (u.station st.toNat).pc = (s.station st.toNat).pc + 1 ∧ r.word = w
      ∧ (if wordOp w = 0x10 then (u.path st.toNat).loading = some r
        else if wordOp w = 0x13 then (u.path st.toNat).biasing = some r else (u.station st.toNat).running = some r)
      ∧ (∀ n, n ≠ st.toNat → u.station n = s.station n) ∧ u.mem = s.mem)
    ∧ (s.stepReady st.toNat w = false → ∃ u, exec (.stepStart t st) s = .next u
      ∧ onlyStation s u t st.toNat ∧ u.station st.toNat = (s.station st.toNat).block (max t s.tb)))
  ∧ (∀ (t : Nat) (st : BitVec 8) (addr scale : BitVec 48) (sot eot : Bool) (s : State) (r : Running) (o : OutTile)
    (rest : List OutTile), (s.station st.toNat).running = some r → r.outs = o :: rest → o.mx = false →
    s.tileTags st.toNat (wordOut r.word) = true → s.tileRoom st.toNat (wordOut r.word) o = true →
    s.fillingAt addr.toNat = false → r.computed = true → (isArray st.toNat = true → (s.path st.toNat).next = none) →
    ∃ u, exec (.tileEmit t st addr scale sot eot) s = .next u
    ∧ ((∀ p ∈ s.outStreams st.toNat (wordOut r.word), s.queued p.2.entry = false) →
      (∀ i, (h : i < o.bytes.length) → s.accessStatus st.toNat true (addr.toNat + i) = none →
        u.byteAt (addr.toNat + i) = o.bytes[i])
      ∧ ∀ a, a < addr.toNat ∨ addr.toNat + o.bytes.length ≤ a → u.byteAt a = s.byteAt a)
    ∧ (rest ≠ [] → (u.station st.toNat).running = some { r with outs := rest })
    ∧ (rest = [] → (u.station st.toNat).running = none))

/-- R126 to R128: a buffer group that is ON and may be switched off enters POWERING_DOWN; its last write landed, or 2 µs
after the request, it is OFF (or CLEARING, where a power-up waits), its bytes read as zero and no other byte of memory
changes; switched on it is CLEARING with zeroed bytes, and the end of the fill leaves it ON, or, where a request for OFF
waits (R472), powering down again.

R123, R125: a write of SHARED_OWNER_MAP that passes takes effect, and a shared group that changes owner is being
filled with zeros until OWNER_FILL_DONE; a write of DMA_OWNER_MAP raises the epoch of an engine that changes owner. -/
def Obligations.BufferGroups : Prop :=
  (∀ (t : Nat) (g : Fin 24) (s : State), let x := s.group g
    (∀ n, x.st = .on → s.groupMayOff g = true → ∃ u, exec (.groupPowerDown t g n) s = .next u
      ∧ u = { s.at t with groups := u.groups }
      ∧ u.group g = { x with st := .poweringDown, inflight := n, since := max t s.tb }
      ∧ ∀ n, n ≠ g.val → u.group n = s.group n)
    ∧ (x.st = .poweringDown → x.inflight = 0 → ∃ u, exec (.groupOff t g []) s = .next u
      ∧ u = { s.at t with groups := u.groups, mem := u.mem } ∧ (u.group g).st = (if x.upPending then .clearing else .off)
      ∧ (∀ a, within a (groupBase g) (groupLen g) = true → u.byteAt a = 0)
      ∧ ∀ a, within a (groupBase g) (groupLen g) = false → u.byteAt a = s.byteAt a)
    ∧ (x.st = .poweringDown → x.since + 2000 ≤ max t s.tb → ∃ u, exec (.groupForcedOff t g []) s = .next u
      ∧ (u.group g).st = (if x.upPending then .clearing else .off) ∧ countsOne s u Dict.forcedOffCount g
      ∧ (∀ a, within a (groupBase g) (groupLen g) = true → u.byteAt a = 0)
      ∧ ∀ a, within a (groupBase g) (groupLen g) = false → u.byteAt a = s.byteAt a)
    ∧ (s.groupExists g = true → x.st = .off → ∃ u, exec (.groupPowerUp t g) s = .next u
      ∧ u = { s.at t with groups := u.groups, mem := u.mem } ∧ u.group g = { x with st := .clearing }
      ∧ (∀ a, within a (groupBase g) (groupLen g) = true → u.byteAt a = 0)
      ∧ ∀ a, within a (groupBase g) (groupLen g) = false → u.byteAt a = s.byteAt a)
    ∧ (s.groupExists g = true → x.st = .poweringDown → ∃ u, exec (.groupPowerUp t g) s = .next u
      ∧ u = { s.at t with groups := u.groups } ∧ u.group g = { x with upPending := true })
    ∧ (x.st = .clearing → x.downPending = false → ∃ u, exec (.groupClearDone t g) s = .next u
      ∧ u = { s.at t with groups := u.groups } ∧ u.group g = { x with st := .on })
    ∧ (x.st = .clearing → x.downPending = true → s.pdMayOff (16 + g) = true → s.groupMayOff g = true →
      ∃ u, exec (.groupClearDone t g) s = .next u ∧ u = { s.at t with groups := u.groups }
      ∧ (u.group g).st = .poweringDown))
  ∧ (∀ (t : Nat) (role : Role) (v : BitVec 8) (g : Fin 8) (s : State),
    (s.numberPasses role Dict.sharedOwnerMap 0 v.toNat → ∃ u, exec (.ownerMapWrite t role false v) s = .next u
      ∧ u.nat Dict.sharedOwnerMap = v.toNat ∧ Out.answer 0 ∈ u.out
      ∧ (inMap (s.nat Dict.sharedOwnerMap) g ≠ inMap v.toNat g → (u.group (16 + g)).filling = true)
      ∧ (inMap (s.nat Dict.sharedOwnerMap) g = inMap v.toNat g → u.group (16 + g) = s.group (16 + g)))
    ∧ (s.numberPasses role Dict.dmaOwnerMap 0 v.toNat → ∃ u, exec (.ownerMapWrite t role true v) s = .next u
      ∧ u.nat Dict.dmaOwnerMap = v.toNat ∧ Out.answer 0 ∈ u.out ∧ u.mem = s.mem
      ∧ (inMap (s.nat Dict.dmaOwnerMap) g ≠ inMap v.toNat g →
        (u.station (0x60 + g)).epoch = bumpEpoch (s.station (0x60 + g)).epoch))
    ∧ (∃ u, exec (.ownerFillDone t g) s = .next u ∧ u = { s.at t with groups := u.groups }
      ∧ u.group (16 + g) = { s.group (16 + g) with filling := false }))

/-- R112 to R116: a write presented alone to a bank without a burst is granted and lands whole, as far as one access of
its port reaches; a DMA request that the bank has refused for 32 cycles in a row is granted by DMA_GRANT_FORCED before a
request of higher class.

R124, R127: a read that is refused is answered with zeros, its status goes to the requester's error queue and the tile
it feeds is POISONED; a refused write changes no byte. -/
def Obligations.BankAccesses : Prop :=
  (∀ (t : Nat) (b : BitVec 9) (s : State), (s.bank b.toNat).burst = 0 →
    (∀ r d, s.reachesBank b.toNat r = true → r.data = some d → ∃ u, exec (.bufAccess t b [r]) s = .next u
      ∧ Out.grant [true] ∈ u.out
      ∧ (∀ i, (h : i < (d.take (r.cls.room r.addr)).length) → u.byteAt (r.addr + i) = (d.take (r.cls.room r.addr))[i])
      ∧ (∀ a, a < r.addr ∨ r.addr + (d.take (r.cls.room r.addr)).length ≤ a → u.byteAt a = s.byteAt a))
    ∧ (∀ r, s.reachesBank b.toNat r = true → r.data = none → fld r.mode 15 14 = 0 →
      ∃ u, exec (.bufAccess t b [r]) s = .next u ∧ Out.grant [true] ∈ u.out
      ∧ Out.data r.sid.toNat (s.rawRead r.addr (r.cls.room r.addr)) ∈ u.out ∧ u.mem = s.mem)
    ∧ (∀ a w, (s.bank b.toNat).starved w = true → s.reachesBank b.toNat a = true → s.reachesBank b.toNat w = true →
      a.cls = .array → a.data = none → w.data = none → ∃ u, exec (.dmaGrantForced t b [a, w]) s = .next u
      ∧ Out.grant [false, true] ∈ u.out ∧ u.mem = s.mem))
  ∧ (∀ (t : Nat) (b : BitVec 9) (r : BankReq) (w : Word) (s : State), s.reqStatus r = some w → fld w 15 0 ≠ 0x0405 →
    ∃ u, exec (.bufAccess t b [r]) s = .next u ∧ w ∈ u.errq.val [] r.sid.toNat ∧ Out.grant [false] ∈ u.out
    ∧ sameBytes s u
    ∧ (r.data = none → Out.data r.sid.toNat (List.replicate r.cls.width 0) ∈ u.out
      ∧ ∀ k, (u.station r.sid.toNat).running = some k → k.poisoned = true))

/-- R117, R119: a plain transfer of a DMA engine within the module copies its bytes from where it may read to where it
may write, and changes no other byte. -/
def Obligations.DmaTransferCopies : Prop :=
  ∀ (t : Nat) (st : BitVec 8) (d : DmaDesc) (s : State), kindOf st.toNat = .dma → (s.station st.toNat).seq ≠ .off →
    (s.station st.toNat).seq ≠ .fault → d.refusal st.toNat = none → d.remoteSrc = none → d.remoteDst = none →
    d.declared = none → d.expand = none → d.compress = none → fld d.mode 15 14 = 0 → d.ecc ≠ .bad →
    s.dmaWaits d = false → (d.needsTag = true → s.mayIssue st.toNat = true) →
    s.rangeStatus st.toNat false d.src d.len = none → s.poisonedRange d.src d.len = false →
    ∃ u, exec (.dmaTransfer t st d) s = .next u
    ∧ (∀ i, i < d.len → s.accessStatus st.toNat true (d.dst + i) = none → u.byteAt (d.dst + i) = s.byteAt (d.src + i))
    ∧ (∀ a, a < d.dst ∨ d.dst + d.len ≤ a → u.byteAt a = s.byteAt a)

/-- R137, R140, R141, R143: a read of the HBM that the cache serves answers with the bytes at its address; a write of whole
lines lands its bytes and no other; any other access waits at its channel while the channel's slot is taken; one that the
access rules forbid is completed with MEM_NOT_OWNED, a read with zeros. Only the write changes a byte. -/
def Obligations.HbmAccessServes : Prop :=
  ∀ (t : Nat) (st : BitVec 8) (off hint len : Nat) (rowOpen : Bool) (ecc : EccResult) (s : State), hint ≤ 2 →
    (0 < len → off + len ≤ hbmLen → off / 256 = (off + len - 1) / 256 →
      (∀ w, s.rangeStatus st.toNat false (hbmBase + off) len = some w → ∃ u,
        exec (.hbmAccess t st off hint len rowOpen none ecc) s = .next u
        ∧ Out.data st.toNat (s.readBytes st.toNat (hbmBase + off) len) ∈ u.out ∧ w ∈ u.errq.val [] st.toNat
        ∧ sameBytes s u)
      ∧ (s.mayIssue st.toNat = true → s.rangeStatus st.toNat false (hbmBase + off) len = none →
        (∀ r ∈ s.channel (channelOf off), ¬ (r.sid = st.toNat ∧ r.off = off ∧ r.n = len ∧ r.data = none)) →
        (s.poisonedRange (hbmBase + off) len = false → s.cacheHit off len = true → ∃ u,
          exec (.hbmAccess t st off hint len rowOpen none .good) s = .next u
          ∧ Out.data st.toNat (s.rawRead (hbmBase + off) len) ∈ u.out ∧ sameBytes s u)
        ∧ (s.cacheHit off len = false → max t s.tb < s.mem.slotAt.val 0 (channelOf off) → ∃ u,
          exec (.hbmAccess t st off hint len rowOpen none ecc) s = .next u
          ∧ u.channel (channelOf off) = s.channel (channelOf off)
            ++ [⟨st.toNat, off, len, hint, none, burstsOf off len, max t s.tb⟩]
          ∧ sameBytes s u)))
    ∧ (∀ d : List Byte, 0 < d.length → d.length ≤ 256 → off + d.length ≤ hbmLen →
      off / 256 = (off + d.length - 1) / 256 → off % 128 = 0 → d.length % 128 = 0 → hint ≠ 2 →
      s.mayIssue st.toNat = true → s.rangeStatus st.toNat true (hbmBase + off) d.length = none →
      (∀ r ∈ s.channel (channelOf off), ¬ (r.sid = st.toNat ∧ r.off = off ∧ r.n = d.length ∧ r.data = some d)) → ∃ u,
      exec (.hbmAccess t st off hint len rowOpen (some d) ecc) s = .next u
      ∧ (∀ i, (h : i < d.length) → u.byteAt (hbmBase + off + i) = d[i])
      ∧ (∀ a, a < hbmBase + off ∨ hbmBase + off + d.length ≤ a → u.byteAt a = s.byteAt a))

/-- R133, R147: a prefetcher with room reads one stride ahead, and one at the end of its stream stops; a scrubbed address
found uncorrectable is poisoned and reported; neither changes a byte.

R151, R152: a model-store command within the access rules is taken; one beyond them completes with MS_DENIED and
moves nothing; a read that completes puts the store's bytes, deciphered, where the engine may write, and a write puts the
engine's bytes into the store, enciphered (R484); a media error of a write counts and moves nothing.

R154: a PSRAM word is read from device 0, one corrected there being counted; one that device 0 cannot give is read
from device 1, which rewrites device 0, and counted. -/
def Obligations.MemoryServices : Prop :=
  (∀ (t : Nat) (pf : BitVec 8) (off : Nat) (s : State), let p := s.pf pf.toNat
    (p.live = true → p.ended = true → ∃ u, exec (.pfIssue t pf) s = .next u ∧ u.pf pf.toNat = { p with live := false }
      ∧ sameBytes s u)
    ∧ (p.live = true → p.ended = false → (p.next - p.last).natAbs ≤ (s.num Dict.pfDepth * 1024).natAbs → 0 ≤ p.next →
      p.next < hbmLen → s.hbmAllowed p.station false p.next.toNat = true →
      (s.station p.station).tags + 8 ≤ (s.station p.station).cap → ∃ u, exec (.pfIssue t pf) s = .next u
      ∧ u.pf pf.toNat = { p with next := p.next + p.stride } ∧ sameBytes s u)
    ∧ (off < hbmLen → ∃ u, exec (.hbmScrub t off false .bad) s = .next u ∧ u.poisonedRange (hbmBase + off) 1 = true
      ∧ withSrc 0x05000502 mgt ∈ u.errq.val [] mgt ∧ sameBytes s u))
  ∧ (∀ (t : Nat) (st : BitVec 8) (write : Bool) (part block count off : Nat) (s : State), kindOf st.toNat = .dma →
    s.isTrump st.toNat = false → s.mayIssue st.toNat = true →
    (s.partAllowed write part = true → 0 < count → count ≤ 32 → block + count ≤ partBlocks part → ∃ u,
      exec (.msCommand t st write part block count off) s = .next u
      ∧ u.mem.ms = s.mem.ms ++ [⟨st.toNat, write, part, block, count, off⟩] ∧ sameBytes s u)
    ∧ (s.partAllowed write part = false ∨ partBlocks part < block + count → ∃ u,
      exec (.msCommand t st write part block count off) s = .next u ∧ u.mem = s.mem
      ∧ u.errq.val [] st.toNat = s.errq.val [] st.toNat ++ [withSrc 0x05000504 st.toNat])
    ∧ (∀ rest, s.mem.ms = ⟨st.toNat, false, part, block, count, off⟩ :: rest → ∃ u,
      exec (.msComplete t 0 false) s = .next u ∧ u.mem.ms = rest ∧ u.mem.store = s.mem.store
      ∧ (∀ i, (h : i < (s.msRead part block count).length) → s.accessStatus st.toNat true (hbmBase + off + i) = none →
        u.byteAt (hbmBase + off + i) = (s.msRead part block count)[i]))
    ∧ (∀ rest, s.mem.ms = ⟨st.toNat, true, part, block, count, off⟩ :: rest →
      s.rangeStatus st.toNat false (hbmBase + off) (count * 4096) = none →
      s.poisonedRange (hbmBase + off) (count * 4096) = false → ∃ u,
      exec (.msComplete t 0 false) s = .next u ∧ u.mem.ms = rest ∧ sameBytes s u
      ∧ u.mem.store = (s.msWrite part block (s.rawRead (hbmBase + off) (count * 4096)) count).mem.store)
    ∧ (∀ rest, s.mem.ms = ⟨st.toNat, true, part, block, count, off⟩ :: rest → ∃ u,
      exec (.msComplete t 0 true) s = .next u ∧ u.mem.ms = rest ∧ u.mem.store = s.mem.store ∧ sameBytes s u
      ∧ countsOne s u Dict.msMediaErrors 0))
  ∧ (∀ (t word : Nat) (dev1 : EccResult) (s : State), word < psramWords →
    let w0 := Out.data 0xFF (wordBytes (s.psramWord s.mem.psram0 word))
    (exec (.psramRead t word .good dev1) s = .next { s.at t with out := [w0] })
    ∧ (∃ u, exec (.psramRead t word .corrected dev1) s = .next u ∧ u = { s.at t with regs := u.regs, out := [w0] }
      ∧ countsOne s u Dict.psramCorrectedCount 0)
    ∧ (dev1 ≠ .bad → ∃ u, exec (.psramRead t word .bad dev1) s = .next u
      ∧ u = { s.at t with regs := u.regs, mem := u.mem, out := [.data 0xFF (wordBytes (s.psramWord s.mem.psram1 word))] }
      ∧ u.mem = { s.mem with psram0 := s.mem.psram0.put word (s.psramWord s.mem.psram1 word) }
      ∧ countsOne s u Dict.psramMirrorCount 0))

/-- R375, R377, R378: a packet pushed to an enabled queue that has the cells for it joins the end of the unread packets (in
strip-pair mode those of the fill bank), in the cells chosen, with its length; every byte of memory outside those cells stays.
A queue that is not enabled refuses the command and changes nothing of the queues.

R375, R377: what was pushed to an empty queue of the plain mode is what the next POP delivers, byte for byte. -/
def Obligations.QueuePackets : Prop :=
  (∀ (t : Nat) (issuer : BitVec 8) (q : BitVec 12) (packet : List Byte) (stream stripEnd : Bool) (s : State),
    let n := packetCells packet.length
    let x := s.queue q.toNat
    (s.queueOn q.toNat = true → s.pushTooLong q.toNat n = false → (s.pushCells q.toNat n).length = n →
      ∃ u p, exec (.queuePush t issuer q packet stream stripEnd false) s = .next u
      ∧ p.cells = s.pushCells q.toNat n ∧ p.len = packet.length ∧ p.stream = stream
      ∧ (s.queueStrip q.toNat = false → (u.queue q.toNat).unread = x.unread ++ [p])
      ∧ (s.queueStrip q.toNat = true → x.unread ≠ [] → (u.queue q.toNat).fill = x.fill ++ [p])
      ∧ (∀ a, (∀ k ∈ p.cells, within a (s.cellAddr k) 256 = false) → u.byteAt a = s.byteAt a))
    ∧ (s.queueOn q.toNat = false → ∃ u, exec (.queuePush t issuer q packet stream stripEnd false) s = .next u
      ∧ u.queues = s.queues ∧ u.mem = s.mem
      ∧ u.errq.val [] issuer.toNat = s.errq.val [] issuer.toNat ++ [withSrc 0x02000F04 issuer.toNat]))
  ∧ (∀ (t t' : Nat) (issuer other : BitVec 8) (q : BitVec 12) (packet : List Byte) (s u : State),
    s.queueOn q.toNat = true → s.queueStrip q.toNat = false → (s.queue q.toNat).unread = [] → packet ≠ [] →
    s.pushTooLong q.toNat (packetCells packet.length) = false →
    (s.pushCells q.toNat (packetCells packet.length)).length = packetCells packet.length →
    exec (.queuePush t issuer q packet false false false) s = .next u →
    ∃ v, exec (.queuePop t' other q false false) u = .next v ∧ Out.packet packet false ∈ v.out)

/-- R26, R377, R382, R383: POP moves the oldest unread packet to the held ones, and a stream packet popped by the station
its stream feeds reaches that station's port as a tile; RELEASE frees the cells of the oldest held one; MARK (where
allowed) names the oldest unreleased packet and REWIND returns the held packets from it on to the unread ones.

R374, R381, R382: FLUSH takes effect at the next packet boundary, which discards the unread packets; RESET advances
INCARN and empties the queue, and the sweep then frees its cells; a queue enabled by a write that passes is on. (A landed
tile that waits for cells would take those that become free: of such states the clauses on freed cells say nothing.) -/
def Obligations.QueueStates : Prop :=
  (∀ (t : Nat) (issuer : BitVec 8) (q : BitVec 12) (s : State), s.queueOn q.toNat = true →
    let x := s.queue q.toNat
    (∀ p r, x.unread = p :: r → ∃ u, exec (.queuePop t issuer q false false) s = .next u
      ∧ u.queue q.toNat = { x with unread := r, held := x.held ++ [p] } ∧ (p.stream = false → sameBytes s u)
      ∧ Out.packet (s.packetBytes p) false ∈ u.out)
    ∧ (∀ p r y, x.unread = p :: r → p.stream = true →
      let d := bytesWord 512 ((s.packetBytes p).take 64)
      let sid := issuer.toNat
      s.streams.look (fld d 479 464) = some y → mapViaQueue y.entry = true → mapQueue y.entry = q.toNat →
      s.isLocal (mapCons y.entry) = true → mapCons y.entry % 256 = sid → s.exists' sid = true → descCrcOk d = true →
      fld d 511 508 = 1 → BitVec.ofNat 16 (fld d 463 448) = (s.station sid).epoch →
      s.inStream sid (mapConsPort y.entry) = some (fld d 479 464, y) → (s.station sid).seq ≠ .drain →
      (s.station sid).seq ≠ .fault → s.trump.adapter = none → y.expect = BitVec.ofNat 32 (fld d 447 416) →
      ∃ u, exec (.queuePop t issuer q false false) s = .next u
      ∧ (u.station sid).inq.val [] (mapConsPort y.entry)
        = (s.station sid).inq.val [] (mapConsPort y.entry) ++ [.tile d])
    ∧ (∀ p r, x.held = p :: r → s.queueStrip q.toNat = false → (∀ l ∈ s.fab.landing, l.2.whole = none) → ∃ u, exec (.queueRelease t issuer q false) s = .next u
      ∧ (u.queue q.toNat).held = r ∧ (u.queue q.toNat).unread = x.unread
      ∧ (∀ k ∈ p.cells, u.queues.links.look k = none) ∧ u.mem = s.mem)
    ∧ (s.markAllowed q.toNat = true → ∃ u, exec (.queueMark t issuer q false) s = .next u
      ∧ u = { s.at t with queues := u.queues }
      ∧ u.queue q.toNat = { x with mark := (x.held ++ x.unread).head?.map (·.id) })
    ∧ (∀ p r, s.markAllowed q.toNat = true → x.held = p :: r → x.mark = some p.id → ∃ u,
      exec (.queueRewind t issuer q false) s = .next u ∧ u = { s.at t with queues := u.queues }
      ∧ u.queue q.toNat = { x with held := [], unread := x.held ++ x.unread }))
  ∧ (∀ (t : Nat) (issuer : BitVec 8) (role : Role) (q : BitVec 12) (v : BitVec 8) (s : State),
    let x := s.queue q.toNat
    (s.queueOn q.toNat = true → ∃ u, exec (.queueFlush t issuer q false) s = .next u
      ∧ u = { s.at t with queues := u.queues } ∧ u.queue q.toNat = { x with flush := true, mark := none })
    ∧ (x.flush = true → s.queueStrip q.toNat = false → (∀ l ∈ s.fab.landing, l.2.whole = none) → ∃ u, exec (.flushBoundary t q) s = .next u
      ∧ (u.queue q.toNat).unread = [] ∧ (u.queue q.toNat).held = x.held ∧ (u.queue q.toNat).flush = false
      ∧ (∀ p ∈ x.unread, ∀ k ∈ p.cells, u.queues.links.look k = none) ∧ u.mem = s.mem)
    ∧ (s.queueOn q.toNat = true → ∃ u, exec (.queueReset t issuer q) s = .next u ∧ (u.queue q.toNat).incarn = x.incarn + 1
      ∧ (u.queue q.toNat).unread = [] ∧ (u.queue q.toNat).held = [] ∧ u.mem = s.mem)
    ∧ ((∀ l ∈ s.fab.landing, l.2.whole = none) → ∃ u, exec (.qSweepDone t q) s = .next u ∧ (u.queue q.toNat).sweep = []
      ∧ (∀ k ∈ x.sweep, u.queues.links.look k = none) ∧ u.mem = s.mem)
    ∧ (s.numberPasses role Dict.queueEnable q.toNat v.toNat → v = 1 → s.queueStrip q.toNat = false → ∃ u,
      exec (.queueEnableWrite t role q v) s = .next u ∧ u.queueOn q.toNat = true ∧ Out.answer 0 ∈ u.out ∧ u.mem = s.mem))

/-- R80, R84 to R86: the weight loader runs its WLOAD: with the tiles there the weights reach the shadow registers, the
active ones stay, and the loader is free; the bias register's unit runs its BLOAD: the row of the tile becomes the bias, the
steps issued before it having started. Neither changes a byte of memory. (What the units of the array hold queued and may
start, they start first.)

R189: FWLOAD fills the weight store with the codes of a tile's payload, in their order, and the step ends. -/
def Obligations.ArrayAndFrontLoads : Prop :=
  (∀ (t : Nat) (st : BitVec 8) (run : ArrayRun) (s : State) (r : Running), let v := (s.at t).startUnits st.toNat
    v.warm st.toNat = true → run.parity = false →
    (∀ w r' s', (v.path st.toNat).loading = some r → v.loadWeights st.toNat r = some (w, r', s') →
      ∃ u, exec (.wload t st run) s = .next u ∧ (u.path st.toNat).shadow = some w
      ∧ (u.path st.toNat).active = (s.path st.toNat).active ∧ (u.path st.toNat).loading = none ∧ sameBytes s u)
    ∧ (∀ it r' s', (v.path st.toNat).biasing = some r → Running.before r.order (v.path st.toNat).next = false →
      v.feed st.toNat (wordInA r.word) r = some (it, r', s') → ∃ u, exec (.bload t st run) s = .next u
      ∧ (u.path st.toNat).biasFmt = fld r.word 75 71
      ∧ (u.path st.toNat).bias
        = ((s'.readSide st.toNat (fld r.word 75 71) false false 1 (fld r.word 70 64 + 1) [it]).1.rows.headD [])
      ∧ (u.path st.toNat).active = (s.path st.toNat).active ∧ sameBytes s u))
  ∧ (∀ (t : Nat) (st : BitVec 8) (s : State) (r : Running) (d : Desc), kindOf st.toNat = .fe →
    (s.station st.toNat).running = some r → wordOp r.word = 0x20 → r.ins = [(wordInA r.word, .tile d)] →
    fld d 507 503 = fld r.word 75 71 → bit d 502 = false → bit d 501 = false → bit d 498 = false →
    0 < fld d 351 332 → s.rangeStatus st.toNat false (fld d 319 272) (fld d 351 332) = none →
    s.poisonedRange (fld d 319 272) (fld d 351 332) = false →
    let n := (fld r.word 70 66 + 1) * (fld r.word 65 61 + 1) * (fld r.word 60 56 + 1) * (fld r.word 55 51 + 1)
    let f := fld r.word 75 71
    ∃ u, exec (.fwload t st) s = .next u
    ∧ (u.front st.toNat).weights
        = unpackRow f ((s.rawRead (fld d 319 272) (fld d 351 332)).take (ceilDiv (n * storeBits f) 8)) n
    ∧ (u.front st.toNat).fmt = f ∧ (u.station st.toNat).running = none ∧ sameBytes s u)

/-- R78, R96: a product step over no indices (K = 0) takes no operand and drains its initial accumulators: MMUL one output
tile of all its rows (up to 128), OSMUL and MVMUL one of their M rows, each N columns wide; memory stays.

R78, R79, R81, R107: with its next tiles there, a product step takes them and goes on by their rows (MMUL: one output
tile of N columns for each activation tile or pair) or by their indices (OSMUL, MVMUL: one output tile of M rows and N
columns at the last). No byte of memory changes. (Of an MMUL on integers, the checksum column of R98 may find a fault
instead: those pairs are left to the clause on K = 0.)

R99, R101, R532: a CHECK step run on a faulted array notes whether the result's CRC is the one expected, and leaves
zero weights and bias; it changes no other station and no memory. One run from a table completes where the CRC is as
expected, and faults the array where it is not.

R185, R189, R195, R196: a sliding step (FCONV, FPOOL, VPOOL) whose input lines are present, and the partial sums it
takes, computes one output row, after which its next row is the one below; it changes no byte of memory. -/
def Obligations.ArrayResults : Prop :=
  (∀ (t : Nat) (st : BitVec 8) (s : State) (r : Running),
    let v := if isArray st.toNat then (s.at t).startUnits st.toNat else s.at t
    (v.station st.toNat).running = some r → r.computed = false → v.warm st.toNat = true → r.done = 0 →
    (∀ g, g = mmulArgs r.word → isArray st.toNat = true → wordOp r.word = 0x11 → g.k = 0 → g.init = 0 → g.swap = false →
      g.m ≤ 128 → (operandPair g.fa g.fb g.mx).isSome →
      ∃ u r' o, exec (.mmul t st {}) s = .next u ∧ (u.station st.toNat).running = some r' ∧ r'.computed = true
      ∧ r'.outs = r.outs ++ [o] ∧ o.rows = g.m ∧ o.cols = g.n ∧ u.mem = s.mem)
    ∧ (∀ g, g = osmulArgs r.word → isArray st.toNat = true → wordOp r.word = 0x12 → g.k = 0 →
      (operandPair g.fa g.fb g.mx).isSome →
      ∃ u r' o, exec (.osmul t st {}) s = .next u ∧ (u.station st.toNat).running = some r' ∧ r'.computed = true
      ∧ r'.outs = [o] ∧ o.rows = g.m ∧ o.cols = g.n ∧ u.mem = s.mem)
    ∧ (∀ g, g = osmulArgs r.word → isArray st.toNat = false → wordOp r.word = 0x18 → g.k = 0 →
      (operandPair g.fa g.fb g.mx).isSome →
      ∃ u r' o, exec (.mvmul t st) s = .next u ∧ (u.station st.toNat).running = some r' ∧ r'.computed = true
      ∧ r'.outs = [o] ∧ o.rows = g.m ∧ o.cols = g.n ∧ u.mem = s.mem))
  ∧ (∀ (t : Nat) (st : BitVec 8) (s : State) (r ra rb : Running) (sa sb : State) (as bs : List Item) (kind : AccKind) (p : Nat),
    let v := if isArray st.toNat then (s.at t).startUnits st.toNat else s.at t
    (v.station st.toNat).running = some r → r.computed = false → v.warm st.toNat = true →
    (∀ g, g = mmulArgs r.word → isArray st.toNat = true → wordOp r.word = 0x11 → operandPair g.fa g.fb g.mx = some (kind, p) →
      kind ≠ .int → (g.swap = true → r.done = 0 → (v.path st.toNat).shadow = none →
        (v.path st.toNat).loadBefore r.order = false) →
      v.feedN st.toNat (wordInA r.word) r (ceilDiv g.k 128) = some (as, ra, sa) →
      sa.feedN st.toNat (wordInB r.word) ra (if g.init = 2 then 1 else 0) = some (bs, rb, sb) →
      ∃ u r' o, exec (.mmul t st {}) s = .next u ∧ (u.station st.toNat).running = some r'
      ∧ r'.outs = rb.outs ++ [o] ∧ o.cols = g.n ∧ r'.done = rb.done + o.rows ∧ r'.computed = decide (g.m ≤ r'.done)
      ∧ sameBytes s u)
    ∧ (∀ g (os : Bool), g = osmulArgs r.word → isArray st.toNat = os → wordOp r.word = (if os then 0x12 else 0x18) →
      operandPair g.fa g.fb g.mx = some (kind, p) → 0 < g.k - r.done →
      v.feedN st.toNat (wordInA r.word) r 1 = some (as, ra, sa) →
      sa.feedN st.toNat (wordInB r.word) ra 1 = some (bs, rb, sb) →
      ∃ u r', exec (if os then .osmul t st {} else .mvmul t st) s = .next u ∧ (u.station st.toNat).running = some r'
      ∧ r'.done = rb.done + min (g.k - r.done) 128
      ∧ (r'.done = g.k → r'.computed = true ∧ ∃ o, r'.outs = [o] ∧ o.rows = g.m ∧ o.cols = g.n) ∧ sameBytes s u))
  ∧ (∀ (t : Nat) (st : BitVec 8) (w : StepWord) (s : State), wordOp w = 0x14 →
    let ok := checkCrc (BitVec.ofNat 32 (fld w 75 44)) [] == fld w 43 12
    ((s.station st.toNat).seq = .fault → ∃ u, exec (.check t st {} (some w)) s = .next u
      ∧ u.station st.toNat = { s.station st.toNat with checkPassed := ok }
      ∧ (u.path st.toNat).active = {} ∧ (u.path st.toNat).bias = [] ∧ (u.path st.toNat).shadow = none
      ∧ (∀ n, n ≠ st.toNat → u.station n = s.station n) ∧ u.mem = s.mem)
    ∧ (∀ r, isArray st.toNat = true → let v := (s.at t).startUnits st.toNat
      (v.station st.toNat).running = some r → r.word = w → v.warm st.toNat = true →
      (ok = true → (v.path st.toNat).next = none → ∃ u, exec (.check t st {} none) s = .next u
        ∧ (u.station st.toNat).running = none ∧ (u.path st.toNat).active = {} ∧ (u.path st.toNat).bias = []
        ∧ sameBytes s u)
      ∧ (ok = false → v.exists' st.toNat = true → (v.station st.toNat).seq = .run →
        ∃ u, exec (.check t st {} none) s = .next u ∧ (u.station st.toNat).seq = .fault)))
  ∧ (∀ (t : Nat) (st : BitVec 8) (s : State) (r : Running) (q v : Nat), (s.station st.toNat).running = some r →
    r.computed = false → (s.at t).slidesTo st.toNat r = some (q, v) →
    let next (u : State) : Prop := (u.front st.toNat).rows.val (0, 0) (s.station st.toNat).pc = (q, v + 1)
    (kindOf st.toNat = .fe → wordOp r.word = 0x21 → (s.at t).partsThere st.toNat r = true →
      (fePair (winArgs st.toNat r.word).fmt (fld r.word 70 66)).isSome → ∃ u r', exec (.fconv t st) s = .next u
      ∧ (u.station st.toNat).running = some r' ∧ r'.computed = true ∧ next u ∧ sameBytes s u)
    ∧ (kindOf st.toNat = .fe → wordOp r.word = 0x22 → ∃ u r', exec (.fpool t st) s = .next u
      ∧ (u.station st.toNat).running = some r' ∧ r'.computed = true ∧ next u ∧ sameBytes s u)
    ∧ (kindOf st.toNat = .vu → wordOp r.word = 0x30 → ∃ u r', exec (.vpool t st) s = .next u
      ∧ (u.station st.toNat).running = some r' ∧ r'.computed = true ∧ next u ∧ sameBytes s u))

/-- R92 to R94: after 256 frozen or idle cycles an array that need not stay warm begins to ramp down, is gated when the
ramp ends, and a ramp-up that is over gives it full current. Each changes that array's ramp and its counters alone.

R15, R41, R103, R104: an idle array that may be split answers to its halves and an idle split one to itself again,
the epochs of its stations raised; a fault in a half fences that half and puts it in FAULT. -/
def Obligations.ArrayClocks : Prop :=
  (∀ (t cycles : Nat) (array : BitVec 4) (s : State), let n := array.toNat
    ((s.arr n).ramp = .full → 256 ≤ cycles → s.holdsWarm n = false → ∃ u, exec (.rampDown t array cycles false) s = .next u
      ∧ u = { s.at t with arrays := u.arrays, regs := u.regs } ∧ (u.arr n).ramp = .down (max t s.tb))
    ∧ (∀ since, (s.arr n).ramp = .down since → ∃ u, exec (.rampDown t array cycles true) s = .next u
      ∧ u = { s.at t with arrays := u.arrays, regs := u.regs } ∧ (u.arr n).ramp = .gated
      ∧ countsOne s u Dict.rampDownCount n)
    ∧ (∀ until_, (s.arr n).ramp = .up until_ → until_ ≤ max t s.tb → ∃ u, exec (.rampUpDone t array) s = .next u
      ∧ u = { s.at t with arrays := u.arrays } ∧ (u.arr n).ramp = .full))
  ∧ (∀ (t : Nat) (array : BitVec 4) (s : State), let n := array.toNat
    (s.arrayEnabled n = true → s.splitAllowed n = true → s.arraySplit n = false → ∃ u, exec (.arraySplit t array) s = .next u
      ∧ u.arraySplit n = true ∧ (u.station n).epoch = bumpEpoch (s.station n).epoch ∧ u.mem = s.mem)
    ∧ (s.arrayEnabled n = true → s.splitAllowed n = true → s.arraySplit n = true → ∃ u, exec (.arrayJoin t array) s = .next u
      ∧ u.arraySplit n = false ∧ (u.station n).epoch = bumpEpoch (s.station n).epoch ∧ u.mem = s.mem)
    ∧ (∀ st : BitVec 8, ∀ status, kindOf st.toNat = .half → s.exists' st.toNat = true → (s.station st.toNat).seq = .idle →
      s.isTrump st.toNat = false → s.sched.jobs = [] → s.sched.owner = [] → (s.station st.toNat).faults = [] →
      1 < s.nat Dict.faultLimit → fld status 31 24 = 4 → ∃ u, exec (.halfFence t st status) s = .next u
      ∧ (u.path st.toNat).fenced = true ∧ (u.station st.toNat).seq = .fault ∧ u.mem = s.mem
      ∧ ∀ n, n ≠ st.toNat → u.station n = s.station n))

/-- R221 to R224: the Dealer takes the next command of its step: NEW fills a free slot, or one whose window's end the belt
has reached, and that window keeps its planned close; AMEND replaces the range of an unopened window and moves the end of an
opened one; CANCEL empties the slot. A command that fits no row, or is malformed in itself, is counted and has no effect.
Memory and the encoders stay.

R227, R230, R234, R239: LATCH_COMMIT commits one latch at the next change point once it is due, an all-zero one on a
stalled belt; STRING_REFRESH commits the string's own next image again. Nothing but the string's latches and a counter
changes. -/
def Obligations.WindowsAndLatches : Prop :=
  (∀ (t n : Nat) (rest : List Nat) (s : State) (r : Running), (s.station dealerId).running = some r →
    r.state = n :: rest → r.done = 0 → (s.station dealerId).seq = .run →
    let c := winCmd n
    let z := s.at t
    (s.cmdBad c = false →
      (c.cmd = 0 → s.dealer.slots.look (c.id % 65536) = none → ∃ u w, exec (.windowNew t) s = .next u
        ∧ u.dealer.slots.look (c.id % 65536) = some w ∧ w.id = c.id ∧ w.enc = c.enc ∧ w.start = c.start ∧ w.stop = c.stop
        ∧ w.opened = false ∧ u.dealer.closing = s.dealer.closing ∧ u.mem = s.mem ∧ u.enc = s.enc)
      ∧ (∀ x, c.cmd = 0 → s.dealer.slots.look (c.id % 65536) = some x → z.reached x.enc x.stop = true →
        ∃ u w, exec (.windowNew t) s = .next u ∧ u.dealer.slots.look (c.id % 65536) = some w ∧ w.id = c.id
        ∧ w.enc = c.enc ∧ w.start = c.start ∧ w.stop = c.stop ∧ w.opened = false
        ∧ u.dealer.closing = s.dealer.closing ++ [x] ∧ u.mem = s.mem ∧ u.enc = s.enc)
      ∧ (∀ x, c.cmd = 1 → s.dealer.slots.look (c.id % 65536) = some x → x.id = c.id →
        ∃ u w, exec (.windowAmend t) s = .next u ∧ u.dealer.slots.look (c.id % 65536) = some w ∧ w.id = c.id
        ∧ w.start = (if x.opened then x.start else c.start) ∧ w.stop = c.stop ∧ w.opened = x.opened ∧ u.mem = s.mem
        ∧ u.enc = s.enc)
      ∧ (∀ x, c.cmd = 2 → s.dealer.slots.look (c.id % 65536) = some x → x.id = c.id →
        ∃ u, exec (.windowCancel t) s = .next u ∧ u.dealer.slots.look (c.id % 65536) = none ∧ u.mem = s.mem
        ∧ u.enc = s.enc))
    ∧ (s.cmdBad c = true ∨ z.cmdFits c = false → ∀ i ∈ [(0, Instr.windowNew t), (1, .windowAmend t), (2, .windowCancel t)],
      c.cmd = i.1 → ∃ u, exec i.2 s = .next u ∧ u.dealer = s.dealer ∧ countsOne s u Dict.cmdMalformedCount 0
      ∧ u.mem = s.mem ∧ u.enc = s.enc))
  ∧ (∀ (t : Nat) (string : BitVec 4) (s : State), let v := string.toNat; let z := s.at t; let x := s.vstring v
    z.stringFree v = true →
    (s.dealer.stalled.contains (s.nat Dict.stringEncoder v) = true → x.next ≠ 0 → z.commitNow v (z.legalTime v) = true →
      ∃ u l, exec (.latchCommit t string) s = .next u ∧ u = { z with dealer := u.dealer }
      ∧ (u.vstring v).committed = x.committed ++ [l] ∧ l.image = 0 ∧ l.stall = true ∧ (l.dev : Int) = max 0 (z.legalTime v))
    ∧ (∀ c, s.dealer.stalled.contains (s.nat Dict.stringEncoder v) = false → earliest (z.changePoints v) = some c →
      let at' := up10 (max ((c + 65535) / 65536) (z.legalTime v))
      z.commitNow v at' = true → ∃ u l, exec (.latchCommit t string) s = .next u
      ∧ u = { z with dealer := u.dealer, regs := u.regs } ∧ (u.vstring v).committed = x.committed ++ [l]
      ∧ l.dev = at'.toNat ∧ l.stall = false)
    ∧ (s.nat Dict.refreshPeriod v ≠ 0 → x.last = none → earliest (z.changePoints v) = none →
      s.dealer.stalled.contains (s.nat Dict.stringEncoder v) = false ∨ x.next = 0 → z.commitNow v (z.legalTime v) = true →
      ∃ u l, exec (.stringRefresh t string) s = .next u ∧ u = { z with dealer := u.dealer }
      ∧ (u.vstring v).committed = x.committed ++ [l] ∧ l.image = x.next))

/-- R236, R240: LATCH rises at its time: the string takes the committed image, whose frame goes out on its wires; the
all-zero latch that a stop owes is latched at its own time, and every window is gone.

R227, R238: a belt whose newest edge is older than STALL_TIME is stalled, counted once; a driver fault of an enabled
string is counted and reported. Memory, encoders and windows stay. -/
def Obligations.StringsAndBelts : Prop :=
  (∀ (t : Nat) (string : BitVec 4) (diag : BitVec 256) (addr : BitVec 48) (s : State), let v := string.toNat
    let x := s.vstring v
    (∀ l rest, x.committed = l :: rest → l.tb ≤ max t s.tb → ∃ u, exec (.latchStrobe t string diag addr) s = .next u
      ∧ (u.vstring v).image = l.image ∧ (u.vstring v).committed = rest ∧ (u.vstring v).lastLatch = some l.dev
      ∧ Out.frame v (s.frameBits v l.image) ∈ u.out ∧ Out.latch v l.image ∈ u.out
      ∧ (l.opens = [] → l.misses = [] → l.stall = false → u.mem = s.mem))
    ∧ (∀ l, x.zero = some l → l.tb ≤ max t s.tb → x.committed = [] → ∃ u,
      exec (.stringZeroLatch t string diag) s = .next u ∧ (u.vstring v).image = 0 ∧ (u.vstring v).silent = true
      ∧ (u.vstring v).zero = none ∧ (u.vstring v).lastLatch = some l.dev ∧ u.windows = []
      ∧ Out.frame v (s.frameBits v 0) ∈ u.out ∧ Out.latch v 0 ∈ u.out ∧ u.mem = s.mem))
  ∧ (∀ (t : Nat) (enc : BitVec 3) (string : BitVec 4) (s : State),
    (∀ k, s.newest enc.toNat = some k → s.dealer.stalled.contains enc.toNat = false →
      s.numAt Dict.stallTime enc.toNat 0 < ((s.at t).devNs : Int) - k.time → ∃ u, exec (.beltStall t enc) s = .next u
      ∧ u.dealer = { s.dealer with stalled := s.dealer.stalled ++ [enc.toNat] } ∧ countsOne s u Dict.stallCount 0
      ∧ u.enc = s.enc ∧ u.mem = s.mem)
    ∧ (s.flag Dict.stringEnable string.toNat = true → ∃ u, exec (.driverFault t string) s = .next u
      ∧ countsOne s u Dict.driverFaultCount string.toNat ∧ u.dealer = s.dealer ∧ u.enc = s.enc ∧ u.mem = s.mem
      ∧ (0x06520804 : Word) ∈ u.errq.val [] dealerId))

/-- R246 to R249: in mode 1 an accepted change of one line counts the step that COUNT_MULT gives it, in the direction
DIR_INVERT says; a change of both at once counts nothing and is a quadrature fault. Other channels stay.

R250 to R253: in mode 2 a step to a neighbour in the magnetic order counts one, in its direction, and any other change
counts nothing and is a fault; in mode 3 a frame is started where one is due and takes its time, the first good one gives
the reference value, and a bad one is counted.

R246, R254 to R258: an index edge in INDEX_MODE 1 of a channel not in use loads INDEX_VALUE and empties the ring; a
watched pair enters LINE_FAULT and leaves it; an old newest entry makes T invalid; a write of POSITION that passes sets
the count, one of INDEX_ARM arms. -/
def Obligations.PositionInputs : Prop :=
  (∀ (t : Nat) (enc : BitVec 3) (a b : Bool) (s : State), let ch := enc.toNat; let e := s.encoder ch
    s.encModeOf ch = 1 → e.lineFault = [] →
    (∀ d, (e.a ≠ a ∧ e.b = b) ∨ (e.a = a ∧ e.b ≠ b) → quadStep (s.nat Dict.countMult ch) e.a e.b a b = some d →
      ∃ u, exec (.encoderEdge t enc a b) s = .next u ∧ (u.encoder ch).pos = count48 (e.pos + s.dirOf ch d)
      ∧ (u.encoder ch).a = a ∧ (u.encoder ch).b = b ∧ u.mem = s.mem ∧ ∀ n, n ≠ ch → u.encoder n = s.encoder n)
    ∧ (e.a ≠ a → e.b ≠ b → ∃ u, exec (.encoderEdge t enc a b) s = .next u ∧ (u.encoder ch).pos = e.pos
      ∧ countsOne s u Dict.quadFaultCount ch ∧ (u.encoder ch).valid = false ∧ u.mem = s.mem)
    ∧ (∃ u, exec (.edgeFault t enc) s = .next u ∧ (u.encoder ch).pos = e.pos ∧ countsOne s u Dict.edgeFaultCount ch
      ∧ u.mem = s.mem ∧ ∀ n, n ≠ ch → u.encoder n = s.encoder n))
  ∧ (∀ (t : Nat) (enc : BitVec 3) (s : State), let ch := enc.toNat; let e := s.encoder ch
    (∀ (uvw : BitVec 3) q p, s.encModeOf ch = 2 → e.magRef = some q →
      magPlace (bit uvw 2) (bit uvw 1) (bit uvw 0) = some p →
      ¬ (e.a = bit uvw 2 ∧ e.b = bit uvw 1 ∧ e.z = bit uvw 0) → ∃ u, exec (.magStep t enc uvw) s = .next u
      ∧ (u.encoder ch).magRef = some p ∧ u.mem = s.mem ∧ (∀ n, n ≠ ch → u.encoder n = s.encoder n)
      ∧ (if (q + 1) % 6 = p then (u.encoder ch).pos = count48 (e.pos + s.dirOf ch 1)
        else if (p + 1) % 6 = q then (u.encoder ch).pos = count48 (e.pos + s.dirOf ch (-1))
        else (u.encoder ch).pos = e.pos ∧ (u.encoder ch).valid = false ∧ countsOne s u Dict.quadFaultCount ch))
    ∧ (s.encModeOf ch = 3 → e.faulted 0 = false → (s.at t).ssiDue ch = true → ∃ u, exec (.ssiFrameStart t enc) s = .next u
      ∧ u = { s.at t with enc := u.enc, out := [.ssi ch (s.ssiClocks ch)] }
      ∧ u.encoder ch = { e with frameAt := some (s.at t).devNs, frameTb := some (max t s.tb) })
    ∧ ((∀ t0, e.frameTb = some t0 → t0 + s.ssiClockNs ch ≤ max t s.tb) →
      (∀ (raw : BitVec 49) at', e.frameAt = some at' → s.nat Dict.ssiParity ch = 0 → e.ssiLast = none →
        s.num Dict.ssiCode ch ≠ 1 → ∃ u, exec (.ssiFrameEnd t enc raw false false) s = .next u
        ∧ (u.encoder ch).ssiLast = some (raw.toNat % 2 ^ s.nat Dict.ssiBits ch) ∧ (u.encoder ch).frameAt = none
        ∧ (u.encoder ch).pos = e.pos ∧ u.mem = s.mem)
      ∧ (∀ (raw : BitVec 49) at' rec', e.frameAt = some at' → ∃ u, exec (.ssiFrameEnd t enc raw true rec') s = .next u
        ∧ countsOne s u Dict.ssiFrameFaultCount ch ∧ (u.encoder ch).pos = e.pos ∧ u.mem = s.mem)))
  ∧ (∀ (t : Nat) (enc : BitVec 3) (s : State), let ch := enc.toNat; let e := s.encoder ch
    (s.encModeOf ch = 1 → e.lineFault = [] → s.nat Dict.indexMode ch = 1 → s.encUsed ch = false → ∃ u,
      exec (.encIndex t enc) s = .next u ∧ (u.encoder ch).pos = s.num Dict.indexValue ch ∧ (u.encoder ch).ring = []
      ∧ u.num Dict.indexPos ch = e.pos ∧ (u.encoder ch).valid = false ∧ u.mem = s.mem)
    ∧ (∀ pair : Fin 3, s.watched ch pair = true → e.lineFault.contains pair.val = false → ∃ u,
      exec (.lineFault t enc pair) s = .next u ∧ (u.encoder ch).lineFault = e.lineFault ++ [pair.val]
      ∧ (u.encoder ch).valid = false ∧ (u.encoder ch).pos = e.pos ∧ countsOne s u Dict.lineFaultCount ch ∧ u.mem = s.mem)
    ∧ (∀ pair : Fin 3, e.lineFault.contains pair.val = true → ∃ u, exec (.lineFaultClear t enc pair) s = .next u
      ∧ u = { s.at t with enc := u.enc } ∧ (u.encoder ch).lineFault = e.lineFault.filter (· != pair.val))
    ∧ ((s.at t).encValid ch = false → ∃ u, exec (.periodInvalid t enc) s = .next u
      ∧ u = { s.at t with enc := u.enc } ∧ u.encoder ch = { e with valid := false })
    ∧ (∀ role (v : BitVec 64), s.numberPasses role Dict.position ch v.toNat → ∃ u,
      exec (.positionWrite t role enc v) s = .next u
      ∧ (u.encoder ch).pos = Dict.position.ty.value (leBytes Dict.position.ty.size v.toNat)
      ∧ (u.encoder ch).ring = [] ∧ Out.answer 0 ∈ u.out ∧ u.mem = s.mem)
    ∧ (∀ role (v : BitVec 8), s.numberPasses role Dict.indexArm ch v.toNat → v.toNat ≤ 1 → ∃ u,
      exec (.indexArmWrite t role enc v) s = .next u ∧ u.num Dict.indexArm ch = v.toNat ∧ Out.answer 0 ∈ u.out
      ∧ u.enc = s.enc ∧ u.mem = s.mem))

/-- R49, R203, R204: DEC works the tile its step holds: its verdict rows wait for emission, their deadline the time of
issue plus L_VL, and a step without a verdict ends; a missing detection tile releases every partial object of its port. -/
def Obligations.DecideIssuesVerdicts : Prop :=
  ∀ (t p : Nat) (rest : List (Nat × Item)) (s : State) (r : Running), (s.station decId).running = some r →
    r.computed = false → let port := fld (wordArgs r.word) 75 72
    let waits (u : State) (rows : Rows) : Prop :=
      if rows = [] then (u.station decId).running = none
      else ∃ r', (u.station decId).running = some r' ∧ r'.computed = true ∧ r'.outs = rowTiles64 rows
        ∧ r'.deadline = (s.at t).devNs + s.trump.cert.lVl
    (∀ d, r.ins = (p, .tile d) :: rest → ∃ u, exec (.decide t) s = .next u
      ∧ waits u ((s.at t).decideTile (fld r.word 95 76 * 100) port d).2)
    ∧ (∀ n, r.ins = (p, .gap n) :: rest → ∃ u, exec (.decide t) s = .next u
      ∧ (∀ q ∈ u.dec.partials, q.port ≠ port) ∧ sameBytes s u
      ∧ waits u ((s.at t).decideGap (fld r.word 95 76 * 100) port).2)

/-- R213 to R215: TRK takes one verdict row; with no context held it takes context 0, in SCHEDULED where the verdict
fires and in PASS where it does not, under a track ID that holds the context's reuse count; memory stays.

R214, R241: an OPENED report moves a SCHEDULED context of its track ID to EJECTING; a context whose end the belt has
reached is freed; one older than TRACK_MAX_AGE is freed and counted. Each changes that context alone. -/
def Obligations.TrackContexts : Prop :=
  (∀ (t : Nat) (s : State) (r : Running) (p : Nat) (d : Desc) (row : List Nat) (rest : List (Nat × Item)),
    (s.station trkId).running = some r → r.computed = false → r.ins = (p, .tile d) :: rest → s.trk.ctx = [] →
    ((s.at t).readTile trkId 0x0F false false (.tile d) (descRows d) 64).1.rows = [row] →
    let v := BitVec.ofNat 512 (rowNum 64 row)
    fld v 511 508 = 1 → ∃ u, exec (.track t) s = .next u ∧ ctxState (u.ctx 0) = (if bit v 501 then 2 else 1)
    ∧ fld (u.ctx 0) 479 448 = s.trk.reuse.val 0 0 % 65536 * 65536 ∧ u.trk.ctx.length = 1 ∧ sameBytes s u)
  ∧ (∀ (t : Nat) (i : BitVec 16) (s : State), let c := s.ctx i.toNat
    (∀ (port : BitVec 4) d rest row, (s.station trkId).inq.val [] port.toNat = .tile d :: rest →
      ((State.consume (s.at t) trkId port.toNat).2.readTile trkId 0x0F false false (.tile d) (descRows d) 16).1.rows
        = [row] →
      let w := BitVec.ofNat 128 (rowNum 16 row)
      fld w 127 124 = 1 → fld w 123 121 = 0 → fld w 111 80 % 65536 = i.toNat → fld c 479 448 = fld w 111 80 →
      ctxState c = 2 → ∃ u, exec (.trackEjecting t port) s = .next u ∧ u.ctx i.toNat = withState c 3
      ∧ (u.station trkId).inq.val [] port.toNat = rest ∧ sameBytes s u ∧ ∀ j, j ≠ i.toNat → u.ctx j = s.ctx j)
    ∧ (ctxState c ≠ 0 → (s.at t).reached (fld c 371 369) (signed 48 (fld c 231 184)) = true → ∃ u,
      exec (.trackRetire t i) s = .next u ∧ u = { s.at t with trk := u.trk } ∧ u.ctx i.toNat = 0
      ∧ ∀ j, j ≠ i.toNat → u.ctx j = s.ctx j)
    ∧ (∀ addr : BitVec 48, ctxState c ≠ 0 →
      s.trk.born.val 0 i.toNat + s.nat Dict.trackMaxAge * 1000000 < (s.at t).devNs → ∃ u,
      exec (.trackExpired t i addr) s = .next u ∧ u.ctx i.toNat = 0 ∧ countsOne s u Dict.trackExpiredCount 0
      ∧ (ctxState c = 1 → u.mem = s.mem)
      ∧ ((∀ p ∈ s.outStreams trkId s.trackPort, s.queued p.2.entry = false) →
        ∀ a, a < addr.toNat ∨ addr.toNat + 32 ≤ a → u.byteAt a = s.byteAt a)
      ∧ ∀ j, j ≠ i.toNat → u.ctx j = s.ctx j))

/-- R208: a threshold write that passes takes effect and leaves the other threshold; an envelope write that passes and is
answered with success sets its bound, both thresholds then lying within the envelope. Memory and verdict partials stay. -/
def Obligations.ThresholdWrites : Prop :=
  ∀ (t : Nat) (role : Role) (v : BitVec 16) (s : State),
    (s.numberPasses role Dict.acceptThreshold 0 v.toNat → ∃ u, exec (.thresholdWrite t role true v) s = .next u
      ∧ u.nat Dict.acceptThreshold = v.toNat ∧ u.num Dict.rejectThreshold = s.num Dict.rejectThreshold
      ∧ Out.answer 0 ∈ u.out ∧ u.mem = s.mem ∧ u.dec = s.dec)
    ∧ (s.numberPasses role Dict.rejectThreshold 0 v.toNat → ∃ u, exec (.thresholdWrite t role false v) s = .next u
      ∧ u.nat Dict.rejectThreshold = v.toNat ∧ u.num Dict.acceptThreshold = s.num Dict.acceptThreshold
      ∧ Out.answer 0 ∈ u.out ∧ u.mem = s.mem ∧ u.dec = s.dec)
    ∧ (∀ which : Fin 4, s.numberPasses role (envelopeEnt which) 0 v.toNat → ∃ u,
      exec (.envelopeWrite t role which v) s = .next u ∧ u.mem = s.mem ∧ u.dec = s.dec
      ∧ (Out.answer 0 ∈ u.out → u.nat (envelopeEnt which) = v.toNat
        ∧ u.nat Dict.accThrMin ≤ u.nat Dict.acceptThreshold ∧ u.nat Dict.acceptThreshold ≤ u.nat Dict.accThrMax
        ∧ u.nat Dict.rejThrMin ≤ u.nat Dict.rejectThreshold ∧ u.nat Dict.rejectThreshold ≤ u.nat Dict.rejThrMax
        ∧ u.nat Dict.rejectThreshold < u.nat Dict.acceptThreshold))

/-- R212: a crop sample that fits its slot, with a free slot, credit in the bucket and room in ADAPT_QUEUE, is made: its
record is posted, its slot held, and it is counted; a sample that cannot be made is counted as skipped; with
SAMPLE_ENABLE 0 none is tried. -/
def Obligations.CropSampleIsTaken : Prop :=
  ∀ (t : Nat) (s : State) (v : Verdict) (rest : List Verdict), s.dec.samples = v :: rest →
    let q := s.nat Dict.adaptQueue
    let slots := max 1 (s.nat Dict.cropSlots)
    let lines := (s.dec.rings.val {} v.port).lines' (s.nat Dict.cropRingLines v.port) v
    (∀ slot first last, s.flag Dict.sampleEnable = true → s.freeSlot slots s.dec.nextSlot slots = some slot → lines = some (first, last) →
      nsPerS ≤ Bucket.levelAt s.dec.bucket (s.nat Dict.sampleMaxRate) (max t s.tb) → s.nat Dict.cropRingLines v.port ≠ 0 →
      (last + 1 - first) * (s.cropCols v).2 * s.channels v.port * 2 ≤ s.nat Dict.cropSlotBytes → s.cropAreaOk = true →
      s.queueOn q = true → s.queueStrip q = false → (s.pushCells q 1).length = 1 → ∃ u,
      exec (.cropSample t) s = .next u ∧ u.dec.samples = rest ∧ countsOne s u Dict.sampledCount 0
      ∧ (u.dec.slotsUsed.look slot).isSome = true)
    ∧ (s.flag Dict.sampleEnable = false → exec (.cropSample t) s = .next { s.at t with dec := { s.dec with samples := rest } })
    ∧ (s.flag Dict.sampleEnable = true → lines = none → ∃ u, exec (.cropSample t) s = .next u ∧ u.dec.samples = rest
      ∧ countsOne s u Dict.sampleSkipped 0 ∧ u.mem = s.mem)

/-- R261 to R265, R271: while the field side has power and supply a sample takes its raw class and the current it was
measured with; ON that has held for DEBOUNCE and BREAK that has held for BREAK_FILTER are accepted and counted; the supply
going low freezes DI_STATE and drives every output off; its return and a power-up start over. Memory stays. -/
def Obligations.FieldInputs : Prop :=
  ∀ (t : Nat) (input : BitVec 5) (s : State), let n := input.toNat; let x := s.input n; let now := max t s.tb
    (∀ mv ua, s.field.powered = true → s.field.supplyGood = true → ∃ u, exec (.diSample t input mv ua) s = .next u
      ∧ u = { s.at t with regs := u.regs, field := u.field } ∧ u.num Dict.diCurrent n = (min (ua / 10) 65535 : Nat)
      ∧ (ua < 200 → (u.input n).raw = if s.flag Dict.wireBreakEn n then .brk else .off)
      ∧ (2000 ≤ ua → 15000 ≤ mv → (u.input n).raw = .on) ∧ (1500 < ua → ua < 2000 → 5000 < mv → (u.input n).raw = x.raw)
      ∧ (u.input n).on = x.on ∧ (u.input n).brk = x.brk ∧ ∀ m, m ≠ n → u.input m = s.input m)
    ∧ (s.field.supplyGood = true → x.raw = .on → x.on = false → x.brk = false →
      x.since + s.nat Dict.debounce n * 1000 ≤ now → ∃ u, exec (.diChange t input) s = .next u ∧ (u.input n).on = true
      ∧ countsOne s u Dict.diChangeCount n ∧ u.field.outputs = s.field.outputs ∧ u.mem = s.mem
      ∧ ∀ m, m ≠ n → u.input m = s.input m)
    ∧ (s.field.supplyGood = true → x.raw = .brk → x.brk = false →
      x.since + s.nat Dict.breakFilter n * 1000000 ≤ now → ∃ u, exec (.fieldWireBreak t input) s = .next u
      ∧ (u.input n).brk = true ∧ countsOne s u Dict.diBreakCount n ∧ countsOne s u Dict.diChangeCount n
      ∧ (0x06D00A01 : Word) ∈ u.errq.val [] mgt ∧ u.field.outputs = s.field.outputs ∧ u.mem = s.mem)
    ∧ (s.field.powered = true → s.field.low = false → ∃ u, exec (.fieldSupplyLow t) s = .next u
      ∧ u.field.supplyGood = false ∧ u.field.low = true ∧ u.diState = s.diState ∧ (∀ k < 16, (u.output k).driven = false) ∧ (0x06D00A06 : Word) ∈ u.errq.val [] mgt
      ∧ u.field.inputs = s.field.inputs ∧ u.mem = s.mem)
    ∧ (s.field.powered = true → s.field.supplyGood = false → ∃ u, exec (.fieldSupplyGood t) s = .next u
      ∧ u = { s.at t with field := u.field } ∧ u.field.supplyGood = true ∧ u.field.low = false
      ∧ (s.field.low = true → u.field.gotFrame = false ∧ ∀ k < 16, (u.output k).driven = false ∧ (u.output k).asked = false)
      ∧ (s.field.low = false → u.field.gotFrame = s.field.gotFrame ∧ u.field.outputs = s.field.outputs)
      ∧ ∀ m < 32, (u.input m).raw = .off ∧ (u.input m).since = now ∧ (u.input m).on = (s.input m).on)
    ∧ (∃ u, exec (.fieldPowerUp t) s = .next u ∧ u = { s.at t with field := u.field } ∧ u.field.powered = true
      ∧ u.field.gotFrame = false ∧ u.field.supplyGood = false ∧ u.field.low = false
      ∧ ∀ k < 16, (u.output k).driven = false ∧ (u.output k).asked = false)

/-- R267: overcurrent turns a driven output off, latched without DO_RESTART; a retry 100 ms later drives it again as asked;
open load and mismatch are counted and set their bits of DO_FAULT; DO_FAULT_CLEAR and DO_FAULT_ACK clear theirs. R579: an
overloaded encoder supply goes off and is tried again 100 ms later. No other output changes; memory stays.

R266, R268 to R272, R530: an output frame carries the commanded levels and the next count, and the field side drives
them; without frames for 500 us it takes the safe states; the kick sequence from a supervisor that may kick sets the
deadline; at the deadline frames are flagged SAFE, until a release that passes. Memory stays. -/
def Obligations.FieldOutputs : Prop :=
  (∀ (t : Nat) (output : BitVec 4) (s : State), let k := output.toNat; let o := s.output k; let now := max t s.tb
    (o.driven = true → ∃ u, exec (.fieldOutOvercurrent t output) s = .next u ∧ (u.output k).driven = false
      ∧ (u.output k).tripped = true ∧ (u.output k).offAt = now ∧ (s.nat Dict.doRestart k ≠ 1 → (u.output k).latched = true)
      ∧ countsOne s u Dict.doOvercurrentCount k ∧ inMap (u.nat Dict.doFault k) 0 = true ∧ u.mem = s.mem
      ∧ ∀ j, j ≠ k → u.output j = s.output j)
    ∧ (o.tripped = true → o.latched = false → s.nat Dict.doRestart k ≠ 0 → o.offAt + 100000000 ≤ now → ∃ u, exec (.doRetry t output) s = .next u
      ∧ u = { s.at t with field := u.field } ∧ (u.output k).tripped = false ∧ (u.output k).retryAt = some now
      ∧ (u.output k).driven = (o.asked && !s.field.low && s.field.powered) ∧ ∀ j, j ≠ k → u.output j = s.output j)
    ∧ (o.driven = true → ∃ u, exec (.fieldOutOpenLoad t output) s = .next u ∧ countsOne s u Dict.doOpenLoadCount k
      ∧ inMap (u.nat Dict.doFault k) 1 = true ∧ u.field = s.field ∧ u.mem = s.mem)
    ∧ (s.field.powered = true → ∃ u, exec (.fieldOutMismatch t output) s = .next u ∧ countsOne s u Dict.doMismatchCount k
      ∧ inMap (u.nat Dict.doFault k) 2 = true ∧ u.field = s.field ∧ u.mem = s.mem)
    ∧ (∀ mis : Bool, inMap (s.nat Dict.doFault k) (if mis then 2 else 1) = true → ∃ u,
      exec (.doFaultClear t output mis) s = .next u ∧ u = { s.at t with regs := u.regs }
      ∧ u.nat Dict.doFault k = s.nat Dict.doFault k - (if mis then 4 else 2))
    ∧ (∀ role, s.numberPasses role Dict.doFaultAck k 1 → (o.latched = true ∨ o.tripped = false ∨ s.nat Dict.doRestart k = 0) → ∃ u,
      exec (.doFaultAck t role output 1) s = .next u ∧ (u.output k).latched = false ∧ (u.output k).tripped = false
      ∧ (u.output k).driven = (o.asked && !s.field.low && s.field.powered)
      ∧ inMap (u.nat Dict.doFault k) 0 = false ∧ Out.answer 0 ∈ u.out ∧ u.mem = s.mem
      ∧ ∀ j, j ≠ k → u.output j = s.output j)
    ∧ (∀ enc : BitVec 3, (∃ u, exec (.enc5vOverload t enc) s = .next u ∧ u = { s.at t with sup := u.sup }
        ∧ (u.sup.val {} enc.toNat).enc5vOff = true ∧ (u.sup.val {} enc.toNat).enc5vAt = now)
      ∧ ((s.sup.val {} enc.toNat).enc5vAt + 100000000 ≤ now → ∃ u, exec (.enc5vRetry t enc) s = .next u
        ∧ u = { s.at t with sup := u.sup } ∧ (u.sup.val {} enc.toNat).enc5vOff = false)))
  ∧ (∀ (t : Nat) (s : State), let now := max t s.tb
    (s.boot.held = none → s.field.powered = true → s.field.safe = false → s.sec.serviceState = false → ∃ u,
      exec (.outputFrame t true) s = .next u ∧ Out.field (BitVec.ofNat 16 (bitsOf 16 s.commanded)) false s.field.count
        (Config.fieldCrc (BitVec.ofNat 16 (bitsOf 16 s.commanded)) false s.field.count) ∈ u.out
      ∧ u.field.count = s.field.count + 1 ∧ u.field.lastFrame = now ∧ u.field.linkLost = false ∧ u.mem = s.mem
      ∧ ∀ k < 16, (u.output k).asked = s.commanded k ∧ (u.output k).driven
        = (s.commanded k && !s.field.low && !(s.output k).tripped && !(s.output k).latched))
    ∧ (s.field.powered = true → s.field.gotFrame = true → s.field.linkLost = false →
      s.field.lastFrame + 500000 ≤ now → ∃ u, exec (.fieldLinkLost t) s = .next u ∧ u = { s.at t with field := u.field }
      ∧ u.field.linkLost = true ∧ ∀ k < 16, (u.output k).driven = (s.field.safeLevel s.field.intact k
        && !s.field.low && !(s.output k).tripped && !(s.output k).latched))
    ∧ (∀ gap ≤ 10000, (s.at t).mayKick = true → exec (.watchdogKick t 0x5A 0xA5 gap) s = .next { s.at t with
      field := { s.field with deadline := some (now + s.nat Dict.watchdogTime * 1000000), kicked := true } })
    ∧ (∀ d, s.field.deadline = some d → d ≤ now → ∃ u, exec (.watchdogExpiry t) s = .next u
      ∧ u.field = { s.field with deadline := none, kicked := false, safe := true }
      ∧ countsOne s u Dict.watchdogExpiryCount 0 ∧ (0x06D00A05 : Word) ∈ u.errq.val [] mgt ∧ u.mem = s.mem)
    ∧ (∀ role, s.numberPasses role Dict.safeStateRelease 0 1 → ∃ u, exec (.safeStateRelease t role 1) s = .next u
      ∧ u.field = { s.field with safe := false } ∧ Out.answer 0 ∈ u.out ∧ u.mem = s.mem))

/-- R163, R164, R167, R590: a write of PORT_ENABLE that passes and changes the entry starts the port over; a frame start on
the framing virtual channel opens a frame and a frame end closes it; packets of no use are counted; LINE_PERIOD_MAX
without a line closes the frame, is counted and told to the lane's station. No other port changes; memory stays. -/
def Obligations.CameraFrames : Prop :=
  ∀ (t : Nat) (port : BitVec 4) (s : State), let n := port.toNat; let c := s.cam n; let now := max t s.tb
    (∀ role (v : BitVec 8), s.numberPasses role Dict.portEnable n v.toNat → s.num Dict.portEnable n ≠ v.toNat → ∃ u,
      exec (.portEnableWrite t role port v) s = .next u ∧ u.num Dict.portEnable n = v.toNat
      ∧ (u.cam n).frameOpen = false ∧ (u.cam n).lastNumber = none ∧ (u.cam n).raw = [] ∧ (u.cam n).hist = c.hist
      ∧ Out.answer 0 ∈ u.out ∧ u.mem = s.mem ∧ ∀ m, m ≠ n → u.cam m = s.cam m)
    ∧ (s.flag Dict.portEnable n = true →
      (∀ (vc : BitVec 5) (number : BitVec 16) fifo, s.framingVc n = some vc.toNat → c.frameOpen = false →
        c.overflow = false → c.lastNumber = none → number ≠ 0 → ∃ u,
        exec (.frameStart t port vc number false fifo) s = .next u ∧ u = { s.at t with cams := u.cams }
        ∧ (u.cam n).frameOpen = true ∧ (u.cam n).row = 0 ∧ (u.cam n).next = 0 ∧ (u.cam n).lastNumber = some number
        ∧ (u.cam n).live = (c.live || s.trump.st == .running) ∧ ∀ m, m ≠ n → u.cam m = s.cam m)
      ∧ (∀ (vc : BitVec 5) fifo, s.framingVc n = some vc.toNat → c.frameOpen = true → ∃ u,
        exec (.frameEnd t port vc false fifo) s = .next u ∧ u = { s.at t with cams := u.cams }
        ∧ (u.cam n).frameOpen = false ∧ (u.cam n).overflow = (c.overflow && !fifo)
        ∧ (c.live = false → (u.cam n).raw = c.raw)
        ∧ (c.live = true → ∃ l, (u.cam n).raw = c.raw ++ [l] ∧ l.kind = .frameEnd)
        ∧ ∀ m, m ≠ n → u.cam m = s.cam m)
      ∧ (∀ fixed, ∃ u, exec (.packetIgnored t port fixed) s = .next u ∧ u = { s.at t with regs := u.regs }
        ∧ countsOne s u Dict.packetIgnored n ∧ (fixed = true → countsOne s u Dict.eccCorrected n))
      ∧ (∀ addr fifo, c.frameOpen = true → c.lastLine + s.nat Dict.linePeriodMax n ≤ now → s.trump.st ≠ .running → ∃ u,
        exec (.lineTimeout t port addr fifo) s = .next u ∧ (u.cam n).frameOpen = false
        ∧ countsOne s u Dict.lineTimeout n ∧ u.errq.val [] (devId n) = s.errq.val [] (devId n)
          ++ [BitVec.ofNat 32 (0x06000602 + devId n * 65536)] ∧ u.mem = s.mem ∧ ∀ m, m ≠ n → u.cam m = s.cam m))

/-- R161, R165, R167: the next expected line of an open frame goes to a live lane with its codes where its CRC and length
hold; with a bad CRC it is counted, and the last good line of its channel is substituted, marked. -/
def Obligations.ImageLinesReachTheLane : Prop :=
  ∀ (t : Nat) (port : BitVec 4) (p : LinePacket) (fifo : Bool) (s : State), let n := port.toNat; let c := s.cam n
    s.flag Dict.portEnable n = true → p.corrected = false → p.readable = true → p.vc < 16 → s.vcImage n p.vc = true →
    fld (s.vcMapOf n p.vc) 12 7 = p.dt → c.frameOpen = true → s.vcChannel n p.vc % s.scanLines n = c.next →
    c.row < s.nat Dict.frameLines n → p.full = false → c.overflow = false → c.live = true →
    (p.crcOk = true → p.words = s.rawLineBytes n (rawBits p.dt) → c.last.look c.next = none → ∃ u l,
      exec (.imageLine t port p fifo) s = .next u ∧ u = { s.at t with cams := u.cams } ∧ (u.cam n).raw = c.raw ++ [l]
      ∧ l.kind = .line ∧ l.channel = c.next ∧ l.row = c.row ∧ l.codes = p.codes.map (·.toNat) ∧ l.substituted = false
      ∧ l.pos = (s.at t).stampPos n ∧ ((u.cam n).next, (u.cam n).row)
        = (if c.next + 1 = s.scanLines n then (0, c.row + 1) else (c.next + 1, c.row))
      ∧ ∀ m, m ≠ n → u.cam m = s.cam m)
    ∧ (p.crcOk = false → ∃ u l, exec (.imageLine t port p fifo) s = .next u
      ∧ u = { s.at t with cams := u.cams, regs := u.regs } ∧ countsOne s u Dict.crcError n
      ∧ (u.cam n).raw = c.raw ++ [l] ∧ l.codes = c.good.val (List.replicate (s.nat Dict.lineWidth n) 0) c.next
      ∧ l.substituted = true)

/-- R166, R170, R174 to R178: a metadata packet of a mapped channel changes no byte but those its tiles are laid to (and the cells of a queue they go into); a lane
whose step is in flight develops its next scan and completes the step; a frame end is worked off; a full window is published and a new one begins; computed gains that are
due are the port's from now on. No other port changes. -/
def Obligations.DevelopLanes : Prop :=
  ∀ (t : Nat) (port : BitVec 4) (s : State), let n := port.toNat; let c := s.cam n
    (∀ (vc : BitVec 5) (dt : BitVec 6) crcOk payload (addr : BitVec 48), s.flag Dict.portEnable n = true →
      vc.toNat < 16 → bit (s.vcMapOf n vc.toNat) 15 = true → fld (s.vcMapOf n vc.toNat) 14 13 = 1 →
      fld (s.vcMapOf n vc.toNat) 12 7 = dt.toNat → c.frameOpen = true → c.overflow = false → payload.length ≤ 16384 →
      ∃ u, exec (.metadataPacket t port vc dt crcOk false payload false addr) s = .next u ∧ u.cams = s.cams
      ∧ (crcOk = false → countsOne s u Dict.crcError n)
      ∧ ((∀ p ∈ s.outStreams (devId n) 1, s.queued p.2.entry = false) →
        ∀ a, a < addr.toNat ∨ addr.toNat + payload.length ≤ a → u.byteAt a = s.byteAt a))
    ∧ (∀ (addr : BitVec 48) run, c.win.full = false → c.pending = [] → s.trump.st = .running →
      (s.station (devId n)).running = some run → (∀ l ∈ c.raw, l.kind = .line) → s.scanReady n = true →
      ∃ u, exec (.developLine t port addr) s = .next u ∧ (u.station (devId n)).running = none
      ∧ (u.cam n).raw = c.raw.drop (s.scanLines n) ∧ ∀ m, m ≠ n → u.cam m = s.cam m)
    ∧ (∀ (addr : BitVec 48) m, c.win.full = false → c.group = [] → s.area n = false → c.raw = [m] →
      m.kind = .frameEnd → 0 < s.scanLines n → ∃ u, exec (.developLine t port addr) s = .next u
      ∧ u = { s.at t with cams := u.cams } ∧ u.cam n = { c with raw := [], sot := true }
      ∧ ∀ m, m ≠ n → u.cam m = s.cam m)
    ∧ (c.win.full = true → ∃ u, exec (.statsWindowEnd t port) s = .next u ∧ (u.cam n).win = {}
      ∧ countsOne s u Dict.statsSeq n ∧ (∀ i ≤ 4, u.gain n i = s.gain n i) ∧ u.mem = s.mem
      ∧ ∀ m, m ≠ n → u.cam m = s.cam m)
    ∧ (∀ t0 g, s.trump.st = .running → c.pending = [(t0, [(0, g)])] → t0 + 100000 ≤ max t s.tb → ∃ u,
      exec (.gainApply t port) s = .next u ∧ u = { s.at t with regs := u.regs, cams := u.cams }
      ∧ u.nat Dict.exposureGain n = g ∧ u.cam n = { c with pending := [] } ∧ ∀ m, m ≠ n → u.cam m = s.cam m)

/-- R278 to R280, R282, R283: a packet of no enabled stream is counted; one of a stream is held, or counted where it is
late; released in its place with the marker bit it makes an access unit; DECODE_SLICE gives the core to a ready stream; a
stream without packets for STREAM_TIMEOUT is lost; one enabled waits for a key frame. Memory stays. -/
def Obligations.VideoPackets : Prop :=
  ∀ (t : Nat) (stream : BitVec 6) (s : State), let n := stream.toNat; let v := s.vstream n; let now := max t s.tb
    (∀ (src : BitVec 32) (port : BitVec 16) (pt : BitVec 7) seq ts mk l,
      (s.streamFor src.toNat port.toNat pt.toNat = none → ∃ u, exec (.rtpPacket t src port pt seq ts mk l) s = .next u
        ∧ u = { s.at t with regs := u.regs } ∧ countsOne s u Dict.unmatchedPackets 0)
      ∧ (s.streamFor src.toNat port.toNat pt.toNat = some n → v.st ≠ .lost →
        (v.held = [] → v.next = none → ∃ u, exec (.rtpPacket t src port pt seq ts mk l) s = .next u
          ∧ u = { s.at t with video := u.video } ∧ (u.vstream n).lastPacket = now ∧ (u.vstream n).held
            = [{ seq := seq, ts := ts, marker := mk, payload := l, at_ := now, dev := (s.at t).devNs }])
        ∧ (∀ k, v.next = some k → seqAhead seq k < 0 → ∃ u, exec (.rtpPacket t src port pt seq ts mk l) s = .next u
          ∧ countsOne s u Dict.packetsLate n ∧ (u.vstream n).held = v.held ∧ u.mem = s.mem)))
    ∧ (∀ p, v.held = [p] → p.at_ + s.nat Dict.reorderTime * 1000000 ≤ now → v.next = none → v.cur = none →
      p.marker = true → v.st = .run →
      let a := (({ ts := p.ts, dev := p.dev } : AccessUnit).addPayload (s.nat Dict.codec n) p.payload).close
        (s.nat Dict.codec n)
      (∀ b ∈ v.units ++ [a], b.rasl = false) → ∃ u, exec (.rtpRelease t stream) s = .next u ∧ (u.vstream n).held = []
      ∧ (u.vstream n).units = v.units ++ [a]
      ∧ (u.vstream n).next = some (p.seq + 1) ∧ u.mem = s.mem ∧ ∀ m, m ≠ n → u.vstream m = s.vstream m)
    ∧ (∀ core : BitVec 3, s.video.boundary.val 0 core.toNat ≤ now → s.video.slice.look core.toNat = none →
      s.readyStreams core.toNat = [n] → v.st = .run → (∀ b ∈ v.units, b.rasl = false) → ∃ u,
      exec (.decodeSlice t core) s = .next u ∧ u = { s.at t with video := u.video }
      ∧ u.video.slice.look core.toNat = some n ∧ u.video.boundary.val 0 core.toNat = now + 250000 ∧ (u.vstream n).units = v.units)
    ∧ (v.st = .run → v.lastPacket + s.nat Dict.streamTimeout n * 1000000 ≤ now → ∃ u,
      exec (.videoStreamLost t stream) s = .next u ∧ u.vstream n = { v with st := .lost, used := (s.at t).coreTime n } ∧ u.mem = s.mem
      ∧ withSrc 0x06000B01 (s.vdOf n) ∈ u.errq.val [] mgt ∧ ∀ m, m ≠ n → u.vstream m = s.vstream m)
    ∧ (∀ role, s.numberPasses role Dict.vstreamEnable n 1 → s.num Dict.vstreamEnable n ≠ 1 → ∃ u,
      exec (.vstreamEnableWrite t role stream 1) s = .next u ∧ u.flag Dict.vstreamEnable n = true
      ∧ u.vstream n = { st := .waitKey, since := now, lastPacket := now } ∧ Out.answer 0 ∈ u.out ∧ u.mem = s.mem)

/-- R283 to R285, R288 to R294: an undamaged picture is put out as decoded, a key frame moving its stream to RUN; one that used its budget is replaced by the
last, and the stream resyncs; a template enabled counts its instants from now; an instant builds a batch in a free space
or is skipped; a complete batch's record is posted and its space held. -/
def Obligations.PicturesAndBatches : Prop :=
  ∀ (t : Nat) (stream : BitVec 6) (tpl : BitVec 3) (s : State), let n := stream.toNat; let v := s.vstream n
    let k := tpl.toNat; let now := max t s.tb
    (∀ (d : Decoded) a rest, v.units = a :: rest → s.underDecode n = some a →
      (a.key = true → s.decodable n d = true) → (s.at t).coreTime n ≤ s.vbudget n → d.damage = none →
      a.lossy = false → a.broken = false → (∀ b ∈ rest, b.rasl = false) → ∃ u p,
      exec (.pictureDone t stream d) s = .next u ∧ (u.vstream n).pics = (p :: v.pics).take 4 ∧ p.ts = a.ts
      ∧ p.done = now ∧ p.frame = d.frame ∧ p.mucked = false ∧ p.concealed = (!a.key && v.chain && d.chain)
      ∧ (u.vstream n).st = (if a.key then .run else v.st)
      ∧ (u.vstream n).units = rest ∧ u.mem = s.mem ∧ ∀ m, m ≠ n → u.vstream m = s.vstream m)
    ∧ (∀ (first damaged total : BitVec 24) a p q, v.units = [a] → s.underDecode n = some a →
      s.vbudget n ≤ (s.at t).coreTime n → v.pics = p :: q → p.mucked = false → ∃ u o,
      exec (.videoBudget t stream first damaged total) s = .next u ∧ (u.vstream n).st = .resync
      ∧ (u.vstream n).units = [] ∧ (u.vstream n).pics = (o :: v.pics).take 4 ∧ o.frame = p.frame ∧ o.ts = a.ts
      ∧ o.concealed = true ∧ countsOne s u Dict.budgetOverruns n ∧ ∀ m, m ≠ n → u.vstream m = s.vstream m)
    ∧ (∀ role, s.numberPasses role Dict.templateEnable k 1 → s.num Dict.templateEnable k ≠ 1 → ∃ u,
      exec (.templateEnableWrite t role tpl 1) s = .next u ∧ u.flag Dict.templateEnable k = true
      ∧ u.video.enabledAt.look k = some now ∧ u.video.instants.look k = none ∧ u.mem = s.mem)
    ∧ (s.flag Dict.templateEnable k = true → s.video.enabledAt.val 0 k
        + (s.video.instants.val 0 k + 1) * s.nat Dict.buildPeriod k * 1000000 ≤ now →
      (s.freeSpace = none → ∃ u, exec (.batchBuild t tpl) s = .next u ∧ countsOne s u Dict.buildsSkipped 0
        ∧ u.video.instants.look k = some (s.video.instants.val 0 k + 1) ∧ u.video.building = s.video.building
        ∧ u.mem = s.mem)
      ∧ (∀ sp, s.freeSpace = some sp → ∃ u b, exec (.batchBuild t tpl) s = .next u
        ∧ u.video.building.look sp = some b ∧ b.template = k ∧ b.seq = s.video.seqs.val 0 k ∧ b.slots = s.nat Dict.slots k
        ∧ b.instant = (s.at t).devNs ∧ u.video.instants.look k = some (s.video.instants.val 0 k + 1)
        ∧ ∀ a < s.batchAddr sp, u.byteAt a = s.byteAt a))
    ∧ (∀ (sp : BitVec 6) b, s.video.building.look sp.toNat = some b → s.queueOn (s.nat Dict.deckQueue) = true →
      s.queueStrip (s.nat Dict.deckQueue) = false → (s.pushCells (s.nat Dict.deckQueue) 1).length = 1 → ∃ u,
      exec (.batchComplete t sp) s = .next u ∧ u.video.building.look sp.toNat = none
      ∧ (u.video.spaces.look sp.toNat).isSome = true ∧ countsOne s u Dict.batchesBuilt 0
      ∧ (u.queue (s.nat Dict.deckQueue)).unread.length = (s.queue (s.nat Dict.deckQueue)).unread.length + 1)

/-- R308, R319: SEQ_LOCK of a KVOP locks its sequence where it is free, and waits where another holds it. A sequence
operation whose sequences are free and whose requirement holds writes the directory entry it says, and completes; CLOSE
keeps or takes its place in the order of CLOSE; with the requirement unmet it changes no memory, and completes. The locks
of an ATTN step are taken all at once. -/
def Obligations.SequenceOperations : Prop :=
  ∀ (t : Nat) (st : BitVec 8) (s : State) (r : Running), let sid := st.toNat; let seq := fld r.word 72 61
    let src := fld r.word 60 49; let d := (s.kvDir sid seq).1; let ds := ((s.kvDir sid seq).2.kvDir sid src).1
    let at' := s.kvAt Dict.kvDirBase (16 * seq)
    let writes (u : State) (v : BitVec 128) : Prop := (u.station sid).running = none
      ∧ ∀ i < 16, s.accessStatus sid true (at' + i) = none → u.byteAt (at' + i) = (wordBytes v).getD i 0
    (∀ g, s.attnStep sid = some (r, g) → let a := s.attnRun sid
      r.attn.isSome = true → a.entries ≠ [] → a.bad = false → a.locked = false →
      s.lockFree sid (a.entries.map (·.1)) = true → ∃ u, exec (.seqLock t st) s = .next u
      ∧ (u.attnRun sid).locked = true ∧ (∀ e ∈ a.entries, u.attn.locks.look e.1 = some (s.ownerOf sid, sid))
      ∧ u.mem = s.mem)
    ∧ ((s.station sid).running = some r → s.atuOp sid = some 0x11 →
    (fld r.word 75 73 ≠ 1 →
      (s.lockFree sid [seq] = true → ∃ u, exec (.seqLock t st) s = .next u
        ∧ u.attn.locks.look seq = some (s.ownerOf sid, sid) ∧ u.mem = s.mem)
      ∧ (s.lockFree sid [seq] = false → ∃ u, exec (.seqLock t st) s = .next u ∧ u.attn.locks = s.attn.locks
        ∧ ((s.station sid).seq = .run → (u.station sid).seq = .blocked) ∧ u.mem = s.mem))
    ∧ (s.lockFree sid [seq] = true →
      (fld r.word 75 73 = 0 → dirValid d = false → ∃ u, exec (.kvOpen t st) s = .next u
        ∧ writes u (setFld d 123 122 2) ∧ u.attn.closes.look seq = none)
      ∧ (fld r.word 75 73 = 2 → dirValid d = true → ∃ u, exec (.kvClose t st) s = .next u
        ∧ writes u (setFld d 122 122 1)
        ∧ u.attn.closes.look seq = some ((s.attn.closes.look seq).getD s.attn.nextClose)
        ∧ ∀ a, a < at' ∨ at' + 16 ≤ a → u.byteAt a = s.byteAt a)
      ∧ (fld r.word 75 73 = 3 → dirValid d = true → ∃ u, exec (.kvFree t st) s = .next u
        ∧ writes u (setFld d 123 123 0) ∧ u.attn.closes.look seq = none)
      ∧ (fld r.word 75 73 = 2 → dirValid d = false → ∃ u, exec (.kvClose t st) s = .next u ∧ sameBytes s u
        ∧ (u.station sid).running = none))
    ∧ (s.lockFree sid [seq, src] = true → fld r.word 75 73 = 1 →
      (dirValid ds = true → dirValid d = false → (∀ p ∈ s.kvSlots, (s.kvList sid src ds p.1 p.2).1.pages = 0) → ∃ u,
        exec (.kvFork t st) s = .next u ∧ writes u (setFld d 123 122 2))
      ∧ (dirValid ds = false → ∃ u, exec (.kvFork t st) s = .next u ∧ sameBytes s u
        ∧ (u.station sid).running = none)))

/-- R307, R309, R310, R318, R320: with its tiles taken and its sequences locked, an ATTN step without APPEND goes through
its next entry: where the entry's rows can be computed they join the step's output, and the list header is written; where
they cannot, the rows are zeros of a failed entry, LAST_FAIL_SEQ takes the sequence, and no byte of memory changes. A row
of an empty list is zeros. -/
def Obligations.AttentionEntry : Prop :=
  ∀ (t : Nat) (st : BitVec 8) (s : State) (r : Running) (g : AttnArgs) (seq q : Nat) (l : KvList), let sid := st.toNat
    let a := s.attnRun sid; let x := (s.at t).entryList sid g seq; let y := x.2.tokenRows sid g l q 0 q
    s.attnStep sid = some (r, g) → r.computed = false → a.allIn = true → a.kvIn = true → a.bad = false →
    a.locked = true → a.pageWait = none → a.pages = [] → a.queries.length = g.qpg * a.tokens →
    a.entries[a.next]? = some (seq, q) → 0 < q → g.append = false → x.1 = some l →
    ∃ u, exec (.attn t st 1) s = .next u
    ∧ (a.next + 1 < a.entries.length → (u.attnRun sid).next = a.next + 1 ∧ ((u.station sid).running).isSome = true)
    ∧ (a.next + 1 = a.entries.length → (u.station sid).running = none
      ∨ ∃ r', (u.station sid).running = some r' ∧ r'.computed = true ∧ r'.outs ≠ [])
    ∧ (∀ rows, y.1 = .ok rows → (a.next + 1 < a.entries.length → (u.attnRun sid).out = a.out ++ rows)
      ∧ (∀ i < 8, s.accessStatus sid true (l.base + 8 * l.group + i) = none →
        u.byteAt (l.base + 8 * l.group + i) = (leBytes 8 l.header).getD i 0)
      ∧ ∀ b, b < l.base + 8 * l.group ∨ l.base + 8 * l.group + 8 ≤ b → u.byteAt b = s.byteAt b)
    ∧ (∀ c, y.1 = .error c → u.nat Dict.lastFailSeq sid = seq ∧ sameBytes s u
      ∧ (a.next + 1 < a.entries.length → (u.attnRun sid).out
        = a.out ++ List.replicate (g.qpg * q) (List.replicate g.dim 0, true)))
    ∧ (l.pages = 0 → l.tokens = 0 → y.1 = .ok (List.replicate (g.qpg * q) (List.replicate g.dim 0, false)))

/-- R312, R314 to R318: an entry that waits for pages takes them once the Kitty holds them, and goes on, a last page that
nobody shares being written in place; 100 us after its wait began it fails where the Kitty cannot serve it, counted, with
its sequence kept and no byte changed. Below its low water the Kitty is refilled to its size as far as the free list goes;
with that list empty a COMPLETE sequence is reclaimed. A write of KV_POOL_PAGES fills the Kitty first. -/
def Obligations.KittyAndPool : Prop :=
  ∀ (t : Nat) (st : BitVec 8) (s : State), let sid := st.toNat; let a := s.attnRun sid
    let kitty := s.kvAt Dict.kittyBase 0; let size := s.nat Dict.kittySize; let level := s.attn.kittyLevel
    let pages := sumNat (s.attn.freeList.map fun p => max 1 p.2)
    let goesOn (u : State) : Prop := (u.attnRun sid).next = a.next + 1 ∨ (u.station sid).running = none
    (∀ r g t0 seq q, s.attnStep sid = some (r, g) → a.pageWait = some t0 → a.entries[a.next]? = some (seq, q) →
      (a.need ≤ level → s.waitsBefore sid t0 = false → ((s.at t).entryList sid g seq).1.isSome = true →
        (a.cur = none → ∃ u, exec (.kittyTake t st) s = .next u ∧ u.attn.kittyLevel = level - a.need ∧ goesOn u)
        ∧ (∀ c, a.cur = some c → a.copy = false → (s.refCount sid c.2.1).1 ≤ 1 → ∃ u,
          exec (.kittyTake t st) s = .next u ∧ u.attn.kittyLevel = level - a.need
          ∧ countsOne s u Dict.cowInPlace sid ∧ goesOn u))
      ∧ (t0 + 100000 ≤ max t s.tb → level < a.need ∨ s.waitsBefore sid t0 = true → a.pages = [] → ∃ u,
        exec (.kittyEmpty t st) s = .next u ∧ countsOne s u Dict.kittyEmptyCount 0
        ∧ u.nat Dict.lastFailSeq sid = seq ∧ u.attn.kittyLevel = level ∧ sameBytes s u ∧ goesOn u))
    ∧ (s.nat Dict.kittyLowWater ≤ level → exec (.kittyRefill t) s = .next (s.at t))
    ∧ (level < s.nat Dict.kittyLowWater → level ≤ size →
      (size - level < pages ∨ s.nat Dict.kvReclaim ≠ 1 → ∃ u, exec (.kittyRefill t) s = .next u
        ∧ u.attn.kittyLevel = min size (level + pages)
        ∧ (∀ b, b < kitty ∨ kitty + 4 * size ≤ b → u.byteAt b = s.byteAt b))
      ∧ (∀ seq, s.attn.freeList = [] → s.nat Dict.kvReclaim = 1 → s.reclaimable = [seq] → ∃ u,
        exec (.kittyRefill t) s = .next u ∧ countsOne s u Dict.kvReclaimed 0 ∧ u.attn.closes.look seq = none))
    ∧ (∀ role (v : BitVec 32), s.numberPasses role Dict.kvPoolPages 0 v.toNat → let k := min v.toNat size
      ∃ u, exec (.kvPoolPagesWrite t role v) s = .next u ∧ u.nat Dict.kvPoolPages = v.toNat ∧ u.attn.kittyHead = 0
      ∧ u.attn.kittyLevel = k ∧ u.attn.freeList = (if v.toNat - k = 0 then [] else [(k, v.toNat - k)])
      ∧ Out.answer 0 ∈ u.out ∧ (∀ i < k, u.rawRead (kitty + 4 * i) 4 = leBytes 4 i)
      ∧ ∀ b, b < kitty ∨ kitty + 4 * k ≤ b → u.byteAt b = s.byteAt b)

/-- R329 to R337: a teacher job that is accepted labels the oldest record; training starts with the pending labels and ends
with the image as candidate or without one; a loaded bank is sealed with the image's weights; a validation with no
difference arms the candidate, or awaits approval, and one for another program discards it; a shift start clears the count. -/
def Obligations.AdaptationCycle : Prop :=
  ∀ (t : Nat) (job : Desc) (s : State), let a := s.adapt
    (∀ (cls : BitVec 4) (conf : BitVec 16) p rest, (s.queue (s.nat Dict.adaptQueue)).unread = p :: rest →
      s.flag Dict.adaptEnable = true → 0 < s.nat Dict.labelBatch → s.boot.modelLoaded = true →
      let d := withDeadline job (p.postedDev + s.nat Dict.labelDeadline * nsPerS)
      s.jobRefusal { desc := d } = none → ∃ u lab, exec (.teacherBatch t job [(cls, conf)]) s = .next u
      ∧ (u.job? (fld d 495 464)).isSome = true ∧ u.adapt.labels = a.labels ++ [lab] ∧ lab.cls = cls.toNat
      ∧ lab.conf = conf.toNat ∧ lab.used = decide (s.nat Dict.teacherConfMin ≤ conf.toNat)
      ∧ (lab.used = true → countsOne s u Dict.labelsPending 0) ∧ sameBytes s u)
    ∧ (s.flag Dict.adaptEnable = true → a.st = .idle → s.trump.adapter.isSome = true →
      s.nat Dict.trainMinLabels ≤ s.nat Dict.labelsPending → s.jobRefusal { desc := job } = none → ∃ u,
      exec (.trainingStart t job) s = .next u ∧ u.adapt = { a with st := .training, job := fld job 495 464, labelled := s.nat Dict.labelsPending }
      ∧ u.nat Dict.labelsPending = 0 ∧ u.mem = s.mem)
    ∧ (a.st = .training →
      (∃ u, exec (.trainingEnd t none) s = .next u ∧ u.adapt = { a with st := .idle, cand := none } ∧ u.mem = s.mem
        ∧ (0x06700D04 : Word) ∈ u.errq.val [] mgt)
      ∧ (∀ (id : BitVec 32) x, x.ok = true → id ≠ 0 → ∃ u c, exec (.trainingEnd t (some (id, x))) s = .next u
        ∧ u = { s.at t with adapt := u.adapt } ∧ u.adapt.images.look id.toNat = some x ∧ u.adapt.cand = some c
        ∧ c.id = id.toNat ∧ c.image = x ∧ u.adapt.st = .trained))
    ∧ (∀ c, a.cand = some c → a.st = .trained → a.bank c.bank = .loading →
      let at' := hbmBase + s.bankBase c.bank
      (s.flag Dict.adaptEnable = false → ∃ u, exec (.bankSealed t job) s = .next u ∧ u.adapt = a.setBank c.bank .sealed
        ∧ u.rawRead at' c.image.weights.length = c.image.weights
        ∧ ∀ b, b < at' ∨ at' + c.image.weights.length ≤ b → u.byteAt b = s.byteAt b)
      ∧ (s.flag Dict.adaptEnable = true → s.jobRefusal { desc := job } = none → ∃ u,
        exec (.bankSealed t job) s = .next u ∧ u.adapt.bank c.bank = .sealed ∧ u.adapt.st = .validating
        ∧ u.adapt.job = fld job 495 464))
    ∧ (∀ c objects, a.cand = some c → a.st = .validating →
      let g := s.goldenSums c objects
      (c.image.program ≠ s.trump.programHash → ∃ u, exec (.validationEnd t objects) s = .next u
        ∧ u.adapt.cand = none ∧ u.adapt.st = .idle ∧ u.adapt.bank c.bank = .empty
        ∧ (0x06700D01 : Word) ∈ u.errq.val [] mgt ∧ u.mem = s.mem)
      ∧ (c.image.program = s.trump.programHash → s.oneEncoder = true → 0 < g.total → g.fireCand = g.fireLive →
        s.nat Dict.goldenFloor * g.total ≤ g.equal * 65536 →
        s.num Dict.rejDeltaMin ≤ 0 → 0 ≤ s.num Dict.rejDeltaMax →
        s.nat Dict.swapsThisShift < s.nat Dict.swapsPerShift → ∃ u,
        exec (.validationEnd t objects) s = .next u ∧ u.num Dict.candidateDelta = 0 ∧ u.adapt.cand = some g
        ∧ u.adapt.st = (if s.flag Dict.approvalRequired then .awaitingApproval else .armed) ∧ u.mem = s.mem))
    ∧ (let sec := (s.at t).devNs / nsPerS
      s.timeValid = true → (sec - s.num Dict.shiftOrigin) % (max 1 (s.nat Dict.shiftLength) : Nat) = 0 →
      a.shiftAt ≠ some sec → a.st ≠ .gated → ∃ u, exec (.shiftStart t) s = .next u
      ∧ u = { s.at t with regs := u.regs, adapt := u.adapt } ∧ u.nat Dict.swapsThisShift = 0
      ∧ u.adapt = { a with shiftAt := some sec })

/-- R337 to R342: an approval in time arms the candidate, a refusal or none in time discards it; SWAP_ARM arms the bank and
every adapter station's shadow slot for one swap line; the switch makes the bank LIVE and begins the watch, a switch back
discards the candidate; a drift beyond the bounds and the operator start a rollback; a watch without one is accepted. -/
def Obligations.AdapterSwap : Prop :=
  ∀ (t : Nat) (s : State) (c : Candidate), let a := s.adapt; let now := max t s.tb
    a.cand = some c →
    (∀ role (id : BitVec 32), s.gate role Dict.adaptApprove = none →
      ((s.at t).mayDecide id.toNat = true → s.nat Dict.swapsThisShift < s.nat Dict.swapsPerShift → ∃ u,
        exec (.adaptApprove t role id) s = .next u ∧ u.adapt = { a with st := .armed } ∧ Out.answer 0 ∈ u.out
        ∧ u.mem = s.mem)
      ∧ ((s.at t).mayDecide id.toNat = false → ∃ u, exec (.adaptApprove t role id) s = .next u ∧ u.adapt = a
        ∧ Out.answer abRange ∈ u.out ∧ u.mem = s.mem))
    ∧ (∀ role (id : BitVec 32), s.gate role Dict.adaptRefuse = none → (s.at t).mayDecide id.toNat = true → ∃ u,
      exec (.adaptRefuse t role id) s = .next u ∧ u.adapt = a.discard ∧ Out.answer 0 ∈ u.out ∧ u.mem = s.mem)
    ∧ (a.st = .awaitingApproval → (s.at t).approvalLate = true → ∃ u, exec (.approvalTimeout t) s = .next u
      ∧ u.adapt = a.discard ∧ u.mem = s.mem)
    ∧ (∀ b, s.swapBank = some b → s.trump.st = .running → (s.at t).encValid s.sharedEncoder = true → ∃ u,
      exec (.swapArm t) s = .next u ∧ u.adapt = { a.setBank b .armed with line := u.adapt.line, swapped := true }
      ∧ u.num Dict.swapLine = u.adapt.line ∧ u.mem = s.mem
      ∧ ∀ sid ∈ s.adapterStations, ∀ tbl, (s.station sid).shadow = .loaded tbl →
        (u.station sid).shadow = .armed tbl (.atSwap u.adapt.line))
    ∧ (∀ n : BitVec 48, s.allSwitched = true →
      (a.st = .armed → a.bank c.bank = .armed → c.image.thresholds = none → ∃ u, exec (.swapSwitched t n) s = .next u
        ∧ u.adapt.st = .watch ∧ u.adapt.bank c.bank = .live ∧ u.adapt.bank (1 - c.bank) = .previous
        ∧ u.adapt.watchAt = now ∧ u.adapt.seen = 0 ∧ countsOne s u Dict.swapCount 0
        ∧ countsOne s u Dict.swapsThisShift 0 ∧ u.mem = s.mem)
      ∧ (a.st = .watch → a.bank (1 - c.bank) = .armed → ∃ u, exec (.swapSwitched t n) s = .next u
        ∧ u.adapt = (a.setBank (1 - c.bank) .live).discard ∧ countsOne s u Dict.rollbackCount 0 ∧ u.mem = s.mem))
    ∧ ((s.at t).evalDue = true → ∃ u, exec (.watchEvaluate t) s = .next u
      ∧ u.adapt = { a with lastEval := some now, rolling := s.drifted } ∧ u.mem = s.mem
      ∧ (s.drifted = true → (0x06700D02 : Word) ∈ u.errq.val [] mgt))
    ∧ (∀ role (id : BitVec 32), s.gate role Dict.adaptRollback = none → a.st = .watch → a.rolling = false →
      c.id = id.toNat → ∃ u, exec (.adaptRollback t role id) s = .next u ∧ u.adapt = { a with rolling := true }
      ∧ Out.answer 0 ∈ u.out ∧ u.mem = s.mem)
    ∧ (a.st = .watch → a.rolling = false → a.watchAt + s.nat Dict.watchTime * nsPerS ≤ now → ∃ u,
      exec (.watchAccept t) s = .next u ∧ u.nat Dict.adapterLiveId = c.id ∧ u.mem = s.mem
      ∧ u.adapt = { a.setBank (1 - c.bank) .empty with st := .idle, cand := none, before := none })

/-- R346 to R350: a start of a stopped domain without a program fails and is reported; with a program whose checks hold the
domain is STARTING; once every station may leave IDLE it runs, with DEC and TRK empty; a stop drains its stations, and at
rest it is STOPPED. The maps take the values that R347 allows, and an array that moves is zeroed. -/
def Obligations.TrumpDomain : Prop :=
  ∀ (t : Nat) (role : Role) (s : State), let now := max t s.tb
    (s.gate role Dict.trumpControl = none → s.trump.st = .stopped → s.sec.serviceState = false →
      (s.image = none → ∃ u, exec (.trumpStart t role) s = .next u ∧ u.trump.st = .stopped
        ∧ (0x02700E05 : Word) ∈ u.errq.val [] mgt ∧ u.nat Dict.trumpControl = 0 ∧ u.mem = s.mem)
      ∧ (∀ img, s.image = some img → s.certMatches img = true →
        (s.writeCaps img).capSum ≤ s.nat Dict.trumpTagReserve → s.banksMatch img = true → s.trumpHeld = none →
        (s.writeCaps img).trumpSplits.splitsMade = true → ∃ u,
        exec (.trumpStart t role) s = .next u ∧ u.trump.st = .starting ∧ u.trump.cert = img.cert
        ∧ u.trump.programHash = img.hash ∧ u.nat Dict.trumpControl = 1 ∧ Out.answer 0 ∈ u.out ∧ u.mem = s.mem))
    ∧ (let z := (s.at t).startChecks
      let y := (List.range 16).foldl (fun (x : State) n => x.startRefs n) z.2.loadSets.freshDomain
      s.trump.st = .starting → s.trumpReady = true → z.1 = none → z.2.trump.adapter.bind z.2.setsRefused = none →
      (y.trumpStations.foldl (fun (x : State) sid => x.leaveIdle sid) y).tooWide = none → ∃ u,
      exec (.trumpStarted t) s = .next u ∧ u.trump.st = .running ∧ u.trk = {} ∧ u.dec.partials = [])
    ∧ (s.gate role Dict.trumpControl = none →
      (s.trump.st = .running → ∃ u, exec (.trumpStop t role) s = .next u ∧ u.trump.st = .stopping
        ∧ u.trump.stoppingSince = now ∧ u.nat Dict.trumpControl = 0 ∧ Out.answer 0 ∈ u.out ∧ u.mem = s.mem
        ∧ ∀ sid ∈ s.trumpStations, (s.station sid).seq = .run → (u.station sid).seq = .drain)
      ∧ (s.trump.st = .stopped → ∃ u, exec (.trumpStop t role) s = .next u ∧ u.trump = s.trump
        ∧ u.stations = s.stations ∧ Out.answer 0 ∈ u.out))
    ∧ (s.trump.st = .stopping → (∀ sid ∈ s.trumpStations, (s.station sid).seq = .idle) → ∃ u,
      exec (.trumpStopped t) s = .next u ∧ u.trump = { s.trump with st := .stopped } ∧ u.nat Dict.trumpControl = 0
      ∧ (∀ sid, (u.station sid).seq = (s.station sid).seq ∧ (sid ∈ s.trumpStations → (u.station sid).cap = 64))
      ∧ u.mem = s.mem)
    ∧ (∀ v : BitVec 16, s.trumpRuns = false →
      (s.gate role Dict.trumpSplitMap = none → s.splitMapOk v.toNat = true → ∃ u,
        exec (.trumpArrayMapWrite t role true v) s = .next u ∧ u.nat Dict.trumpSplitMap = v.toNat
        ∧ Out.answer 0 ∈ u.out ∧ u.stations = s.stations ∧ u.mem = s.mem)
      ∧ (s.gate role Dict.trumpArrayMap = none → s.arrayMapOk v.toNat = true → ∃ u,
        exec (.trumpArrayMapWrite t role false v) s = .next u ∧ u.nat Dict.trumpArrayMap = v.toNat
        ∧ Out.answer 0 ∈ u.out ∧ (s.sched.jobs = [] → s.sched.owner = [] → ∀ n < 16,
          inMap v.toNat n ≠ inMap (s.nat Dict.trumpArrayMap) n → ∀ i < groupLen n, u.byteAt (groupBase n + i) = 0)))

/-- R352 to R370: a descriptor that passes its checks is a job, by a write or from JOB_QUEUE, and one that does not is
refused with its status; the owner, all blocked, leaves as BLOCKED and comes back; a load that ends well makes the job
resident; at the boundary the owner is saved as READY; missed deadlines are counted; overrun, abort and END end the job. -/
def Obligations.JobLifecycle : Prop :=
  ∀ (t : Nat) (id : BitVec 32) (s : State),
    let becomes (u : State) (p : Job → Prop) : Prop := ∃ j, u.job? id.toNat = some j ∧ p j
    (∀ role d, s.gate role Dict.jobSubmit = none →
      (s.jobRefusal { desc := d } = none → ∃ u, exec (.jobSubmit t role (some d)) s = .next u
        ∧ (u.job? (fld d 495 464)).isSome = true ∧ Out.answer 0 ∈ u.out ∧ u.mem = s.mem)
      ∧ (∀ w, s.jobRefusal { desc := d } = some w → ∃ u, exec (.jobSubmit t role (some d)) s = .next u
        ∧ Out.answer w ∈ u.out ∧ w ∈ u.errq.val [] mgt ∧ u.sched = s.sched ∧ u.mem = s.mem))
    ∧ (∀ role p rest, s.sec.serviceState = false → (s.queue (s.nat Dict.jobQueue)).unread = p :: rest →
      let d := bytesWord 512 ((s.packetBytes p).take 64)
      s.jobRefusal { desc := d } = none → ∃ u, exec (.jobSubmit t role none) s = .next u
      ∧ (u.job? (fld d 495 464)).isSome = true ∧ u.mem = s.mem)
    ∧ (∀ j, s.job? id.toNat = some j →
      (s.sched.jobs = [(id.toNat, j)] → s.sched.owner = [id.toNat] → j.st = .owner → s.ownerBlocked = true → ∃ u,
        exec (.jobBlocked t id) s = .next u ∧ becomes u (fun k => k.st = .blocked) ∧ u.sched.owner = []
        ∧ u.mem = s.mem)
      ∧ (j.st = .blocked → ∃ u, exec (.jobUnblocked t id) s = .next u
        ∧ becomes u (fun k => k.st = .ready ∨ k.st = .owner) ∧ u.mem = s.mem)
      ∧ (∀ tables es credits moved uses, j.loading = true →
        let bad := s.imageBad (tables.map fun (x : BitVec 8 × Nat × List StepWord) => (x.1.toNat, x.2)) es
          || (uses && !s.boot.modelLoaded)
        (bad = false → s.sched.jobs = [(id.toNat, j)] → ∃ u,
          exec (.residentLoadDone t id tables es credits moved uses) s = .next u
          ∧ becomes u (fun k => k.resident = true ∧ k.loading = false)
          ∧ (moved = [] → u.mem = s.mem))
        ∧ (bad = true → ∃ u,
          exec (.residentLoadDone t id tables es credits moved uses) s = .next u ∧ becomes u (fun k => k.st = .ended)))
      ∧ (∀ b ns, s.sched.owner = [id.toNat] → s.sched.switching = some [b] → b ≠ id.toNat → j.st = .owner →
        s.atBoundary = true → ∃ u, exec (.preemptBoundary t false ns) s = .next u
        ∧ becomes u (fun k => k.st = .ready ∧ k.preempts = j.preempts + 1) ∧ id.toNat ∉ u.sched.owner
        ∧ countsOne s u Dict.preemptCount 0 ∧ u.mem = s.mem)
      ∧ (∀ d, j.st ≠ .ended → j.missed = false → j.deadline = some d → d < (s.at t).devNs → ∃ u,
        exec (.jobDeadlineMissed t id) s = .next u ∧ becomes u (fun k => k = { j with missed := true })
        ∧ countsOne s u Dict.deadlineMissedCount 0 ∧ (0x06700E06 : Word) ∈ u.errq.val [] (jobErr (j.map 255 244))
        ∧ u.stations = s.stations ∧ u.mem = s.mem)
      ∧ (s.sched.owner.contains id.toNat = true → j.st ≠ .ended → j.map 167 136 ≠ 0 →
        j.map 167 136 * 1000000 < (s.at t).owned id.toNat j → ∃ u, exec (.jobOverrun t id) s = .next u
        ∧ becomes u (fun k => k.st = .ended) ∧ id.toNat ∉ u.sched.owner
        ∧ (0x06700E07 : Word) ∈ u.errq.val [] (jobErr (j.map 255 244)))
      ∧ (∀ role, s.gate role Dict.jobAbort = none → j.st ≠ .ended → ∃ u, exec (.jobAbort t role id) s = .next u
        ∧ becomes u (fun k => k.st = .ended) ∧ id.toNat ∉ u.sched.owner ∧ Out.answer 0 ∈ u.out)
      ∧ (s.sched.owner.contains id.toNat = true → j.st ≠ .ended →
        (j.ctx.all fun p => (s.station p.1).seq == .idle) = true → ∃ u, exec (.jobEnd t id) s = .next u
        ∧ becomes u (fun k => k.st = .ended ∧ k.resident = false ∧ k.ctx = []) ∧ id.toNat ∉ u.sched.owner
        ∧ (0x00700E00 : Word) ∈ u.errq.val [] (jobErr (j.map 255 244))))

/-- R390 to R394: LINK_ENABLE 1 trains a DOWN link whose lanes have power, 0 takes a link DOWN; a lane in training gains
its lock and marker, by itself or by a slip; with four markers and a skew of up to 8 HELLO goes out, and the peer's HELLO
brings the link UP, or, where the peer conflicts, holds it DOWN and reports; failed training and lost lane lock take it
DOWN; a transmitter idle long enough sends SLEEP and sleeps, a queued frame wakes it; SLEEP stops the receiver until
RX_WAKE. No command touches the other links or memory. -/
def Obligations.FabricLinks : Prop :=
  ∀ (t : Nat) (link : BitVec 3) (f : Frame) (s : State), let k := link.toNat; let x := s.link k; let now := max t s.tb
    let others (u : State) : Prop := (∀ j, j ≠ k → u.link j = s.link j) ∧ u.mem = s.mem
    (∀ role, s.gate role Dict.linkEnable = none →
      (x.st = .down → s.linkPowered k = true → ∃ u, exec (.linkEnableWrite t role link 1) s = .next u
        ∧ (u.link k).st = .training ∧ (u.link k).rate = s.nat Dict.linkRate k ∧ u.flag Dict.linkEnable k = true
        ∧ Out.answer 0 ∈ u.out ∧ (∀ n, n / 4 = k → u.lane n = {}) ∧ others u)
      ∧ (∃ u, exec (.linkEnableWrite t role link 0) s = .next u ∧ (u.link k).st = .down
        ∧ u.flag Dict.linkEnable k = false ∧ Out.answer 0 ∈ u.out ∧ others u))
    ∧ (∀ (lane : BitVec 5) (marker : Bool) (skew : Nat), let n := lane.toNat; let l := s.lane n
      n / 4 = k →
      (x.st = .training → ∃ u, exec (.clockDataLock t lane marker skew) s = .next u
        ∧ u = { s.at t with fab := u.fab, out := u.out }
        ∧ u.lane n = { l with clock := true, block := l.block || marker, marker := l.marker || marker }
        ∧ (∀ m, m ≠ n → u.lane m = s.lane m) ∧ others u
        ∧ (marker = true → x.helloSent = false → skew ≤ 8 → (∀ m, m / 4 = k → m ≠ n → (s.lane m).marker = true) →
          (u.link k).helloSent = true ∧ (u.link k).deskew = skew
          ∧ Out.fabric k (s.controlFrame 11 0).blocks ∈ u.out))
      ∧ (∀ role, s.gate role Dict.bitSlip = none → x.st = .training → l.clock = true → l.marker = false → ∃ u,
        exec (.bitSlip t role lane marker skew) s = .next u
        ∧ u.lane n = { l with slips := l.slips + 1, block := marker, marker := marker } ∧ Out.answer 0 ∈ u.out
        ∧ others u)
      ∧ (l.block = true → x.st = .up → s.flag Dict.autoRetrain k = false → ∃ u,
        exec (.laneLockLoss t lane) s = .next u ∧ (u.link k).st = .down ∧ (0x06F81003 : Word) ∈ u.errq.val [] mgt
        ∧ u.num Dict.syncErrorCount n = (s.num Dict.syncErrorCount n + 16) % (2 : Int) ^ (8 * Dict.syncErrorCount.ty.size)
        ∧ countsOne s u Dict.linkDownCount k ∧ others u))
    ∧ ((s.at t).alignFailed k = true → ∃ u, exec (.fabAlignFail t link) s = .next u ∧ (u.link k).st = .down
      ∧ (0x06F81005 : Word) ∈ u.errq.val [] mgt ∧ others u)
    ∧ (f.good 11 → x.st = .training → x.rxAsleep = false →
      (s.peerConflict k f.src = false → x.helloSent = true → ∃ u, exec (.hello t link f) s = .next u
        ∧ u = { s.at t with fab := u.fab } ∧ (u.link k).st = .up ∧ (u.link k).peer = f.src ∧ others u)
      ∧ (s.peerConflict k f.src = true → ∃ u, exec (.hello t link f) s = .next u ∧ (u.link k).st = .down
        ∧ (u.link k).held = true ∧ (u.link k).peer = f.src ∧ (0x06F81004 : Word) ∈ u.errq.val [] mgt ∧ others u))
    ∧ (x.st = .up → x.awake = true → x.txq = [] → x.unacked = [] → x.ackOwed = false → s.flag Dict.txSleepEn k = true →
      s.noSleep k = false → x.sentAt + s.nat Dict.sleepIdle k * 1000 ≤ now → ∃ u, exec (.txSleep t link) s = .next u
      ∧ u = { s.at t with fab := u.fab, out := [.fabric k (s.controlFrame 10 0).blocks] }
      ∧ u.link k = { x with txAsleep := true, sentAt := now } ∧ others u)
    ∧ (x.txAsleep = true → (x.txq ≠ [] ∨ x.ackOwed = true) → ∃ u, exec (.txWake t link) s = .next u
      ∧ u = { s.at t with fab := u.fab } ∧ u.link k = { x with txAsleep := false, waking := some now } ∧ others u)
    ∧ (∀ a, x.waking = some a → a + 10000 ≤ now → x.txAsleep = false → x.txq = [] → x.ackOwed = true → ∃ u,
      exec (.txWakeEnd t link) s = .next u
      ∧ u = { s.at t with fab := u.fab, out := [.fabric k (idleLanes k),
        .fabric k (s.controlFrame 8 (x.expect - 1).toNat).blocks] }
      ∧ u.link k = { x with waking := none, ackOwed := false, sentAt := now } ∧ others u)
    ∧ (f.good 10 → x.st ≠ .down → x.rxAsleep = false → s.flag Dict.rxSleepEn k = true → s.noSleep k = false → ∃ u,
      exec (.sleep t link f) s = .next u ∧ u = { s.at t with fab := u.fab } ∧ u.link k = { x with rxAsleep := true }
      ∧ others u)
    ∧ (∃ u, exec (.rxWake t link) s = .next u ∧ u = { s.at t with fab := u.fab }
      ∧ u.link k = { x with rxAsleep := false } ∧ others u)

/-- R398, R399: an ACK releases the frames up to the number it names; a NAK releases them and the rest is sent again, which
counts one replay; with no ACK for REPLAY_TIMEOUT every frame is sent again, and after REPLAY_LIMIT replays in a row the
link goes DOWN and is reported. The other links and memory stay. -/
def Obligations.FabricAcknowledgement : Prop :=
  ∀ (t : Nat) (link : BitVec 3) (f : Frame) (s : State), let k := link.toNat; let x := s.link k; let now := max t s.tb
    let rest := x.unacked.filter fun g => !lseqUpTo g.lseq (BitVec.ofNat 12 f.addr)
    let others (u : State) : Prop := (∀ j, j ≠ k → u.link j = s.link j) ∧ u.mem = s.mem
    (x.st ≠ .down → x.rxAsleep = false → x.txq = [] →
      (f.good 8 → ∃ u, exec (.ack t link f) s = .next u ∧ u = { s.at t with fab := u.fab } ∧ (u.link k).unacked = rest
        ∧ (u.link k).st = x.st ∧ others u)
      ∧ (f.good 9 → x.replays = 0 → 0 < s.nat Dict.replayLimit k → rest ≠ [] → ∃ u, exec (.nak t link f) s = .next u
        ∧ u = { s.at t with fab := u.fab, regs := u.regs, out := rest.map fun g => .fabric k g.blocks }
        ∧ (u.link k).unacked = rest ∧ (u.link k).replays = 1 ∧ countsOne s u Dict.replayCount k ∧ others u))
    ∧ (x.st = .up → x.ackAt + s.nat Dict.replayTimeout k * 1000 ≤ now → x.unacked ≠ [] →
      (x.replays < s.nat Dict.replayLimit k → ∃ u, exec (.replayTimeout t link) s = .next u
        ∧ u = { s.at t with fab := u.fab, regs := u.regs, out := x.unacked.map fun g => .fabric k g.blocks }
        ∧ u.link k = { x with replays := x.replays + 1, ackAt := now, sentAt := now }
        ∧ countsOne s u Dict.replayCount k ∧ others u)
      ∧ (s.nat Dict.replayLimit k ≤ x.replays → s.flag Dict.autoRetrain k = false → ∃ u,
        exec (.replayTimeout t link) s = .next u ∧ (u.link k).st = .down ∧ (u.link k).unacked = []
        ∧ countsOne s u Dict.linkDownCount k ∧ (0x06F81003 : Word) ∈ u.errq.val [] mgt ∧ others u))

/-- R398, R401 to R410: the next frame for this module is taken by its kind. A head begins a landing or is refused, data
fills it and the last byte pushes the tile to its stream's queue; a WRITE lands where the landing engine may write; a
READ_REQ is answered with the bytes; a READ_RESP lands its bytes; COMPLETE and RETURN end their transaction, a status going to the issuer while it stands in the epoch it sent in; CREDIT sets
the producer's credits; a timeout fences the transaction and reports; bridged frames are checked by version and BSEQ. -/
def Obligations.FabricTransactions : Prop :=
  ∀ (t : Nat) (link : BitVec 3) (f : Frame) (s : State), let k := link.toNat; let now := max t s.tb
    let d : Desc := bytesWord 512 (f.payload.take 64)
    let landed (u : State) : Option Landing := u.fab.landing.look f.key
    let tag := f.txn % 4096
    let steady (a : Nat) : Prop := ∀ g, placeOf a = .group g → (s.group g).st ≠ .poweringDown
    (s.takesNext k f 0 → f.last = false →
      ((s.headRefusal (f.dst % 256) d).1 = none → ∃ u, exec (.tileHead t link f) s = .next u
        ∧ landed u = some { desc := some d, data := f.payload.drop 64 } ∧ (u.link k).expect = f.lseq + 1
        ∧ u.stations = s.stations ∧ u.mem = s.mem)
      ∧ ((s.headRefusal (f.dst % 256) d).1 ≠ none → ∃ u, exec (.tileHead t link f) s = .next u
        ∧ landed u = some { desc := none } ∧ (u.link k).expect = f.lseq + 1 ∧ u.stations = s.stations ∧ u.mem = s.mem))
    ∧ (∀ e l, s.takesNext k f 1 → landed s = some { desc := some e, data := l } → let l' := putAt l f.addr f.payload
      (f.last = false → ∃ u, exec (.tileData t link f) s = .next u ∧ landed u = some { desc := some e, data := l' }
        ∧ u.stations = s.stations ∧ u.queues = s.queues ∧ u.mem = s.mem)
      ∧ (∀ y, f.last = true → s.anyStream (fld e 479 464) = some y →
        let q := mapQueue y.entry
        let p := wordBytes e ++ l'.take (if bit e 502 then l'.length else min l'.length (fld e 351 332))
        s.queueOn q = true → s.queueStrip q = false → s.pushTooLong q (packetCells p.length) = false →
        (s.pushCells q (packetCells p.length)).length = packetCells p.length → ∃ u r,
        exec (.tileData t link f) s = .next u ∧ landed u = none ∧ r.len = p.length
        ∧ r.cells = s.pushCells q (packetCells p.length) ∧ (u.queue q).unread = (s.queue q).unread ++ [r]
        ∧ u.stations = s.stations))
    ∧ (s.takesNext k f 2 → steady f.addr → ∃ u, exec (.fabWrite t link f false) s = .next u
      ∧ (∀ i, (h : i < f.payload.length) → s.accessStatus s.landEngine true (f.addr + i) = none →
        u.byteAt (f.addr + i) = f.payload[i])
      ∧ (∀ a, a < f.addr ∨ f.addr + f.payload.length ≤ a → u.byteAt a = s.byteAt a) ∧ u.stations = s.stations)
    ∧ (∀ j, s.takesNext k f 3 → f.rlen = 0 → (∀ i, (s.flow i).owed = false) → f.src / 32768 = s.nat Dict.fabDomainId →
      (s.at t).route (f.src / 256 % 128) = some (j, false) → (s.link j).awake = true → (s.link j).txq = [] →
      (s.link j).unacked = [] → s.rangeStatus s.landEngine false f.addr 32 = none → s.poisonedRange f.addr 32 = false →
      ∃ u, ∃ g : Frame, exec (.fabReadReq t link f) s = .next u ∧ Out.fabric j g.blocks ∈ u.out ∧ g.kind = 4 ∧ g.txn = f.txn
      ∧ g.payload = s.rawRead f.addr 32 ∧ sameBytes s u)
    ∧ (∀ x, s.takesNext k f 4 → s.fab.trans.look tag = some x → x.reuse % 16 = f.txn / 4096 → x.kind = .read →
      BitVec.ofNat 16 f.epoch = (s.station x.station).epoch → x.expand = none → x.compress = none →
      steady (x.land + f.addr) →
      let l := f.payload.take (x.len - f.addr)
      ∃ u, exec (.readResp t link f) s = .next u
      ∧ (∀ i, (h : i < l.length) → s.accessStatus s.landEngine true (x.land + f.addr + i) = none →
        u.byteAt (x.land + f.addr + i) = l[i])
      ∧ (∀ a, a < x.land + f.addr ∨ x.land + f.addr + l.length ≤ a → u.byteAt a = s.byteAt a)
      ∧ u.fab.trans.look tag = if f.last then none else some { x with got := max x.got (f.addr + l.length) })
    ∧ (∀ x, s.fab.trans.look tag = some x → x.reuse % 16 = f.txn / 4096 → x.kind = .tile → x.job = 0 →
      (∀ y, s.streams.look x.stream = some y →
        (s.takesNext k f 5 → f.status = 0 → ∃ u, exec (.complete t link f) s = .next u ∧ u.fab.trans.look tag = none
          ∧ u.streams.look x.stream = some { y with unacc := y.unacc - 1 } ∧ sameBytes s u)
        ∧ (s.takesNext k f 7 → ∃ u, exec (.fabReturn t link f) s = .next u ∧ u.fab.trans.look tag = none
          ∧ u.streams.look x.stream = some { y with unacc := y.unacc - 1 } ∧ sameBytes s u
          ∧ (s.exists' x.station = true → (s.station x.station).epoch = x.epoch → f.status ∈ u.errq.val [] x.station)
          ∧ (s.exists' x.station = false ∨ (s.station x.station).epoch ≠ x.epoch →
            countsOne s u Dict.discardReturns 0))))
    ∧ (∀ y, s.takesNext k f 6 → let i := f.addr / 4294967296 % 65536; let w : Word := BitVec.ofNat 32 f.addr
      s.streams.look i = some y → ∃ u, exec (.credit t link f) s = .next u ∧ (u.flow i).x = w
      ∧ (u.flow i).credits = f.rlen ∧ u.streams.look i = some { y with credits := f.rlen - (y.next - w).toNat }
      ∧ u.stations = s.stations ∧ u.mem = s.mem)
    ∧ (∀ (n : BitVec 12) x, s.fab.trans.look n.toNat = some x → x.start + s.nat Dict.fabTimeout * 1000 ≤ now → ∃ u,
      exec (.fabTimeout t n) s = .next u ∧ u.fab.trans.look n.toNat = none
      ∧ u.fab.reuse.val 0 n.toNat = (x.reuse + 1) % 16 ∧ countsOne s u Dict.fabTimeoutCount 0
      ∧ withSrc 0x05001001 x.station ∈ u.errq.val [] x.station)
    ∧ (∀ h : BitVec 64, let n : Word := BitVec.ofNat 32 (fld h 31 0)
      (s.isBridge = false → exec (.bridgeDatagram t h f) s = .next (s.at t))
      ∧ (s.isBridge = true → (fld h 63 60 ≠ 1 ∨ s.bseqNewer (fld h 59 53) n = false) → ∃ u,
        exec (.bridgeDatagram t h f) s = .next u ∧ u = { s.at t with regs := u.regs } ∧ countsOne s u Dict.bridgeDrop 0)
      ∧ (s.isBridge = true → fld h 63 60 = 1 → s.bseqNewer (fld h 59 53) n = true → f.good 6 → s.isLocal f.dst = true →
        let i := f.addr / 4294967296 % 65536
        ∃ u, exec (.bridgeDatagram t h f) s = .next u ∧ u.fab.bseqIn.look (fld h 59 53) = some n
        ∧ (u.flow i).x = BitVec.ofNat 32 f.addr ∧ (u.flow i).credits = f.rlen ∧ u.stations = s.stations ∧ u.mem = s.mem))

/-- R413 to R419, R430, R437: a write of an entry is checked in the order index, role, length, access, range, and aborts at
the first that fails, with nothing changed; one that passes sets the value, and a saved entry starts a burst. STORE_NOW and
the end of a burst commit the saved set; a role key
closes the sessions of its role, the first INTEGRATE key is enrolled and committed, sealed, with the key area, FDP_ENABLE 0 closes every session. -/
def Obligations.DictionaryWrites : Prop :=
  ∀ (t : Nat) (role : Role) (s : State), let now := max t s.tb
    let stays : Prop := s.flag Dict.fdpEnable = true ∨ s.host.sessions = []
    let quiet : Prop := stays ∧ (∀ p ∈ s.host.sessions, p.2.mask.getLsbD 3 = false) ∧ inMap (s.nat Dict.i3cEventMask) 3 = false
    let aborts (c : Instr) (w : Word) : Prop := ∃ u, exec c s = .next u ∧ Out.answer w ∈ u.out ∧ u.mem = s.mem
      ∧ u.stations = s.stations ∧ (quiet → u = { s.at t with out := [.answer w] })
    let committed (u : State) : Prop := u.boot.saveDirtyAt = none ∧ countsOne s u Dict.storeCount 0
      ∧ ∃ c, newerIntact u.boot.savedA u.boot.savedB = some c ∧ c.set = s.regs.sav.settings
    (∀ (who index : BitVec 16) (sub : BitVec 8) (l : List Byte),
      let b : By := { role := role, who := who.toNat }
      let c := Instr.objectWrite t role who index sub l
      let a := s.at t
      (∀ w, a.reach b index.toNat sub.toNat = .error w → aborts c w)
      ∧ (∀ e j k, a.reach b index.toNat sub.toNat = .ok (e, j, k) → (e = Dict.integrateKeyEnrol → who = 0) →
        let v := if e.ty.isNum then e.ty.value l else 0
        let rules := rulesHold rangeRules e fun f => f a (a.store b e j k v l) k
        (role.reaches (e.needs b l) = false → aborts c abRole)
        ∧ (role.reaches (e.needs b l) = true → e.lengthOk l.length = false → aborts c abLength)
        ∧ (role.reaches (e.needs b l) = true → e.lengthOk l.length = true → a.accessRefused e k v = true →
          aborts c abAccess)
        ∧ (role.reaches (e.needs b l) = true → e.lengthOk l.length = true → a.accessRefused e k v = false →
          (e.inRange v && rules) = false → aborts c abRange)
        ∧ (role.reaches (e.needs b l) = true → e.lengthOk l.length = true → a.accessRefused e k v = false →
          (e.inRange v && rules) = true → viewOf effects e = none → e.selector = false → e.ty.isNum = true → stays → ∃ u,
          exec c s = .next u ∧ u = { a with regs := u.regs, boot := u.boot, out := [.answer 0] } ∧ u.numAt e j k = v
          ∧ u.boot = if e.pers = .saved then { s.boot with saveDirtyAt := some now } else s.boot)))
    ∧ (s.numberPasses role Dict.storeNow 0 1 → ∃ u, exec (.storeNow t role 1) s = .next u ∧ committed u
      ∧ u = { s.at t with regs := u.regs, boot := u.boot, out := [.answer 0] } ∧ u.regs.sav = s.regs.sav)
    ∧ (∀ a, s.boot.saveDirtyAt = some a → a + 2000000000 ≤ now → ∃ u, exec (.settingsCommit t) s = .next u ∧ committed u
      ∧ u = { s.at t with regs := u.regs, boot := u.boot } ∧ u.regs.sav = s.regs.sav)
    ∧ (∀ (w : Fin 3) key, s.writePasses role (keyEnt w) 0 key → ∃ u, exec (.roleKeyWrite t role w key) s = .next u
      ∧ u.blob (keyEnt w) = key ∧ (∀ p ∈ u.host.sessions, p.2.role ≠ roleOf w) ∧ Out.answer 0 ∈ u.out
      ∧ u.stations = s.stations ∧ u.mem = s.mem)
    ∧ (∀ key, s.writePasses role Dict.integrateKeyEnrol 0 key → ∃ u, exec (.integrateKeyEnrol t role key) s = .next u
      ∧ u = { s.at t with regs := u.regs, boot := u.boot, out := [.answer 0] } ∧ u.blob Dict.keyIntegrate = key
      ∧ (s.sec.pufBad = false → ∃ c, newerIntact u.boot.keysA u.boot.keysB = some c
        ∧ c.items = (s.sealKeys u.regs.sav.keyArea c.seq).items))
    ∧ (∀ v : BitVec 8, s.numberPasses role Dict.fdpEnable 0 v.toNat → ∃ u, exec (.fdpEnableWrite t role v) s = .next u
      ∧ u.nat Dict.fdpEnable = v.toNat ∧ (u.host.sessions = if v = 0 then [] else s.host.sessions)
      ∧ Out.answer 0 ∈ u.out ∧ u.stations = s.stations ∧ u.mem = s.mem)

/-- R419 to R431: an OPEN_REQ with a good TAG and a new nonce opens a session of its role under a number no other has; a
request that is newer than the last is executed and answered under the session's key, and one repeated has its answer
again and no effect; CLOSE ends the session, KEEPALIVE keeps it, READ and DESCRIBE change nothing else, WRITE writes,
SEG_INIT, SEG_DATA and SEG_END move a long value, SUBSCRIBE sets the mask; a bad TAG is counted and, at the sixteenth in a
second, locks its source out; idle transfers and sessions end. -/
def Obligations.FdpSessions : Prop :=
  ∀ (t : Nat) (m : Datagram) (s : State), let now := max t s.tb; let a := s.at t
    let n := m.session.toNat
    (∀ r key, a.hears m = true → m.body.length = 19 → (m.body.getD 0 4).toNat = r → r < 4 →
      s.roleKey (roleOf r) = some key → m.tag = m.tagOf key 0 → (m.body.getD 1 0).toNat ≤ 1 →
      1 ≤ (m.body.getD 2 0).toNat →
      (∀ x ∈ s.host.nonces, x.time + 10000000000 ≤ now ∨ x.nonce ≠ (m.body.drop 3).take 16) →
      (s.host.sessions.length < 8 → ∃ u k sk, exec (.fdpOpenReq t m) s = .next u ∧ k ≠ 0
        ∧ s.host.sessions.look k = none
        ∧ u.host.sessions = s.host.sessions.ins k { role := roleOf r, key := sk, openedAt := now, lastGood := now }
        ∧ u = { a with host := u.host, free := u.free, out := u.out } ∧ u.out ≠ [])
      ∧ (8 ≤ s.host.sessions.length → ∃ u, exec (.fdpOpenReq t m) s = .next u ∧ u.host.sessions = s.host.sessions
        ∧ u = { a with host := u.host, out := [.fdp 0 (fdpDatagram key 1 0 0 m.seq abSessionLimit [])] }))
    ∧ (∀ x : Session, a.hears m = true → s.host.sessions.look n = some x → m.version = 1 → newer m.seq x.lastSeq = true →
      let b : By := { role := x.role, who := n }
      let y := { x with lastGood := now, seen := true }
      let z : State := { a with host := { s.host with sessions := s.host.sessions.ins n y } }
      let good (kind : Nat) : Prop := m.tag = m.tagOf x.key kind
      let reply (kind : Nat) (w : Word) (l : List Byte) : List Byte := fdpDatagram x.key kind 1 n m.seq w l
      let kept (u : State) (kind : Nat) (w : Word) (l : List Byte) (y : Session) : Prop :=
        Out.fdp n (reply kind w l) ∈ u.out
        ∧ u.host.sessions.look n = some { y with lastSeq := m.seq, kept := reply kind w l }
      (good 2 → m.body = [] → ∃ u, exec (.fdpClose t m) s = .next u ∧ u.host.sessions.look n = none
        ∧ Out.fdp n (reply 2 0 []) ∈ u.out ∧ u.stations = s.stations ∧ u.mem = s.mem)
      ∧ (good 11 → m.body = [] → ∃ u, exec (.fdpKeepalive t m) s = .next u ∧ kept u 11 0 [] y
        ∧ u = { a with host := u.host, out := u.out })
      ∧ (∀ items l, good 3 → readItems m.body = some items → 1 ≤ items.length → items.length ≤ 32 →
        z.readAll b items = (0, l) → l.length ≤ 1400 → ∃ u, exec (.fdpRead t m) s = .next u ∧ kept u 3 0 l y
        ∧ u = { a with host := u.host, out := u.out })
      ∧ (∀ i sub v, good 4 → writeItems m.body m.body.length = some [(i, sub, v)] →
        let r := z.writeEntry b i sub v
        ∃ u, exec (.fdpWrite t m) s = .next u ∧ Out.fdp n (reply 4 r.1 (if r.1 = 0 then [] else [0])) ∈ u.out
        ∧ u.regs.sav = r.2.regs.sav ∧ u.stations = r.2.stations ∧ u.mem = r.2.mem)
      ∧ (∀ i sub, good 5 → readItems m.body = some [(i, sub)] → ∀ e j k, z.reach b i sub = .ok (e, j, k) → ∃ u,
        exec (.fdpDescribe t m) s = .next u ∧ kept u 5 0 (z.describe e) y ∧ u = { a with host := u.host, out := u.out })
      ∧ (∀ e j k, good 6 → n ≠ 0 → x.xfer = none → m.body.length = 8 → m.body.getD 3 0 = 1 →
        z.reach b (leNat (m.body.take 2)) (m.body.getD 2 0).toNat = .ok (e, j, k) → e ≠ Dict.fwStage →
        e ≠ Dict.modelStage → z.segWriteRefused b e k (leNat (m.body.drop 4)) = none →
        let f : Xfer := ⟨e.i, e.s, k, true, leNat (m.body.drop 4), 0, [], now⟩
        ∃ u, exec (.fdpSegInit t m) s = .next u ∧ u = { a with host := u.host, out := u.out }
        ∧ kept u 6 0 [] { y with timedOut := false, xfer := some f })
      ∧ (∀ f : Xfer, good 7 → n ≠ 0 → x.xfer = some f → now < f.last + segIdle → 4 ≤ m.body.length →
        leNat (m.body.take 4) = f.next → f.writes Dict.modelStage = false →
        (f.write = true → (m.body.drop 4).length ≤ 1024 → f.data.length + (m.body.drop 4).length ≤ f.total →
          let f' : Xfer := { f with next := f.next + 1, data := f.data ++ m.body.drop 4, last := now }
          ∃ u, exec (.fdpSegData t m) s = .next u ∧ u = { a with host := u.host, out := u.out }
          ∧ kept u 7 0 (m.body.take 4) { y with timedOut := false, xfer := some f' })
        ∧ (f.write = false → let f' : Xfer := { f with next := f.next + 1, last := now }
          ∃ u, exec (.fdpSegData t m) s = .next u ∧ u = { a with host := u.host, out := u.out }
          ∧ kept u 7 0 (m.body.take 4 ++ (f.data.drop (1024 * f.next)).take 1024)
            { y with timedOut := false, xfer := some f' }))
      ∧ (∀ (f : Xfer) e, good 8 → n ≠ 0 → m.body = [] → x.xfer = some f → now < f.last + segIdle → f.write = true →
        f.data.length = f.total → Dict.find f.idx f.sub = some e → viewOf domainEffects e = none → e.ty = .domain →
        e.selector = false → z.accessRefused e f.inst 0 = false → domainLength e f.data.length = true →
        let z' := z.setXfer n none false
        rulesHold rangeRules e (fun g => g z' (z'.store b e 0 f.inst 0 f.data) f.inst) = true → ∃ u,
        exec (.fdpSegEnd t m) s = .next u ∧ u.blob e 0 f.inst = f.data
        ∧ kept u 8 0 [] { y with timedOut := false, xfer := none } ∧ u.stations = s.stations ∧ u.mem = s.mem)
      ∧ (good 10 → m.body.length = 4 → leNat m.body < 16 → ∃ u, exec (.fdpSubscribe t m) s = .next u
        ∧ kept u 10 0 [] { y with mask := BitVec.ofNat 32 (leNat m.body) } ∧ u = { a with host := u.host, out := u.out })
      ∧ (∀ kind : BitVec 4, badKind kind.toNat = true → good kind.toNat → ∃ u, exec (.fdpBadKind t kind m) s = .next u
        ∧ Out.fdp n (reply kind.toNat abBadKind []) ∈ u.out ∧ u.stations = s.stations ∧ u.mem = s.mem))
    ∧ (∀ x : Session, a.hears m = true → s.host.sessions.look n = some x → m.version = 1 → m.seq = x.lastSeq →
      x.kept ≠ [] → m.tag = m.tagOf x.key 4 → ∃ u, exec (.fdpWrite t m) s = .next u ∧ countsOne s u Dict.fdpDuplicates 0
      ∧ u = { a with host := u.host, regs := u.regs, out := [.fdp n x.kept] })
    ∧ (a.hears m = true → ∃ u, exec (.fdpAuthFail t m) s = .next u ∧ countsOne s u Dict.fdpAuthFailCount 0
      ∧ u.stations = s.stations ∧ u.mem = s.mem
      ∧ (((s.host.lockouts.val {} m.src.toNat).bad.filter fun b => decide (now < b + 1000000000)).length = 15 →
        (u.host.lockouts.val {} m.src.toNat).until_ = now + s.nat Dict.fdpLockoutTime * 1000000000
        ∧ countsOne s u Dict.fdpLockouts 0 ∧ (0x06701110 : Word) ∈ u.errq.val [] mgt))
    ∧ (∀ (who : BitVec 16) (f : Xfer), s.xferOf who.toNat = some f → f.last + segIdle ≤ now →
      (f.writes Dict.modelStage = false → ∃ u, exec (.segTimeout t who) s = .next u ∧ u = { a with host := u.host }
        ∧ u.xferOf who.toNat = none)
      ∧ (f.writes Dict.modelStage = true → s.boot.commitStage = 1 → ∃ u, exec (.segTimeout t who) s = .next u
        ∧ u.boot.commitStage = 0 ∧ (0x06701803 : Word) ∈ u.errq.val [] mgt ∧ u.stations = s.stations ∧ u.mem = s.mem))
    ∧ (∀ (k : BitVec 16) (x : Session), s.host.sessions.look k.toNat = some x →
      (x.lastGood + s.nat Dict.sessionTimeout * 1000000000 ≤ now → ∃ u, exec (.sessionTimeout t k) s = .next u
        ∧ u.host.sessions.look k.toNat = none ∧ u.stations = s.stations ∧ u.mem = s.mem)
      ∧ (x.seen = false → x.openedAt + 2000000000 ≤ now → ∃ u, exec (.sessionOpenIdle t k) s = .next u
        ∧ u.host.sessions.look k.toNat = none ∧ u.stations = s.stations ∧ u.mem = s.mem))

/-- R421, R422, R432 to R436, R540: the I3C target without a dynamic address acknowledges nothing; a private write with a
bad CRC-8 is counted and has the frame abort as its result; each good one leaves its result, cut to the abort where it is
longer than the read length; a ready result is read, an event raises an IBI; the CCCs set and give what they name.
GETSTATUS and GETMXDS give a free value (log 80). -/
def Obligations.I3cTarget : Prop :=
  ∀ (t : Nat) (body : List Byte) (crc : BitVec 8) (s : State), let now := max t s.tb; let a := s.at t
    let x := s.host.i3c; let b := s.i3cBy
    let writes : List (Nat × Instr) := [(1, .i3cRead t body crc), (2, .i3cWrite t body crc), (3, .i3cSegInit t body crc),
      (4, .i3cSegData t body crc), (5, .i3cSegEnd t body crc), (6, .i3cDescribe t body crc), (7, .eventPop t body crc)]
    let told (u : State) (w : Word) (l : List Byte) : Prop :=
      let r := leBytes 4 w.toNat ++ l
      let r := if x.mrl < r.length + 1 then leBytes 4 abLength.toNat else r
      u.host.i3c.result = some (r ++ [BitVec.ofNat 8 (crc8 r)]) ∧ u.host.i3c.writtenAt = now
      ∧ u.host.i3c.ready = false
    let only (u : State) : Prop := u = { a with host := u.host }
    ((s.i3cOn = false ∨ x.addr = 0) → ∀ p ∈ writes, exec p.2 s = .next { a with out := [.nack] })
    ∧ (s.i3cOn = true → x.addr ≠ 0 → ∀ p ∈ writes, crc.toNat ≠ crc8 (BitVec.ofNat 8 p.1 :: body) → ∃ u,
      exec p.2 s = .next u ∧ told u abI3cFrame [] ∧ countsOne s u Dict.i3cCrcErrors 0 ∧ u.mem = s.mem)
    ∧ (s.i3cOn = true → x.addr ≠ 0 → (x.hdr = true → s.flag Dict.i3cHdrEn = true) →
      let good (cmd : Nat) : Prop := crc.toNat = crc8 (BitVec.ofNat 8 cmd :: body)
      let i := bodyIndex body
      let sub := (body.getD 2 0).toNat
      (good 1 → body.length = 3 → (s.boot.recoveryLoader = true → loaderIndex i = true) → ∃ u,
        exec (.i3cRead t body crc) s = .next u ∧ told u (a.readItem b i sub).1 (a.readItem b i sub).2
        ∧ ((a.readItem b i sub).1 = 0 → only u))
      ∧ (good 1 → body.length = 3 → s.boot.recoveryLoader = true → loaderIndex i = false → ∃ u,
        exec (.i3cRead t body crc) s = .next u ∧ told u abAccess [] ∧ u.mem = s.mem)
      ∧ (s.boot.recoveryLoader = false →
        (good 2 → 4 ≤ body.length → body.length = 4 + (body.getD 3 0).toNat → s.sec.pufBad = false →
          body.length ≤ 68 → let r := a.writeEntry b i sub (body.drop 4)
          ∃ u, exec (.i3cWrite t body crc) s = .next u ∧ u.host.i3c.slow = false ∧ u.host.i3c.writtenAt = now
          ∧ u.regs.sav = r.2.regs.sav ∧ u.stations = r.2.stations ∧ u.mem = r.2.mem)
        ∧ (∀ e j k, good 3 → body.length = 8 → body.getD 3 0 = 1 → s.sec.pufBad = false → x.xfer = none →
          a.reach b i sub = .ok (e, j, k) → e ≠ Dict.fwStage → e ≠ Dict.modelStage →
          a.segWriteRefused b e k (leNat (body.drop 4)) = none →
          let f : Xfer := ⟨e.i, e.s, k, true, leNat (body.drop 4), 0, [], now⟩
          ∃ u, exec (.i3cSegInit t body crc) s = .next u ∧ only u ∧ told u 0 [0, 0, 0, 0] ∧ u.host.i3c.xfer = some f)
        ∧ (∀ f : Xfer, good 4 → 4 ≤ body.length → body.length ≤ 68 → x.xfer = some f → now < f.last + segIdle →
          leNat (body.take 4) = f.next → f.write = true → f.writes Dict.modelStage = false →
          f.data.length + (body.drop 4).length ≤ f.total → ∃ u, exec (.i3cSegData t body crc) s = .next u ∧ only u
          ∧ told u 0 (body.take 4) ∧ u.host.i3c.slow = true
          ∧ u.host.i3c.xfer = some { f with next := f.next + 1, data := f.data ++ body.drop 4, last := now })
        ∧ (∀ f : Xfer, good 5 → body = [] → x.xfer = some f → now < f.last + segIdle → f.write = false → ∃ u,
          exec (.i3cSegEnd t body crc) s = .next u ∧ only u ∧ told u 0 [] ∧ u.host.i3c.xfer = none)
        ∧ (∀ e j k, good 6 → body.length = 3 → a.reach b i sub = .ok (e, j, k) → ∃ u,
          exec (.i3cDescribe t body crc) s = .next u ∧ only u ∧ told u 0 (a.describe e))
        ∧ (∀ e r, good 7 → body = [] → x.events = e :: r → ∃ u, exec (.eventPop t body crc) s = .next u ∧ only u
          ∧ told u 0 e ∧ u.host.i3c.events = r)
        ∧ (good 7 → body = [] → x.events = [] → ∃ u, exec (.eventPop t body crc) s = .next u ∧ only u ∧ told u 0 []
          ∧ u.host.i3c.events = [])))
    ∧ (s.i3cOn = true → x.addr ≠ 0 →
      (∀ r, x.result = some r → (x.ready = true ∨ (x.slow = false ∧ x.writtenAt + 200000 ≤ now)) → ∃ u,
        exec (.i3cResultRead t) s = .next u ∧ u = { a with host := u.host, out := [.i3c r] }
        ∧ u.host.i3c = { x with ready := true })
      ∧ (x.result = none → exec (.i3cResultRead t) s = .next { a with out := [.nack] })
      ∧ (∀ e r, x.events = e :: r → x.ibi = true → exec (.i3cIbi t) s = .next { a with out := [.ibi (1 :: e.take 4)] }))
    ∧ (let becomes (c : Instr) (y : I3c) : Prop := exec c s = .next { a with host := { s.host with i3c := y } }
      let gives (c : Instr) (l : List Byte) : Prop :=
        exec c s = .next { a with host := { s.host with i3c := { x with hdr := false } }, out := [.i3c l] }
      s.i3cOn = true →
      (∀ d st : BitVec 7, x.addr = 0 →
        becomes (.entdaa t d) { x with addr := d.toNat, ibi := true, hdr := false }
        ∧ (st.toNat = s.nat Dict.i3cStaticAddr →
          becomes (.setdasa t st d) { x with addr := d.toNat, ibi := true, hdr := false }))
      ∧ becomes (.rstdaa t) { x with addr := 0, ibi := false, hdr := false }
      ∧ (s.flag Dict.i3cHdrEn = true → becomes (.enthdr0 t) { x with hdr := true })
      ∧ (x.addr ≠ 0 →
        (∀ d : BitVec 7, becomes (.setnewda t d) { x with addr := d.toNat, hdr := false })
        ∧ (∀ e : BitVec 8, inMap e.toNat 0 = true → becomes (.enec t e) { x with ibi := true, hdr := false }
          ∧ becomes (.disec t e) { x with ibi := false, hdr := false })
        ∧ (∀ n : BitVec 16, (16 ≤ n.toNat → n.toNat ≤ 72 → becomes (.setmwl t n) { x with mwl := n.toNat, hdr := false })
          ∧ (16 ≤ n.toNat → n.toNat ≤ 264 → becomes (.setmrl t n) { x with mrl := n.toNat, hdr := false }))
        ∧ gives (.getpid t) (beOf 6 s.pid) ∧ gives (.getbcr t) [0x06] ∧ gives (.getdcr t) [0x00]
        ∧ gives (.getmwl t) (beOf 2 x.mwl) ∧ gives (.getmrl t) (beOf 2 x.mrl ++ [5])
        ∧ (∀ c ∈ [Instr.getstatus t, Instr.getmxds t], ∃ u, ∃ v : BitVec 16, exec c s = .next u
          ∧ u.out = [.i3c (wordBytes v)] ∧ u.host.i3c = { x with hdr := false } ∧ u.regs = s.regs ∧ u.mem = s.mem)))

/-- R440 to R444, R455: a good frame on an enabled port that is up is counted and its source learned; a group frame goes out
of the other port, an event message corrected by its residence and counted; a frame for this module that it serves
reaches the internal port, and an ARP request for its address is answered; a bad frame is counted and goes nowhere; a port off or down takes
nothing. A link coming up joins the groups, one going down is counted and reported. -/
def Obligations.EthernetSwitch : Prop :=
  ∀ (t : Nat) (port : BitVec 1) (l : List Byte) (residence : Nat) (s : State), let p := port.toNat; let now := max t s.tb
    let other := 1 - p
    (s.num Dict.ethMode p = 0 ∨ s.flag Dict.ethLink p = false → ∀ ok,
      exec (.ethFrame t port l ok residence) s = .next (s.at t))
    ∧ (s.num Dict.ethMode p ≠ 0 → s.flag Dict.ethLink p = true →
      (∀ ok, (ok = false ∨ 1518 < l.length) → ∃ u, exec (.ethFrame t port l ok residence) s = .next u
        ∧ u = { s.at t with regs := u.regs } ∧ countsOne s u Dict.rxErrors p)
      ∧ (l.length ≤ 1518 → ∃ u, exec (.ethFrame t port l true residence) s = .next u ∧ countsOne s u Dict.rxFrames p
        ∧ u.stations = s.stations ∧ u.mem = s.mem
        ∧ (isGroup (frameSrc l) = false → s.net.macs.length < 1024 → u.net.macs.look (frameSrc l) = some (p, now))
        ∧ (frameDst l ≠ s.myMac → isGroup (frameDst l) = true → s.num Dict.ethMode other ≠ 0 →
          s.flag Dict.ethLink other = true → (ptpEvent l = none → Out.eth other l ∈ u.out)
          ∧ ∀ o x, ptpEvent l = some (o, x) → countsOne s u Dict.tcCorrectedCount 0 ∧ Out.eth other
            (correctFrame l o x (residence - s.nat Dict.ethRxDelay p - s.nat Dict.ethTxDelay other)) ∈ u.out)
        ∧ (s.toInternal l = true → (s.net.second = now / 1000000000 → s.net.count < s.nat Dict.rxLimit) →
          0 < s.nat Dict.rxLimit → (s.serves l = true → Out.eth 2 l ∈ u.out)
          ∧ ∀ r, s.arpReply l = some r → Out.eth p r ∈ u.out))
      ∧ (∃ u, exec (.ethLinkDown t port) s = .next u ∧ u.flag Dict.ethLink p = false
        ∧ countsOne s u Dict.ethLinkDownCount p ∧ (0x06B01205 : Word) ∈ u.errq.val [] mgt ∧ u.net = s.net
        ∧ u.stations = s.stations ∧ u.mem = s.mem))
    ∧ (s.num Dict.ethMode p ≠ 0 → s.flag Dict.ethLink p = false → ∃ u, exec (.ethLinkUp t port) s = .next u
      ∧ u = { s.at t with regs := u.regs, out := u.out } ∧ u.flag Dict.ethLink p = true
      ∧ ∀ g ∈ s.mcastGroups, Out.igmp p g ∈ u.out)

/-- R447 to R453: an exchange with the master gives an offset, to the nanosecond of half the difference; an unset clock
steps, one out of limits while the domain runs refuses and holds over, a small offset changes INCREMENT alone, within its
range. TIME_SET steps to the time written where a step is allowed; the override is armed and expires; the first master
heard is followed and reported, its loss is reported and holds the clock over. Which of two neighbours an odd half gives,
and which INCREMENT, is free (log 57, 58). -/
def Obligations.DeviceTime : Prop :=
  ∀ (t : Nat) (s : State), let now := max t s.tb; let a := s.at t
    (∀ (port : BitVec 1) (t1 t2 t3 t4 : Int), s.ptpPort port.toNat = true → let d := (t2 - t1) - (t4 - t3)
      ∃ u, ∃ o : Int, exec (.ptpDelayResp t port t1 t2 t3 t4) s = .next u ∧ (2 * o - d).natAbs ≤ 1
      ∧ u.num Dict.offset = o ∧ u.stations = s.stations ∧ u.mem = s.mem
      ∧ (s.clk.st = .unset → s.trump.st ≠ .running → u.clk.st = .free ∧ countsOne s u Dict.stepCount 0
        ∧ (u.clk.dev : Int) = (a.clk.dev - o * fracNs) % (281474976710656 * nsPerS * fracNs : Nat))
      ∧ (s.clk.st ≠ .unset → s.nat Dict.stepLimit < o.natAbs → s.trump.st = .running → a.armed = false →
        countsOne s u Dict.stepRefusedCount 0 ∧ u.clk.st = .holdover ∧ u.clk.dev = a.clk.dev)
      ∧ (s.clk.st ≠ .unset → o.natAbs ≤ s.nat Dict.stepLimit → (s.trump.st = .running ∨ o.natAbs ≤ 100000) →
        u.clk.dev = a.clk.dev ∧ 0x0FFBE76D ≤ u.clk.inc ∧ u.clk.inc ≤ 0x10041893
        ∧ (u.clk.st = .free ∨ u.clk.st = .locked)))
    ∧ (∀ role (sec : BitVec 48) (ns : BitVec 32), s.gate role Dict.timeSet = none → s.flag Dict.ptpEnable = false →
      ns.toNat < 1000000000 → let at_ := sec.toNat * 1000000000 + ns.toNat
      (a.stepAllowed ((at_ : Int) - a.devNs) = true → ∃ u, exec (.timeSet t role sec ns) s = .next u ∧ u.devNs = at_
        ∧ u.clk.st = .free ∧ u.clk.armedAt = none ∧ countsOne s u Dict.stepCount 0 ∧ Out.answer 0 ∈ u.out
        ∧ (0x06B01202 : Word) ∈ u.errq.val [] mgt ∧ u.stations = s.stations ∧ u.mem = s.mem)
      ∧ (a.stepAllowed ((at_ : Int) - a.devNs) = false → ∃ u, exec (.timeSet t role sec ns) s = .next u ∧ u.clk = a.clk
        ∧ Out.answer abAccess ∈ u.out ∧ countsOne s u Dict.stepRefusedCount 0
        ∧ (0x06B01201 : Word) ∈ u.errq.val [] mgt ∧ u.stations = s.stations ∧ u.mem = s.mem))
    ∧ (∀ role, s.gate role Dict.stepOverride = none → ∃ u, exec (.stepOverride t role 1) s = .next u
      ∧ u.clk = { a.clk with armedAt := some now } ∧ Out.answer 0 ∈ u.out ∧ u.stations = s.stations ∧ u.mem = s.mem)
    ∧ (∀ b, s.clk.armedAt = some b → b + s.nat Dict.overrideWindow * 1000000000 ≤ now →
      exec (.overrideExpiry t) s = .next { a with clk := { a.clk with armedAt := none } })
    ∧ (∀ (port : BitVec 1) (m : Announce), s.ptpPort port.toNat = true → ∃ u, exec (.ptpAnnounce t port m) s = .next u
      ∧ u.clk.masters.head? = some (m, now) ∧ u.clk.dev = a.clk.dev ∧ u.stations = s.stations ∧ u.mem = s.mem
      ∧ (s.clk.masters = [] → u.clk.master = some m ∧ u.blob Dict.gmIdentity = m.identity
        ∧ (m.identity ≠ s.blob Dict.gmIdentity → (0x06B01204 : Word) ∈ u.errq.val [] mgt)))
    ∧ (s.flag Dict.ptpEnable = true → a.masterSilent = true → ∃ u, exec (.ptpMasterLost t) s = .next u
      ∧ (0x06B01203 : Word) ∈ u.errq.val [] mgt ∧ u.clk.dev = a.clk.dev
      ∧ ((s.clk.st = .free ∨ s.clk.st = .locked) → u.clk.st = .holdover ∧ u.clk.inc = s.clk.lockedInc)
      ∧ u.stations = s.stations ∧ u.mem = s.mem)

/-- R458 to R465: a port that sends and has no frame starts one with the oldest crop request that is not too old, else the
oldest good mosaic record, else the pending overlay, its frame start and header going out; each line goes out while the
bucket holds its bytes, and after the last the trailer and the frame end, counted; an overlay that is ready becomes
pending and drops an older one. The bytes of memory stay. -/
def Obligations.ImageOutputFrames : Prop :=
  ∀ (t : Nat) (port : BitVec 2) (s : State), let n := port.toNat; let x := s.cout n; let now := max t s.tb; let a := s.at t
    let q := s.nat Dict.mosaicQueue n
    s.coutOn n = true →
    (x.frame = none → (∀ c ∈ x.crops, now ≤ c.at_ + s.nat Dict.cropMaxAge n * 1000000) →
      (∀ c r, x.crops = c :: r → 0 < c.lines * s.channels c.verdict.port → ∃ u f,
        exec (.coutFrameStart t port) s = .next u ∧ (u.cout n).frame = some f ∧ f.kind = 0 ∧ f.cam = c.verdict.port
        ∧ f.line = c.first ∧ f.packets = c.lines * s.channels c.verdict.port ∧ f.sent = 0 ∧ (u.cout n).crops = r
        ∧ Out.csi n f.vc 0 (leBytes 2 (s.frameNumber n f.vc)) ∈ u.out ∧ (∀ m, m ≠ n → u.cout m = s.cout m)
        ∧ sameBytes s u)
      ∧ (∀ p rest, x.crops = [] → q < 4096 → (s.queue q).unread = p :: rest →
        now ≤ p.posted + s.nat Dict.mosaicMaxAge n * 1000000 →
        let r := bytesWord 512 (s.packetBytes p)
        mosaicOk p.len r = true → 0 < fld r 479 464 → ∃ u f, exec (.coutFrameStart t port) s = .next u
        ∧ (u.cout n).frame = some f ∧ f.kind = 2 ∧ f.addr = fld r 439 392 ∧ f.packets = fld r 479 464 ∧ f.sent = 0
        ∧ (u.queue q).unread = rest ∧ (u.queue q).held = (s.queue q).held ++ [p] ∧ (u.cout n).overlay = x.overlay
        ∧ u.mem = s.mem)
      ∧ (∀ base, x.crops = [] → (4096 ≤ q ∨ (s.queue q).unread = []) → x.overlay = some base → 0 < s.nat Dict.ovlLines n → ∃ u f,
        exec (.coutFrameStart t port) s = .next u ∧ (u.cout n).frame = some f ∧ f.kind = 1
        ∧ f.cam = s.nat Dict.ovlCam n ∧ f.line = base ∧ f.packets = s.nat Dict.ovlLines n ∧ (u.cout n).overlay = none
        ∧ u.mem = s.mem))
    ∧ (∀ f, x.frame = some f → let z := a.nextLine n f; let cost := (z.2.1.length + 6) * 1000
      (a.lineTokens n < cost → exec (.coutLine t port) s = .next a)
      ∧ (cost ≤ a.lineTokens n → ∃ u, exec (.coutLine t port) s = .next u ∧ Out.csi n f.vc z.1 z.2.1 ∈ u.out
        ∧ (f.sent + 1 < f.packets → (∃ f', (u.cout n).frame = some f' ∧ f'.sent = f.sent + 1 ∧ f'.packets = f.packets)
          ∧ (u.cout n).lineBucket = some { level := a.lineTokens n - cost, at_ := now } ∧ u.mem = s.mem)
        ∧ (f.packets ≤ f.sent + 1 → (u.cout n).frame = none ∧ countsOne s u Dict.framesSent n
          ∧ Out.csi n f.vc 1 (leBytes 2 (x.numbers.val 0 f.vc)) ∈ u.out ∧ sameBytes s u)))
    ∧ (∀ b, s.nat Dict.ovlCam n < 16 → s.trump.st = .running →
      let span := s.nat Dict.ovlDecimate n * s.nat Dict.ovlLines n
      let newest := (s.dec.rings.val {} (s.nat Dict.ovlCam n)).lines / max 1 span
      b = newest * span → x.nextOverlay ≤ b → a.ovlReady n b = true → ∃ u,
      exec (.overlayPending t port) s = .next u ∧ (u.cout n).overlay = some b ∧ (u.cout n).nextOverlay = b + span
      ∧ (u.cout n).frame = x.frame ∧ (x.overlay ≠ none → countsOne s u Dict.ovlDropped n) ∧ u.mem = s.mem)

/-- R468 to R480: a power domain is switched on where its array is enabled and off where its rule and PD_AUTO allow it, else
the request is refused and counted; the ends of both leave its stations IDLE and OFF, the latter only while the domain's
rule still holds (the model's choice, log 102). Each power sample enters the average,
and above the cap the first open island that can goes one point down. A measurement stores degradation and slack and
prepares a plan where voltages change; the prepared plan is committed whole, and a resting island takes its voltages. -/
def Obligations.PowerAndAgeing : Prop :=
  ∀ (t : Nat) (pd : BitVec 6) (i : Fin 41) (s : State), let n := pd.toNat; let x := s.power.pd.val {} n
    let refused (c : Instr) : Prop := ∃ u, exec c s = .next u ∧ Out.answer 0x02901402 ∈ u.out
      ∧ countsOne s u Dict.pdRefusedCount 0 ∧ u.power = s.power ∧ u.stations = s.stations ∧ u.mem = s.mem
    (∀ out, (s.pdMayOn n = false → refused (.pdRequest t pd true out))
      ∧ (s.pdMayOff n = false → refused (.pdRequest t pd false out))
      ∧ (s.pdMayOn n = true → groupOfPd n = none → x.st = .off → ∃ u, exec (.pdRequest t pd true out) s = .next u
        ∧ u = { s.at t with power := u.power, out := [.answer 0] } ∧ u.power.pd.val {} n = { x with st := .poweringUp })
      ∧ (∀ g, s.pdMayOn n = true → groupOfPd n = some g → (s.group g).st = .off → ∃ u,
        exec (.pdRequest t pd true out) s = .next u ∧ (u.group g).st = .clearing ∧ Out.answer 0 ∈ u.out)
      ∧ (s.pdMayOff n = true → groupOfPd n = none → x.st = .on → ∃ u, exec (.pdRequest t pd false out) s = .next u
        ∧ (u.power.pd.val {} n).st = .poweringDown ∧ Out.answer 0 ∈ u.out))
    ∧ (groupOfPd n = none →
      (x.st = .poweringUp → x.waiting ≠ some false → ∃ u, exec (.pdPowerUpDone t pd) s = .next u
        ∧ u.power.pd.val {} n = { x with st := .on, waiting := none } ∧ u.mem = s.mem
        ∧ ∀ sid ∈ stationsOf n, (s.station sid).seq = .off → (u.station sid).seq = .idle)
      ∧ (x.st = .poweringDown → s.pdRule n = true → ∃ u, exec (.pdPowerDownDone t pd) s = .next u ∧ sameBytes s u
        ∧ (u.power.pd.val {} n).st = (if x.waiting = some true then .poweringUp else .off)
        ∧ ∀ sid ∈ stationsOf n, (s.station sid).seq = .idle → (u.station sid).seq = .off)
      ∧ (x.st = .poweringDown → s.pdRule n = false → exec (.pdPowerDownDone t pd) s = .next (s.at t)))
    ∧ (∀ mw, let z : State := { s with power := { s.power with samples := (mw :: s.power.samples).take 10000 } }
      let avg := z.powerAvg
      ∃ u, exec (.powerSample t mw) s = .next u ∧ u.power.samples = z.power.samples ∧ u.stations = s.stations
      ∧ u.mem = s.mem ∧ u.nat Dict.powerNow = min 65535 (avg / 1000)
      ∧ (avg ≤ s.nat Dict.powerCap * 1000 → u.nat Dict.capUnmet = 0)
      ∧ (s.nat Dict.powerCap * 1000 < avg →
        let next := s.capOrder.findSome? fun e => (s.pointBelow e.1 e.2 (s.island e.1).point).map fun p => (e.1, p)
        (∀ k p, next = some (k, p) → (u.island k).point = p ∧ countsOne s u Dict.capSteps 0
          ∧ ∀ j, j ≠ k → (u.island j).point = (s.island j).point)
        ∧ (next = none → u.nat Dict.capUnmet = 1 ∧ ∀ j, (u.island j).point = (s.island j).point)))
    ∧ (∀ ref str slack,
      (s.islandPowered i = false → ∃ u, exec (.ageMeasure t i ref str slack) s = .next u
        ∧ u = { s.at t with power := u.power } ∧ u.island i = { s.island i with missed := true })
      ∧ (s.islandPowered i = true → ∃ u, exec (.ageMeasure t i ref str slack) s = .next u
        ∧ u.num Dict.slack i = slack ∧ u.nat Dict.degradation i = (ref - str) * 1000000 / max 1 ref
        ∧ (u.island i).missed = false ∧ u.power.plan = s.power.plan ∧ u.stations = s.stations ∧ u.mem = s.mem
        ∧ (let c := s.newPlan i slack
          adjustable i = true → c.volts.val [] i ≠ s.power.plan.volts.val [] i →
          u.power.prepared = true ∧ u.power.spare = c ∧ u.nat Dict.planState = 1)))
    ∧ (s.power.prepared = true → ∃ u, exec (.marginPlanCommit t) s = .next u ∧ u.power.plan = s.power.spare
      ∧ u.power.prepared = false ∧ u.nat Dict.planState = 2 ∧ u.num Dict.planSeq = s.power.spare.seq
      ∧ (adjustable i = true → s.power.spare.volts.val [] i ≠ s.power.plan.volts.val [] i →
        (u.island i).applied = false) ∧ u.stations = s.stations ∧ u.mem = s.mem)
    ∧ (adjustable i = true → (s.island i).applied = false → (∀ sid ∈ islandStations i, s.busy sid = false) →
      (s.islandTrump i = true → s.trump.st = .stopped) → ∃ u, exec (.planApplyWindow t i) s = .next u
      ∧ u = { s.at t with power := u.power, regs := u.regs } ∧ (u.island i).volt = s.power.plan.volts.val [] i
      ∧ (u.island i).applied = true ∧ ∀ j, j ≠ i.val → u.island j = s.island j)

/-- R490, R492 to R494, R498: a nonce reserves the next leaf of the open block, or the first leaf of a new block by burning
a mark, and is refused where all marks are burnt; the oldest report under way becomes readable; an integrator key is
enrolled while none is, afterwards only under a header that the other key verifies; tamper clears the keys and resets. -/
def Obligations.SecurityCommands : Prop :=
  ∀ (t : Nat) (role : Role) (s : State), let x := s.sec
    (∀ (who : BitVec 16) (nonce : List Byte), s.gate role Dict.attestNonce = none → nonce.length = 32 →
      x.attestRefused = false →
      let waiting := x.attesting.filter fun r => r.1 != who.toNat
      let take (leaf : Nat) (y : Security) : Prop := ∃ u, exec (.attestNonce t role who nonce) s = .next u
        ∧ u.sec = { y with attesting := waiting ++ [(who.toNat, leaf, nonce)], reports := x.reports.del who.toNat }
        ∧ Out.answer 0 ∈ u.out ∧ u.stations = s.stations ∧ u.mem = s.mem
      (∀ b, x.openBlock = some b → x.nextLeaf < 1024 →
        take (1024 * b + x.nextLeaf) { x with nextLeaf := x.nextLeaf + 1 })
      ∧ ((x.openBlock = none ∨ 1024 ≤ x.nextLeaf) →
        (x.marksBurnt < 4096 → take (1024 * x.marksBurnt)
          { x with marksBurnt := x.marksBurnt + 1, openBlock := some x.marksBurnt, nextLeaf := 1 })
        ∧ (4096 ≤ x.marksBurnt → ∃ u, exec (.attestNonce t role who nonce) s = .next u ∧ u.sec = x
          ∧ Out.answer 0x02981503 ∈ u.out ∧ (0x02981503 : Word) ∈ u.errq.val [] mgt)))
    ∧ (∀ who leaf nonce rest, x.attesting = (who, leaf, nonce) :: rest → ∃ u r,
      exec (.attestReportReady t) s = .next u ∧ u.sec = { x with attesting := rest, reports := x.reports.ins who r }
      ∧ r.length = 2096 ∧ countsOne s u Dict.attestCount 0 ∧ u.stations = s.stations ∧ u.mem = s.mem)
    ∧ (∀ (which : Fin 2) (key header sig : List Byte), key.length = 60 →
      let own := if which = 0 then Dict.integratorKey0 else Dict.integratorKey1
      let other := s.blob (if which = 0 then Dict.integratorKey1 else Dict.integratorKey0)
      let c := Instr.integratorKeyWrite t role which key header sig
      s.gate role own = none →
      let allowed : Prop := (keySet (s.blob own) = false ∧ keySet other = false)
        ∨ (keySet other = true ∧ hssVerify other header sig = true)
      (allowed → ∃ u, exec c s = .next u ∧ u.blob own = key ∧ Out.answer 0 ∈ u.out ∧ u.sec = x
        ∧ u.stations = s.stations ∧ u.mem = s.mem)
      ∧ (¬allowed → ∃ u, exec c s = .next u ∧ u.blob own = s.blob own ∧ Out.answer abRange ∈ u.out
        ∧ u.mem = s.mem))
    ∧ (s.noLevelFour → ∃ u, exec (.tamper t) s = .next u ∧ u.boot.cause = 4 ∧ u.boot.booted = false
      ∧ u.sec.tampers = x.tampers + 1 ∧ u.sec.tamperOwed = true ∧ u.sec.marksBurnt = x.marksBurnt
      ∧ u.sec.openBlock = none ∧ u.regs.sav = {} ∧ u.regs.vol = {} ∧ u.host = {} ∧ u.stations = [] ∧ u.mem.bytes = [])

/-- R506 to R516: the oldest queued record goes to both devices of the circulating area, of the first-records area below
1,024, of the permanent area where its word is kept there; what was dropped is then recorded; the operating time is saved; power loss ends taking records and leaves the module without power; REC_CLEAR empties
the circulating area once no erase runs; the erase ends. A strobe latches every block's counters and writes the next page:
its header, and no byte outside it. -/
def Obligations.RecorderAndCounters : Prop :=
  ∀ (t : Nat) (s : State), let a := s.at t; let x := a.recorder
    (∀ r rest fails, x.queue = r :: rest → x.stopped = false → (x.erasing = true → fld r 499 468 < x.clearedBelow) →
      ∃ u, exec (.recFlashWrite t fails) s = .next u ∧ u = { a with recorder := u.recorder, regs := u.regs }
      ∧ (x.dropped = 0 → u.recorder.queue = rest)
      ∧ (0 < x.dropped → rest.length < 125000 → u.recorder.dropped = 0 ∧ u.recorder.queue.length = rest.length + 1)
      ∧ (fails = [] → let slot : RecSlot := { dev0 := some r, dev1 := some r }
        (x.clearedBelow ≤ fld r 499 468 → u.recorder.circ.val {} x.circNext = slot
          ∧ u.recorder.circNext = (x.circNext + 1) % 17408)
        ∧ (fld r 499 468 < 1024 → x.firstNext < 1024 → u.recorder.first.val {} x.firstNext = slot
          ∧ u.recorder.firstNext = x.firstNext + 1)
        ∧ (bit r 507 = true → x.keyNext < 256 → u.recorder.key.val {} x.keyNext = slot
          ∧ u.recorder.keyNext = x.keyNext + 1)))
    ∧ exec (.opTimeSave t) s = .next { a with recorder := { x with opSaved := x.opNs } }
    ∧ (s.boot.powered = true → ∃ u, exec (.powerLoss t) s = .next u ∧ u.boot.powered = false ∧ u.boot.booted = false
      ∧ u.recorder.queue = [] ∧ u.recorder.stopped = true ∧ u.recorder.opSaved = x.opNs
      ∧ u.mem = { s.mem with psram0 := {}, psram1 := {} })
    ∧ (s.boot.powered = false → exec (.powerLoss t) s = .next a)
    ∧ (∀ role v, s.gate role Dict.recClear = none → v ≠ 0 →
      (x.erasing = false → ∃ u, exec (.recClear t role v) s = .next u ∧ u.recorder.erasing = true
        ∧ u.recorder.circ = [] ∧ u.recorder.clearedBelow = x.nextSeq ∧ u.recorder.first = x.first
        ∧ u.recorder.key = x.key ∧ Out.answer 0 ∈ u.out ∧ u.stations = s.stations ∧ u.mem = s.mem)
      ∧ (x.erasing = true → ∃ u, exec (.recClear t role v) s = .next u ∧ Out.answer abAccess ∈ u.out
        ∧ u.recorder = x ∧ u.mem = s.mem))
    ∧ (x.erasing = true → ∃ u, exec (.recEraseDone t) s = .next u ∧ u = { a with recorder := u.recorder, regs := u.regs }
      ∧ u.recorder.erasing = false)
    ∧ (∀ seen : List (Nat × List Nat), let n := s.nat Dict.snapSeq + 1
      let page := hbmBase + s.nat Dict.counterPageBase + n % 2 * 65536
      let f (b e : Nat) : Nat := ((seen.find? fun p => p.1 == b).elim [] (·.2)).getD e 0
      ∃ u, exec (.counterStrobe t seen) s = .next u
      ∧ u = { a with counters := u.counters, mem := u.mem, regs := u.regs } ∧ countsOne s u Dict.snapSeq 0
      ∧ (∀ b ∈ s.blocks, (u.block b).snap
        = ((s.block b).count fun e => if hasEvent b e then f b e else 0).map counterWord)
      ∧ u.rawRead page 64 = a.pageHeader n
      ∧ ∀ k, k < page ∨ page + 65536 ≤ k → u.byteAt k = s.byteAt k)

/-- R523 to R534: a draining step that overstays is ended and counted, and the drained station reports and rests; a reading
enters its sensor's mean, an implausible or missing one fails it, the input's upper bound holds the module in reset, and a
level clears once the reading lay inside long enough; a lost heartbeat is counted and stops the Trump domain; a failed self-check and a hung stop raise level 3; a Service write releases a held unit. -/
def Obligations.Guarding : Prop :=
  ∀ (t : Nat) (s : State), let now := max t s.tb; let a := s.at t
    (∀ (sid : BitVec 8) d, (s.station sid.toNat).drain = some d →
      (∀ addr scale written r, d.since + s.nat Dict.drainTimeout * 1000 ≤ now → (s.station sid.toNat).running = some r →
        ∃ u, exec (.drainTimeout t sid addr scale written) s = .next u ∧ (u.station sid.toNat).running = none
        ∧ (r.outs ≠ [] → countsOne s u Dict.drainPoisoned 0)
        ∧ (r.outs = [] → onlyStation s u t sid.toNat))
      ∧ ((s.station sid.toNat).running = none → ∃ u, exec (.drainReport t sid) s = .next u
        ∧ (u.station sid.toNat).drain = none ∧ ((s.station sid.toNat).seq = .drain → (u.station sid.toNat).seq = .idle)
        ∧ withSrc 0x06000220 sid.toNat ∈ u.errq.val [] mgt ∧ (∀ m, m ≠ sid.toNat → u.station m = s.station m)
        ∧ u.mem = s.mem))
    ∧ (∀ (k : BitVec 8) (v : Int), let n := k.toNat; let x := s.sensor n
      let r := (v :: x.readings).take (sensorWindow n)
      sensorListed n = true → x.failed = false →
      (implausible n v = false → s.boot.held = none → (∀ b ∈ s.sensorBounds n, b.beyond r = false) → ∃ u,
        exec (.sensorSample t k v) s = .next u ∧ (u.sensor n).readings = r ∧ (u.sensor n).levels = x.levels
        ∧ u.stations = s.stations ∧ u.mem = s.mem)
      ∧ (implausible n v = false → s.boot.held = none → n = 0 → (voltBound 4 none (some 6300000)).beyond r = true →
        4 ∉ x.levels → ∃ u, exec (.sensorSample t k v) s = .next u ∧ u.boot.held = some 0)
      ∧ (implausible n v = true → ∃ u, exec (.sensorSample t k v) s = .next u ∧ (u.sensor n).failed = true
        ∧ (0x06921706 : Word) ∈ u.errq.val [] mgt)
      ∧ (∃ u, exec (.sensorSilent t k) s = .next u ∧ (u.sensor n).failed = true
        ∧ (0x06921706 : Word) ∈ u.errq.val [] mgt)
      ∧ (let gone := (x.inside.filter fun p => decide (p.2 + 1000000000 ≤ now)).map (·.1)
        ∃ u, exec (.sensorClear t k) s = .next u ∧ (u.sensor n).levels = x.levels.filter (fun l => !gone.contains l)
        ∧ (u.sensor n).inside = x.inside.filter (fun p => !gone.contains p.1) ∧ (u.sensor n).readings = x.readings
        ∧ u.mem = s.mem))
    ∧ (s.guard.lost = false → exec (.mgtHeartbeat t) s = .next { a with guard := { s.guard with lastBeat := now } })
    ∧ (s.guard.lost = true → let rest := s.guard.causes.filter fun c => !(c.2.1 == 0x06921703)
      exec (.mgtHeartbeat t) s
        = .next { a with guard := { s.guard with lastBeat := now, lost := false, causes := rest } })
    ∧ (s.boot.booted = true → s.guard.lost = false →
      s.guard.lastBeat + s.nat Dict.heartbeatTimeout * 1000000 ≤ now → ∃ u, exec (.mgtHeartbeatLost t) s = .next u
      ∧ u.guard.lost = true ∧ u.guard.lostAt = now ∧ countsOne s u Dict.heartbeatLosses 0
      ∧ (0x06921703 : Word) ∈ u.errq.val [] mgt ∧ (u.guard.causes.any fun c => c.1 == 3 && c.2.1 == 0x06921703) = true
      ∧ ((∀ c ∈ s.guard.causes, c.2.1 ≠ 0x06921703) → u.trump.st ≠ .running ∧ u.nat Dict.trumpControl = 0))
    ∧ (∃ u, exec (.supSelfCheck t true) s = .next u ∧ u = { a with guard := u.guard } ∧ u.guard.selfBad = false
      ∧ u.guard.causes = s.guard.causes.filter fun c => !(c.2.1 == 0x06921707))
    ∧ (s.guard.selfBad = false → ∃ u, exec (.supSelfCheck t false) s = .next u ∧ u.guard.selfBad = true
      ∧ (0x06921707 : Word) ∈ u.errq.val [] mgt
      ∧ (u.guard.causes.any fun c => c.1 == 3 && c.2.1 == 0x06921707) = true)
    ∧ (s.trump.st = .stopping → s.trump.stoppingSince + 2 * s.nat Dict.drainTimeout * 1000 + 1000000 ≤ now →
      (∀ c ∈ s.guard.causes, c.2.1 ≠ 0x06921702) → ∃ u, exec (.trumpStopHung t) s = .next u
      ∧ (0x06921702 : Word) ∈ u.errq.val [] mgt ∧ (3, (0x06921702 : Word), 0) ∈ u.guard.causes)
    ∧ (∀ role addr, s.gate role Dict.unitRelease = none → s.isLocal addr = true →
      (s.station (addr % 256)).held = true → ∃ u, exec (.unitRelease t role addr) s = .next u
      ∧ u.station (addr % 256) = { s.station (addr % 256) with held := false, faults := [] } ∧ Out.answer 0 ∈ u.out
      ∧ (∀ m, m ≠ addr % 256 → u.station m = s.station m) ∧ u.mem = s.mem)

/-- R538 to R555, R576: power makes a power-on reset; a start with a good slot boots the module, one without any enters the
recovery loader; a reset request takes effect 10 ms later, keeping factory values, flash and model store, a management
restart also what lies in PD63; phases move as their table allows; an erase ends; a committed model whose
image has its record's hash is loaded, at once or at a swap line. The bytes of a grade certificate are not in the spec
(log 98). -/
def Obligations.StartUpAndResets : Prop :=
  ∀ (t : Nat) (role : Role) (s : State), let now := max t s.tb; let a := s.at t; let b := s.boot
    let kept : Memory := { store := s.mem.store, psram0 := s.mem.psram0, psram1 := s.mem.psram1 }
    (b.powered = false → ∃ u, exec (.inputPowerGood t) s = .next u ∧ u.boot.powered = true ∧ u.boot.cause = 1
      ∧ u.boot.held = none ∧ u.boot.booted = false ∧ u.stations = [] ∧ u.regs = { fac := s.regs.fac }
      ∧ u.mem = kept)
    ∧ (b.powered = true → exec (.inputPowerGood t) s = .next a)
    ∧ (∀ r : BootRun, (b.powered = false ∨ b.held ≠ none ∨ b.booted = true ∨ b.recoveryLoader = true →
        exec (.boot t r) s = .next a)
      ∧ (b.powered = true → b.held = none → b.booted = false → b.recoveryLoader = false → r.hbmGood = true →
        (b.cause = 5 → ∃ u, exec (.boot t r) s = .next u ∧ u.boot.booted = true)
        ∧ (∀ k, b.cause ≠ 5 → activeOf b.fwRing = some k → s.slotChecks r k = true →
          (newestRecord b.fwRing k).any (fun x => recState x == 2) = false → ∃ u, exec (.boot t r) s = .next u
          ∧ u.boot.booted = true ∧ u.boot.running = k
          ∧ u.sec.serviceState = (!r.pufGood || !(s.certChecks Dict.gradeCert 1 r.gradeGood
            && (Config.gradeCert (s.blob Dict.gradeCert)).fits) || s.sec.tamperHeld)
          ∧ u.recorder.powerCycles = s.recorder.powerCycles + (if b.cause = 1 then 1 else 0))
        ∧ (b.cause ≠ 5 → activeOf b.fwRing = none → ∃ u, exec (.boot t r) s = .next u ∧ u.boot.recoveryLoader = true
          ∧ u.boot.booted = false)))
    ∧ (s.gate role Dict.resetRequest = none → b.request = none →
      (∃ u, exec (.hostReset t role) s = .next u ∧ u.boot = { b with request := some 1, requestAt := now }
        ∧ Out.answer 0 ∈ u.out ∧ u.stations = s.stations ∧ u.mem = s.mem)
      ∧ (∃ u, exec (.mgtRestart t role) s = .next u ∧ u.boot = { b with request := some 2, requestAt := now }
        ∧ Out.answer 0 ∈ u.out ∧ u.stations = s.stations ∧ u.mem = s.mem))
    ∧ (∀ v, b.request = some v → (now < b.requestAt + 10000000 → exec (.resetTakeEffect t) s = .next a)
      ∧ (b.requestAt + 10000000 ≤ now → v = 1 → ∃ u, exec (.resetTakeEffect t) s = .next u ∧ u.boot.cause = 2
        ∧ u.boot.booted = false ∧ u.boot.fwRing = b.fwRing ∧ u.stations = [] ∧ u.host = {}
        ∧ u.regs = { fac := s.regs.fac } ∧ u.mem = kept ∧ u.clk = {} ∧ u.pending = s.pending)
      ∧ (b.requestAt + 10000000 ≤ now → v = 2 → s.trump.st = .stopped →
        (∀ p ∈ s.dealer.strings, p.2.zero = none) → ∃ u, exec (.resetTakeEffect t) s = .next u
        ∧ u.boot.cause = 5 ∧ u.boot.booted = false ∧ u.stations = [] ∧ u.host = {} ∧ u.regs.sav = s.regs.sav
        ∧ u.clk = a.clk ∧ u.enc = s.enc ∧ u.dealer = s.dealer ∧ u.field = s.field ∧ u.guard = s.guard
        ∧ u.mem = kept))
    ∧ exec (.resetHoldEnd t) s = .next { a with boot := { b with held := none } }
    ∧ (s.gate role Dict.phaseRequest = none →
      ((b.phase = .test ∨ b.phase = .recovery) → ∃ u, exec (.phaseInService t role) s = .next u
        ∧ u.boot.phase = .inService ∧ Out.answer 0 ∈ u.out ∧ (∀ p ∈ u.queues.q, p.2.mark = none) ∧ u.mem = s.mem)
      ∧ (b.phase = .inService → s.trump.st = .stopped → ∃ u, exec (.phaseTest t role) s = .next u
        ∧ u.boot.phase = .test ∧ Out.answer 0 ∈ u.out ∧ u.stations = s.stations ∧ u.mem = s.mem)
      ∧ ((b.phase = .inService ∨ b.phase = .test) → ∃ u, exec (.phaseRecovery t role) s = .next u
        ∧ u.boot.phase = .recovery ∧ Out.answer 0 ∈ u.out ∧ u.stations = s.stations ∧ u.mem = s.mem)
      ∧ ((b.phase = .startUp ∨ b.phase = .serviceState) → ∀ c ∈ [Instr.phaseInService t role, .phaseTest t role,
        .phaseRecovery t role], ∃ u, exec c s = .next u ∧ Out.answer abRange ∈ u.out ∧ u.boot = b ∧ u.mem = s.mem))
    ∧ (∀ area slot : Fin 2, (area.val, slot.val) ∈ b.slotErase → ∃ u, exec (.slotEraseDone t area slot) s = .next u
      ∧ u = { a with boot := u.boot, mem := u.mem } ∧ (area.val, slot.val) ∉ u.boot.slotErase
      ∧ (area = 1 → ∀ k, storeAt (1 + slot.val) 0 ≤ k → k < storeAt (2 + slot.val) 0 → u.mem.store.val 0 k = 0)
      ∧ (∀ k, k < storeAt (1 + slot.val) 0 ∨ storeAt (2 + slot.val) 0 ≤ k → u.mem.store.val 0 k = s.mem.store.val 0 k))
    ∧ (∀ k, activeOf b.modelRing = some k → b.commitStage = 4 → b.modelSwap = none →
      (∃ u, exec (.modelActivateLoaded t false) s = .next u ∧ u.boot = { b with commitStage := 0 }
        ∧ withSrc 0x05000506 mgt ∈ u.errq.val [] mgt ∧ u.mem = s.mem)
      ∧ (∃ u, exec (.modelActivateLoaded t true) s = .next u
        ∧ if s.imageIntact k = false then
            u.boot = { b with commitStage := 0 } ∧ withSrc 0x05000506 mgt ∈ u.errq.val [] mgt ∧ u.mem = s.mem
          else if s.trump.st = .running then ∃ c, u = { a with boot := { b with modelSwap := some (c, k) } }
          else u = { a with boot := u.boot } ∧ u.boot.commitStage = 0 ∧ u.boot.activeModel = some k
            ∧ u.boot.modelLoaded = true))

/-- R38. A load into an ARMED shadow slot is refused with `TABLE_BUSY` (0x02ss0211) and changes no station; a disarm before
the switch has begun puts the slot back to LOADED; a disarm in the same sequencer cycle as the switch is refused with
`TABLE_SWITCHED` (0x02ss0212), and the switch takes place: at once between two steps, else as the step in flight completes
(log 86). -/
def Obligations.ArmedSlotRefuses : Prop :=
  ∀ (t : Nat) (st : BitVec 8) (s : State) (armed : List StepWord) (c : SwitchCond),
    s.exists' st.toNat = true → (s.station st.toNat).shadow = .armed armed c →
    let x := s.station st.toNat
    (∀ tbl, ∃ u, exec (.tableLoad t st tbl) s = .next u ∧ Out.answer (withSrc 0x02000211 st.toNat) ∈ u.out
      ∧ u.stations = s.stations ∧ u.mem = s.mem)
    ∧ (∃ u, exec (.tableDisarm t st false) s = .next u ∧ onlyStation s u t st.toNat
      ∧ u.station st.toNat = { x with shadow := .loaded armed })
    ∧ ((s.at t).switchBetween st.toNat armed c = true → ∃ u, exec (.tableDisarm t st true) s = .next u
      ∧ Out.answer (withSrc 0x02000212 st.toNat) ∈ u.out ∧ (u.station st.toNat).active = armed
      ∧ (u.station st.toNat).shadow = (if x.active.isEmpty then .empty else .loaded x.active)
      ∧ (u.station st.toNat).pc = 0 ∧ (u.station st.toNat).loops = []
      ∧ (∀ n, n ≠ st.toNat → u.station n = s.station n) ∧ u.mem = s.mem)
    ∧ ((s.at t).switchBetween st.toNat armed c = false → (s.at t).switchInStep st.toNat c = true →
      ∃ u, exec (.tableDisarm t st true) s = .next u ∧ Out.answer (withSrc 0x02000212 st.toNat) ∈ u.out
      ∧ u.stations = s.stations ∧ u.mem = s.mem)

/-- R418. RESTORE_DEFAULTS written 1 with the Trump domain STOPPED sets every saved entry but the role keys (index 0x1100)
to its default (that of TRUMP_ARRAY_MAP follows the arrays the module has) and commits the set to the newer of the two
copies; in any other state of the domain it is refused with an access abort and no saved entry changes. -/
def Obligations.RestoreDefaults : Prop :=
  ∀ (t : Nat) (role : Role) (s : State), role.reaches .integrate = true →
    (s.trump.st = .stopped → ∃ u, exec (.restoreDefaults t role 1) s = .next u ∧ Out.answer 0 ∈ u.out
      ∧ (∀ (e : Ent) j k, e.pers = .saved → e.key j k ≠ Dict.trumpArrayMap.key 0 0 → u.numAt e j k = e.dflt)
      ∧ u.nat Dict.trumpArrayMap = s.arrayMapDefault
      ∧ (∀ (e : Ent) j k, e.pers = .saved → e.key j k / 1099511627776 ≠ 0x1100 → u.blob e j k = e.dfltB)
      ∧ (∀ w : Fin 3, u.blob (keyEnt w) = s.blob (keyEnt w))
      ∧ ∃ c, newerIntact u.boot.savedA u.boot.savedB = some c ∧ c.set = u.regs.sav.settings)
    ∧ (s.trump.st ≠ .stopped → ∃ u, exec (.restoreDefaults t role 1) s = .next u ∧ Out.answer abAccess ∈ u.out
      ∧ u.regs.sav = s.regs.sav ∧ u.boot.savedA = s.boot.savedA ∧ u.boot.savedB = s.boot.savedB)

/-- R437. With I3C_ENABLE 0 a write of 0 to FDP_ENABLE is a range abort, with FDP_ENABLE 0 one of 0 to I3C_ENABLE is, and
both stay; with I3C_ENABLE 1 the write of 0 to FDP_ENABLE is answered, and every session is closed with it. -/
def Obligations.FdpOrI3cStaysOn : Prop :=
  ∀ (t : Nat) (role : Role) (who : BitVec 16) (s : State),
    let kept (u : State) : Prop := u.num Dict.fdpEnable 0 = s.num Dict.fdpEnable 0
      ∧ u.num Dict.i3cEnable 0 = s.num Dict.i3cEnable 0
    (role.reaches (Dict.fdpEnable.needs { role := role, who := 0 } [0]) = true →
      s.accessRefused Dict.fdpEnable 0 0 = false →
      (s.num Dict.i3cEnable 0 = 0 → ∃ u, exec (.fdpEnableWrite t role 0) s = .next u ∧ Out.answer abRange ∈ u.out ∧ kept u
        ∧ ∀ n, (u.host.sessions.look n).isSome = (s.host.sessions.look n).isSome)
      ∧ (s.num Dict.i3cEnable 0 ≠ 0 → ∃ u, exec (.fdpEnableWrite t role 0) s = .next u ∧ Out.answer 0 ∈ u.out
        ∧ u.num Dict.fdpEnable 0 = 0 ∧ u.host.sessions = []))
    ∧ (role.reaches (Dict.i3cEnable.needs { role := role, who := who.toNat } [0]) = true →
      s.accessRefused Dict.i3cEnable 0 0 = false → s.num Dict.fdpEnable 0 = 0 →
      ∃ u, exec (.objectWrite t role who (BitVec.ofNat 16 Dict.i3cEnable.i) (BitVec.ofNat 8 Dict.i3cEnable.s) [0]) s
        = .next u ∧ Out.answer abRange ∈ u.out ∧ kept u)

/-- R534. A heartbeat lost for HEARTBEAT_TIMEOUT is reported as `MGT_HEARTBEAT_LOST` (0x06921703) and raises level 3; one
that returns clears that cause, so that without another of level 3 or a failed self-check kicks pass again; with AUTO_RESET
1, one still absent RESET_AFTER later raises level 4, whose action is the reset of the module (cause 3). No cause of level 4
stands before (an invariant, `NoLevelFourStands`). -/
def Obligations.HeartbeatLevels : Prop :=
  ∀ (t : Nat) (s : State), let now := max t s.tb
    (s.boot.booted = true → s.guard.lost = false →
      s.guard.lastBeat + s.nat Dict.heartbeatTimeout * 1000000 ≤ now → ∃ u, exec (.mgtHeartbeatLost t) s = .next u
      ∧ (0x06921703 : Word) ∈ u.errq.val [] mgt ∧ (∃ who, (3, (0x06921703 : Word), who) ∈ u.guard.causes) ∧ 3 ≤ u.level
      ∧ u.guard.lost = true ∧ u.guard.lostAt = now)
    ∧ (s.guard.lost = true → ∃ u, exec (.mgtHeartbeat t) s = .next u ∧ u.guard.lost = false
      ∧ (∀ c ∈ u.guard.causes, c.2.1 ≠ 0x06921703)
      ∧ (s.guard.selfBad = false → (∀ c ∈ s.guard.causes, c.2.1 = 0x06921703 ∨ c.1 < 3) →
        u.level < 3 ∧ u.mayKick = true))
    ∧ (s.noLevelFour → s.guard.lost = true → s.flag Dict.autoReset = true →
      s.guard.lostAt + s.nat Dict.resetAfter * 1000000 ≤ now → ∃ u, exec (.heartbeatReset t) s = .next u
      ∧ u.boot.cause = 3 ∧ u.boot.booted = false ∧ u.stations = [])

/-- R538 to R543: the block as it stands before power is given: no command waits, nothing is booted, the domain is STOPPED,
every station OFF with epoch 1, every link down, the clock UNSET at the nominal increment, no mark burnt; every entry reads
its default (for entries without one in the spec the model's value, log 7), and every byte of memory zero (the model's
choice, log 8). The memory has its form, the leaves are in order, and no cause stands. -/
def Obligations.ResetState : Prop :=
  State.reset.pending = [] ∧ State.reset.out = [] ∧ State.reset.boot.powered = false ∧ State.reset.boot.booted = false
  ∧ State.reset.trump.st = .stopped ∧ State.reset.clk.st = .unset ∧ State.reset.clk.inc = 0x10000000
  ∧ (∀ n, (State.reset.station n).seq = .off ∧ (State.reset.station n).epoch = 1)
  ∧ (∀ k, (State.reset.link k).st = .down) ∧ State.reset.sec.marksBurnt = 0
  ∧ (∀ (e : Ent) j k, State.reset.numAt e j k = e.dflt ∧ State.reset.blob e j k = e.dfltB)
  ∧ (∀ a, State.reset.byteAt a = 0) ∧ State.reset.mem.wf ∧ State.reset.leavesInOrder ∧ State.reset.noLevelFour

/-- Every step keeps the memory's one form: in the module's bytes, its poison marks and the model store addresses strictly
rise, and nothing is listed that reads the same unlisted, so that equal memories are equal data. -/
def Obligations.MemoryKeepsItsForm : Prop :=
  ∀ s u : State, s.mem.wf → step s = .next u → u.mem.wf

/-- R492, R494: from every state whose leaves are in order, every step leaves them in order, never moves the front of the
leaves back, and reserves for a new report only a leaf at or past the old front: no leaf ever signs twice. -/
def Obligations.LeavesNeverReturn : Prop :=
  ∀ s u : State, s.leavesInOrder → step s = .next u →
    u.leavesInOrder ∧ s.leafFront ≤ u.leafFront ∧ s.sec.marksBurnt ≤ u.sec.marksBurnt
    ∧ ∀ r ∈ u.sec.attesting, r ∈ s.sec.attesting ∨ s.leafFront ≤ r.2.1

/-- The queue of the waiting commands moves by one: a step takes its front command, and no command's effect, a reset of the
module among them, adds to it, drops from it or reorders it. -/
def Obligations.QueueMovesByOne : Prop :=
  ∀ s u : State, step s = .next u → u.pending = s.pending.tail

/-- R531, R535: a cause of level 4 resets the module and does not stand afterwards: from every state in which none stands,
no step leaves one standing. -/
def Obligations.NoLevelFourStands : Prop :=
  ∀ s u : State, s.noLevelFour → step s = .next u → u.noLevelFour

end
end

