-- ==== Sys2Proof/Laws/Keep.lean ====
section
/-! SUPPORT. What an operation leaves as it was, of: the waiting commands, the security state, the guard, the memory,
the stations. One lemma for an operation names those of the five that it never touches. -/

namespace Sys2Proof.Machine

set_option linter.all false

@[simp] theorem foldl_pending {α : Type} (f : State → α → State) (h : ∀ s a, (f s a).pending = s.pending) (l : List α) (s : State) :
    (l.foldl f s).pending = s.pending := by
  induction l generalizing s with
  | nil => rfl
  | cons a l ih => simp [ih, h]

@[simp] theorem foldl1_pending {α β : Type} (f : State × β → α → State × β) (h : ∀ s a, (f s a).1.pending = s.1.pending) (l : List α) (s : State × β) :
    (l.foldl f s).1.pending = s.1.pending := by
  induction l generalizing s with
  | nil => rfl
  | cons a l ih => simp [ih, h]

@[simp] theorem foldl2_pending {α β : Type} (f : β × State → α → β × State) (h : ∀ s a, (f s a).2.pending = s.2.pending) (l : List α) (s : β × State) :
    (l.foldl f s).2.pending = s.2.pending := by
  induction l generalizing s with
  | nil => rfl
  | cons a l ih => simp [ih, h]

@[simp] theorem ite_pending (c : Prop) [Decidable c] (a b : State) : (if c then a else b).pending = if c then a.pending else b.pending := by split <;> rfl

@[simp] theorem foldl_sec {α : Type} (f : State → α → State) (h : ∀ s a, (f s a).sec = s.sec) (l : List α) (s : State) :
    (l.foldl f s).sec = s.sec := by
  induction l generalizing s with
  | nil => rfl
  | cons a l ih => simp [ih, h]

@[simp] theorem foldl1_sec {α β : Type} (f : State × β → α → State × β) (h : ∀ s a, (f s a).1.sec = s.1.sec) (l : List α) (s : State × β) :
    (l.foldl f s).1.sec = s.1.sec := by
  induction l generalizing s with
  | nil => rfl
  | cons a l ih => simp [ih, h]

@[simp] theorem foldl2_sec {α β : Type} (f : β × State → α → β × State) (h : ∀ s a, (f s a).2.sec = s.2.sec) (l : List α) (s : β × State) :
    (l.foldl f s).2.sec = s.2.sec := by
  induction l generalizing s with
  | nil => rfl
  | cons a l ih => simp [ih, h]

@[simp] theorem ite_sec (c : Prop) [Decidable c] (a b : State) : (if c then a else b).sec = if c then a.sec else b.sec := by split <;> rfl

@[simp] theorem foldl_guard {α : Type} (f : State → α → State) (h : ∀ s a, (f s a).guard = s.guard) (l : List α) (s : State) :
    (l.foldl f s).guard = s.guard := by
  induction l generalizing s with
  | nil => rfl
  | cons a l ih => simp [ih, h]

@[simp] theorem foldl1_guard {α β : Type} (f : State × β → α → State × β) (h : ∀ s a, (f s a).1.guard = s.1.guard) (l : List α) (s : State × β) :
    (l.foldl f s).1.guard = s.1.guard := by
  induction l generalizing s with
  | nil => rfl
  | cons a l ih => simp [ih, h]

@[simp] theorem foldl2_guard {α β : Type} (f : β × State → α → β × State) (h : ∀ s a, (f s a).2.guard = s.2.guard) (l : List α) (s : β × State) :
    (l.foldl f s).2.guard = s.2.guard := by
  induction l generalizing s with
  | nil => rfl
  | cons a l ih => simp [ih, h]

@[simp] theorem ite_guard (c : Prop) [Decidable c] (a b : State) : (if c then a else b).guard = if c then a.guard else b.guard := by split <;> rfl

@[simp] theorem foldl_mem {α : Type} (f : State → α → State) (h : ∀ s a, (f s a).mem = s.mem) (l : List α) (s : State) :
    (l.foldl f s).mem = s.mem := by
  induction l generalizing s with
  | nil => rfl
  | cons a l ih => simp [ih, h]

@[simp] theorem foldl1_mem {α β : Type} (f : State × β → α → State × β) (h : ∀ s a, (f s a).1.mem = s.1.mem) (l : List α) (s : State × β) :
    (l.foldl f s).1.mem = s.1.mem := by
  induction l generalizing s with
  | nil => rfl
  | cons a l ih => simp [ih, h]

@[simp] theorem foldl2_mem {α β : Type} (f : β × State → α → β × State) (h : ∀ s a, (f s a).2.mem = s.2.mem) (l : List α) (s : β × State) :
    (l.foldl f s).2.mem = s.2.mem := by
  induction l generalizing s with
  | nil => rfl
  | cons a l ih => simp [ih, h]

@[simp] theorem ite_mem (c : Prop) [Decidable c] (a b : State) : (if c then a else b).mem = if c then a.mem else b.mem := by split <;> rfl

@[simp] theorem foldl_stations {α : Type} (f : State → α → State) (h : ∀ s a, (f s a).stations = s.stations) (l : List α) (s : State) :
    (l.foldl f s).stations = s.stations := by
  induction l generalizing s with
  | nil => rfl
  | cons a l ih => simp [ih, h]

@[simp] theorem foldl1_stations {α β : Type} (f : State × β → α → State × β) (h : ∀ s a, (f s a).1.stations = s.1.stations) (l : List α) (s : State × β) :
    (l.foldl f s).1.stations = s.1.stations := by
  induction l generalizing s with
  | nil => rfl
  | cons a l ih => simp [ih, h]

@[simp] theorem foldl2_stations {α β : Type} (f : β × State → α → β × State) (h : ∀ s a, (f s a).2.stations = s.2.stations) (l : List α) (s : β × State) :
    (l.foldl f s).2.stations = s.2.stations := by
  induction l generalizing s with
  | nil => rfl
  | cons a l ih => simp [ih, h]

@[simp] theorem ite_stations (c : Prop) [Decidable c] (a b : State) : (if c then a else b).stations = if c then a.stations else b.stations := by split <;> rfl

@[simp] theorem State.setNumAt_keep (s : State) (e : Ent) (j : Nat) (k : Nat) (v : Int) : (State.setNumAt s e j k v).pending = s.pending ∧ (State.setNumAt s e j k v).sec = s.sec ∧ (State.setNumAt s e j k v).guard = s.guard ∧ (State.setNumAt s e j k v).mem = s.mem ∧ (State.setNumAt s e j k v).stations = s.stations := by
  simp [State.setNumAt]

@[simp] theorem State.bumpAt_keep (s : State) (e : Ent) (j : Nat) (k : Nat) (n : Nat) : (State.bumpAt s e j k n).pending = s.pending ∧ (State.bumpAt s e j k n).sec = s.sec ∧ (State.bumpAt s e j k n).guard = s.guard ∧ (State.bumpAt s e j k n).mem = s.mem ∧ (State.bumpAt s e j k n).stations = s.stations := by
  simp [State.bumpAt]

@[simp] theorem State.bump_keep (s : State) (e : Ent) (k : optParam Nat 0) (n : optParam Nat 1) : (State.bump s e k n).pending = s.pending ∧ (State.bump s e k n).sec = s.sec ∧ (State.bump s e k n).guard = s.guard ∧ (State.bump s e k n).mem = s.mem ∧ (State.bump s e k n).stations = s.stations := by
  simp [State.bump]

@[simp] theorem State.abandonWindows_keep (s : State) : (State.abandonWindows s).pending = s.pending ∧ (State.abandonWindows s).sec = s.sec ∧ (State.abandonWindows s).guard = s.guard ∧ (State.abandonWindows s).mem = s.mem ∧ (State.abandonWindows s).stations = s.stations := by
  simp [State.abandonWindows]

@[simp] theorem State.freeCtx_keep (s : State) (i : Nat) : (State.freeCtx s i).pending = s.pending ∧ (State.freeCtx s i).sec = s.sec ∧ (State.freeCtx s i).guard = s.guard ∧ (State.freeCtx s i).mem = s.mem ∧ (State.freeCtx s i).stations = s.stations := by
  simp [State.freeCtx]

@[simp] theorem State.absorb_keep (s : State) (i : Nat) : (State.absorb s i).1.pending = s.pending ∧ (State.absorb s i).1.sec = s.sec ∧ (State.absorb s i).1.guard = s.guard ∧ (State.absorb s i).1.mem = s.mem ∧ (State.absorb s i).1.stations = s.stations := by
  simp [State.absorb]

@[simp] theorem State.emit_keep (s : State) (o : Out) : (State.emit s o).pending = s.pending ∧ (State.emit s o).sec = s.sec ∧ (State.emit s o).guard = s.guard ∧ (State.emit s o).mem = s.mem ∧ (State.emit s o).stations = s.stations := by
  simp [State.emit]

@[simp] theorem State.eventTo_keep (s : State) (b : Nat) (w : Word) (detail : Nat) (num : Nat) (ses : Session) : (State.eventTo s b w detail num ses).pending = s.pending ∧ (State.eventTo s b w detail num ses).sec = s.sec ∧ (State.eventTo s b w detail num ses).guard = s.guard ∧ (State.eventTo s b w detail num ses).mem = s.mem ∧ (State.eventTo s b w detail num ses).stations = s.stations := by
  simp [State.eventTo]

@[simp] theorem State.eventI3c_keep (s : State) (b : Nat) (w : Word) (detail : Nat) : (State.eventI3c s b w detail).pending = s.pending ∧ (State.eventI3c s b w detail).sec = s.sec ∧ (State.eventI3c s b w detail).guard = s.guard ∧ (State.eventI3c s b w detail).mem = s.mem ∧ (State.eventI3c s b w detail).stations = s.stations := by
  simp [State.eventI3c]

@[simp] theorem State.event_keep (s : State) (b : Nat) (w : Word) (detail : optParam Nat 0) : (State.event s b w detail).pending = s.pending ∧ (State.event s b w detail).sec = s.sec ∧ (State.event s b w detail).guard = s.guard ∧ (State.event s b w detail).mem = s.mem ∧ (State.event s b w detail).stations = s.stations := by
  simp [State.event]

@[simp] theorem State.record_keep (s : State) (w : Word) (unit : optParam Nat 255) (vals : optParam (List Byte) List.nil) : (State.record s w unit vals).pending = s.pending ∧ (State.record s w unit vals).sec = s.sec ∧ (State.record s w unit vals).guard = s.guard ∧ (State.record s w unit vals).mem = s.mem ∧ (State.record s w unit vals).stations = s.stations := by
  simp [State.record]

@[simp] theorem State.toErr_keep (s : State) (k : Nat) (w : Word) : (State.toErr s k w).pending = s.pending ∧ (State.toErr s k w).sec = s.sec ∧ (State.toErr s k w).guard = s.guard ∧ (State.toErr s k w).mem = s.mem ∧ (State.toErr s k w).stations = s.stations := by
  simp [State.toErr]

@[simp] theorem State.jobReport_keep (s : State) (id : Nat) (w : Word) : (State.jobReport s id w).pending = s.pending ∧ (State.jobReport s id w).sec = s.sec ∧ (State.jobReport s id w).guard = s.guard ∧ (State.jobReport s id w).mem = s.mem ∧ (State.jobReport s id w).stations = s.stations := by
  simp [State.jobReport]

@[simp] theorem State.mapJob_keep (s : State) (id : Nat) (f : Job → Job) : (State.mapJob s id f).pending = s.pending ∧ (State.mapJob s id f).sec = s.sec ∧ (State.mapJob s id f).guard = s.guard ∧ (State.mapJob s id f).mem = s.mem ∧ (State.mapJob s id f).stations = s.stations := by
  unfold State.mapJob; (repeat' split) <;> simp

@[simp] theorem State.starve_keep (s : State) (id : Nat) : (State.starve s id).pending = s.pending ∧ (State.starve s id).sec = s.sec ∧ (State.starve s id).guard = s.guard ∧ (State.starve s id).mem = s.mem ∧ (State.starve s id).stations = s.stations := by
  simp [State.starve]

@[simp] theorem State.evict_keep (s : State) (id : Nat) : (State.evict s id).pending = s.pending ∧ (State.evict s id).sec = s.sec ∧ (State.evict s id).guard = s.guard ∧ (State.evict s id).mem = s.mem ∧ (State.evict s id).stations = s.stations := by
  simp [State.evict]

theorem State.startLoad_keep (s : State) (id : Nat) : ∀ r, (State.startLoad s id) = some r → r.pending = s.pending ∧ r.sec = s.sec ∧ r.guard = s.guard ∧ r.mem = s.mem ∧ r.stations = s.stations := by
  intro r h
  unfold State.startLoad at h
  cases hh : s.room id [] (s.victims id) with
  | none => simp [hh] at h
  | some x =>
    simp only [hh, Option.map_some, Option.some.injEq] at h
    subst h
    simp

@[simp] theorem State.mapStation_keep (s : State) (sid : Nat) (f : Station → Station) : (State.mapStation s sid f).pending = s.pending ∧ (State.mapStation s sid f).sec = s.sec ∧ (State.mapStation s sid f).guard = s.guard ∧ (State.mapStation s sid f).mem = s.mem := by
  simp [State.mapStation]

@[simp] theorem State.mapPath_keep (s : State) (sid : Nat) (f : Datapath → Datapath) : (State.mapPath s sid f).pending = s.pending ∧ (State.mapPath s sid f).sec = s.sec ∧ (State.mapPath s sid f).guard = s.guard ∧ (State.mapPath s sid f).mem = s.mem ∧ (State.mapPath s sid f).stations = s.stations := by
  simp [State.mapPath]

@[simp] theorem State.mapArr_keep (s : State) (n : Nat) (f : ArrayShared → ArrayShared) : (State.mapArr s n f).pending = s.pending ∧ (State.mapArr s n f).sec = s.sec ∧ (State.mapArr s n f).guard = s.guard ∧ (State.mapArr s n f).mem = s.mem ∧ (State.mapArr s n f).stations = s.stations := by
  simp [State.mapArr]

@[simp] theorem State.loadPath_keep (s : State) (j : Job) (sid : Nat) : (State.loadPath s j sid).pending = s.pending ∧ (State.loadPath s j sid).sec = s.sec ∧ (State.loadPath s j sid).guard = s.guard ∧ (State.loadPath s j sid).mem = s.mem ∧ (State.loadPath s j sid).stations = s.stations := by
  simp [State.loadPath]

@[simp] theorem State.roleChange_keep (s : State) (sid : Nat) : (State.roleChange s sid).pending = s.pending ∧ (State.roleChange s sid).sec = s.sec ∧ (State.roleChange s sid).guard = s.guard ∧ (State.roleChange s sid).mem = s.mem := by
  simp [State.roleChange]

@[simp] theorem State.setNum_keep (s : State) (e : Ent) (v : Int) (k : optParam Nat 0) : (State.setNum s e v k).pending = s.pending ∧ (State.setNum s e v k).sec = s.sec ∧ (State.setNum s e v k).guard = s.guard ∧ (State.setNum s e v k).mem = s.mem ∧ (State.setNum s e v k).stations = s.stations := by
  simp [State.setNum]

@[simp] theorem State.setSplit_keep (s : State) (n : Nat) (split : Bool) : (State.setSplit s n split).pending = s.pending ∧ (State.setSplit s n split).sec = s.sec ∧ (State.setSplit s n split).guard = s.guard ∧ (State.setSplit s n split).mem = s.mem := by
  simp [State.setSplit]

@[simp] theorem State.splitFor_keep (s : State) (j : Job) : (State.splitFor s j).pending = s.pending ∧ (State.splitFor s j).sec = s.sec ∧ (State.splitFor s j).guard = s.guard ∧ (State.splitFor s j).mem = s.mem := by
  simp [State.splitFor]

@[simp] theorem State.clearStreams_keep (s : State) (j : Job) : (State.clearStreams s j).pending = s.pending ∧ (State.clearStreams s j).sec = s.sec ∧ (State.clearStreams s j).guard = s.guard ∧ (State.clearStreams s j).mem = s.mem ∧ (State.clearStreams s j).stations = s.stations := by
  simp [State.clearStreams]

@[simp] theorem State.loadStreams_keep (s : State) (j : Job) : (State.loadStreams s j).pending = s.pending ∧ (State.loadStreams s j).sec = s.sec ∧ (State.loadStreams s j).guard = s.guard ∧ (State.loadStreams s j).mem = s.mem ∧ (State.loadStreams s j).stations = s.stations := by
  simp [State.loadStreams]

@[simp] theorem State.resume_keep (s : State) (id : Nat) : (State.resume s id).pending = s.pending ∧ (State.resume s id).sec = s.sec ∧ (State.resume s id).guard = s.guard ∧ (State.resume s id).mem = s.mem := by
  unfold State.resume; (repeat' split) <;> simp

@[simp] theorem State.handOver_keep (s : State) (ids : List Nat) : (State.handOver s ids).pending = s.pending ∧ (State.handOver s ids).sec = s.sec ∧ (State.handOver s ids).guard = s.guard ∧ (State.handOver s ids).mem = s.mem := by
  simp [State.handOver]

@[simp] theorem State.own_keep (s : State) (id : Nat) : (State.own s id).pending = s.pending ∧ (State.own s id).sec = s.sec ∧ (State.own s id).guard = s.guard ∧ (State.own s id).mem = s.mem := by
  simp [State.own]

@[simp] theorem State.schedule_keep (s : State) : (State.schedule s).pending = s.pending ∧ (State.schedule s).sec = s.sec ∧ (State.schedule s).guard = s.guard ∧ (State.schedule s).mem = s.mem := by
  unfold State.schedule
  split
  · simp
  · split
    · simp
    · split
      · simp
      · split
        · simp
        · split
          · rename_i h
            have h := State.startLoad_keep _ _ _ h
            simp [h]
          · dsimp only
            split <;> simp

@[simp] theorem State.accept_keep (s : State) (j : Job) : (State.accept s j).pending = s.pending ∧ (State.accept s j).sec = s.sec ∧ (State.accept s j).guard = s.guard ∧ (State.accept s j).mem = s.mem := by
  simp [State.accept]

@[simp] theorem State.accrue_keep (s : State) (id : Nat) : (State.accrue s id).pending = s.pending ∧ (State.accrue s id).sec = s.sec ∧ (State.accrue s id).guard = s.guard ∧ (State.accrue s id).mem = s.mem ∧ (State.accrue s id).stations = s.stations := by
  simp [State.accrue]

@[simp] theorem State.mapLink_keep (s : State) (k : Nat) (f : Link → Link) : (State.mapLink s k f).pending = s.pending ∧ (State.mapLink s k f).sec = s.sec ∧ (State.mapLink s k f).guard = s.guard ∧ (State.mapLink s k f).mem = s.mem ∧ (State.mapLink s k f).stations = s.stations := by
  simp [State.mapLink]

@[simp] theorem State.transmit_keep (s : State) (k : Nat) (f : Frame) : (State.transmit s k f).pending = s.pending ∧ (State.transmit s k f).sec = s.sec ∧ (State.transmit s k f).guard = s.guard ∧ (State.transmit s k f).mem = s.mem ∧ (State.transmit s k f).stations = s.stations := by
  simp [State.transmit]

@[simp] theorem State.drainLink_keep (s : State) (k : Nat) (x2 : Nat) : (State.drainLink s k x2).pending = s.pending ∧ (State.drainLink s k x2).sec = s.sec ∧ (State.drainLink s k x2).guard = s.guard ∧ (State.drainLink s k x2).mem = s.mem ∧ (State.drainLink s k x2).stations = s.stations := by
  fun_induction State.drainLink s k x2 <;> simp_all

@[simp] theorem State.released_keep (s : State) (k : Nat) (n : BitVec 12) : (State.released s k n).pending = s.pending ∧ (State.released s k n).sec = s.sec ∧ (State.released s k n).guard = s.guard ∧ (State.released s k n).mem = s.mem ∧ (State.released s k n).stations = s.stations := by
  simp [State.released]

@[simp] theorem State.ack_keep (s : State) (k : Nat) (f : Frame) : (State.ack s k f).pending = s.pending ∧ (State.ack s k f).sec = s.sec ∧ (State.ack s k f).guard = s.guard ∧ (State.ack s k f).mem = s.mem ∧ (State.ack s k f).stations = s.stations := by
  simp [State.ack]

@[simp] theorem State.modelIn_keep (s : State) (k : Nat) : (State.modelIn s k).pending = s.pending ∧ (State.modelIn s k).sec = s.sec ∧ (State.modelIn s k).guard = s.guard ∧ (State.modelIn s k).mem = s.mem ∧ (State.modelIn s k).stations = s.stations := by
  simp [State.modelIn]

@[simp] theorem State.hashMismatch_keep (s : State) : (State.hashMismatch s).pending = s.pending ∧ (State.hashMismatch s).sec = s.sec ∧ (State.hashMismatch s).guard = s.guard ∧ (State.hashMismatch s).mem = s.mem ∧ (State.hashMismatch s).stations = s.stations := by
  simp [State.hashMismatch]

@[simp] theorem State.activateLoaded_keep (s : State) (imageGood : Bool) : (State.activateLoaded s imageGood).pending = s.pending ∧ (State.activateLoaded s imageGood).sec = s.sec ∧ (State.activateLoaded s imageGood).guard = s.guard ∧ (State.activateLoaded s imageGood).mem = s.mem ∧ (State.activateLoaded s imageGood).stations = s.stations := by
  unfold State.activateLoaded; (repeat' split) <;> simp

@[simp] theorem State.adaptCount_keep (s : State) (fire : Bool) : (State.adaptCount s fire).pending = s.pending ∧ (State.adaptCount s fire).sec = s.sec ∧ (State.adaptCount s fire).guard = s.guard ∧ (State.adaptCount s fire).mem = s.mem ∧ (State.adaptCount s fire).stations = s.stations := by
  simp [State.adaptCount]

@[simp] theorem State.adaptEvent_keep (s : State) (row : Nat) (vals : List Byte) : (State.adaptEvent s row vals).pending = s.pending ∧ (State.adaptEvent s row vals).sec = s.sec ∧ (State.adaptEvent s row vals).guard = s.guard ∧ (State.adaptEvent s row vals).mem = s.mem ∧ (State.adaptEvent s row vals).stations = s.stations := by
  simp [State.adaptEvent]

@[simp] theorem State.adaptFill_keep (s : State) : (State.adaptFill s).pending = s.pending ∧ (State.adaptFill s).sec = s.sec ∧ (State.adaptFill s).guard = s.guard ∧ (State.adaptFill s).mem = s.mem ∧ (State.adaptFill s).stations = s.stations := by
  unfold State.adaptFill; dsimp only; (repeat' split) <;> simp_all

@[simp] theorem State.mapAdapt_keep (s : State) (f : Adapt → Adapt) : (State.mapAdapt s f).pending = s.pending ∧ (State.mapAdapt s f).sec = s.sec ∧ (State.mapAdapt s f).guard = s.guard ∧ (State.mapAdapt s f).mem = s.mem ∧ (State.mapAdapt s f).stations = s.stations := by
  simp [State.mapAdapt]

@[simp] theorem State.adaptRestart_keep (s : State) : (State.adaptRestart s).pending = s.pending ∧ (State.adaptRestart s).sec = s.sec ∧ (State.adaptRestart s).guard = s.guard ∧ (State.adaptRestart s).mem = s.mem ∧ (State.adaptRestart s).stations = s.stations := by
  simp [State.adaptRestart]

@[simp] theorem State.report_keep (s : State) (w : Word) (unit : optParam Nat 255) (vals : optParam (List Byte) List.nil) : (State.report s w unit vals).pending = s.pending ∧ (State.report s w unit vals).sec = s.sec ∧ (State.report s w unit vals).guard = s.guard ∧ (State.report s w unit vals).mem = s.mem ∧ (State.report s w unit vals).stations = s.stations := by
  simp [State.report]

@[simp] theorem State.adaptStop_keep (s : State) : (State.adaptStop s).pending = s.pending ∧ (State.adaptStop s).sec = s.sec ∧ (State.adaptStop s).guard = s.guard ∧ (State.adaptStop s).mem = s.mem := by
  unfold State.adaptStop; (repeat' split) <;> simp

@[simp] theorem State.adaptThresholds_keep (s : State) (acc : Nat) (rej : Nat) : (State.adaptThresholds s acc rej).pending = s.pending ∧ (State.adaptThresholds s acc rej).sec = s.sec ∧ (State.adaptThresholds s acc rej).guard = s.guard ∧ (State.adaptThresholds s acc rej).mem = s.mem ∧ (State.adaptThresholds s acc rej).stations = s.stations := by
  simp [State.adaptThresholds]

@[simp] theorem State.mapCam_keep (s : State) (n : Nat) (f : Cam → Cam) : (State.mapCam s n f).pending = s.pending ∧ (State.mapCam s n f).sec = s.sec ∧ (State.mapCam s n f).guard = s.guard ∧ (State.mapCam s n f).mem = s.mem ∧ (State.mapCam s n f).stations = s.stations := by
  simp [State.mapCam]

@[simp] theorem State.toLane_keep (s : State) (n : Nat) (l : RawLine) : (State.toLane s n l).pending = s.pending ∧ (State.toLane s n l).sec = s.sec ∧ (State.toLane s n l).guard = s.guard ∧ (State.toLane s n l).mem = s.mem ∧ (State.toLane s n l).stations = s.stations := by
  simp [State.toLane]

@[simp] theorem State.camBump_keep (s : State) (n : Nat) (e : Ent) : (State.camBump s n e).pending = s.pending ∧ (State.camBump s n e).sec = s.sec ∧ (State.camBump s n e).guard = s.guard ∧ (State.camBump s n e).mem = s.mem ∧ (State.camBump s n e).stations = s.stations := by
  simp [State.camBump]

@[simp] theorem State.addLine_keep (s : State) (n : Nat) (codes : Option (List Nat)) (raw : Nat) : (State.addLine s n codes raw).pending = s.pending ∧ (State.addLine s n codes raw).sec = s.sec ∧ (State.addLine s n codes raw).guard = s.guard ∧ (State.addLine s n codes raw).mem = s.mem ∧ (State.addLine s n codes raw).stations = s.stations := by
  simp [State.addLine]

@[simp] theorem State.afterConv_keep (s : State) (sid : Nat) (r0 : ConvRun) : (State.afterConv s sid r0).pending = s.pending ∧ (State.afterConv s sid r0).sec = s.sec ∧ (State.afterConv s sid r0).guard = s.guard ∧ (State.afterConv s sid r0).mem = s.mem := by
  simp [State.afterConv]

@[simp] theorem State.dealerWord_keep (s : State) (w : Word) (unit : optParam Nat 255) (vals : optParam (List Byte) List.nil) (rec' : optParam Bool Bool.true) : (State.dealerWord s w unit vals rec').pending = s.pending ∧ (State.dealerWord s w unit vals rec').sec = s.sec ∧ (State.dealerWord s w unit vals rec').guard = s.guard ∧ (State.dealerWord s w unit vals rec').mem = s.mem ∧ (State.dealerWord s w unit vals rec').stations = s.stations := by
  simp [State.dealerWord]

@[simp] theorem State.stall_keep (s : State) (ch : Nat) : (State.stall s ch).pending = s.pending ∧ (State.stall s ch).sec = s.sec ∧ (State.stall s ch).guard = s.guard ∧ (State.stall s ch).mem = s.mem ∧ (State.stall s ch).stations = s.stations := by
  simp [State.stall]

@[simp] theorem State.beltEdge_keep (s : State) (ch : Nat) : (State.beltEdge s ch).pending = s.pending ∧ (State.beltEdge s ch).sec = s.sec ∧ (State.beltEdge s ch).guard = s.guard ∧ (State.beltEdge s ch).mem = s.mem ∧ (State.beltEdge s ch).stations = s.stations := by
  unfold State.beltEdge; (repeat' split) <;> simp

@[simp] theorem State.mapCout_keep (s : State) (n : Nat) (f : Cout → Cout) : (State.mapCout s n f).pending = s.pending ∧ (State.mapCout s n f).sec = s.sec ∧ (State.mapCout s n f).guard = s.guard ∧ (State.mapCout s n f).mem = s.mem ∧ (State.mapCout s n f).stations = s.stations := by
  simp [State.mapCout]

@[simp] theorem State.reportEvery_keep (s : State) (period : Nat) (w : Word) (unit : optParam Nat 255) (vals : optParam (List Byte) List.nil) (key : optParam Nat unit) : (State.reportEvery s period w unit vals key).pending = s.pending ∧ (State.reportEvery s period w unit vals key).sec = s.sec ∧ (State.reportEvery s period w unit vals key).guard = s.guard ∧ (State.reportEvery s period w unit vals key).mem = s.mem ∧ (State.reportEvery s period w unit vals key).stations = s.stations := by
  unfold State.reportEvery; dsimp only; (repeat' split) <;> simp_all

@[simp] theorem State.coutDrop_keep (s : State) (n : Nat) (src : Nat) : (State.coutDrop s n src).pending = s.pending ∧ (State.coutDrop s n src).sec = s.sec ∧ (State.coutDrop s n src).guard = s.guard ∧ (State.coutDrop s n src).mem = s.mem ∧ (State.coutDrop s n src).stations = s.stations := by
  simp [State.coutDrop]

@[simp] theorem State.ageCrops_keep (s : State) (n : Nat) : (State.ageCrops s n).pending = s.pending ∧ (State.ageCrops s n).sec = s.sec ∧ (State.ageCrops s n).guard = s.guard ∧ (State.ageCrops s n).mem = s.mem ∧ (State.ageCrops s n).stations = s.stations := by
  simp [State.ageCrops]

@[simp] theorem State.preparePlan_keep (s : State) (c : PlanCopy) : (State.preparePlan s c).pending = s.pending ∧ (State.preparePlan s c).sec = s.sec ∧ (State.preparePlan s c).guard = s.guard ∧ (State.preparePlan s c).mem = s.mem ∧ (State.preparePlan s c).stations = s.stations := by
  simp [State.preparePlan]

@[simp] theorem State.mapIsland_keep (s : State) (i : Nat) (f : Island → Island) : (State.mapIsland s i f).pending = s.pending ∧ (State.mapIsland s i f).sec = s.sec ∧ (State.mapIsland s i f).guard = s.guard ∧ (State.mapIsland s i f).mem = s.mem ∧ (State.mapIsland s i f).stations = s.stations := by
  simp [State.mapIsland]

@[simp] theorem State.margins_keep (s : State) (i : Nat) (c : PlanCopy) : (State.margins s i c).pending = s.pending ∧ (State.margins s i c).sec = s.sec ∧ (State.margins s i c).guard = s.guard ∧ (State.margins s i c).mem = s.mem ∧ (State.margins s i c).stations = s.stations := by
  unfold State.margins; (repeat' split) <;> simp

@[simp] theorem State.ageMeasure_keep (s : State) (i : Nat) (ref : Nat) (stressed : Nat) (slack : Int) : (State.ageMeasure s i ref stressed slack).pending = s.pending ∧ (State.ageMeasure s i ref stressed slack).sec = s.sec ∧ (State.ageMeasure s i ref stressed slack).guard = s.guard ∧ (State.ageMeasure s i ref stressed slack).mem = s.mem ∧ (State.ageMeasure s i ref stressed slack).stations = s.stations := by
  simp [State.ageMeasure]

@[simp] theorem State.setLink_keep (s : State) (k : Nat) (l : BitVec 64) : (State.setLink s k l).pending = s.pending ∧ (State.setLink s k l).sec = s.sec ∧ (State.setLink s k l).guard = s.guard ∧ (State.setLink s k l).mem = s.mem ∧ (State.setLink s k l).stations = s.stations := by
  simp [State.setLink]

@[simp] theorem State.deckWatch_keep (s : State) : (State.deckWatch s).pending = s.pending ∧ (State.deckWatch s).sec = s.sec ∧ (State.deckWatch s).guard = s.guard ∧ (State.deckWatch s).mem = s.mem ∧ (State.deckWatch s).stations = s.stations := by
  simp [State.deckWatch]

@[simp] theorem State.giveCells_keep (s : State) (cells : List Nat) : (State.giveCells s cells).pending = s.pending ∧ (State.giveCells s cells).sec = s.sec ∧ (State.giveCells s cells).guard = s.guard ∧ (State.giveCells s cells).mem = s.mem ∧ (State.giveCells s cells).stations = s.stations := by
  simp [State.giveCells]

@[simp] theorem State.freePacket_keep (s : State) (q : Nat) (cells : List Nat) : (State.freePacket s q cells).pending = s.pending ∧ (State.freePacket s q cells).sec = s.sec ∧ (State.freePacket s q cells).guard = s.guard ∧ (State.freePacket s q cells).mem = s.mem ∧ (State.freePacket s q cells).stations = s.stations := by
  simp [State.freePacket]

@[simp] theorem State.mapQueue_keep (s : State) (q : Nat) (f : Queue → Queue) : (State.mapQueue s q f).pending = s.pending ∧ (State.mapQueue s q f).sec = s.sec ∧ (State.mapQueue s q f).guard = s.guard ∧ (State.mapQueue s q f).mem = s.mem ∧ (State.mapQueue s q f).stations = s.stations := by
  simp [State.mapQueue]

@[simp] theorem State.tryExchange_keep (s : State) (q : Nat) : (State.tryExchange s q).pending = s.pending ∧ (State.tryExchange s q).sec = s.sec ∧ (State.tryExchange s q).guard = s.guard ∧ (State.tryExchange s q).mem = s.mem ∧ (State.tryExchange s q).stations = s.stations := by
  simp [State.tryExchange]

@[simp] theorem State.takeRecord_keep (s : State) (q : Nat) : (State.takeRecord s q).2.2.pending = s.pending ∧ (State.takeRecord s q).2.2.sec = s.sec ∧ (State.takeRecord s q).2.2.guard = s.guard ∧ (State.takeRecord s q).2.2.mem = s.mem ∧ (State.takeRecord s q).2.2.stations = s.stations := by
  unfold State.takeRecord; (repeat' split) <;> simp

@[simp] theorem State.dropMosaic_keep (s : State) (n : Nat) (q : Nat) : (State.dropMosaic s n q).pending = s.pending ∧ (State.dropMosaic s n q).sec = s.sec ∧ (State.dropMosaic s n q).guard = s.guard ∧ (State.dropMosaic s n q).mem = s.mem ∧ (State.dropMosaic s n q).stations = s.stations := by
  simp [State.dropMosaic]

@[simp] theorem State.ageMosaics_keep (s : State) (n : Nat) (q : Nat) (x3 : Nat) : (State.ageMosaics s n q x3).pending = s.pending ∧ (State.ageMosaics s n q x3).sec = s.sec ∧ (State.ageMosaics s n q x3).guard = s.guard ∧ (State.ageMosaics s n q x3).mem = s.mem ∧ (State.ageMosaics s n q x3).stations = s.stations := by
  fun_induction State.ageMosaics s n q x3 <;> simp_all

@[simp] theorem State.mapLane_keep (s : State) (n : Nat) (f : Lane → Lane) : (State.mapLane s n f).pending = s.pending ∧ (State.mapLane s n f).sec = s.sec ∧ (State.mapLane s n f).guard = s.guard ∧ (State.mapLane s n f).mem = s.mem ∧ (State.mapLane s n f).stations = s.stations := by
  simp [State.mapLane]

@[simp] theorem State.alignFail_keep (s : State) (k : Nat) : (State.alignFail s k).pending = s.pending ∧ (State.alignFail s k).sec = s.sec ∧ (State.alignFail s k).guard = s.guard ∧ (State.alignFail s k).mem = s.mem ∧ (State.alignFail s k).stations = s.stations := by
  simp [State.alignFail]

@[simp] theorem State.mapClk_keep (s : State) (f : Clock → Clock) : (State.mapClk s f).pending = s.pending ∧ (State.mapClk s f).sec = s.sec ∧ (State.mapClk s f).guard = s.guard ∧ (State.mapClk s f).mem = s.mem ∧ (State.mapClk s f).stations = s.stations := by
  simp [State.mapClk]

@[simp] theorem State.setBlob_keep (s : State) (e : Ent) (j : Nat) (k : Nat) (v : List Byte) : (State.setBlob s e j k v).pending = s.pending ∧ (State.setBlob s e j k v).sec = s.sec ∧ (State.setBlob s e j k v).guard = s.guard ∧ (State.setBlob s e j k v).mem = s.mem ∧ (State.setBlob s e j k v).stations = s.stations := by
  simp [State.setBlob]

@[simp] theorem State.chooseMaster_keep (s : State) : (State.chooseMaster s).pending = s.pending ∧ (State.chooseMaster s).sec = s.sec ∧ (State.chooseMaster s).guard = s.guard ∧ (State.chooseMaster s).mem = s.mem ∧ (State.chooseMaster s).stations = s.stations := by
  unfold State.chooseMaster; (repeat' split) <;> simp

@[simp] theorem State.announce_keep (s : State) (port : Nat) (a : Announce) : (State.announce s port a).pending = s.pending ∧ (State.announce s port a).sec = s.sec ∧ (State.announce s port a).guard = s.guard ∧ (State.announce s port a).mem = s.mem ∧ (State.announce s port a).stations = s.stations := by
  simp [State.announce]

@[simp] theorem State.answer_keep (s : State) (w : Word) : (State.answer s w).pending = s.pending ∧ (State.answer s w).sec = s.sec ∧ (State.answer s w).guard = s.guard ∧ (State.answer s w).mem = s.mem ∧ (State.answer s w).stations = s.stations := by
  simp [State.answer]

@[simp] theorem State.bridgeOut_keep (s : State) (f : Frame) : (State.bridgeOut s f).2.pending = s.pending ∧ (State.bridgeOut s f).2.sec = s.sec ∧ (State.bridgeOut s f).2.guard = s.guard ∧ (State.bridgeOut s f).2.mem = s.mem ∧ (State.bridgeOut s f).2.stations = s.stations := by
  unfold State.bridgeOut; (repeat' split) <;> simp

@[simp] theorem State.queueFrame_keep (s : State) (k : Nat) (src : Nat) (f : Frame) : (State.queueFrame s k src f).pending = s.pending ∧ (State.queueFrame s k src f).sec = s.sec ∧ (State.queueFrame s k src f).guard = s.guard ∧ (State.queueFrame s k src f).mem = s.mem ∧ (State.queueFrame s k src f).stations = s.stations := by
  simp [State.queueFrame]

@[simp] theorem State.sendToward_keep (s : State) (m : Nat) (src : Nat) (f : Frame) : (State.sendToward s m src f).2.pending = s.pending ∧ (State.sendToward s m src f).2.sec = s.sec ∧ (State.sendToward s m src f).2.guard = s.guard ∧ (State.sendToward s m src f).2.mem = s.mem ∧ (State.sendToward s m src f).2.stations = s.stations := by
  unfold State.sendToward; (repeat' split) <;> simp

@[simp] theorem State.sendFrame_keep (s : State) (f : Frame) (src : optParam Nat ownFrames) : (State.sendFrame s f src).2.pending = s.pending ∧ (State.sendFrame s f src).2.sec = s.sec ∧ (State.sendFrame s f src).2.guard = s.guard ∧ (State.sendFrame s f src).2.mem = s.mem ∧ (State.sendFrame s f src).2.stations = s.stations := by
  unfold State.sendFrame; (repeat' split) <;> simp

@[simp] theorem State.answerFrame_keep (s : State) (f : Frame) (kind : Nat) (w : Word) (payload : List Byte) : (State.answerFrame s f kind w payload).pending = s.pending ∧ (State.answerFrame s f kind w payload).sec = s.sec ∧ (State.answerFrame s f kind w payload).guard = s.guard ∧ (State.answerFrame s f kind w payload).mem = s.mem ∧ (State.answerFrame s f kind w payload).stations = s.stations := by
  simp [State.answerFrame]

@[simp] theorem State.complete_keep (s : State) (sid : Nat) (w : Option Word) : (State.complete s sid w).pending = s.pending ∧ (State.complete s sid w).sec = s.sec ∧ (State.complete s sid w).guard = s.guard ∧ (State.complete s sid w).mem = s.mem ∧ (State.complete s sid w).stations = s.stations := by
  unfold State.complete; (repeat' split) <;> simp

@[simp] theorem State.setPf_keep (s : State) (i : Nat) (p : Prefetcher) : (State.setPf s i p).pending = s.pending ∧ (State.setPf s i p).sec = s.sec ∧ (State.setPf s i p).guard = s.guard ∧ (State.setPf s i p).stations = s.stations := by
  simp [State.setPf]

@[simp] theorem State.assignPf_keep (s : State) (sid : Nat) (base : Nat) (stride : Int) (stop : Option Nat) : (State.assignPf s sid base stride stop).pending = s.pending ∧ (State.assignPf s sid base stride stop).sec = s.sec ∧ (State.assignPf s sid base stride stop).guard = s.guard ∧ (State.assignPf s sid base stride stop).stations = s.stations := by
  unfold State.assignPf; (repeat' split) <;> simp

@[simp] theorem State.detect_keep (s : State) (sid : Nat) (off : Nat) : (State.detect s sid off).pending = s.pending ∧ (State.detect s sid off).sec = s.sec ∧ (State.detect s sid off).guard = s.guard ∧ (State.detect s sid off).stations = s.stations := by
  simp [State.detect]

@[simp] theorem State.cacheFill_keep (s : State) (trump : Bool) (line : Nat) (dirty : Bool) (lru : Bool) (ahead : Bool) : (State.cacheFill s trump line dirty lru ahead).pending = s.pending ∧ (State.cacheFill s trump line dirty lru ahead).sec = s.sec ∧ (State.cacheFill s trump line dirty lru ahead).guard = s.guard ∧ (State.cacheFill s trump line dirty lru ahead).stations = s.stations := by
  unfold State.cacheFill; (repeat' split) <;> simp

@[simp] theorem State.cacheUse_keep (s : State) (k : Nat) (write : Bool) : (State.cacheUse s k write).pending = s.pending ∧ (State.cacheUse s k write).sec = s.sec ∧ (State.cacheUse s k write).guard = s.guard ∧ (State.cacheUse s k write).stations = s.stations := by
  unfold State.cacheUse; (repeat' split) <;> simp

@[simp] theorem State.cacheLine_keep (s : State) (trump : Bool) (write : Bool) (hint : Nat) (line : Nat) : (State.cacheLine s trump write hint line).pending = s.pending ∧ (State.cacheLine s trump write hint line).sec = s.sec ∧ (State.cacheLine s trump write hint line).guard = s.guard ∧ (State.cacheLine s trump write hint line).stations = s.stations := by
  unfold State.cacheLine; (repeat' split) <;> simp

@[simp] theorem State.cacheAccessAs_keep (s : State) (trump : Bool) (write : Bool) (hint : Nat) (off : Nat) (n : Nat) : (State.cacheAccessAs s trump write hint off n).pending = s.pending ∧ (State.cacheAccessAs s trump write hint off n).sec = s.sec ∧ (State.cacheAccessAs s trump write hint off n).guard = s.guard ∧ (State.cacheAccessAs s trump write hint off n).stations = s.stations := by
  simp [State.cacheAccessAs]

@[simp] theorem State.cacheAccess_keep (s : State) (sid : Nat) (write : Bool) (hint : Nat) (off : Nat) (n : Nat) : (State.cacheAccess s sid write hint off n).pending = s.pending ∧ (State.cacheAccess s sid write hint off n).sec = s.sec ∧ (State.cacheAccess s sid write hint off n).guard = s.guard ∧ (State.cacheAccess s sid write hint off n).stations = s.stations := by
  simp [State.cacheAccess]

@[simp] theorem State.passCache_keep (s : State) (sid : Nat) (write : Bool) (hint : Nat) (a : Nat) (n : Nat) : (State.passCache s sid write hint a n).pending = s.pending ∧ (State.passCache s sid write hint a n).sec = s.sec ∧ (State.passCache s sid write hint a n).guard = s.guard ∧ (State.passCache s sid write hint a n).stations = s.stations := by
  unfold State.passCache; (repeat' split) <;> simp

@[simp] theorem State.memWrite_keep (s : State) (sid : Nat) (a : Nat) (l : List Byte) (hint : optParam Nat 0) : (State.memWrite s sid a l hint).pending = s.pending ∧ (State.memWrite s sid a l hint).sec = s.sec ∧ (State.memWrite s sid a l hint).guard = s.guard ∧ (State.memWrite s sid a l hint).stations = s.stations := by
  simp [State.memWrite]

@[simp] theorem State.returnPage_keep (s : State) (sid : Nat) (p : Nat) : (State.returnPage s sid p).pending = s.pending ∧ (State.returnPage s sid p).sec = s.sec ∧ (State.returnPage s sid p).guard = s.guard ∧ (State.returnPage s sid p).stations = s.stations := by
  simp [State.returnPage]

@[simp] theorem State.setRef_keep (s : State) (sid : Nat) (p : Nat) (v : Nat) : (State.setRef s sid p v).pending = s.pending ∧ (State.setRef s sid p v).sec = s.sec ∧ (State.setRef s sid p v).guard = s.guard ∧ (State.setRef s sid p v).stations = s.stations := by
  simp [State.setRef]

@[simp] theorem State.mapAtu_keep (s : State) (sid : Nat) (f : Atu → Atu) : (State.mapAtu s sid f).pending = s.pending ∧ (State.mapAtu s sid f).sec = s.sec ∧ (State.mapAtu s sid f).guard = s.guard ∧ (State.mapAtu s sid f).mem = s.mem ∧ (State.mapAtu s sid f).stations = s.stations := by
  simp [State.mapAtu]

@[simp] theorem State.labForget_keep (s : State) (p : Nat → Bool) : (State.labForget s p).pending = s.pending ∧ (State.labForget s p).sec = s.sec ∧ (State.labForget s p).guard = s.guard ∧ (State.labForget s p).mem = s.mem ∧ (State.labForget s p).stations = s.stations := by
  simp [State.labForget]

@[simp] theorem State.setPte_keep (s : State) (sid : Nat) (l : KvList) (i : Nat) (w : Nat) : (State.setPte s sid l i w).pending = s.pending ∧ (State.setPte s sid l i w).sec = s.sec ∧ (State.setPte s sid l i w).guard = s.guard ∧ (State.setPte s sid l i w).stations = s.stations := by
  simp [State.setPte]

@[simp] theorem State.atuReport_keep (s : State) (sid : Nat) (code : Nat) : (State.atuReport s sid code).pending = s.pending ∧ (State.atuReport s sid code).sec = s.sec ∧ (State.atuReport s sid code).guard = s.guard ∧ (State.atuReport s sid code).mem = s.mem ∧ (State.atuReport s sid code).stations = s.stations := by
  simp [State.atuReport]

@[simp] theorem State.mapRun_keep (s : State) (sid : Nat) (f : Running → Running) : (State.mapRun s sid f).pending = s.pending ∧ (State.mapRun s sid f).sec = s.sec ∧ (State.mapRun s sid f).guard = s.guard ∧ (State.mapRun s sid f).mem = s.mem := by
  simp [State.mapRun]

@[simp] theorem State.uncorrectable_keep (s : State) (sid : Nat) (a : Nat) : (State.uncorrectable s sid a).pending = s.pending ∧ (State.uncorrectable s sid a).sec = s.sec ∧ (State.uncorrectable s sid a).guard = s.guard ∧ (State.uncorrectable s sid a).mem = s.mem ∧ (State.uncorrectable s sid a).stations = s.stations := by
  unfold State.uncorrectable; (repeat' split) <;> simp

@[simp] theorem State.memRead_keep (s : State) (sid : Nat) (a : Nat) (n : Nat) (hint : optParam Nat 0) : (State.memRead s sid a n hint).2.2.pending = s.pending ∧ (State.memRead s sid a n hint).2.2.sec = s.sec ∧ (State.memRead s sid a n hint).2.2.guard = s.guard ∧ (State.memRead s sid a n hint).2.2.stations = s.stations := by
  simp [State.memRead]

@[simp] theorem State.kvRead_keep (s : State) (sid : Nat) (a : Nat) (n : Nat) : (State.kvRead s sid a n).2.pending = s.pending ∧ (State.kvRead s sid a n).2.sec = s.sec ∧ (State.kvRead s sid a n).2.guard = s.guard := by
  simp [State.kvRead]

@[simp] theorem State.kvNum_keep (s : State) (sid : Nat) (a : Nat) (n : Nat) : (State.kvNum s sid a n).2.pending = s.pending ∧ (State.kvNum s sid a n).2.sec = s.sec ∧ (State.kvNum s sid a n).2.guard = s.guard := by
  simp [State.kvNum]

@[simp] theorem State.refCount_keep (s : State) (sid : Nat) (p : Nat) : (State.refCount s sid p).2.pending = s.pending ∧ (State.refCount s sid p).2.sec = s.sec ∧ (State.refCount s sid p).2.guard = s.guard := by
  simp [State.refCount]

@[simp] theorem State.decRef_keep (s : State) (sid : Nat) (p : Nat) : (State.decRef s sid p).2.pending = s.pending ∧ (State.decRef s sid p).2.sec = s.sec ∧ (State.decRef s sid p).2.guard = s.guard := by
  unfold State.decRef; dsimp only; (repeat' split) <;> simp_all

@[simp] theorem State.copyPage_keep (s : State) (sid : Nat) (dim : Nat) (f : Nat) (src : Nat) (dst : Nat) (fill : Nat) : (State.copyPage s sid dim f src dst fill).pending = s.pending ∧ (State.copyPage s sid dim f src dst fill).sec = s.sec ∧ (State.copyPage s sid dim f src dst fill).guard = s.guard := by
  simp [State.copyPage]

@[simp] theorem State.mapAttn_keep (s : State) (sid : Nat) (f : AttnRun → AttnRun) : (State.mapAttn s sid f).pending = s.pending ∧ (State.mapAttn s sid f).sec = s.sec ∧ (State.mapAttn s sid f).guard = s.guard ∧ (State.mapAttn s sid f).mem = s.mem := by
  simp [State.mapAttn]

@[simp] theorem State.setHeader_keep (s : State) (sid : Nat) (l : KvList) (w : Nat) : (State.setHeader s sid l w).pending = s.pending ∧ (State.setHeader s sid l w).sec = s.sec ∧ (State.setHeader s sid l w).guard = s.guard ∧ (State.setHeader s sid l w).stations = s.stations := by
  simp [State.setHeader]

@[simp] theorem State.unlockUnit_keep (s : State) (sid : Nat) : (State.unlockUnit s sid).pending = s.pending ∧ (State.unlockUnit s sid).sec = s.sec ∧ (State.unlockUnit s sid).guard = s.guard ∧ (State.unlockUnit s sid).mem = s.mem ∧ (State.unlockUnit s sid).stations = s.stations := by
  simp [State.unlockUnit]

@[simp] theorem State.wakeArray_keep (s : State) (n : Nat) : (State.wakeArray s n).pending = s.pending ∧ (State.wakeArray s n).sec = s.sec ∧ (State.wakeArray s n).guard = s.guard ∧ (State.wakeArray s n).mem = s.mem ∧ (State.wakeArray s n).stations = s.stations := by
  simp [State.wakeArray]

@[simp] theorem State.mapStream_keep (s : State) (id : Nat) (f : Stream → Stream) : (State.mapStream s id f).pending = s.pending ∧ (State.mapStream s id f).sec = s.sec ∧ (State.mapStream s id f).guard = s.guard ∧ (State.mapStream s id f).mem = s.mem ∧ (State.mapStream s id f).stations = s.stations := by
  unfold State.mapStream; (repeat' split) <;> simp

@[simp] theorem State.giveCredits_keep (s : State) (id : Nat) (n : Nat) : (State.giveCredits s id n).pending = s.pending ∧ (State.giveCredits s id n).sec = s.sec ∧ (State.giveCredits s id n).guard = s.guard ∧ (State.giveCredits s id n).mem = s.mem ∧ (State.giveCredits s id n).stations = s.stations := by
  simp [State.giveCredits]

@[simp] theorem State.giveCredit_keep (s : State) (id : Nat) : (State.giveCredit s id).pending = s.pending ∧ (State.giveCredit s id).sec = s.sec ∧ (State.giveCredit s id).guard = s.guard ∧ (State.giveCredit s id).mem = s.mem ∧ (State.giveCredit s id).stations = s.stations := by
  simp [State.giveCredit]

@[simp] theorem State.consume_keep (s : State) (sid : Nat) (port : Nat) : (State.consume s sid port).2.pending = s.pending ∧ (State.consume s sid port).2.sec = s.sec ∧ (State.consume s sid port).2.guard = s.guard ∧ (State.consume s sid port).2.mem = s.mem := by
  unfold State.consume; dsimp only; (repeat' split) <;> simp_all

@[simp] theorem State.consumeAll_keep (s : State) (sid : Nat) (r0 : Running) (x3 : List Nat) : (State.consumeAll s sid r0 x3).2.pending = s.pending ∧ (State.consumeAll s sid r0 x3).2.sec = s.sec ∧ (State.consumeAll s sid r0 x3).2.guard = s.guard ∧ (State.consumeAll s sid r0 x3).2.mem = s.mem := by
  fun_induction State.consumeAll s sid r0 x3 <;> ((try simp only [Prod.ext_iff] at *) <;> (try casesm* _ ∧ _) <;> (try subst_vars) <;> (first | (simp_all; done) | (simp_all +zetaDelta; done)))

@[simp] theorem State.startWload_keep (s : State) (sid : Nat) : (State.startWload s sid).pending = s.pending ∧ (State.startWload s sid).sec = s.sec ∧ (State.startWload s sid).guard = s.guard ∧ (State.startWload s sid).mem = s.mem := by
  unfold State.startWload; dsimp only; (repeat' split) <;> simp_all

@[simp] theorem State.startBias_keep (s : State) (sid : Nat) : (State.startBias s sid).pending = s.pending ∧ (State.startBias s sid).sec = s.sec ∧ (State.startBias s sid).guard = s.guard ∧ (State.startBias s sid).mem = s.mem := by
  unfold State.startBias; dsimp only; (repeat' split) <;> simp_all

@[simp] theorem State.startMult_keep (s : State) (sid : Nat) : (State.startMult s sid).pending = s.pending ∧ (State.startMult s sid).sec = s.sec ∧ (State.startMult s sid).guard = s.guard ∧ (State.startMult s sid).mem = s.mem := by
  unfold State.startMult; dsimp only; (repeat' split) <;> simp_all

@[simp] theorem State.startUnits_keep (s : State) (sid : Nat) : (State.startUnits s sid).pending = s.pending ∧ (State.startUnits s sid).sec = s.sec ∧ (State.startUnits s sid).guard = s.guard ∧ (State.startUnits s sid).mem = s.mem := by
  simp [State.startUnits]

@[simp] theorem State.finishStep_keep (s : State) (sid : Nat) (r0 : Running) : (State.finishStep s sid r0).pending = s.pending ∧ (State.finishStep s sid r0).sec = s.sec ∧ (State.finishStep s sid r0).guard = s.guard ∧ (State.finishStep s sid r0).mem = s.mem := by
  simp [State.finishStep]

@[simp] theorem State.writeRows_keep (s : State) (sid : Nat) (f : Nat) (mx : Bool) (stoch : Bool) (zc : Bool) (rows : List (List Num)) (cols : Nat) : (State.writeRows s sid f mx stoch zc rows cols).2.pending = s.pending ∧ (State.writeRows s sid f mx stoch zc rows cols).2.sec = s.sec ∧ (State.writeRows s sid f mx stoch zc rows cols).2.guard = s.guard ∧ (State.writeRows s sid f mx stoch zc rows cols).2.mem = s.mem := by
  simp [State.writeRows]

@[simp] theorem State.attnOuts_keep (s : State) (sid : Nat) (g : AttnArgs) (bad : Bool) (rows : List (Prod (List Nat) Bool)) (x5 : Nat) (x6 : List AttnTile) : (State.attnOuts s sid g bad rows x5 x6).2.pending = s.pending ∧ (State.attnOuts s sid g bad rows x5 x6).2.sec = s.sec ∧ (State.attnOuts s sid g bad rows x5 x6).2.guard = s.guard ∧ (State.attnOuts s sid g bad rows x5 x6).2.mem = s.mem := by
  fun_induction State.attnOuts s sid g bad rows x5 x6 <;> ((try simp only [Prod.ext_iff] at *) <;> (try casesm* _ ∧ _) <;> (try subst_vars) <;> (first | (simp_all; done) | (simp_all +zetaDelta; done)))

@[simp] theorem State.attnEnd_keep (s : State) (sid : Nat) (g : AttnArgs) : (State.attnEnd s sid g).pending = s.pending ∧ (State.attnEnd s sid g).sec = s.sec ∧ (State.attnEnd s sid g).guard = s.guard ∧ (State.attnEnd s sid g).mem = s.mem := by
  unfold State.attnEnd; dsimp only; (repeat' split) <;> simp_all

@[simp] theorem State.entryDone_keep (s : State) (sid : Nat) (g : AttnArgs) (rows : List (Prod (List Nat) Bool)) : (State.entryDone s sid g rows).pending = s.pending ∧ (State.entryDone s sid g rows).sec = s.sec ∧ (State.entryDone s sid g rows).guard = s.guard ∧ (State.entryDone s sid g rows).mem = s.mem := by
  simp [State.entryDone]

@[simp] theorem State.entryFail_keep (s : State) (sid : Nat) (g : AttnArgs) (code : Nat) (seq : Nat) (q : Nat) : (State.entryFail s sid g code seq q).pending = s.pending ∧ (State.entryFail s sid g code seq q).sec = s.sec ∧ (State.entryFail s sid g code seq q).guard = s.guard := by
  simp [State.entryFail]

@[simp] theorem State.codeRows_keep (s : State) (sid : Nat) (f : Nat) (dim : Nat) (a : Nat) (x5 : Nat) : (State.codeRows s sid f dim a x5).2.pending = s.pending ∧ (State.codeRows s sid f dim a x5).2.sec = s.sec ∧ (State.codeRows s sid f dim a x5).2.guard = s.guard := by
  fun_induction State.codeRows s sid f dim a x5 <;> ((try simp only [Prod.ext_iff] at *) <;> (try casesm* _ ∧ _) <;> (try subst_vars) <;> (first | (simp_all; done) | (simp_all +zetaDelta; done)))

@[simp] theorem State.pageRows_keep (s : State) (sid : Nat) (dim : Nat) (seen : Nat) (p : KvPage) : (State.pageRows s sid dim seen p).2.pending = s.pending ∧ (State.pageRows s sid dim seen p).2.sec = s.sec ∧ (State.pageRows s sid dim seen p).2.guard = s.guard := by
  simp [State.pageRows]

@[simp] theorem State.walkTokens_keep (s : State) (sid : Nat) (g : AttnArgs) (seen : Nat) (x4 : List KvPage) : (State.walkTokens s sid g seen x4).2.pending = s.pending ∧ (State.walkTokens s sid g seen x4).2.sec = s.sec ∧ (State.walkTokens s sid g seen x4).2.guard = s.guard := by
  fun_induction State.walkTokens s sid g seen x4 <;> ((try simp only [Prod.ext_iff] at *) <;> (try casesm* _ ∧ _) <;> (try subst_vars) <;> (first | (simp_all; done) | (simp_all +zetaDelta; done)))

@[simp] theorem State.labLook_keep (s : State) (sid : Nat) (l : KvList) (i : Nat) : (State.labLook s sid l i).2.pending = s.pending ∧ (State.labLook s sid l i).2.sec = s.sec ∧ (State.labLook s sid l i).2.guard = s.guard := by
  unfold State.labLook; dsimp only; (repeat' split) <;> simp_all

@[simp] theorem State.seenPages_keep (s : State) (sid : Nat) (l : KvList) (seen : Nat) (i : Nat) (first : Nat) (x6 : Nat) : (State.seenPages s sid l seen i first x6).2.pending = s.pending ∧ (State.seenPages s sid l seen i first x6).2.sec = s.sec ∧ (State.seenPages s sid l seen i first x6).2.guard = s.guard := by
  fun_induction State.seenPages s sid l seen i first x6 <;> ((try simp only [Prod.ext_iff] at *) <;> (try casesm* _ ∧ _) <;> (try subst_vars) <;> (first | (simp_all; done) | (simp_all +zetaDelta; done)))

@[simp] theorem State.walkRow_keep (s : State) (sid : Nat) (g : AttnArgs) (l : KvList) (seen : Nat) (sel : Option (List KvPage)) (q : List Nat) : (State.walkRow s sid g l seen sel q).2.pending = s.pending ∧ (State.walkRow s sid g l seen sel q).2.sec = s.sec ∧ (State.walkRow s sid g l seen sel q).2.guard = s.guard := by
  unfold State.walkRow; dsimp only; (repeat' split) <;> simp_all

@[simp] theorem State.headRows_keep (s : State) (sid : Nat) (g : AttnArgs) (l : KvList) (seen : Nat) (sel : Option (List KvPage)) (x6 : List (List Nat)) : (State.headRows s sid g l seen sel x6).2.pending = s.pending ∧ (State.headRows s sid g l seen sel x6).2.sec = s.sec ∧ (State.headRows s sid g l seen sel x6).2.guard = s.guard := by
  fun_induction State.headRows s sid g l seen sel x6 <;> ((try simp only [Prod.ext_iff] at *) <;> (try casesm* _ ∧ _) <;> (try subst_vars) <;> (first | (simp_all; done) | (simp_all +zetaDelta; done)))

@[simp] theorem State.summaries_keep (s : State) (sid : Nat) (dim : Nat) (x3 : List KvPage) : (State.summaries s sid dim x3).2.pending = s.pending ∧ (State.summaries s sid dim x3).2.sec = s.sec ∧ (State.summaries s sid dim x3).2.guard = s.guard := by
  fun_induction State.summaries s sid dim x3 <;> ((try simp only [Prod.ext_iff] at *) <;> (try casesm* _ ∧ _) <;> (try subst_vars) <;> (first | (simp_all; done) | (simp_all +zetaDelta; done)))

@[simp] theorem State.coarsePages_keep (s : State) (sid : Nat) (g : AttnArgs) (heads : List (List Nat)) (seen : Nat) (ps : List KvPage) : (State.coarsePages s sid g heads seen ps).2.pending = s.pending ∧ (State.coarsePages s sid g heads seen ps).2.sec = s.sec ∧ (State.coarsePages s sid g heads seen ps).2.guard = s.guard := by
  simp [State.coarsePages]

@[simp] theorem State.tokenPages_keep (s : State) (sid : Nat) (g : AttnArgs) (l : KvList) (seen : Nat) (heads : List (List Nat)) : (State.tokenPages s sid g l seen heads).2.pending = s.pending ∧ (State.tokenPages s sid g l seen heads).2.sec = s.sec ∧ (State.tokenPages s sid g l seen heads).2.guard = s.guard := by
  unfold State.tokenPages; (repeat' split) <;> ((try simp only [Prod.ext_iff] at *) <;> (try casesm* _ ∧ _) <;> (try subst_vars) <;> (first | (simp_all; done) | (simp_all +zetaDelta; done)))

@[simp] theorem State.tokenRows_keep (s : State) (sid : Nat) (g : AttnArgs) (l : KvList) (q : Nat) (i : Nat) (x6 : Nat) : (State.tokenRows s sid g l q i x6).2.pending = s.pending ∧ (State.tokenRows s sid g l q i x6).2.sec = s.sec ∧ (State.tokenRows s sid g l q i x6).2.guard = s.guard := by
  fun_induction State.tokenRows s sid g l q i x6 <;> ((try simp only [Prod.ext_iff] at *) <;> (try casesm* _ ∧ _) <;> (try subst_vars) <;> (first | (simp_all; done) | (simp_all +zetaDelta; done)))

@[simp] theorem State.entryRows_keep (s : State) (sid : Nat) (g : AttnArgs) (l : KvList) (q : Nat) : (State.entryRows s sid g l q).pending = s.pending ∧ (State.entryRows s sid g l q).sec = s.sec ∧ (State.entryRows s sid g l q).guard = s.guard := by
  unfold State.entryRows; (repeat' split) <;> ((try simp only [Prod.ext_iff] at *) <;> (try casesm* _ ∧ _) <;> (try subst_vars) <;> (first | (simp_all; done) | (simp_all +zetaDelta; done)))

set_option maxRecDepth 4000 in
@[simp] theorem State.writeSummary_keep (s : State) (sid : Nat) (dim : Nat) (f : Nat) (page : Nat) : (State.writeSummary s sid dim f page).pending = s.pending ∧ (State.writeSummary s sid dim f page).sec = s.sec ∧ (State.writeSummary s sid dim f page).guard = s.guard := by
  simp [State.writeSummary]

@[simp] theorem State.writeToken_keep (s : State) (sid : Nat) (g : AttnArgs) (f : Nat) (page : Nat) (n : Nat) (k : List Nat) (v : List Nat) : (State.writeToken s sid g f page n k v).pending = s.pending ∧ (State.writeToken s sid g f page n k v).sec = s.sec ∧ (State.writeToken s sid g f page n k v).guard = s.guard ∧ (State.writeToken s sid g f page n k v).stations = s.stations := by
  simp [State.writeToken]

@[simp] theorem State.appendTokens_keep (s : State) (sid : Nat) (g : AttnArgs) (l : KvList) (cur : Option (Prod Nat (Prod Nat (Prod Nat Nat)))) (pages : List Nat) (x6 : List (Prod (List Nat) (List Nat))) : (State.appendTokens s sid g l cur pages x6).2.pending = s.pending ∧ (State.appendTokens s sid g l cur pages x6).2.sec = s.sec ∧ (State.appendTokens s sid g l cur pages x6).2.guard = s.guard := by
  fun_induction State.appendTokens s sid g l cur pages x6 <;> ((try simp only [Prod.ext_iff] at *) <;> (try casesm* _ ∧ _) <;> (try subst_vars) <;> (first | (simp_all; done) | (simp_all +zetaDelta; done)))

@[simp] theorem State.appendRows_keep (s : State) (sid : Nat) (g : AttnArgs) (l : KvList) (q : Nat) (cur : Option (Prod Nat (Prod Nat (Prod Nat Nat)))) (pages : List Nat) : (State.appendRows s sid g l q cur pages).pending = s.pending ∧ (State.appendRows s sid g l q cur pages).sec = s.sec ∧ (State.appendRows s sid g l q cur pages).guard = s.guard := by
  simp [State.appendRows]

theorem State.appendEntry_keep (s : State) (sid : Nat) (g : AttnArgs) (l : KvList) (q : Nat) : ∀ r, (State.appendEntry s sid g l q) = some r → r.pending = s.pending ∧ r.sec = s.sec ∧ r.guard = s.guard := by
  unfold State.appendEntry; dsimp only; (repeat' split) <;> simp_all

@[simp] theorem State.awaitPages_keep (s : State) (sid : Nat) (n : Nat) : (State.awaitPages s sid n).pending = s.pending ∧ (State.awaitPages s sid n).sec = s.sec ∧ (State.awaitPages s sid n).guard = s.guard ∧ (State.awaitPages s sid n).mem = s.mem := by
  simp [State.awaitPages]

@[simp] theorem State.noPages_keep (s : State) (sid : Nat) (g : AttnArgs) (n : Nat) (seq : Nat) (q : Nat) : (State.noPages s sid g n seq q).pending = s.pending ∧ (State.noPages s sid g n seq q).sec = s.sec ∧ (State.noPages s sid g n seq q).guard = s.guard := by
  simp [State.noPages]

@[simp] theorem State.takePages_keep (s : State) (sid : Nat) (x2 : Nat) : (State.takePages s sid x2).2.pending = s.pending ∧ (State.takePages s sid x2).2.sec = s.sec ∧ (State.takePages s sid x2).2.guard = s.guard := by
  fun_induction State.takePages s sid x2 <;> ((try simp only [Prod.ext_iff] at *) <;> (try casesm* _ ∧ _) <;> (try subst_vars) <;> (first | (simp_all; done) | (simp_all +zetaDelta; done)))

theorem State.reserve_keep (s : State) (sid : Nat) (n : Nat) (copy : Bool) : ∀ r, (State.reserve s sid n copy) = some r → r.pending = s.pending ∧ r.sec = s.sec ∧ r.guard = s.guard := by
  simp [State.reserve]

@[simp] theorem State.appendPlan_keep (s : State) (sid : Nat) (g : AttnArgs) (l : KvList) (q : Nat) : (State.appendPlan s sid g l q).2.pending = s.pending ∧ (State.appendPlan s sid g l q).2.sec = s.sec ∧ (State.appendPlan s sid g l q).2.guard = s.guard := by
  unfold State.appendPlan; dsimp only; (repeat' split) <;> simp_all

@[simp] theorem State.setGain_keep (s : State) (n : Nat) (i : Nat) (v : Nat) : (State.setGain s n i v).pending = s.pending ∧ (State.setGain s n i v).sec = s.sec ∧ (State.setGain s n i v).guard = s.guard ∧ (State.setGain s n i v).mem = s.mem ∧ (State.setGain s n i v).stations = s.stations := by
  simp [State.setGain]

@[simp] theorem State.applyGains_keep (s : State) (n : Nat) (at_ : Nat) : (State.applyGains s n at_).pending = s.pending ∧ (State.applyGains s n at_).sec = s.sec ∧ (State.applyGains s n at_).guard = s.guard ∧ (State.applyGains s n at_).mem = s.mem ∧ (State.applyGains s n at_).stations = s.stations := by
  simp [State.applyGains]

@[simp] theorem State.discardCand_keep (s : State) : (State.discardCand s).pending = s.pending ∧ (State.discardCand s).sec = s.sec ∧ (State.discardCand s).guard = s.guard ∧ (State.discardCand s).mem = s.mem ∧ (State.discardCand s).stations = s.stations := by
  simp [State.discardCand]

@[simp] theorem State.gateFail_keep (s : State) (n : Nat) : (State.gateFail s n).pending = s.pending ∧ (State.gateFail s n).sec = s.sec ∧ (State.gateFail s n).guard = s.guard ∧ (State.gateFail s n).mem = s.mem ∧ (State.gateFail s n).stations = s.stations := by
  simp [State.gateFail]

@[simp] theorem State.applyGates_keep (s : State) : (State.applyGates s).pending = s.pending ∧ (State.applyGates s).sec = s.sec ∧ (State.applyGates s).guard = s.guard ∧ (State.applyGates s).mem = s.mem ∧ (State.applyGates s).stations = s.stations := by
  unfold State.applyGates; (repeat' split) <;> simp

@[simp] theorem State.applyPlan_keep (s : State) (i : Nat) : (State.applyPlan s i).pending = s.pending ∧ (State.applyPlan s i).sec = s.sec ∧ (State.applyPlan s i).guard = s.guard ∧ (State.applyPlan s i).mem = s.mem ∧ (State.applyPlan s i).stations = s.stations := by
  simp [State.applyPlan]

@[simp] theorem State.peakCells_keep (s : State) (q : Nat) : (State.peakCells s q).pending = s.pending ∧ (State.peakCells s q).sec = s.sec ∧ (State.peakCells s q).guard = s.guard ∧ (State.peakCells s q).mem = s.mem ∧ (State.peakCells s q).stations = s.stations := by
  simp [State.peakCells]

@[simp] theorem State.takeBanks_keep (s : State) (q : Nat) : (State.takeBanks s q).pending = s.pending ∧ (State.takeBanks s q).sec = s.sec ∧ (State.takeBanks s q).guard = s.guard ∧ (State.takeBanks s q).mem = s.mem ∧ (State.takeBanks s q).stations = s.stations := by
  simp [State.takeBanks]

@[simp] theorem State.rawWrite_keep (s : State) (a : Nat) (l : List Byte) : (State.rawWrite s a l).pending = s.pending ∧ (State.rawWrite s a l).sec = s.sec ∧ (State.rawWrite s a l).guard = s.guard ∧ (State.rawWrite s a l).stations = s.stations := by
  simp [State.rawWrite]

@[simp] theorem State.putHbm_keep (s : State) (a : Nat) (l : List Byte) : (State.putHbm s a l).pending = s.pending ∧ (State.putHbm s a l).sec = s.sec ∧ (State.putHbm s a l).guard = s.guard ∧ (State.putHbm s a l).stations = s.stations := by
  simp [State.putHbm]

@[simp] theorem State.fillKitty_keep (s : State) (i : Nat) (x2 : Nat) : (State.fillKitty s i x2).pending = s.pending ∧ (State.fillKitty s i x2).sec = s.sec ∧ (State.fillKitty s i x2).guard = s.guard ∧ (State.fillKitty s i x2).stations = s.stations := by
  fun_induction State.fillKitty s i x2 <;> simp_all

@[simp] theorem State.setPoolPages_keep (s : State) (n : Nat) : (State.setPoolPages s n).pending = s.pending ∧ (State.setPoolPages s n).sec = s.sec ∧ (State.setPoolPages s n).guard = s.guard ∧ (State.setPoolPages s n).stations = s.stations := by
  simp [State.setPoolPages]

@[simp] theorem State.setTemplateEnable_keep (s : State) (tpl : Nat) (on : Bool) : (State.setTemplateEnable s tpl on).pending = s.pending ∧ (State.setTemplateEnable s tpl on).sec = s.sec ∧ (State.setTemplateEnable s tpl on).guard = s.guard ∧ (State.setTemplateEnable s tpl on).mem = s.mem ∧ (State.setTemplateEnable s tpl on).stations = s.stations := by
  simp [State.setTemplateEnable]

@[simp] theorem State.mapVstream_keep (s : State) (n : Nat) (f : VStream → VStream) : (State.mapVstream s n f).pending = s.pending ∧ (State.mapVstream s n f).sec = s.sec ∧ (State.mapVstream s n f).guard = s.guard ∧ (State.mapVstream s n f).mem = s.mem ∧ (State.mapVstream s n f).stations = s.stations := by
  simp [State.mapVstream]

@[simp] theorem State.endSlice_keep (s : State) (core : Nat) : (State.endSlice s core).pending = s.pending ∧ (State.endSlice s core).sec = s.sec ∧ (State.endSlice s core).guard = s.guard ∧ (State.endSlice s core).mem = s.mem ∧ (State.endSlice s core).stations = s.stations := by
  unfold State.endSlice; (repeat' split) <;> simp

@[simp] theorem State.setStreamEnable_keep (s : State) (n : Nat) (on : Bool) : (State.setStreamEnable s n on).pending = s.pending ∧ (State.setStreamEnable s n on).sec = s.sec ∧ (State.setStreamEnable s n on).guard = s.guard ∧ (State.setStreamEnable s n on).mem = s.mem ∧ (State.setStreamEnable s n on).stations = s.stations := by
  simp [State.setStreamEnable]

@[simp] theorem State.applySaved_keep (s : State) : (State.applySaved s).pending = s.pending ∧ (State.applySaved s).sec = s.sec ∧ (State.applySaved s).guard = s.guard ∧ (State.applySaved s).stations = s.stations := by
  simp [State.applySaved]

@[simp] theorem State.applyStep_keep (s : State) (d : Int) : (State.applyStep s d).pending = s.pending ∧ (State.applyStep s d).sec = s.sec ∧ (State.applyStep s d).guard = s.guard ∧ (State.applyStep s d).mem = s.mem ∧ (State.applyStep s d).stations = s.stations := by
  simp [State.applyStep]

@[simp] theorem State.approvalEnds_keep (s : State) : (State.approvalEnds s).pending = s.pending ∧ (State.approvalEnds s).sec = s.sec ∧ (State.approvalEnds s).guard = s.guard ∧ (State.approvalEnds s).mem = s.mem ∧ (State.approvalEnds s).stations = s.stations := by
  unfold State.approvalEnds; (repeat' split) <;> simp

@[simp] theorem State.countFault_keep (s : State) (sid : Nat) (code : Nat) : (State.countFault s sid code).pending = s.pending ∧ (State.countFault s sid code).sec = s.sec ∧ (State.countFault s sid code).guard = s.guard ∧ (State.countFault s sid code).mem = s.mem ∧ (State.countFault s sid code).stations = s.stations := by
  simp [State.countFault]

@[simp] theorem State.contain_keep (s : State) (sid : Nat) : (State.contain s sid).pending = s.pending ∧ (State.contain s sid).sec = s.sec ∧ (State.contain s sid).guard = s.guard ∧ (State.contain s sid).mem = s.mem ∧ (State.contain s sid).stations = s.stations := by
  simp [State.contain]

@[simp] theorem State.countWait_keep (s : State) (q : Nat) : (State.countWait s q).pending = s.pending ∧ (State.countWait s q).sec = s.sec ∧ (State.countWait s q).guard = s.guard ∧ (State.countWait s q).mem = s.mem ∧ (State.countWait s q).stations = s.stations := by
  unfold State.countWait; (repeat' split) <;> simp

@[simp] theorem State.linkTo_keep (s : State) (k : Nat) (next : Nat) : (State.linkTo s k next).pending = s.pending ∧ (State.linkTo s k next).sec = s.sec ∧ (State.linkTo s k next).guard = s.guard ∧ (State.linkTo s k next).mem = s.mem ∧ (State.linkTo s k next).stations = s.stations := by
  unfold State.linkTo; (repeat' split) <;> simp

@[simp] theorem State.passCells_keep (s : State) (trump : Bool) (write : Bool) (a : Nat) (n : Nat) : (State.passCells s trump write a n).pending = s.pending ∧ (State.passCells s trump write a n).sec = s.sec ∧ (State.passCells s trump write a n).guard = s.guard ∧ (State.passCells s trump write a n).stations = s.stations := by
  unfold State.passCells; (repeat' split) <;> simp

@[simp] theorem State.fillCells_keep (s : State) (q : Nat) (len : Nat) (tail : BitVec 16) (x4 : Nat) (x5 : List Nat) (x6 : List Byte) : (State.fillCells s q len tail x4 x5 x6).pending = s.pending ∧ (State.fillCells s q len tail x4 x5 x6).sec = s.sec ∧ (State.fillCells s q len tail x4 x5 x6).guard = s.guard ∧ (State.fillCells s q len tail x4 x5 x6).stations = s.stations := by
  fun_induction State.fillCells s q len tail x4 x5 x6 <;> ((try simp only [Prod.ext_iff] at *) <;> (try casesm* _ ∧ _) <;> (try subst_vars) <;> (first | (simp_all; done) | (simp_all +zetaDelta; done)))

@[simp] theorem State.draw_keep (s : State) (w : Nat) : (State.draw s w).2.pending = s.pending ∧ (State.draw s w).2.sec = s.sec ∧ (State.draw s w).2.guard = s.guard ∧ (State.draw s w).2.mem = s.mem ∧ (State.draw s w).2.stations = s.stations := by
  simp [State.draw]

@[simp] theorem State.linkPacket_keep (s : State) (q : Nat) (cells : List Nat) (bytes : List Byte) (stream : Bool) (close : Bool) : (State.linkPacket s q cells bytes stream close).pending = s.pending ∧ (State.linkPacket s q cells bytes stream close).sec = s.sec ∧ (State.linkPacket s q cells bytes stream close).guard = s.guard ∧ (State.linkPacket s q cells bytes stream close).stations = s.stations := by
  unfold State.linkPacket; dsimp only; (repeat' split) <;> simp_all

@[simp] theorem State.queueClear_keep (s : State) (q : Nat) : (State.queueClear s q).pending = s.pending ∧ (State.queueClear s q).sec = s.sec ∧ (State.queueClear s q).guard = s.guard ∧ (State.queueClear s q).mem = s.mem ∧ (State.queueClear s q).stations = s.stations := by
  simp [State.queueClear]

@[simp] theorem State.queueMismatch_keep (s : State) (q : Nat) (issuer : Nat) : (State.queueMismatch s q issuer).pending = s.pending ∧ (State.queueMismatch s q issuer).sec = s.sec ∧ (State.queueMismatch s q issuer).guard = s.guard ∧ (State.queueMismatch s q issuer).mem = s.mem ∧ (State.queueMismatch s q issuer).stations = s.stations := by
  simp [State.queueMismatch]

@[simp] theorem State.queueBad_keep (s : State) (issuer : Nat) : (State.queueBad s issuer).pending = s.pending ∧ (State.queueBad s issuer).sec = s.sec ∧ (State.queueBad s issuer).guard = s.guard ∧ (State.queueBad s issuer).mem = s.mem ∧ (State.queueBad s issuer).stations = s.stations := by
  simp [State.queueBad]

@[simp] theorem State.queuePush_keep (s : State) (issuer : Nat) (q : Nat) (bytes : List Byte) (stream : Bool) (close : Bool) (bad : Bool) : (State.queuePush s issuer q bytes stream close bad).2.pending = s.pending ∧ (State.queuePush s issuer q bytes stream close bad).2.sec = s.sec ∧ (State.queuePush s issuer q bytes stream close bad).2.guard = s.guard ∧ (State.queuePush s issuer q bytes stream close bad).2.stations = s.stations := by
  unfold State.queuePush; dsimp only; (repeat' split) <;> simp_all

@[simp] theorem State.post_keep (s : State) (issuer : Nat) (q : Nat) (bytes : List Byte) : (State.post s issuer q bytes).2.pending = s.pending ∧ (State.post s issuer q bytes).2.sec = s.sec ∧ (State.post s issuer q bytes).2.guard = s.guard ∧ (State.post s issuer q bytes).2.stations = s.stations := by
  simp [State.post]

@[simp] theorem State.giveTag_keep (s : State) (sid : Nat) : (State.giveTag s sid).pending = s.pending ∧ (State.giveTag s sid).sec = s.sec ∧ (State.giveTag s sid).guard = s.guard := by
  simp [State.giveTag]

@[simp] theorem State.fenceJob_keep (s : State) (id : Nat) : (State.fenceJob s id).pending = s.pending ∧ (State.fenceJob s id).sec = s.sec ∧ (State.fenceJob s id).guard = s.guard := by
  simp [State.fenceJob]

@[simp] theorem State.unlockJob_keep (s : State) (id : Nat) : (State.unlockJob s id).pending = s.pending ∧ (State.unlockJob s id).sec = s.sec ∧ (State.unlockJob s id).guard = s.guard ∧ (State.unlockJob s id).mem = s.mem ∧ (State.unlockJob s id).stations = s.stations := by
  simp [State.unlockJob]

@[simp] theorem State.dropQueued_keep (s : State) (sid : Nat) : (State.dropQueued s sid).pending = s.pending ∧ (State.dropQueued s sid).sec = s.sec ∧ (State.dropQueued s sid).guard = s.guard ∧ (State.dropQueued s sid).mem = s.mem ∧ (State.dropQueued s sid).stations = s.stations := by
  simp [State.dropQueued]

@[simp] theorem State.dropHeld_keep (s : State) (sid : Nat) : (State.dropHeld s sid).pending = s.pending ∧ (State.dropHeld s sid).sec = s.sec ∧ (State.dropHeld s sid).guard = s.guard ∧ (State.dropHeld s sid).mem = s.mem := by
  unfold State.dropHeld
  dsimp only
  simp only [State.mapStation_keep, State.bump_keep, and_true]
  refine ⟨?_, ?_, ?_, ?_⟩
  · exact foldl_pending _ (fun u p => by (try dsimp only); split <;> simp) _ _
  · exact foldl_sec _ (fun u p => by (try dsimp only); split <;> simp) _ _
  · exact foldl_guard _ (fun u p => by (try dsimp only); split <;> simp) _ _
  · exact foldl_mem _ (fun u p => by (try dsimp only); split <;> simp) _ _

@[simp] theorem State.disable_keep (s : State) (sid : Nat) : (State.disable s sid).pending = s.pending ∧ (State.disable s sid).sec = s.sec ∧ (State.disable s sid).guard = s.guard ∧ (State.disable s sid).mem = s.mem := by
  simp [State.disable]

@[simp] theorem State.stopStations_keep (s : State) (id : Nat) : (State.stopStations s id).pending = s.pending ∧ (State.stopStations s id).sec = s.sec ∧ (State.stopStations s id).guard = s.guard ∧ (State.stopStations s id).mem = s.mem := by
  unfold State.stopStations; (repeat' split) <;> simp

@[simp] theorem State.endJob_keep (s : State) (id : Nat) (w : Word) : (State.endJob s id w).pending = s.pending ∧ (State.endJob s id w).sec = s.sec ∧ (State.endJob s id w).guard = s.guard := by
  unfold State.endJob; dsimp only; (repeat' split) <;> simp_all

@[simp] theorem State.endJobs_keep (s : State) (ids : List Nat) (w : Word) : (State.endJobs s ids w).pending = s.pending ∧ (State.endJobs s ids w).sec = s.sec ∧ (State.endJobs s ids w).guard = s.guard := by
  simp [State.endJobs]

@[simp] theorem State.savePath_keep (s : State) (id : Nat) (sid : Nat) : (State.savePath s id sid).pending = s.pending ∧ (State.savePath s id sid).sec = s.sec ∧ (State.savePath s id sid).guard = s.guard ∧ (State.savePath s id sid).mem = s.mem ∧ (State.savePath s id sid).stations = s.stations := by
  simp [State.savePath]

@[simp] theorem State.saveStations_keep (s : State) (id : Nat) : (State.saveStations s id).pending = s.pending ∧ (State.saveStations s id).sec = s.sec ∧ (State.saveStations s id).guard = s.guard ∧ (State.saveStations s id).mem = s.mem := by
  unfold State.saveStations; (repeat' split) <;> simp

@[simp] theorem State.saveStreams_keep (s : State) (id : Nat) : (State.saveStreams s id).pending = s.pending ∧ (State.saveStreams s id).sec = s.sec ∧ (State.saveStreams s id).guard = s.guard ∧ (State.saveStreams s id).mem = s.mem ∧ (State.saveStreams s id).stations = s.stations := by
  unfold State.saveStreams; (repeat' split) <;> simp

@[simp] theorem State.suspend_keep (s : State) (st : JobState) : (State.suspend s st).pending = s.pending ∧ (State.suspend s st).sec = s.sec ∧ (State.suspend s st).guard = s.guard ∧ (State.suspend s st).mem = s.mem := by
  simp [State.suspend]

@[simp] theorem State.endNaming_keep (s : State) (p : Job → Bool) : (State.endNaming s p).pending = s.pending ∧ (State.endNaming s p).sec = s.sec ∧ (State.endNaming s p).guard = s.guard := by
  simp [State.endNaming]

@[simp] theorem State.holdUnit_keep (s : State) (sid : Nat) : (State.holdUnit s sid).pending = s.pending ∧ (State.holdUnit s sid).sec = s.sec ∧ (State.holdUnit s sid).guard = s.guard := by
  simp [State.holdUnit]

@[simp] theorem State.resetModule_keep (s : State) (cause : Nat) : (State.resetModule s cause).pending = s.pending := by
  simp [State.resetModule]

@[simp] theorem State.mapString_keep (s : State) (v : Nat) (f : VString → VString) : (State.mapString s v f).pending = s.pending ∧ (State.mapString s v f).sec = s.sec ∧ (State.mapString s v f).guard = s.guard ∧ (State.mapString s v f).mem = s.mem ∧ (State.mapString s v f).stations = s.stations := by
  simp [State.mapString]

@[simp] theorem State.oweZero_keep (s : State) (v : Nat) : (State.oweZero s v).pending = s.pending ∧ (State.oweZero s v).sec = s.sec ∧ (State.oweZero s v).guard = s.guard ∧ (State.oweZero s v).mem = s.mem ∧ (State.oweZero s v).stations = s.stations := by
  simp [State.oweZero]

@[simp] theorem State.zeroStrings_keep (s : State) : (State.zeroStrings s).pending = s.pending ∧ (State.zeroStrings s).sec = s.sec ∧ (State.zeroStrings s).guard = s.guard ∧ (State.zeroStrings s).mem = s.mem ∧ (State.zeroStrings s).stations = s.stations := by
  simp [State.zeroStrings]

@[simp] theorem State.coutStop_keep (s : State) : (State.coutStop s).pending = s.pending ∧ (State.coutStop s).sec = s.sec ∧ (State.coutStop s).guard = s.guard ∧ (State.coutStop s).mem = s.mem ∧ (State.coutStop s).stations = s.stations := by
  simp [State.coutStop]

@[simp] theorem State.trumpStopped_keep (s : State) : (State.trumpStopped s).pending = s.pending ∧ (State.trumpStopped s).sec = s.sec ∧ (State.trumpStopped s).mem = s.mem := by
  simp [State.trumpStopped]

@[simp] theorem State.trumpStop_keep (s : State) : (State.trumpStop s).pending = s.pending ∧ (State.trumpStop s).sec = s.sec ∧ (State.trumpStop s).mem = s.mem := by
  unfold State.trumpStop; (repeat' split) <;> simp

@[simp] theorem State.level2_keep (s : State) (w : Word) : (State.level2 s w).pending = s.pending ∧ (State.level2 s w).sec = s.sec ∧ (State.level2 s w).mem = s.mem := by
  simp [State.level2]

@[simp] theorem State.raise_keep (s : State) (n : Nat) (w : Word) (who : Nat) : (State.raise s n w who).pending = s.pending := by
  simp [State.raise]

@[simp] theorem State.jobFault_keep (s : State) (sid : Nat) (w : Word) : (State.jobFault s sid w).pending = s.pending := by
  simp [State.jobFault]

end Sys2Proof.Machine
end

