-- ==== Sys2Proof/Laws/KeepMore.lean ====
section
/-! SUPPORT. What an operation leaves as it was, of: the waiting commands, the security state, the guard, the memory,
the stations. One lemma for an operation names those of the five that it never touches (goes on from the file before). -/

namespace Sys2Proof.Machine

set_option linter.all false

@[simp] theorem State.trumpFault_keep (s : State) (sid : Nat) (w : Word) : (State.trumpFault s sid w).pending = s.pending := by
  simp [State.trumpFault]

@[simp] theorem State.rampFall_keep (s : State) (sid : Nat) : (State.rampFall s sid).pending = s.pending ∧ (State.rampFall s sid).sec = s.sec ∧ (State.rampFall s sid).guard = s.guard ∧ (State.rampFall s sid).mem = s.mem ∧ (State.rampFall s sid).stations = s.stations := by
  simp [State.rampFall]

@[simp] theorem State.dropLoads_keep (s : State) (sid : Nat) : (State.dropLoads s sid).pending = s.pending ∧ (State.dropLoads s sid).sec = s.sec ∧ (State.dropLoads s sid).guard = s.guard ∧ (State.dropLoads s sid).mem = s.mem ∧ (State.dropLoads s sid).stations = s.stations := by
  simp [State.dropLoads]

@[simp] theorem State.faultStation_keep (s : State) (sid : Nat) (w : Word) : (State.faultStation s sid w).pending = s.pending := by
  simp [State.faultStation]

@[simp] theorem State.arrayFault_keep (s : State) (sid : Nat) (code : Nat) : (State.arrayFault s sid code).pending = s.pending := by
  simp [State.arrayFault]

@[simp] theorem State.at_keep (s : State) (t : Nat) : (State.at s t).pending = s.pending ∧ (State.at s t).sec = s.sec ∧ (State.at s t).guard = s.guard ∧ (State.at s t).mem = s.mem ∧ (State.at s t).stations = s.stations := by
  simp [State.at]

@[simp] theorem State.kvList_keep (s : State) (sid : Nat) (seq : Nat) (d : BitVec 128) (layer : Nat) (group : Nat) : (State.kvList s sid seq d layer group).2.pending = s.pending ∧ (State.kvList s sid seq d layer group).2.sec = s.sec ∧ (State.kvList s sid seq d layer group).2.guard = s.guard := by
  simp [State.kvList]

@[simp] theorem State.kvDir_keep (s : State) (sid : Nat) (seq : Nat) : (State.kvDir s sid seq).2.pending = s.pending ∧ (State.kvDir s sid seq).2.sec = s.sec ∧ (State.kvDir s sid seq).2.guard = s.guard := by
  unfold State.kvDir; dsimp only; (repeat' split) <;> simp_all

@[simp] theorem State.entryList_keep (s : State) (sid : Nat) (g : AttnArgs) (seq : Nat) : (State.entryList s sid g seq).2.pending = s.pending ∧ (State.entryList s sid g seq).2.sec = s.sec ∧ (State.entryList s sid g seq).2.guard = s.guard := by
  unfold State.entryList; dsimp only; (repeat' split) <;> simp_all

@[simp] theorem State.readScales_keep (s : State) (sid : Nat) (cols : Nat) (addr : Nat) (x4 : Nat) : (State.readScales s sid cols addr x4).2.2.pending = s.pending ∧ (State.readScales s sid cols addr x4).2.2.sec = s.sec ∧ (State.readScales s sid cols addr x4).2.2.guard = s.guard ∧ (State.readScales s sid cols addr x4).2.2.stations = s.stations := by
  fun_induction State.readScales s sid cols addr x4 <;> ((try simp only [Prod.ext_iff] at *) <;> (try casesm* _ ∧ _) <;> (try subst_vars) <;> (first | (simp_all; done) | (simp_all +zetaDelta; done)))

@[simp] theorem State.readRows_keep (s : State) (sid : Nat) (f : Nat) (cols : Nat) (addr : Nat) (step : Nat) (x6 : Nat) : (State.readRows s sid f cols addr step x6).2.2.pending = s.pending ∧ (State.readRows s sid f cols addr step x6).2.2.sec = s.sec ∧ (State.readRows s sid f cols addr step x6).2.2.guard = s.guard ∧ (State.readRows s sid f cols addr step x6).2.2.stations = s.stations := by
  fun_induction State.readRows s sid f cols addr step x6 <;> ((try simp only [Prod.ext_iff] at *) <;> (try casesm* _ ∧ _) <;> (try subst_vars) <;> (first | (simp_all; done) | (simp_all +zetaDelta; done)))

@[simp] theorem State.readTile_keep (s : State) (sid : Nat) (f : Nat) (mx : Bool) (zc : Bool) (it : Item) (rows : Nat) (cols : Nat) : (State.readTile s sid f mx zc it rows cols).2.2.pending = s.pending ∧ (State.readTile s sid f mx zc it rows cols).2.2.sec = s.sec ∧ (State.readTile s sid f mx zc it rows cols).2.2.guard = s.guard ∧ (State.readTile s sid f mx zc it rows cols).2.2.stations = s.stations := by
  unfold State.readTile; dsimp only; (repeat' split) <;> simp_all

@[simp] theorem State.readPair_keep (s : State) (sid : Nat) (f : Nat) (rows : Nat) (dim : Nat) (x5 : List Item) : (State.readPair s sid f rows dim x5).2.2.pending = s.pending ∧ (State.readPair s sid f rows dim x5).2.2.sec = s.sec ∧ (State.readPair s sid f rows dim x5).2.2.guard = s.guard ∧ (State.readPair s sid f rows dim x5).2.2.stations = s.stations := by
  fun_induction State.readPair s sid f rows dim x5 <;> ((try simp only [Prod.ext_iff] at *) <;> (try casesm* _ ∧ _) <;> (try subst_vars) <;> (first | (simp_all; done) | (simp_all +zetaDelta; done)))

@[simp] theorem State.keep_keep (s : State) (sid : Nat) (r0 : Running) : (State.keep s sid r0).pending = s.pending ∧ (State.keep s sid r0).sec = s.sec ∧ (State.keep s sid r0).guard = s.guard ∧ (State.keep s sid r0).mem = s.mem := by
  simp [State.keep]

theorem State.feed_keep (s : State) (sid : Nat) (port : Nat) (r0 : Running) : ∀ r, (State.feed s sid port r0) = some r → r.2.2.pending = s.pending ∧ r.2.2.sec = s.sec ∧ r.2.2.guard = s.guard ∧ r.2.2.mem = s.mem := by
  unfold State.feed; (repeat' split) <;> ((try simp only [Prod.ext_iff] at *) <;> (try casesm* _ ∧ _) <;> (try subst_vars) <;> (first | (simp_all; done) | (simp_all +zetaDelta; done)))

theorem State.feedN_keep (s : State) (sid : Nat) (port : Nat) (r0 : Running) (x4 : Nat) : ∀ r, (State.feedN s sid port r0 x4) = some r → r.2.2.pending = s.pending ∧ r.2.2.sec = s.sec ∧ r.2.2.guard = s.guard ∧ r.2.2.mem = s.mem := by
  intro q h
  induction x4 generalizing s r0 q with
  | zero => simp [State.feedN] at h; subst h; simp
  | succ n ih =>
    unfold State.feedN at h
    split at h
    · cases h
    · rename_i h1
      have k1 := State.feed_keep _ _ _ _ _ h1
      split at h
      · cases h
      · rename_i h2
        have k2 := ih _ _ _ h2
        simp at h
        subst h
        simp_all

@[simp] theorem State.takeKv_keep (s : State) (sid : Nat) (g : AttnArgs) (x3 : Nat) : (State.takeKv s sid g x3).pending = s.pending ∧ (State.takeKv s sid g x3).sec = s.sec ∧ (State.takeKv s sid g x3).guard = s.guard := by
  induction x3 generalizing s with
  | zero => simp [State.takeKv]
  | succ n ih =>
    unfold State.takeKv
    dsimp only
    split
    · simp
    · split
      · simp
      · split
        · simp
        · split
          · simp
          · rename_i h1
            have k1 := State.feedN_keep _ _ _ _ _ _ h1
            simp only [ih] at *
            (repeat' split) <;> ((try simp only [Prod.ext_iff] at *) <;> (try casesm* _ ∧ _) <;> (try subst_vars) <;> (first | (simp_all; done) | (simp_all +zetaDelta; done)))

@[simp] theorem State.takeQueries_keep (s : State) (sid : Nat) (g : AttnArgs) (x3 : Nat) : (State.takeQueries s sid g x3).pending = s.pending ∧ (State.takeQueries s sid g x3).sec = s.sec ∧ (State.takeQueries s sid g x3).guard = s.guard := by
  induction x3 generalizing s with
  | zero => simp [State.takeQueries]
  | succ n ih =>
    unfold State.takeQueries
    dsimp only
    split
    · simp
    · split
      · simp
      · split
        · simp
        · rename_i h1
          have k1 := State.feedN_keep _ _ _ _ _ _ h1
          simp only [ih] at *
          (repeat' split) <;> ((try simp only [Prod.ext_iff] at *) <;> (try casesm* _ ∧ _) <;> (try subst_vars) <;> (first | (simp_all; done) | (simp_all +zetaDelta; done)))

@[simp] theorem State.takeInputs_keep (s : State) (sid : Nat) (g : AttnArgs) : (State.takeInputs s sid g).pending = s.pending ∧ (State.takeInputs s sid g).sec = s.sec ∧ (State.takeInputs s sid g).guard = s.guard := by
  simp [State.takeInputs]

@[simp] theorem State.attestReady_keep (s : State) : (State.attestReady s).pending = s.pending ∧ (State.attestReady s).guard = s.guard ∧ (State.attestReady s).mem = s.mem ∧ (State.attestReady s).stations = s.stations := by
  unfold State.attestReady; dsimp only; (repeat' split) <;> simp_all

@[simp] theorem State.attestRefuse_keep (s : State) : (State.attestRefuse s).2.pending = s.pending ∧ (State.attestRefuse s).2.sec = s.sec ∧ (State.attestRefuse s).2.guard = s.guard ∧ (State.attestRefuse s).2.mem = s.mem ∧ (State.attestRefuse s).2.stations = s.stations := by
  simp [State.attestRefuse]

@[simp] theorem State.authFail_keep (s : State) (src : Nat) : (State.authFail s src).pending = s.pending ∧ (State.authFail s src).sec = s.sec ∧ (State.authFail s src).guard = s.guard ∧ (State.authFail s src).mem = s.mem ∧ (State.authFail s src).stations = s.stations := by
  simp [State.authFail]

@[simp] theorem State.mapI3c_keep (s : State) (f : I3c → I3c) : (State.mapI3c s f).pending = s.pending ∧ (State.mapI3c s f).sec = s.sec ∧ (State.mapI3c s f).guard = s.guard ∧ (State.mapI3c s f).mem = s.mem ∧ (State.mapI3c s f).stations = s.stations := by
  simp [State.mapI3c]

@[simp] theorem State.noteAbort_keep (s : State) (w : Word) : (State.noteAbort s w).pending = s.pending ∧ (State.noteAbort s w).sec = s.sec ∧ (State.noteAbort s w).guard = s.guard ∧ (State.noteAbort s w).mem = s.mem ∧ (State.noteAbort s w).stations = s.stations := by
  simp [State.noteAbort]

@[simp] theorem State.i3cResult_keep (s : State) (slow : Bool) (w : Word) (body : List Byte) : (State.i3cResult s slow w body).pending = s.pending ∧ (State.i3cResult s slow w body).sec = s.sec ∧ (State.i3cResult s slow w body).guard = s.guard ∧ (State.i3cResult s slow w body).mem = s.mem ∧ (State.i3cResult s slow w body).stations = s.stations := by
  simp [State.i3cResult]

@[simp] theorem State.badFrame_keep (s : State) : (State.badFrame s).pending = s.pending ∧ (State.badFrame s).sec = s.sec ∧ (State.badFrame s).guard = s.guard ∧ (State.badFrame s).mem = s.mem ∧ (State.badFrame s).stations = s.stations := by
  simp [State.badFrame]

@[simp] theorem State.mapGroup_keep (s : State) (g : Nat) (f : Group → Group) : (State.mapGroup s g f).pending = s.pending ∧ (State.mapGroup s g f).sec = s.sec ∧ (State.mapGroup s g f).guard = s.guard ∧ (State.mapGroup s g f).mem = s.mem ∧ (State.mapGroup s g f).stations = s.stations := by
  simp [State.mapGroup]

@[simp] theorem State.serveWrite_keep (s : State) (r0 : BankReq) : (State.serveWrite s r0).pending = s.pending ∧ (State.serveWrite s r0).sec = s.sec ∧ (State.serveWrite s r0).guard = s.guard ∧ (State.serveWrite s r0).stations = s.stations := by
  unfold State.serveWrite; (repeat' split) <;> simp

@[simp] theorem State.serveRead_keep (s : State) (r0 : BankReq) : (State.serveRead s r0).pending = s.pending ∧ (State.serveRead s r0).sec = s.sec ∧ (State.serveRead s r0).guard = s.guard ∧ (State.serveRead s r0).mem = s.mem ∧ (State.serveRead s r0).stations = s.stations := by
  simp [State.serveRead]

@[simp] theorem State.mapBank_keep (s : State) (b : Nat) (f : Bank → Bank) : (State.mapBank s b f).pending = s.pending ∧ (State.mapBank s b f).sec = s.sec ∧ (State.mapBank s b f).guard = s.guard ∧ (State.mapBank s b f).mem = s.mem ∧ (State.mapBank s b f).stations = s.stations := by
  simp [State.mapBank]

@[simp] theorem State.poisonStep_keep (s : State) (sid : Nat) (bad : Bool) : (State.poisonStep s sid bad).pending = s.pending ∧ (State.poisonStep s sid bad).sec = s.sec ∧ (State.poisonStep s sid bad).guard = s.guard ∧ (State.poisonStep s sid bad).mem = s.mem := by
  simp [State.poisonStep]

@[simp] theorem State.discard_keep (s : State) (part : Ent) (n : optParam Nat 1) : (State.discard s part n).pending = s.pending ∧ (State.discard s part n).sec = s.sec ∧ (State.discard s part n).guard = s.guard ∧ (State.discard s part n).mem = s.mem ∧ (State.discard s part n).stations = s.stations := by
  simp [State.discard]

@[simp] theorem State.dropLate_keep (s : State) (g : Nat) : (State.dropLate s g).pending = s.pending ∧ (State.dropLate s g).sec = s.sec ∧ (State.dropLate s g).guard = s.guard ∧ (State.dropLate s g).mem = s.mem ∧ (State.dropLate s g).stations = s.stations := by
  simp [State.dropLate]

@[simp] theorem State.refuseReq_keep (s : State) (r0 : BankReq) (w : Word) : (State.refuseReq s r0 w).pending = s.pending ∧ (State.refuseReq s r0 w).sec = s.sec ∧ (State.refuseReq s r0 w).guard = s.guard ∧ (State.refuseReq s r0 w).mem = s.mem := by
  unfold State.refuseReq; dsimp only; (repeat' split) <;> simp_all

@[simp] theorem State.submit_keep (s : State) (d : Desc) : (State.submit s d).2.pending = s.pending ∧ (State.submit s d).2.sec = s.sec ∧ (State.submit s d).2.guard = s.guard ∧ (State.submit s d).2.mem = s.mem := by
  unfold State.submit; dsimp only; (repeat' split) <;> simp_all

@[simp] theorem State.bankSealed_keep (s : State) (job : Desc) : (State.bankSealed s job).pending = s.pending ∧ (State.bankSealed s job).sec = s.sec ∧ (State.bankSealed s job).guard = s.guard := by
  unfold State.bankSealed; (repeat' split) <;> simp

@[simp] theorem State.buildSlot_keep (s : State) (tpl : Nat) (i : Nat) : (State.buildSlot s tpl i).2.2.2.2.pending = s.pending ∧ (State.buildSlot s tpl i).2.2.2.2.sec = s.sec ∧ (State.buildSlot s tpl i).2.2.2.2.guard = s.guard ∧ (State.buildSlot s tpl i).2.2.2.2.mem = s.mem ∧ (State.buildSlot s tpl i).2.2.2.2.stations = s.stations := by
  unfold State.buildSlot; dsimp only; (repeat' split) <;> simp_all

@[simp] theorem State.buildSlots_keep (s : State) (tpl : Nat) (addr : Nat) (i : Nat) (b : Batch) (x5 : Nat) : (State.buildSlots s tpl addr i b x5).2.pending = s.pending ∧ (State.buildSlots s tpl addr i b x5).2.sec = s.sec ∧ (State.buildSlots s tpl addr i b x5).2.guard = s.guard ∧ (State.buildSlots s tpl addr i b x5).2.stations = s.stations := by
  fun_induction State.buildSlots s tpl addr i b x5 <;> ((try simp only [Prod.ext_iff] at *) <;> (try casesm* _ ∧ _) <;> (try subst_vars) <;> (first | (simp_all; done) | (simp_all +zetaDelta; done)))

set_option maxRecDepth 4000 in
@[simp] theorem State.batchBuild_keep (s : State) (tpl : Nat) : (State.batchBuild s tpl).pending = s.pending ∧ (State.batchBuild s tpl).sec = s.sec ∧ (State.batchBuild s tpl).guard = s.guard ∧ (State.batchBuild s tpl).stations = s.stations := by
  unfold State.batchBuild; dsimp only; (repeat' split) <;> simp_all

@[simp] theorem State.batchComplete_keep (s : State) (space : Nat) : (State.batchComplete s space).pending = s.pending ∧ (State.batchComplete s space).sec = s.sec ∧ (State.batchComplete s space).guard = s.guard ∧ (State.batchComplete s space).stations = s.stations := by
  unfold State.batchComplete; (repeat' split) <;> simp

@[simp] theorem State.takeTag_keep (s : State) (sid : Nat) : (State.takeTag s sid).pending = s.pending ∧ (State.takeTag s sid).sec = s.sec ∧ (State.takeTag s sid).guard = s.guard := by
  simp [State.takeTag]

@[simp] theorem State.beginTrans_keep (s : State) (x : Trans) : (State.beginTrans s x).2.pending = s.pending ∧ (State.beginTrans s x).2.sec = s.sec ∧ (State.beginTrans s x).2.guard = s.guard := by
  simp [State.beginTrans]

@[simp] theorem State.beltStall_keep (s : State) (ch : Nat) : (State.beltStall s ch).pending = s.pending ∧ (State.beltStall s ch).sec = s.sec ∧ (State.beltStall s ch).guard = s.guard ∧ (State.beltStall s ch).mem = s.mem ∧ (State.beltStall s ch).stations = s.stations := by
  unfold State.beltStall; (repeat' split) <;> simp

@[simp] theorem State.deskewed_keep (s : State) (k : Nat) (skew : Nat) : (State.deskewed s k skew).pending = s.pending ∧ (State.deskewed s k skew).sec = s.sec ∧ (State.deskewed s k skew).guard = s.guard ∧ (State.deskewed s k skew).mem = s.mem ∧ (State.deskewed s k skew).stations = s.stations := by
  simp [State.deskewed]

@[simp] theorem State.bitSlip_keep (s : State) (n : Nat) (marker : Bool) (skew : Nat) : (State.bitSlip s n marker skew).pending = s.pending ∧ (State.bitSlip s n marker skew).sec = s.sec ∧ (State.bitSlip s n marker skew).guard = s.guard ∧ (State.bitSlip s n marker skew).mem = s.mem ∧ (State.bitSlip s n marker skew).stations = s.stations := by
  simp [State.bitSlip]

@[simp] theorem State.countRun_keep (s : State) (sid : Nat) (idle : Nat) (frozen : Nat) : (State.countRun s sid idle frozen).pending = s.pending ∧ (State.countRun s sid idle frozen).sec = s.sec ∧ (State.countRun s sid idle frozen).guard = s.guard ∧ (State.countRun s sid idle frozen).mem = s.mem ∧ (State.countRun s sid idle frozen).stations = s.stations := by
  simp [State.countRun]

@[simp] theorem State.readSide_keep (s : State) (sid : Nat) (f : Nat) (mx : Bool) (zc : Bool) (rows : Nat) (k : Nat) (x7 : List Item) : (State.readSide s sid f mx zc rows k x7).2.pending = s.pending ∧ (State.readSide s sid f mx zc rows k x7).2.sec = s.sec ∧ (State.readSide s sid f mx zc rows k x7).2.guard = s.guard ∧ (State.readSide s sid f mx zc rows k x7).2.stations = s.stations := by
  fun_induction State.readSide s sid f mx zc rows k x7 <;> ((try simp only [Prod.ext_iff] at *) <;> (try casesm* _ ∧ _) <;> (try subst_vars) <;> (first | (simp_all; done) | (simp_all +zetaDelta; done)))

@[simp] theorem State.planCommit_keep (s : State) : (State.planCommit s).pending = s.pending ∧ (State.planCommit s).sec = s.sec ∧ (State.planCommit s).guard = s.guard ∧ (State.planCommit s).mem = s.mem ∧ (State.planCommit s).stations = s.stations := by
  simp [State.planCommit]

@[simp] theorem State.planState3_keep (s : State) : (State.planState3 s).pending = s.pending ∧ (State.planState3 s).sec = s.sec ∧ (State.planState3 s).guard = s.guard ∧ (State.planState3 s).mem = s.mem ∧ (State.planState3 s).stations = s.stations := by
  simp [State.planState3]

@[simp] theorem State.bootAges_keep (s : State) (l : List (Prod Nat (Prod Nat (Prod Nat Int)))) : (State.bootAges s l).pending = s.pending ∧ (State.bootAges s l).sec = s.sec ∧ (State.bootAges s l).guard = s.guard ∧ (State.bootAges s l).mem = s.mem ∧ (State.bootAges s l).stations = s.stations := by
  simp [State.bootAges]

@[simp] theorem State.stationsOn_keep (s : State) (pd : Nat) : (State.stationsOn s pd).pending = s.pending ∧ (State.stationsOn s pd).sec = s.sec ∧ (State.stationsOn s pd).guard = s.guard ∧ (State.stationsOn s pd).mem = s.mem := by
  simp [State.stationsOn]

@[simp] theorem State.bootDomains_keep (s : State) : (State.bootDomains s).pending = s.pending ∧ (State.bootDomains s).sec = s.sec ∧ (State.bootDomains s).guard = s.guard ∧ (State.bootDomains s).mem = s.mem := by
  simp [State.bootDomains]

@[simp] theorem State.startFails_keep (s : State) (w : Word) : (State.startFails s w).pending = s.pending ∧ (State.startFails s w).sec = s.sec ∧ (State.startFails s w).mem = s.mem := by
  simp [State.startFails]

@[simp] theorem State.trumpSplits_keep (s : State) : (State.trumpSplits s).pending = s.pending ∧ (State.trumpSplits s).sec = s.sec ∧ (State.trumpSplits s).guard = s.guard ∧ (State.trumpSplits s).mem = s.mem := by
  simp [State.trumpSplits]

@[simp] theorem State.writeCaps_keep (s : State) (img : TrumpImage) : (State.writeCaps s img).pending = s.pending ∧ (State.writeCaps s img).sec = s.sec ∧ (State.writeCaps s img).guard = s.guard ∧ (State.writeCaps s img).mem = s.mem := by
  simp [State.writeCaps]

@[simp] theorem State.startChecks_keep (s : State) : (State.startChecks s).2.pending = s.pending ∧ (State.startChecks s).2.sec = s.sec ∧ (State.startChecks s).2.guard = s.guard ∧ (State.startChecks s).2.mem = s.mem := by
  unfold State.startChecks; dsimp only; (repeat' split) <;> simp_all

@[simp] theorem State.wakeTrumpLinks_keep (s : State) : (State.wakeTrumpLinks s).pending = s.pending ∧ (State.wakeTrumpLinks s).sec = s.sec ∧ (State.wakeTrumpLinks s).guard = s.guard ∧ (State.wakeTrumpLinks s).mem = s.mem ∧ (State.wakeTrumpLinks s).stations = s.stations := by
  simp [State.wakeTrumpLinks]

@[simp] theorem State.confirmFirmware_keep (s : State) : (State.confirmFirmware s).pending = s.pending ∧ (State.confirmFirmware s).sec = s.sec ∧ (State.confirmFirmware s).guard = s.guard ∧ (State.confirmFirmware s).mem = s.mem ∧ (State.confirmFirmware s).stations = s.stations := by
  unfold State.confirmFirmware; (repeat' split) <;> simp

@[simp] theorem State.enterService_keep (s : State) : (State.enterService s).pending = s.pending ∧ (State.enterService s).sec = s.sec ∧ (State.enterService s).guard = s.guard ∧ (State.enterService s).mem = s.mem ∧ (State.enterService s).stations = s.stations := by
  simp [State.enterService]

@[simp] theorem State.trumpStart_keep (s : State) : (State.trumpStart s).pending = s.pending ∧ (State.trumpStart s).sec = s.sec ∧ (State.trumpStart s).mem = s.mem := by
  unfold State.trumpStart; dsimp only; (repeat' split) <;> ((try simp only [Prod.ext_iff] at *) <;> (try casesm* _ ∧ _) <;> (try subst_vars) <;> (first | (simp_all; done) | (simp_all +zetaDelta; done)))

@[simp] theorem State.startEnds_keep (s : State) : (State.startEnds s).pending = s.pending ∧ (State.startEnds s).mem = s.mem := by
  simp [State.startEnds]

@[simp] theorem State.drawChallenge_keep (s : State) : (State.drawChallenge s).pending = s.pending ∧ (State.drawChallenge s).guard = s.guard ∧ (State.drawChallenge s).mem = s.mem ∧ (State.drawChallenge s).stations = s.stations := by
  simp [State.drawChallenge]

@[simp] theorem State.bootModel_keep (s : State) (r0 : BootRun) : (State.bootModel s r0).pending = s.pending ∧ (State.bootModel s r0).sec = s.sec ∧ (State.bootModel s r0).guard = s.guard ∧ (State.bootModel s r0).mem = s.mem ∧ (State.bootModel s r0).stations = s.stations := by
  unfold State.bootModel; (repeat' split) <;> simp

@[simp] theorem State.settle_keep (s : State) : (State.settle s).pending = s.pending ∧ (State.settle s).sec = s.sec ∧ (State.settle s).guard = s.guard ∧ (State.settle s).mem = s.mem ∧ (State.settle s).stations = s.stations := by
  simp [State.settle]

@[simp] theorem State.firstPlan_keep (s : State) : (State.firstPlan s).pending = s.pending ∧ (State.firstPlan s).sec = s.sec ∧ (State.firstPlan s).guard = s.guard ∧ (State.firstPlan s).mem = s.mem ∧ (State.firstPlan s).stations = s.stations := by
  simp [State.firstPlan]

@[simp] theorem State.bootPlan_keep (s : State) : (State.bootPlan s).pending = s.pending ∧ (State.bootPlan s).sec = s.sec ∧ (State.bootPlan s).guard = s.guard ∧ (State.bootPlan s).mem = s.mem ∧ (State.bootPlan s).stations = s.stations := by
  simp [State.bootPlan]

@[simp] theorem State.bootLate_keep (s : State) (r0 : BootRun) : (State.bootLate s r0).pending = s.pending := by
  unfold State.bootLate
  extract_lets s1 s2 g s4 s5 b s7 s8 b2 s9 a s10
  clear_value g b b2 a
  have k1 : s1.pending = s.pending := by simp [s1]
  have k4 : s4.pending = s1.pending := by simp [s4, s2]
  have k7 : s7.pending = s4.pending := by simp [s7, s5]
  have k8 : s8.pending = s7.pending := by simp [s8]
  have k9 : s9.pending = s8.pending := by simp only [s9]; split <;> simp
  have k10 : s10.pending = s9.pending := by simp only [s10]; split <;> simp
  clear_value s10 s9 s8 s7 s5 s4 s2 s1
  split
  · simp [k1]
  · simp [k1, k4, k7, k8, k9, k10]

@[simp] theorem State.tamperRecord_keep (s : State) : (State.tamperRecord s).pending = s.pending ∧ (State.tamperRecord s).guard = s.guard ∧ (State.tamperRecord s).mem = s.mem ∧ (State.tamperRecord s).stations = s.stations := by
  simp [State.tamperRecord]

@[simp] theorem State.takeGrade_keep (s : State) (c : GradeCert) : (State.takeGrade s c).pending = s.pending ∧ (State.takeGrade s c).sec = s.sec ∧ (State.takeGrade s c).guard = s.guard ∧ (State.takeGrade s c).mem = s.mem ∧ (State.takeGrade s c).stations = s.stations := by
  simp [State.takeGrade]

@[simp] theorem State.checkIdentity_keep (s : State) (r0 : BootRun) : (State.checkIdentity s r0).pending = s.pending ∧ (State.checkIdentity s r0).guard = s.guard ∧ (State.checkIdentity s r0).mem = s.mem ∧ (State.checkIdentity s r0).stations = s.stations := by
  simp [State.checkIdentity]

@[simp] theorem State.drawSalt_keep (s : State) : (State.drawSalt s).pending = s.pending ∧ (State.drawSalt s).guard = s.guard ∧ (State.drawSalt s).mem = s.mem ∧ (State.drawSalt s).stations = s.stations := by
  simp [State.drawSalt]

@[simp] theorem State.mapField_keep (s : State) (f : Field → Field) : (State.mapField s f).pending = s.pending ∧ (State.mapField s f).sec = s.sec ∧ (State.mapField s f).guard = s.guard ∧ (State.mapField s f).mem = s.mem ∧ (State.mapField s f).stations = s.stations := by
  simp [State.mapField]

@[simp] theorem State.sendSafeStates_keep (s : State) : (State.sendSafeStates s).pending = s.pending ∧ (State.sendSafeStates s).sec = s.sec ∧ (State.sendSafeStates s).guard = s.guard ∧ (State.sendSafeStates s).mem = s.mem ∧ (State.sendSafeStates s).stations = s.stations := by
  simp [State.sendSafeStates]

@[simp] theorem State.loadSaved_keep (s : State) (r0 : BootRun) : (State.loadSaved s r0).pending = s.pending ∧ (State.loadSaved s r0).guard = s.guard ∧ (State.loadSaved s r0).mem = s.mem ∧ (State.loadSaved s r0).stations = s.stations := by
  simp [State.loadSaved]

@[simp] theorem State.psramStart_keep (s : State) (image : List Byte) : (State.psramStart s image).pending = s.pending ∧ (State.psramStart s image).sec = s.sec ∧ (State.psramStart s image).guard = s.guard ∧ (State.psramStart s image).stations = s.stations := by
  simp [State.psramStart]

@[simp] theorem State.bootTime_keep (s : State) : (State.bootTime s).pending = s.pending ∧ (State.bootTime s).sec = s.sec ∧ (State.bootTime s).guard = s.guard ∧ (State.bootTime s).mem = s.mem ∧ (State.bootTime s).stations = s.stations := by
  simp [State.bootTime]

@[simp] theorem State.fwFallback_keep (s : State) (k : Nat) : (State.fwFallback s k).pending = s.pending ∧ (State.fwFallback s k).sec = s.sec ∧ (State.fwFallback s k).guard = s.guard ∧ (State.fwFallback s k).mem = s.mem ∧ (State.fwFallback s k).stations = s.stations := by
  simp [State.fwFallback]

@[simp] theorem State.selectFirmware_keep (s : State) (r0 : BootRun) : (State.selectFirmware s r0).2.pending = s.pending ∧ (State.selectFirmware s r0).2.sec = s.sec ∧ (State.selectFirmware s r0).2.guard = s.guard ∧ (State.selectFirmware s r0).2.mem = s.mem ∧ (State.selectFirmware s r0).2.stations = s.stations := by
  unfold State.selectFirmware; dsimp only; (repeat' split) <;> simp_all

@[simp] theorem State.bootModule_keep (s : State) (r0 : BootRun) : (State.bootModule s r0).pending = s.pending := by
  unfold State.bootModule
  (repeat' split) <;> ((try simp only [Prod.ext_iff] at *) <;> (try casesm* _ ∧ _) <;> (try subst_vars) <;> (first | (simp_all; done) | (simp_all +zetaDelta; done)))

@[simp] theorem State.boundary_keep (s : State) (absent : Bool) (ns : Nat) : (State.boundary s absent ns).pending = s.pending ∧ (State.boundary s absent ns).sec = s.sec ∧ (State.boundary s absent ns).guard = s.guard ∧ (State.boundary s absent ns).mem = s.mem := by
  unfold State.boundary; (repeat' split) <;> simp

@[simp] theorem State.unpin_keep (s : State) (job : Nat) : (State.unpin s job).pending = s.pending ∧ (State.unpin s job).sec = s.sec ∧ (State.unpin s job).guard = s.guard ∧ (State.unpin s job).mem = s.mem := by
  simp [State.unpin]

@[simp] theorem State.endTrans_keep (s : State) (tag : Nat) : (State.endTrans s tag).pending = s.pending ∧ (State.endTrans s tag).sec = s.sec ∧ (State.endTrans s tag).guard = s.guard := by
  unfold State.endTrans; (repeat' split) <;> simp

@[simp] theorem State.tileGone_keep (s : State) (x : Trans) : (State.tileGone s x).pending = s.pending ∧ (State.tileGone s x).sec = s.sec ∧ (State.tileGone s x).guard = s.guard ∧ (State.tileGone s x).mem = s.mem ∧ (State.tileGone s x).stations = s.stations := by
  simp [State.tileGone]

@[simp] theorem State.toIssuer_keep (s : State) (x : Trans) (w : Word) : (State.toIssuer s x w).pending = s.pending ∧ (State.toIssuer s x w).sec = s.sec ∧ (State.toIssuer s x w).guard = s.guard ∧ (State.toIssuer s x w).mem = s.mem ∧ (State.toIssuer s x w).stations = s.stations := by
  simp [State.toIssuer]

@[simp] theorem State.fencedFrame_keep (s : State) : (State.fencedFrame s).pending = s.pending ∧ (State.fencedFrame s).sec = s.sec ∧ (State.fencedFrame s).guard = s.guard ∧ (State.fencedFrame s).mem = s.mem ∧ (State.fencedFrame s).stations = s.stations := by
  simp [State.fencedFrame]

@[simp] theorem State.fabReturn_keep (s : State) (f : Frame) : (State.fabReturn s f).pending = s.pending ∧ (State.fabReturn s f).sec = s.sec ∧ (State.fabReturn s f).guard = s.guard := by
  unfold State.fabReturn; (repeat' split) <;> simp

@[simp] theorem State.mapFlow_keep (s : State) (i : Nat) (f : RemoteFlow → RemoteFlow) : (State.mapFlow s i f).pending = s.pending ∧ (State.mapFlow s i f).sec = s.sec ∧ (State.mapFlow s i f).guard = s.guard ∧ (State.mapFlow s i f).mem = s.mem ∧ (State.mapFlow s i f).stations = s.stations := by
  simp [State.mapFlow]

@[simp] theorem State.creditIn_keep (s : State) (f : Frame) : (State.creditIn s f).pending = s.pending ∧ (State.creditIn s f).sec = s.sec ∧ (State.creditIn s f).guard = s.guard ∧ (State.creditIn s f).mem = s.mem ∧ (State.creditIn s f).stations = s.stations := by
  simp [State.creditIn]

@[simp] theorem State.completed_keep (s : State) (f : Frame) : (State.completed s f).pending = s.pending ∧ (State.completed s f).sec = s.sec ∧ (State.completed s f).guard = s.guard := by
  unfold State.completed; (repeat' split) <;> simp

@[simp] theorem State.recodeLanded_keep (s : State) (x : Trans) : (State.recodeLanded s x).pending = s.pending ∧ (State.recodeLanded s x).sec = s.sec ∧ (State.recodeLanded s x).guard = s.guard := by
  simp [State.recodeLanded]

@[simp] theorem State.landWrite_keep (s : State) (a : Nat) (l : List Byte) (old : Bool) : (State.landWrite s a l old).2.pending = s.pending ∧ (State.landWrite s a l old).2.sec = s.sec ∧ (State.landWrite s a l old).2.guard = s.guard ∧ (State.landWrite s a l old).2.stations = s.stations := by
  unfold State.landWrite; dsimp only; (repeat' split) <;> simp_all

@[simp] theorem State.readResp_keep (s : State) (f : Frame) : (State.readResp s f).pending = s.pending ∧ (State.readResp s f).sec = s.sec ∧ (State.readResp s f).guard = s.guard := by
  unfold State.readResp; (repeat' split) <;> simp

@[simp] theorem State.landPiece_keep (s : State) (a : Nat) (n : Nat) : (State.landPiece s a n).2.2.pending = s.pending ∧ (State.landPiece s a n).2.2.sec = s.sec ∧ (State.landPiece s a n).2.2.guard = s.guard ∧ (State.landPiece s a n).2.2.stations = s.stations := by
  simp [State.landPiece]

@[simp] theorem State.fabRead_keep (s : State) (f : Frame) : (State.fabRead s f).pending = s.pending ∧ (State.fabRead s f).sec = s.sec ∧ (State.fabRead s f).guard = s.guard ∧ (State.fabRead s f).stations = s.stations := by
  simp [State.fabRead]

@[simp] theorem State.fabWrite_keep (s : State) (f : Frame) (old : Bool) : (State.fabWrite s f old).pending = s.pending ∧ (State.fabWrite s f old).sec = s.sec ∧ (State.fabWrite s f old).guard = s.guard ∧ (State.fabWrite s f old).stations = s.stations := by
  simp [State.fabWrite]

@[simp] theorem State.keepLanding_keep (s : State) (key : Nat) (x : Landing) : (State.keepLanding s key x).pending = s.pending ∧ (State.keepLanding s key x).sec = s.sec ∧ (State.keepLanding s key x).guard = s.guard ∧ (State.keepLanding s key x).mem = s.mem ∧ (State.keepLanding s key x).stations = s.stations := by
  simp [State.keepLanding]

@[simp] theorem State.landTile_keep (s : State) (f : Frame) (d : Desc) (data : List Byte) : (State.landTile s f d data).pending = s.pending ∧ (State.landTile s f d data).sec = s.sec ∧ (State.landTile s f d data).guard = s.guard ∧ (State.landTile s f d data).stations = s.stations := by
  unfold State.landTile; dsimp only; (repeat' split) <;> simp_all

@[simp] theorem State.tileData_keep (s : State) (f : Frame) : (State.tileData s f).pending = s.pending ∧ (State.tileData s f).sec = s.sec ∧ (State.tileData s f).guard = s.guard ∧ (State.tileData s f).stations = s.stations := by
  unfold State.tileData; dsimp only; (repeat' split) <;> simp_all

@[simp] theorem State.headRefusal_keep (s : State) (sid : Nat) (d : Desc) : (State.headRefusal s sid d).2.pending = s.pending ∧ (State.headRefusal s sid d).2.sec = s.sec ∧ (State.headRefusal s sid d).2.guard = s.guard ∧ (State.headRefusal s sid d).2.mem = s.mem ∧ (State.headRefusal s sid d).2.stations = s.stations := by
  unfold State.headRefusal; (repeat' split) <;> simp

@[simp] theorem State.tileHead_keep (s : State) (f : Frame) : (State.tileHead s f).pending = s.pending ∧ (State.tileHead s f).sec = s.sec ∧ (State.tileHead s f).guard = s.guard ∧ (State.tileHead s f).stations = s.stations := by
  unfold State.tileHead; dsimp only; (repeat' split) <;> ((try simp only [Prod.ext_iff] at *) <;> (try casesm* _ ∧ _) <;> (try subst_vars) <;> (first | (simp_all; done) | (simp_all +zetaDelta; done)))

@[simp] theorem State.takeKind_keep (s : State) (f : Frame) (old : Bool) : (State.takeKind s f old).pending = s.pending ∧ (State.takeKind s f old).sec = s.sec ∧ (State.takeKind s f old).guard = s.guard := by
  unfold State.takeKind; (repeat' split) <;> simp

@[simp] theorem State.forward_keep (s : State) (f : Frame) (src : Nat) : (State.forward s f src).pending = s.pending ∧ (State.forward s f src).sec = s.sec ∧ (State.forward s f src).guard = s.guard ∧ (State.forward s f src).mem = s.mem ∧ (State.forward s f src).stations = s.stations := by
  simp [State.forward]

@[simp] theorem State.sendCredit_keep (s : State) (i : Nat) (prod : Nat) (cons : Nat) (tc : Bool) : (State.sendCredit s i prod cons tc).pending = s.pending ∧ (State.sendCredit s i prod cons tc).sec = s.sec ∧ (State.sendCredit s i prod cons tc).guard = s.guard ∧ (State.sendCredit s i prod cons tc).mem = s.mem ∧ (State.sendCredit s i prod cons tc).stations = s.stations := by
  simp [State.sendCredit]

@[simp] theorem State.credit_keep (s : State) (p : Nat → Stream → Bool) : (State.credit s p).pending = s.pending ∧ (State.credit s p).sec = s.sec ∧ (State.credit s p).guard = s.guard ∧ (State.credit s p).mem = s.mem ∧ (State.credit s p).stations = s.stations := by
  simp [State.credit]

@[simp] theorem State.creditOwed_keep (s : State) : (State.creditOwed s).pending = s.pending ∧ (State.creditOwed s).sec = s.sec ∧ (State.creditOwed s).guard = s.guard ∧ (State.creditOwed s).mem = s.mem ∧ (State.creditOwed s).stations = s.stations := by
  simp [State.creditOwed]

@[simp] theorem State.routed_pending (s : State) (f : Frame) (src : Nat) (take : State → State) (hk : ∀ s, (take s).pending = s.pending) : (State.routed s f src take).pending = s.pending := by
  unfold State.routed; (repeat' split) <;> simp_all

@[simp] theorem State.routed_sec (s : State) (f : Frame) (src : Nat) (take : State → State) (hk : ∀ s, (take s).sec = s.sec) : (State.routed s f src take).sec = s.sec := by
  unfold State.routed; (repeat' split) <;> simp_all

@[simp] theorem State.routed_guard (s : State) (f : Frame) (src : Nat) (take : State → State) (hk : ∀ s, (take s).guard = s.guard) : (State.routed s f src take).guard = s.guard := by
  unfold State.routed; (repeat' split) <;> simp_all

@[simp] theorem State.routed_mem (s : State) (f : Frame) (src : Nat) (take : State → State) (hk : ∀ s, (take s).mem = s.mem) : (State.routed s f src take).mem = s.mem := by
  unfold State.routed; (repeat' split) <;> simp_all

@[simp] theorem State.routed_stations (s : State) (f : Frame) (src : Nat) (take : State → State) (hk : ∀ s, (take s).stations = s.stations) : (State.routed s f src take).stations = s.stations := by
  unfold State.routed; (repeat' split) <;> simp_all

@[simp] theorem State.bridgeIn_keep (s : State) (h : BitVec 64) (f : Frame) : (State.bridgeIn s h f).pending = s.pending ∧ (State.bridgeIn s h f).sec = s.sec ∧ (State.bridgeIn s h f).guard = s.guard := by
  unfold State.bridgeIn
  dsimp only
  split
  · simp
  · split
    · simp
    · split
      · simp
      · simp [State.takeKind_keep]

@[simp] theorem State.cacheClean_keep (s : State) (k : Nat) : (State.cacheClean s k).pending = s.pending ∧ (State.cacheClean s k).sec = s.sec ∧ (State.cacheClean s k).guard = s.guard ∧ (State.cacheClean s k).stations = s.stations := by
  simp [State.cacheClean]

@[simp] theorem State.camHeader_keep (s : State) (n : Nat) (corrected : Bool) : (State.camHeader s n corrected).pending = s.pending ∧ (State.camHeader s n corrected).sec = s.sec ∧ (State.camHeader s n corrected).guard = s.guard ∧ (State.camHeader s n corrected).mem = s.mem ∧ (State.camHeader s n corrected).stations = s.stations := by
  simp [State.camHeader]

@[simp] theorem State.stationWord_keep (s : State) (sid : Nat) (w : Word) (rec' : optParam Bool Bool.true) : (State.stationWord s sid w rec').pending = s.pending ∧ (State.stationWord s sid w rec').sec = s.sec ∧ (State.stationWord s sid w rec').guard = s.guard ∧ (State.stationWord s sid w rec').mem = s.mem ∧ (State.stationWord s sid w rec').stations = s.stations := by
  simp [State.stationWord]

@[simp] theorem State.camReport_keep (s : State) (n : Nat) (code : Nat) : (State.camReport s n code).pending = s.pending ∧ (State.camReport s n code).sec = s.sec ∧ (State.camReport s n code).guard = s.guard ∧ (State.camReport s n code).mem = s.mem ∧ (State.camReport s n code).stations = s.stations := by
  simp [State.camReport]

@[simp] theorem State.modelAbandon_keep (s : State) : (State.modelAbandon s).pending = s.pending ∧ (State.modelAbandon s).sec = s.sec ∧ (State.modelAbandon s).guard = s.guard ∧ (State.modelAbandon s).mem = s.mem ∧ (State.modelAbandon s).stations = s.stations := by
  simp [State.modelAbandon]

@[simp] theorem State.setXfer_keep (s : State) (who : Nat) (x : Option Xfer) (out : Bool) : (State.setXfer s who x out).pending = s.pending ∧ (State.setXfer s who x out).sec = s.sec ∧ (State.setXfer s who x out).guard = s.guard ∧ (State.setXfer s who x out).mem = s.mem ∧ (State.setXfer s who x out).stations = s.stations := by
  unfold State.setXfer; (repeat' split) <;> simp

@[simp] theorem State.cancelXfer_keep (s : State) (who : Nat) (out : Bool) : (State.cancelXfer s who out).pending = s.pending ∧ (State.cancelXfer s who out).sec = s.sec ∧ (State.cancelXfer s who out).guard = s.guard ∧ (State.cancelXfer s who out).mem = s.mem ∧ (State.cancelXfer s who out).stations = s.stations := by
  unfold State.cancelXfer; (repeat' split) <;> simp

@[simp] theorem State.capNote_keep (s : State) : (State.capNote s).pending = s.pending ∧ (State.capNote s).sec = s.sec ∧ (State.capNote s).guard = s.guard ∧ (State.capNote s).mem = s.mem ∧ (State.capNote s).stations = s.stations := by
  simp [State.capNote]

@[simp] theorem State.capStep_keep (s : State) (i : Nat) (p : Nat) : (State.capStep s i p).pending = s.pending ∧ (State.capStep s i p).sec = s.sec ∧ (State.capStep s i p).guard = s.guard ∧ (State.capStep s i p).mem = s.mem ∧ (State.capStep s i p).stations = s.stations := by
  simp [State.capStep]

@[simp] theorem State.capLower_keep (s : State) : (State.capLower s).pending = s.pending ∧ (State.capLower s).sec = s.sec ∧ (State.capLower s).guard = s.guard ∧ (State.capLower s).mem = s.mem ∧ (State.capLower s).stations = s.stations := by
  unfold State.capLower; (repeat' split) <;> simp

@[simp] theorem State.capRaise_keep (s : State) : (State.capRaise s).pending = s.pending ∧ (State.capRaise s).sec = s.sec ∧ (State.capRaise s).guard = s.guard ∧ (State.capRaise s).mem = s.mem ∧ (State.capRaise s).stations = s.stations := by
  unfold State.capRaise; dsimp only; (repeat' split) <;> simp_all

@[simp] theorem State.capStall_keep (s : State) (sid : Nat) : (State.capStall s sid).pending = s.pending ∧ (State.capStall s sid).sec = s.sec ∧ (State.capStall s sid).guard = s.guard := by
  simp [State.capStall]

@[simp] theorem State.capValves_keep (s : State) (v : Nat) (caps : List Nat) : (State.capValves s v caps).pending = s.pending ∧ (State.capValves s v caps).sec = s.sec ∧ (State.capValves s v caps).guard = s.guard ∧ (State.capValves s v caps).mem = s.mem ∧ (State.capValves s v caps).stations = s.stations := by
  simp [State.capValves]

@[simp] theorem State.ccc_pending (s : State) (ok : Bool) (f : State → State) (hk : ∀ s, (f s).pending = s.pending) : (State.ccc s ok f).pending = s.pending := by
  unfold State.ccc; (repeat' split) <;> simp_all

@[simp] theorem State.ccc_sec (s : State) (ok : Bool) (f : State → State) (hk : ∀ s, (f s).sec = s.sec) : (State.ccc s ok f).sec = s.sec := by
  unfold State.ccc; (repeat' split) <;> simp_all

@[simp] theorem State.ccc_guard (s : State) (ok : Bool) (f : State → State) (hk : ∀ s, (f s).guard = s.guard) : (State.ccc s ok f).guard = s.guard := by
  unfold State.ccc; (repeat' split) <;> simp_all

@[simp] theorem State.ccc_mem (s : State) (ok : Bool) (f : State → State) (hk : ∀ s, (f s).mem = s.mem) : (State.ccc s ok f).mem = s.mem := by
  unfold State.ccc; (repeat' split) <;> simp_all

@[simp] theorem State.ccc_stations (s : State) (ok : Bool) (f : State → State) (hk : ∀ s, (f s).stations = s.stations) : (State.ccc s ok f).stations = s.stations := by
  unfold State.ccc; (repeat' split) <;> simp_all

@[simp] theorem State.cccGet_pending (s : State) (f : State → Prod (List Byte) State) (hk : ∀ s, (f s).2.pending = s.pending) : (State.cccGet s f).pending = s.pending := by
  unfold State.cccGet
  simp [hk]

@[simp] theorem State.cccGet_sec (s : State) (f : State → Prod (List Byte) State) (hk : ∀ s, (f s).2.sec = s.sec) : (State.cccGet s f).sec = s.sec := by
  unfold State.cccGet
  simp [hk]

@[simp] theorem State.cccGet_guard (s : State) (f : State → Prod (List Byte) State) (hk : ∀ s, (f s).2.guard = s.guard) : (State.cccGet s f).guard = s.guard := by
  unfold State.cccGet
  simp [hk]

@[simp] theorem State.cccGet_mem (s : State) (f : State → Prod (List Byte) State) (hk : ∀ s, (f s).2.mem = s.mem) : (State.cccGet s f).mem = s.mem := by
  unfold State.cccGet
  simp [hk]

@[simp] theorem State.cccGet_stations (s : State) (f : State → Prod (List Byte) State) (hk : ∀ s, (f s).2.stations = s.stations) : (State.cccGet s f).stations = s.stations := by
  unfold State.cccGet
  simp [hk]

@[simp] theorem State.check_keep (s : State) (sid : Nat) (run : ArrayRun) (word : Option StepWord) : (State.check s sid run word).pending = s.pending := by
  unfold State.check
  dsimp only
  (repeat' split) <;> simp

@[simp] theorem State.chooseIncrement_keep (s : State) : (State.chooseIncrement s).pending = s.pending ∧ (State.chooseIncrement s).sec = s.sec ∧ (State.chooseIncrement s).guard = s.guard ∧ (State.chooseIncrement s).mem = s.mem ∧ (State.chooseIncrement s).stations = s.stations := by
  simp [State.chooseIncrement]

@[simp] theorem State.clearCauses_keep (s : State) (p : Prod Nat (Prod Word Nat) → Bool) : (State.clearCauses s p).pending = s.pending ∧ (State.clearCauses s p).sec = s.sec ∧ (State.clearCauses s p).mem = s.mem ∧ (State.clearCauses s p).stations = s.stations := by
  simp [State.clearCauses]

@[simp] theorem State.clearDoFault_keep (s : State) (k : Nat) (b : Nat) : (State.clearDoFault s k b).pending = s.pending ∧ (State.clearDoFault s k b).sec = s.sec ∧ (State.clearDoFault s k b).guard = s.guard ∧ (State.clearDoFault s k b).mem = s.mem ∧ (State.clearDoFault s k b).stations = s.stations := by
  simp [State.clearDoFault]

@[simp] theorem State.clearStation_keep (s : State) (sid : Nat) : (State.clearStation s sid).pending = s.pending ∧ (State.clearStation s sid).sec = s.sec ∧ (State.clearStation s sid).mem = s.mem := by
  simp [State.clearStation]

@[simp] theorem State.clockLock_keep (s : State) (n : Nat) (marker : Bool) (skew : Nat) : (State.clockLock s n marker skew).pending = s.pending ∧ (State.clockLock s n marker skew).sec = s.sec ∧ (State.clockLock s n marker skew).guard = s.guard ∧ (State.clockLock s n marker skew).mem = s.mem ∧ (State.clockLock s n marker skew).stations = s.stations := by
  simp [State.clockLock]

@[simp] theorem State.closeFrame_keep (s : State) (n : Nat) (fifoLow : Bool) (kind : RawKind) : (State.closeFrame s n fifoLow kind).pending = s.pending ∧ (State.closeFrame s n fifoLow kind).sec = s.sec ∧ (State.closeFrame s n fifoLow kind).guard = s.guard ∧ (State.closeFrame s n fifoLow kind).mem = s.mem ∧ (State.closeFrame s n fifoLow kind).stations = s.stations := by
  simp [State.closeFrame]

@[simp] theorem State.closeSession_keep (s : State) (n : Nat) : (State.closeSession s n).pending = s.pending ∧ (State.closeSession s n).guard = s.guard ∧ (State.closeSession s n).mem = s.mem ∧ (State.closeSession s n).stations = s.stations := by
  simp [State.closeSession]

@[simp] theorem State.closeSessions_keep (s : State) (p : Session → Bool) : (State.closeSessions s p).pending = s.pending ∧ (State.closeSessions s p).guard = s.guard ∧ (State.closeSessions s p).mem = s.mem ∧ (State.closeSessions s p).stations = s.stations := by
  simp [State.closeSessions]

@[simp] theorem State.closeIfOff_keep (s : State) : (State.closeIfOff s).pending = s.pending ∧ (State.closeIfOff s).guard = s.guard ∧ (State.closeIfOff s).mem = s.mem ∧ (State.closeIfOff s).stations = s.stations := by
  simp [State.closeIfOff]

@[simp] theorem State.closeOrder_keep (s : State) (seq : Nat) (closed : Bool) : (State.closeOrder s seq closed).pending = s.pending ∧ (State.closeOrder s seq closed).sec = s.sec ∧ (State.closeOrder s seq closed).guard = s.guard ∧ (State.closeOrder s seq closed).mem = s.mem ∧ (State.closeOrder s seq closed).stations = s.stations := by
  simp [State.closeOrder]

@[simp] theorem State.cmdMalformed_keep (s : State) : (State.cmdMalformed s).pending = s.pending ∧ (State.cmdMalformed s).sec = s.sec ∧ (State.cmdMalformed s).guard = s.guard ∧ (State.cmdMalformed s).mem = s.mem ∧ (State.cmdMalformed s).stations = s.stations := by
  simp [State.cmdMalformed]

@[simp] theorem State.commitSaved_keep (s : State) : (State.commitSaved s).pending = s.pending ∧ (State.commitSaved s).sec = s.sec ∧ (State.commitSaved s).guard = s.guard ∧ (State.commitSaved s).mem = s.mem ∧ (State.commitSaved s).stations = s.stations := by
  simp [State.commitSaved]

@[simp] theorem State.concealed_keep (s : State) (f : Frame420) (old : Frame420) (size : Nat) (lost : List Nat) : (State.concealed s f old size lost).2.pending = s.pending ∧ (State.concealed s f old size lost).2.sec = s.sec ∧ (State.concealed s f old size lost).2.guard = s.guard ∧ (State.concealed s f old size lost).2.mem = s.mem ∧ (State.concealed s f old size lost).2.stations = s.stations := by
  unfold State.concealed; (repeat' split) <;> simp

@[simp] theorem State.control_keep (s : State) (sid : Nat) (op : Nat) (f : Station → StepWord → Station) : (State.control s sid op f).pending = s.pending ∧ (State.control s sid op f).sec = s.sec ∧ (State.control s sid op f).guard = s.guard ∧ (State.control s sid op f).mem = s.mem := by
  unfold State.control; dsimp only; (repeat' split) <;> simp_all

@[simp] theorem State.ringCodes_keep (s : State) (sid : Nat) (n : Nat) (line : Nat) (ch : Nat) (a : Nat) (cols : Nat) : (State.ringCodes s sid n line ch a cols).2.2.pending = s.pending ∧ (State.ringCodes s sid n line ch a cols).2.2.sec = s.sec ∧ (State.ringCodes s sid n line ch a cols).2.2.guard = s.guard ∧ (State.ringCodes s sid n line ch a cols).2.2.stations = s.stations := by
  simp [State.ringCodes]

@[simp] theorem State.copyCrop_keep (s : State) (v : Verdict) (a : Nat) (cols : Nat) (first : Nat) (dst : Nat) (x6 : Nat) : (State.copyCrop s v a cols first dst x6).pending = s.pending ∧ (State.copyCrop s v a cols first dst x6).sec = s.sec ∧ (State.copyCrop s v a cols first dst x6).guard = s.guard ∧ (State.copyCrop s v a cols first dst x6).stations = s.stations := by
  fun_induction State.copyCrop s v a cols first dst x6 <;> ((try simp only [Prod.ext_iff] at *) <;> (try casesm* _ ∧ _) <;> (try subst_vars) <;> (first | (simp_all; done) | (simp_all +zetaDelta; done)))

@[simp] theorem State.pte_keep (s : State) (sid : Nat) (l : KvList) (i : Nat) : (State.pte s sid l i).2.pending = s.pending ∧ (State.pte s sid l i).2.sec = s.sec ∧ (State.pte s sid l i).2.guard = s.guard := by
  simp [State.pte]

@[simp] theorem State.copyList_keep (s : State) (sid : Nat) (a : KvList) (b : KvList) (i : Nat) (x5 : Nat) : (State.copyList s sid a b i x5).pending = s.pending ∧ (State.copyList s sid a b i x5).sec = s.sec ∧ (State.copyList s sid a b i x5).guard = s.guard := by
  fun_induction State.copyList s sid a b i x5 <;> ((try simp only [Prod.ext_iff] at *) <;> (try casesm* _ ∧ _) <;> (try subst_vars) <;> (first | (simp_all; done) | (simp_all +zetaDelta; done)))

@[simp] theorem State.correct_keep (s : State) (inp : Nat) (out : Nat) (l : List Byte) (residence : Nat) : (State.correct s inp out l residence).2.pending = s.pending ∧ (State.correct s inp out l residence).2.sec = s.sec ∧ (State.correct s inp out l residence).2.guard = s.guard ∧ (State.correct s inp out l residence).2.mem = s.mem ∧ (State.correct s inp out l residence).2.stations = s.stations := by
  unfold State.correct; (repeat' split) <;> simp

@[simp] theorem State.mapEnc_keep (s : State) (ch : Nat) (f : Encoder → Encoder) : (State.mapEnc s ch f).pending = s.pending ∧ (State.mapEnc s ch f).sec = s.sec ∧ (State.mapEnc s ch f).guard = s.guard ∧ (State.mapEnc s ch f).mem = s.mem ∧ (State.mapEnc s ch f).stations = s.stations := by
  simp [State.mapEnc]

@[simp] theorem State.countEdge_keep (s : State) (ch : Nat) (d : Int) (time : Int) : (State.countEdge s ch d time).pending = s.pending ∧ (State.countEdge s ch d time).sec = s.sec ∧ (State.countEdge s ch d time).guard = s.guard ∧ (State.countEdge s ch d time).mem = s.mem ∧ (State.countEdge s ch d time).stations = s.stations := by
  simp [State.countEdge]

@[simp] theorem State.countStats_keep (s : State) (n : Nat) (row : Nat) (vals : List (List Nat)) (excluded : Bool) : (State.countStats s n row vals excluded).pending = s.pending ∧ (State.countStats s n row vals excluded).sec = s.sec ∧ (State.countStats s n row vals excluded).guard = s.guard ∧ (State.countStats s n row vals excluded).mem = s.mem ∧ (State.countStats s n row vals excluded).stations = s.stations := by
  simp [State.countStats]

@[simp] theorem State.strobeBlock_keep (s : State) (seen : Nat → Nat → Nat) (b : Nat) : (State.strobeBlock s seen b).pending = s.pending ∧ (State.strobeBlock s seen b).sec = s.sec ∧ (State.strobeBlock s seen b).guard = s.guard ∧ (State.strobeBlock s seen b).mem = s.mem ∧ (State.strobeBlock s seen b).stations = s.stations := by
  simp [State.strobeBlock]

@[simp] theorem State.counterStrobe_keep (s : State) (seen : List (Prod Nat (List Nat))) : (State.counterStrobe s seen).pending = s.pending ∧ (State.counterStrobe s seen).sec = s.sec ∧ (State.counterStrobe s seen).guard = s.guard ∧ (State.counterStrobe s seen).stations = s.stations := by
  simp [State.counterStrobe]

@[simp] theorem State.csi_keep (s : State) (n : Nat) (vc : Nat) (type : Nat) (bytes : List Byte) : (State.csi s n vc type bytes).pending = s.pending ∧ (State.csi s n vc type bytes).sec = s.sec ∧ (State.csi s n vc type bytes).guard = s.guard ∧ (State.csi s n vc type bytes).mem = s.mem ∧ (State.csi s n vc type bytes).stations = s.stations := by
  simp [State.csi]

@[simp] theorem State.endFrame_keep (s : State) (n : Nat) (f : OutFrame) : (State.endFrame s n f).pending = s.pending ∧ (State.endFrame s n f).sec = s.sec ∧ (State.endFrame s n f).guard = s.guard ∧ (State.endFrame s n f).mem = s.mem ∧ (State.endFrame s n f).stations = s.stations := by
  unfold State.endFrame; dsimp only; (repeat' split) <;> simp_all

@[simp] theorem State.startFrame_keep (s : State) (n : Nat) (f : OutFrame) (lines : Nat) (pos : Int) (ctx : List Byte) : (State.startFrame s n f lines pos ctx).pending = s.pending ∧ (State.startFrame s n f lines pos ctx).sec = s.sec ∧ (State.startFrame s n f lines pos ctx).guard = s.guard ∧ (State.startFrame s n f lines pos ctx).mem = s.mem ∧ (State.startFrame s n f lines pos ctx).stations = s.stations := by
  simp [State.startFrame]

@[simp] theorem State.startOverlay_keep (s : State) (n : Nat) (base : Nat) : (State.startOverlay s n base).pending = s.pending ∧ (State.startOverlay s n base).sec = s.sec ∧ (State.startOverlay s n base).guard = s.guard ∧ (State.startOverlay s n base).mem = s.mem ∧ (State.startOverlay s n base).stations = s.stations := by
  simp [State.startOverlay]

@[simp] theorem State.startMosaic_keep (s : State) (n : Nat) (q : Nat) (x3 : Nat) : (State.startMosaic s n q x3).2.pending = s.pending ∧ (State.startMosaic s n q x3).2.sec = s.sec ∧ (State.startMosaic s n q x3).2.guard = s.guard ∧ (State.startMosaic s n q x3).2.mem = s.mem ∧ (State.startMosaic s n q x3).2.stations = s.stations := by
  fun_induction State.startMosaic s n q x3 <;> ((try simp only [Prod.ext_iff] at *) <;> (try casesm* _ ∧ _) <;> (try subst_vars) <;> (first | (simp_all; done) | (simp_all +zetaDelta; done)))

@[simp] theorem State.startCrop_keep (s : State) (n : Nat) (c : CropReq) : (State.startCrop s n c).pending = s.pending ∧ (State.startCrop s n c).sec = s.sec ∧ (State.startCrop s n c).guard = s.guard ∧ (State.startCrop s n c).mem = s.mem ∧ (State.startCrop s n c).stations = s.stations := by
  simp [State.startCrop]

@[simp] theorem State.coutFrameStart_keep (s : State) (n : Nat) : (State.coutFrameStart s n).pending = s.pending ∧ (State.coutFrameStart s n).sec = s.sec ∧ (State.coutFrameStart s n).guard = s.guard ∧ (State.coutFrameStart s n).mem = s.mem ∧ (State.coutFrameStart s n).stations = s.stations := by
  unfold State.coutFrameStart; dsimp only; (repeat' split) <;> simp_all

@[simp] theorem State.coutLine_keep (s : State) (n : Nat) : (State.coutLine s n).pending = s.pending ∧ (State.coutLine s n).sec = s.sec ∧ (State.coutLine s n).guard = s.guard ∧ (State.coutLine s n).mem = s.mem ∧ (State.coutLine s n).stations = s.stations := by
  unfold State.coutLine; (repeat' split) <;> simp

@[simp] theorem State.creditPop_keep (s : State) (q : Nat) (d : Desc) : (State.creditPop s q d).pending = s.pending ∧ (State.creditPop s q d).sec = s.sec ∧ (State.creditPop s q d).guard = s.guard ∧ (State.creditPop s q d).mem = s.mem ∧ (State.creditPop s q d).stations = s.stations := by
  unfold State.creditPop; dsimp only; (repeat' split) <;> simp_all

@[simp] theorem State.cropRequest_keep (s : State) (v : Verdict) (n : Nat) : (State.cropRequest s v n).pending = s.pending ∧ (State.cropRequest s v n).sec = s.sec ∧ (State.cropRequest s v n).guard = s.guard ∧ (State.cropRequest s v n).mem = s.mem ∧ (State.cropRequest s v n).stations = s.stations := by
  unfold State.cropRequest; (repeat' split) <;> simp

@[simp] theorem State.makeSample_keep (s : State) (v : Verdict) (slot : Nat) (a : Nat) (cols : Nat) (first : Nat) (last : Nat) (lvl : Nat) : (State.makeSample s v slot a cols first last lvl).pending = s.pending ∧ (State.makeSample s v slot a cols first last lvl).sec = s.sec ∧ (State.makeSample s v slot a cols first last lvl).guard = s.guard ∧ (State.makeSample s v slot a cols first last lvl).stations = s.stations := by
  simp [State.makeSample]

@[simp] theorem State.cropSample_keep (s : State) : (State.cropSample s).pending = s.pending ∧ (State.cropSample s).sec = s.sec ∧ (State.cropSample s).guard = s.guard ∧ (State.cropSample s).stations = s.stations := by
  unfold State.cropSample; dsimp only; (repeat' split) <;> simp_all

@[simp] theorem State.mapWindows_keep (s : State) (f : Window → Window) : (State.mapWindows s f).pending = s.pending ∧ (State.mapWindows s f).sec = s.sec ∧ (State.mapWindows s f).guard = s.guard ∧ (State.mapWindows s f).mem = s.mem ∧ (State.mapWindows s f).stations = s.stations := by
  simp [State.mapWindows]

@[simp] theorem State.cutParts_keep (s : State) (v : Nat) (l : Latch) : (State.cutParts s v l).1.pending = s.pending ∧ (State.cutParts s v l).1.sec = s.sec ∧ (State.cutParts s v l).1.guard = s.guard ∧ (State.cutParts s v l).1.mem = s.mem ∧ (State.cutParts s v l).1.stations = s.stations := by
  simp [State.cutParts]

@[simp] theorem State.damageRecord_keep (s : State) (n : Nat) (u : AccessUnit) (cause : Nat) (first : Nat) (damaged : Nat) (total : Nat) (mucked : Bool) : (State.damageRecord s n u cause first damaged total mucked).pending = s.pending ∧ (State.damageRecord s n u cause first damaged total mucked).sec = s.sec ∧ (State.damageRecord s n u cause first damaged total mucked).guard = s.guard ∧ (State.damageRecord s n u cause first damaged total mucked).stations = s.stations := by
  simp [State.damageRecord]

@[simp] theorem State.deadlineMissed_keep (s : State) (id : Nat) : (State.deadlineMissed s id).pending = s.pending ∧ (State.deadlineMissed s id).sec = s.sec ∧ (State.deadlineMissed s id).guard = s.guard ∧ (State.deadlineMissed s id).mem = s.mem ∧ (State.deadlineMissed s id).stations = s.stations := by
  unfold State.deadlineMissed; (repeat' split) <;> simp

@[simp] theorem State.noteChange_keep (s : State) (ps : List Part) : (State.noteChange s ps).pending = s.pending ∧ (State.noteChange s ps).sec = s.sec ∧ (State.noteChange s ps).guard = s.guard ∧ (State.noteChange s ps).mem = s.mem ∧ (State.noteChange s ps).stations = s.stations := by
  simp [State.noteChange]

@[simp] theorem State.windowCancel_keep (s : State) (c : WinCmd) : (State.windowCancel s c).pending = s.pending ∧ (State.windowCancel s c).sec = s.sec ∧ (State.windowCancel s c).guard = s.guard ∧ (State.windowCancel s c).mem = s.mem ∧ (State.windowCancel s c).stations = s.stations := by
  unfold State.windowCancel; (repeat' split) <;> simp

@[simp] theorem State.putWindow_keep (s : State) (w : Window) : (State.putWindow s w).pending = s.pending ∧ (State.putWindow s w).sec = s.sec ∧ (State.putWindow s w).guard = s.guard ∧ (State.putWindow s w).mem = s.mem ∧ (State.putWindow s w).stations = s.stations := by
  simp [State.putWindow]

@[simp] theorem State.splitRun_keep (s : State) (c : WinCmd) : (State.splitRun s c).2.pending = s.pending ∧ (State.splitRun s c).2.sec = s.sec ∧ (State.splitRun s c).2.guard = s.guard ∧ (State.splitRun s c).2.mem = s.mem ∧ (State.splitRun s c).2.stations = s.stations := by
  unfold State.splitRun
  refine ⟨?_, ?_, ?_, ?_, ?_⟩
  · exact foldl2_pending _ (fun u v => by simp; (repeat' split) <;> simp_all) _ _
  · exact foldl2_sec _ (fun u v => by simp; (repeat' split) <;> simp_all) _ _
  · exact foldl2_guard _ (fun u v => by simp; (repeat' split) <;> simp_all) _ _
  · exact foldl2_mem _ (fun u v => by simp; (repeat' split) <;> simp_all) _ _
  · exact foldl2_stations _ (fun u v => by simp; (repeat' split) <;> simp_all) _ _

@[simp] theorem State.windowAmend_keep (s : State) (c : WinCmd) : (State.windowAmend s c).pending = s.pending ∧ (State.windowAmend s c).sec = s.sec ∧ (State.windowAmend s c).guard = s.guard ∧ (State.windowAmend s c).mem = s.mem ∧ (State.windowAmend s c).stations = s.stations := by
  unfold State.windowAmend; dsimp only; (repeat' split) <;> simp_all

@[simp] theorem State.windowNew_keep (s : State) (c : WinCmd) : (State.windowNew s c).pending = s.pending ∧ (State.windowNew s c).sec = s.sec ∧ (State.windowNew s c).guard = s.guard ∧ (State.windowNew s c).mem = s.mem ∧ (State.windowNew s c).stations = s.stations := by
  unfold State.windowNew; (repeat' split) <;> simp

@[simp] theorem State.windowCommand_keep (s : State) (c : WinCmd) (deadline : Nat) : (State.windowCommand s c deadline).pending = s.pending ∧ (State.windowCommand s c deadline).sec = s.sec ∧ (State.windowCommand s c deadline).guard = s.guard ∧ (State.windowCommand s c deadline).mem = s.mem ∧ (State.windowCommand s c deadline).stations = s.stations := by
  unfold State.windowCommand; (repeat' split) <;> simp

@[simp] theorem State.dealRows_keep (s : State) (r0 : Running) : (State.dealRows s r0).2.pending = s.pending ∧ (State.dealRows s r0).2.sec = s.sec ∧ (State.dealRows s r0).2.guard = s.guard ∧ (State.dealRows s r0).2.stations = s.stations := by
  unfold State.dealRows; dsimp only; (repeat' split) <;> simp_all

@[simp] theorem State.dealNext_keep (s : State) (cmd : Nat) : (State.dealNext s cmd).pending = s.pending ∧ (State.dealNext s cmd).sec = s.sec ∧ (State.dealNext s cmd).guard = s.guard := by
  unfold State.dealNext; dsimp only; (repeat' split) <;> simp_all

@[simp] theorem State.sigFail_keep (s : State) : (State.sigFail s).pending = s.pending ∧ (State.sigFail s).sec = s.sec ∧ (State.sigFail s).guard = s.guard ∧ (State.sigFail s).mem = s.mem ∧ (State.sigFail s).stations = s.stations := by
  simp [State.sigFail]

@[simp] theorem State.eraseKeys_keep (s : State) : (State.eraseKeys s).pending = s.pending ∧ (State.eraseKeys s).sec = s.sec ∧ (State.eraseKeys s).guard = s.guard ∧ (State.eraseKeys s).mem = s.mem ∧ (State.eraseKeys s).stations = s.stations := by
  simp [State.eraseKeys]

@[simp] theorem State.zeroise_keep (s : State) : (State.zeroise s).pending = s.pending ∧ (State.zeroise s).guard = s.guard ∧ (State.zeroise s).mem = s.mem ∧ (State.zeroise s).stations = s.stations := by
  simp [State.zeroise]

@[simp] theorem State.debugToken_keep (s : State) (l : List Byte) : (State.debugToken s l).2.pending = s.pending ∧ (State.debugToken s l).2.guard = s.guard ∧ (State.debugToken s l).2.mem = s.mem ∧ (State.debugToken s l).2.stations = s.stations := by
  unfold State.debugToken; (repeat' split) <;> simp

@[simp] theorem State.issue_keep (s : State) (v : Verdict) : (State.issue s v).pending = s.pending ∧ (State.issue s v).sec = s.sec ∧ (State.issue s v).guard = s.guard ∧ (State.issue s v).mem = s.mem ∧ (State.issue s v).stations = s.stations := by
  simp [State.issue]

@[simp] theorem State.valveRun_keep (s : State) (x1 : Int) (x2 : Int) : (State.valveRun s x1 x2).2.pending = s.pending ∧ (State.valveRun s x1 x2).2.sec = s.sec ∧ (State.valveRun s x1 x2).2.guard = s.guard ∧ (State.valveRun s x1 x2).2.mem = s.mem ∧ (State.valveRun s x1 x2).2.stations = s.stations := by
  unfold State.valveRun; dsimp only; (repeat' split) <;> simp_all

@[simp] theorem State.verdictRow_keep (s : State) (d : Detect) (reserve : Nat) : (State.verdictRow s d reserve).2.pending = s.pending ∧ (State.verdictRow s d reserve).2.sec = s.sec ∧ (State.verdictRow s d reserve).2.guard = s.guard ∧ (State.verdictRow s d reserve).2.mem = s.mem ∧ (State.verdictRow s d reserve).2.stations = s.stations := by
  simp [State.verdictRow]

@[simp] theorem State.decideOne_keep (s : State) (reserve : Nat) (d : Detect) : (State.decideOne s reserve d).1.pending = s.pending ∧ (State.decideOne s reserve d).1.sec = s.sec ∧ (State.decideOne s reserve d).1.guard = s.guard ∧ (State.decideOne s reserve d).1.mem = s.mem ∧ (State.decideOne s reserve d).1.stations = s.stations := by
  simp [State.decideOne]

@[simp] theorem State.releaseGroup_keep (s : State) (reserve : Nat) (g : Nat) : (State.releaseGroup s reserve g).1.pending = s.pending ∧ (State.releaseGroup s reserve g).1.sec = s.sec ∧ (State.releaseGroup s reserve g).1.guard = s.guard ∧ (State.releaseGroup s reserve g).1.mem = s.mem ∧ (State.releaseGroup s reserve g).1.stations = s.stations := by
  unfold State.releaseGroup; dsimp only; (repeat' split) <;> simp_all

@[simp] theorem foldRows_pending {α : Type} (f : State → α → Prod State Rows) (s : State) (l : List α) (hk : ∀ s a, (f s a).1.pending = s.pending) : (@foldRows α f s l).1.pending = s.pending := by
  unfold foldRows; (repeat' split) <;> simp_all

@[simp] theorem foldRows_sec {α : Type} (f : State → α → Prod State Rows) (s : State) (l : List α) (hk : ∀ s a, (f s a).1.sec = s.sec) : (@foldRows α f s l).1.sec = s.sec := by
  unfold foldRows; (repeat' split) <;> simp_all

@[simp] theorem foldRows_guard {α : Type} (f : State → α → Prod State Rows) (s : State) (l : List α) (hk : ∀ s a, (f s a).1.guard = s.guard) : (@foldRows α f s l).1.guard = s.guard := by
  unfold foldRows; (repeat' split) <;> simp_all

@[simp] theorem foldRows_mem {α : Type} (f : State → α → Prod State Rows) (s : State) (l : List α) (hk : ∀ s a, (f s a).1.mem = s.mem) : (@foldRows α f s l).1.mem = s.mem := by
  unfold foldRows; (repeat' split) <;> simp_all

@[simp] theorem foldRows_stations {α : Type} (f : State → α → Prod State Rows) (s : State) (l : List α) (hk : ∀ s a, (f s a).1.stations = s.stations) : (@foldRows α f s l).1.stations = s.stations := by
  unfold foldRows; (repeat' split) <;> simp_all

@[simp] theorem State.decideGap_keep (s : State) (reserve : Nat) (port : Nat) : (State.decideGap s reserve port).1.pending = s.pending ∧ (State.decideGap s reserve port).1.sec = s.sec ∧ (State.decideGap s reserve port).1.guard = s.guard ∧ (State.decideGap s reserve port).1.mem = s.mem ∧ (State.decideGap s reserve port).1.stations = s.stations := by
  simp [State.decideGap]

@[simp] theorem State.stepOutputs_keep (s : State) (sid : Nat) (r0 : Running) (outs : List OutTile) : (State.stepOutputs s sid r0 outs).pending = s.pending ∧ (State.stepOutputs s sid r0 outs).sec = s.sec ∧ (State.stepOutputs s sid r0 outs).guard = s.guard ∧ (State.stepOutputs s sid r0 outs).mem = s.mem := by
  simp [State.stepOutputs]

@[simp] theorem State.takePart_keep (s : State) (reserve : Nat) (d : Detect) : (State.takePart s reserve d).1.pending = s.pending ∧ (State.takePart s reserve d).1.sec = s.sec ∧ (State.takePart s reserve d).1.guard = s.guard ∧ (State.takePart s reserve d).1.mem = s.mem ∧ (State.takePart s reserve d).1.stations = s.stations := by
  unfold State.takePart; dsimp only; (repeat' split) <;> simp_all

@[simp] theorem State.takeRow_keep (s : State) (reserve : Nat) (r0 : DetRow) : (State.takeRow s reserve r0).1.pending = s.pending ∧ (State.takeRow s reserve r0).1.sec = s.sec ∧ (State.takeRow s reserve r0).1.guard = s.guard ∧ (State.takeRow s reserve r0).1.mem = s.mem ∧ (State.takeRow s reserve r0).1.stations = s.stations := by
  unfold State.takeRow; (repeat' split) <;> simp

@[simp] theorem State.decideTile_keep (s : State) (reserve : Nat) (port : Nat) (d : Desc) : (State.decideTile s reserve port d).1.pending = s.pending ∧ (State.decideTile s reserve port d).1.sec = s.sec ∧ (State.decideTile s reserve port d).1.guard = s.guard ∧ (State.decideTile s reserve port d).1.stations = s.stations := by
  simp [State.decideTile]

@[simp] theorem State.decideStep_keep (s : State) : (State.decideStep s).pending = s.pending ∧ (State.decideStep s).sec = s.sec ∧ (State.decideStep s).guard = s.guard := by
  unfold State.decideStep; (repeat' split) <;> simp

@[simp] theorem State.declare_keep (s : State) (sid : Nat) (base : Nat) (stride : Int) (length : Nat) : (State.declare s sid base stride length).pending = s.pending ∧ (State.declare s sid base stride length).sec = s.sec ∧ (State.declare s sid base stride length).guard = s.guard ∧ (State.declare s sid base stride length).stations = s.stations := by
  unfold State.declare; (repeat' split) <;> simp

@[simp] theorem State.declareWeights_keep (s : State) (sid : Nat) (g : MulArgs) (ws : List Item) : (State.declareWeights s sid g ws).pending = s.pending ∧ (State.declareWeights s sid g ws).sec = s.sec ∧ (State.declareWeights s sid g ws).guard = s.guard ∧ (State.declareWeights s sid g ws).stations = s.stations := by
  unfold State.declareWeights; (repeat' split) <;> simp

@[simp] theorem State.putPicture_keep (s : State) (n : Nat) (p : Picture) : (State.putPicture s n p).pending = s.pending ∧ (State.putPicture s n p).sec = s.sec ∧ (State.putPicture s n p).guard = s.guard ∧ (State.putPicture s n p).mem = s.mem ∧ (State.putPicture s n p).stations = s.stations := by
  simp [State.putPicture]

@[simp] theorem State.putRepeat_keep (s : State) (n : Nat) (u : AccessUnit) (old : Bool) (permille : Nat) : (State.putRepeat s n u old permille).pending = s.pending ∧ (State.putRepeat s n u old permille).sec = s.sec ∧ (State.putRepeat s n u old permille).guard = s.guard ∧ (State.putRepeat s n u old permille).mem = s.mem ∧ (State.putRepeat s n u old permille).stations = s.stations := by
  unfold State.putRepeat; (repeat' split) <;> simp

@[simp] theorem State.putUndecoded_keep (s : State) (n : Nat) (u : AccessUnit) : (State.putUndecoded s n u).pending = s.pending ∧ (State.putUndecoded s n u).sec = s.sec ∧ (State.putUndecoded s n u).guard = s.guard ∧ (State.putUndecoded s n u).mem = s.mem ∧ (State.putUndecoded s n u).stations = s.stations := by
  simp [State.putUndecoded]

@[simp] theorem State.putSkipped_keep (s : State) (n : Nat) (x2 : Nat) : (State.putSkipped s n x2).pending = s.pending ∧ (State.putSkipped s n x2).sec = s.sec ∧ (State.putSkipped s n x2).guard = s.guard ∧ (State.putSkipped s n x2).mem = s.mem ∧ (State.putSkipped s n x2).stations = s.stations := by
  fun_induction State.putSkipped s n x2 <;> ((try simp only [Prod.ext_iff] at *) <;> (try casesm* _ ∧ _) <;> (try subst_vars) <;> (first | (simp_all; done) | (simp_all +zetaDelta; done)))

@[simp] theorem State.skipUnits_keep (s : State) (n : Nat) : (State.skipUnits s n).pending = s.pending ∧ (State.skipUnits s n).sec = s.sec ∧ (State.skipUnits s n).guard = s.guard ∧ (State.skipUnits s n).mem = s.mem ∧ (State.skipUnits s n).stations = s.stations := by
  simp [State.skipUnits]

@[simp] theorem State.decodeSlice_keep (s : State) (core : Nat) : (State.decodeSlice s core).pending = s.pending ∧ (State.decodeSlice s core).sec = s.sec ∧ (State.decodeSlice s core).guard = s.guard ∧ (State.decodeSlice s core).mem = s.mem ∧ (State.decodeSlice s core).stations = s.stations := by
  unfold State.decodeSlice; dsimp only; (repeat' split) <;> simp_all

end Sys2Proof.Machine
end

