-- ==== Sys2Proof/Laws/KeepUnits.lean ====
section
/-! SUPPORT. What an operation leaves as it was, of: the waiting commands, the security state, the guard, the memory,
the stations. One lemma for an operation names those of the five that it never touches (goes on from the file before). -/

namespace Sys2Proof.Machine

set_option linter.all false

@[simp] theorem State.slew_keep (s : State) (o : Int) : (State.slew s o).pending = s.pending ∧ (State.slew s o).sec = s.sec ∧ (State.slew s o).guard = s.guard ∧ (State.slew s o).mem = s.mem ∧ (State.slew s o).stations = s.stations := by
  simp [State.slew]

@[simp] theorem State.holdover_keep (s : State) : (State.holdover s).pending = s.pending ∧ (State.holdover s).sec = s.sec ∧ (State.holdover s).guard = s.guard ∧ (State.holdover s).mem = s.mem ∧ (State.holdover s).stations = s.stations := by
  simp [State.holdover]

@[simp] theorem State.reportRefused_keep (s : State) (d : Int) : (State.reportRefused s d).pending = s.pending ∧ (State.reportRefused s d).sec = s.sec ∧ (State.reportRefused s d).guard = s.guard ∧ (State.reportRefused s d).mem = s.mem ∧ (State.reportRefused s d).stations = s.stations := by
  simp [State.reportRefused]

@[simp] theorem State.servoStep_keep (s : State) (d : Int) : (State.servoStep s d).pending = s.pending ∧ (State.servoStep s d).sec = s.sec ∧ (State.servoStep s d).guard = s.guard ∧ (State.servoStep s d).mem = s.mem ∧ (State.servoStep s d).stations = s.stations := by
  simp [State.servoStep]

@[simp] theorem State.servo_keep (s : State) (o : Int) : (State.servo s o).pending = s.pending ∧ (State.servo s o).sec = s.sec ∧ (State.servo s o).guard = s.guard ∧ (State.servo s o).mem = s.mem ∧ (State.servo s o).stations = s.stations := by
  simp [State.servo]

@[simp] theorem State.half_keep (s : State) (n : Int) : (State.half s n).2.pending = s.pending ∧ (State.half s n).2.sec = s.sec ∧ (State.half s n).2.guard = s.guard ∧ (State.half s n).2.mem = s.mem ∧ (State.half s n).2.stations = s.stations := by
  unfold State.half; dsimp only; (repeat' split) <;> simp_all

@[simp] theorem State.delayResp_keep (s : State) (port : Nat) (t1 : Int) (t2 : Int) (t3 : Int) (t4 : Int) : (State.delayResp s port t1 t2 t3 t4).pending = s.pending ∧ (State.delayResp s port t1 t2 t3 t4).sec = s.sec ∧ (State.delayResp s port t1 t2 t3 t4).guard = s.guard ∧ (State.delayResp s port t1 t2 t3 t4).mem = s.mem ∧ (State.delayResp s port t1 t2 t3 t4).stations = s.stations := by
  simp [State.delayResp]

@[simp] theorem State.reordered_keep (s : State) (sid : Nat) (d : Desc) : (State.reordered s sid d).pending = s.pending ∧ (State.reordered s sid d).sec = s.sec ∧ (State.reordered s sid d).guard = s.guard ∧ (State.reordered s sid d).mem = s.mem ∧ (State.reordered s sid d).stations = s.stations := by
  unfold State.reordered; (repeat' split) <;> simp

@[simp] theorem State.tileWakes_keep (s : State) (sid : Nat) : (State.tileWakes s sid).pending = s.pending ∧ (State.tileWakes s sid).sec = s.sec ∧ (State.tileWakes s sid).guard = s.guard ∧ (State.tileWakes s sid).mem = s.mem ∧ (State.tileWakes s sid).stations = s.stations := by
  simp [State.tileWakes]

@[simp] theorem State.queueTile_keep (s : State) (sid : Nat) (port : Nat) (id : Nat) (x : Stream) (d : Desc) : (State.queueTile s sid port id x d).pending = s.pending ∧ (State.queueTile s sid port id x d).sec = s.sec ∧ (State.queueTile s sid port id x d).guard = s.guard ∧ (State.queueTile s sid port id x d).mem = s.mem := by
  simp [State.queueTile]

@[simp] theorem State.dropTile_keep (s : State) (sid : Nat) (id : Nat) (x : Stream) (d : Desc) : (State.dropTile s sid id x d).pending = s.pending ∧ (State.dropTile s sid id x d).sec = s.sec ∧ (State.dropTile s sid id x d).guard = s.guard ∧ (State.dropTile s sid id x d).mem = s.mem := by
  simp [State.dropTile]

@[simp] theorem State.queueForJob_keep (s : State) (sid : Nat) (port : Nat) (id : Nat) (jid : Nat) (j : Job) (x : Stream) (d : Desc) : (State.queueForJob s sid port id jid j x d).pending = s.pending ∧ (State.queueForJob s sid port id jid j x d).sec = s.sec ∧ (State.queueForJob s sid port id jid j x d).guard = s.guard ∧ (State.queueForJob s sid port id jid j x d).mem = s.mem ∧ (State.queueForJob s sid port id jid j x d).stations = s.stations := by
  simp [State.queueForJob]

@[simp] theorem State.strayTile_keep (s : State) (sid : Nat) (port : Nat) (id : Nat) (d : Desc) : (State.strayTile s sid port id d).pending = s.pending ∧ (State.strayTile s sid port id d).sec = s.sec ∧ (State.strayTile s sid port id d).guard = s.guard ∧ (State.strayTile s sid port id d).mem = s.mem ∧ (State.strayTile s sid port id d).stations = s.stations := by
  unfold State.strayTile; (repeat' split) <;> simp

@[simp] theorem State.toSender_keep (s : State) (d : Desc) (w : Word) : (State.toSender s d w).pending = s.pending ∧ (State.toSender s d w).sec = s.sec ∧ (State.toSender s d w).guard = s.guard ∧ (State.toSender s d w).mem = s.mem ∧ (State.toSender s d w).stations = s.stations := by
  simp [State.toSender]

@[simp] theorem State.returnTile_keep (s : State) (d : Desc) (w : Word) : (State.returnTile s d w).pending = s.pending ∧ (State.returnTile s d w).sec = s.sec ∧ (State.returnTile s d w).guard = s.guard ∧ (State.returnTile s d w).mem = s.mem ∧ (State.returnTile s d w).stations = s.stations := by
  simp [State.returnTile]

@[simp] theorem State.receive_keep (s : State) (sid : Nat) (port : Nat) (d : Desc) (popped : optParam Bool Bool.false) : (State.receive s sid port d popped).pending = s.pending ∧ (State.receive s sid port d popped).sec = s.sec ∧ (State.receive s sid port d popped).guard = s.guard ∧ (State.receive s sid port d popped).mem = s.mem := by
  unfold State.receive; (repeat' split) <;> simp

@[simp] theorem State.deliverPopped_keep (s : State) (issuer : Nat) (q : Nat) (l : List Byte) : (State.deliverPopped s issuer q l).pending = s.pending ∧ (State.deliverPopped s issuer q l).sec = s.sec ∧ (State.deliverPopped s issuer q l).guard = s.guard := by
  unfold State.deliverPopped; dsimp only; (repeat' split) <;> simp_all

@[simp] theorem State.laneStepDone_keep (s : State) (n : Nat) : (State.laneStepDone s n).pending = s.pending ∧ (State.laneStepDone s n).sec = s.sec ∧ (State.laneStepDone s n).guard = s.guard ∧ (State.laneStepDone s n).mem = s.mem := by
  unfold State.laneStepDone; (repeat' split) <;> simp

@[simp] theorem State.sendAll_keep (s : State) (sid : Nat) (tag : Nat) (fs : List Frame) : (State.sendAll s sid tag fs).2.pending = s.pending ∧ (State.sendAll s sid tag fs).2.sec = s.sec ∧ (State.sendAll s sid tag fs).2.guard = s.guard := by
  fun_induction State.sendAll s sid tag fs <;> ((try simp only [Prod.ext_iff] at *) <;> (try casesm* _ ∧ _) <;> (try subst_vars) <;> (first | (simp_all; done) | (simp_all +zetaDelta; done)))

@[simp] theorem State.sendTile_keep (s : State) (sid : Nat) (stream : Nat) (dst : Nat) (epoch : Nat) (tc : Bool) (d : Desc) (payload : List Byte) : (State.sendTile s sid stream dst epoch tc d payload).2.pending = s.pending ∧ (State.sendTile s sid stream dst epoch tc d payload).2.sec = s.sec ∧ (State.sendTile s sid stream dst epoch tc d payload).2.guard = s.guard := by
  simp [State.sendTile]

@[simp] theorem State.sendOn_keep (s : State) (sid : Nat) (id : Nat) (x : Stream) (r0 : Running) (o : OutTile) (addr : Nat) (scale : Nat) (sot : Bool) (eot : Bool) : (State.sendOn s sid id x r0 o addr scale sot eot).pending = s.pending ∧ (State.sendOn s sid id x r0 o addr scale sot eot).sec = s.sec ∧ (State.sendOn s sid id x r0 o addr scale sot eot).guard = s.guard := by
  simp [State.sendOn]

@[simp] theorem State.fillOrigin_keep (s : State) (sid : Nat) (port : Nat) (r0 : Running) (o : OutTile) : (State.fillOrigin s sid port r0 o).2.pending = s.pending ∧ (State.fillOrigin s sid port r0 o).2.sec = s.sec ∧ (State.fillOrigin s sid port r0 o).2.guard = s.guard ∧ (State.fillOrigin s sid port r0 o).2.mem = s.mem ∧ (State.fillOrigin s sid port r0 o).2.stations = s.stations := by
  unfold State.fillOrigin; dsimp only; (repeat' split) <;> simp_all

@[simp] theorem State.emitOn_keep (s : State) (sid : Nat) (port : Nat) (r0 : Running) (o : OutTile) (addr : Nat) (scale : Nat) (sot : Bool) (eot : Bool) : (State.emitOn s sid port r0 o addr scale sot eot).pending = s.pending ∧ (State.emitOn s sid port r0 o addr scale sot eot).sec = s.sec ∧ (State.emitOn s sid port r0 o addr scale sot eot).guard = s.guard := by
  simp [State.emitOn]

@[simp] theorem State.laneTiles_keep (s : State) (n : Nat) (port : Nat) (r0 : Running) (sot : Bool) (eot : Bool) (addr : Nat) (x7 : List OutTile) : (State.laneTiles s n port r0 sot eot addr x7).2.pending = s.pending ∧ (State.laneTiles s n port r0 sot eot addr x7).2.sec = s.sec ∧ (State.laneTiles s n port r0 sot eot addr x7).2.guard = s.guard := by
  fun_induction State.laneTiles s n port r0 sot eot addr x7 <;> ((try simp only [Prod.ext_iff] at *) <;> (try casesm* _ ∧ _) <;> (try subst_vars) <;> (first | (simp_all; done) | (simp_all +zetaDelta; done)))

@[simp] theorem State.flushGroup_keep (s : State) (n : Nat) (eot : Bool) (addr : Nat) : (State.flushGroup s n eot addr).2.pending = s.pending ∧ (State.flushGroup s n eot addr).2.sec = s.sec ∧ (State.flushGroup s n eot addr).2.guard = s.guard := by
  unfold State.flushGroup; dsimp only; (repeat' split) <;> simp_all

@[simp] theorem State.flushS2d_keep (s : State) (n : Nat) (addr : Nat) : (State.flushS2d s n addr).2.pending = s.pending ∧ (State.flushS2d s n addr).2.sec = s.sec ∧ (State.flushS2d s n addr).2.guard = s.guard := by
  unfold State.flushS2d; dsimp only; (repeat' split) <;> simp_all

@[simp] theorem State.ringWrite_keep (s : State) (n : Nat) (l : DevLine) : (State.ringWrite s n l).pending = s.pending ∧ (State.ringWrite s n l).sec = s.sec ∧ (State.ringWrite s n l).guard = s.guard ∧ (State.ringWrite s n l).stations = s.stations := by
  simp [State.ringWrite]

@[simp] theorem State.outputLine_keep (s : State) (n : Nat) (addr : Nat) (ends : Bool) (goesOn : Bool) (o : Prod DevLine (Prod (List (List Nat)) (Prod Nat Nat))) : (State.outputLine s n addr ends goesOn o).2.pending = s.pending ∧ (State.outputLine s n addr ends goesOn o).2.sec = s.sec ∧ (State.outputLine s n addr ends goesOn o).2.guard = s.guard := by
  unfold State.outputLine; dsimp only; (repeat' split) <;> simp_all

@[simp] theorem State.takeScan_keep (s : State) (n : Nat) : (State.takeScan s n).pending = s.pending ∧ (State.takeScan s n).sec = s.sec ∧ (State.takeScan s n).guard = s.guard ∧ (State.takeScan s n).mem = s.mem ∧ (State.takeScan s n).stations = s.stations := by
  simp [State.takeScan]

@[simp] theorem State.laneFrameEnd_keep (s : State) (n : Nat) (addr : Nat) (eot : Bool) : (State.laneFrameEnd s n addr eot).2.pending = s.pending ∧ (State.laneFrameEnd s n addr eot).2.sec = s.sec ∧ (State.laneFrameEnd s n addr eot).2.guard = s.guard := by
  simp [State.laneFrameEnd]

@[simp] theorem State.laneTimeout_keep (s : State) (n : Nat) (addr : Nat) (l : RawLine) : (State.laneTimeout s n addr l).pending = s.pending ∧ (State.laneTimeout s n addr l).sec = s.sec ∧ (State.laneTimeout s n addr l).guard = s.guard := by
  simp [State.laneTimeout]

@[simp] theorem State.pendGain_keep (s : State) (n : Nat) (i : Nat) (v : Nat) : (State.pendGain s n i v).pending = s.pending ∧ (State.pendGain s n i v).sec = s.sec ∧ (State.pendGain s n i v).guard = s.guard ∧ (State.pendGain s n i v).mem = s.mem ∧ (State.pendGain s n i v).stations = s.stations := by
  simp [State.pendGain]

@[simp] theorem State.gainRecords_keep (s : State) (n : Nat) (i : Nat) (old : Nat) (new : Nat) (clamped : Bool) : (State.gainRecords s n i old new clamped).pending = s.pending ∧ (State.gainRecords s n i old new clamped).sec = s.sec ∧ (State.gainRecords s n i old new clamped).guard = s.guard ∧ (State.gainRecords s n i old new clamped).mem = s.mem ∧ (State.gainRecords s n i old new clamped).stations = s.stations := by
  simp [State.gainRecords]

@[simp] theorem State.expLoop_keep (s : State) (n : Nat) (z : List (List Nat)) (valid : Bool) : (State.expLoop s n z valid).pending = s.pending ∧ (State.expLoop s n z valid).sec = s.sec ∧ (State.expLoop s n z valid).guard = s.guard ∧ (State.expLoop s n z valid).mem = s.mem ∧ (State.expLoop s n z valid).stations = s.stations := by
  unfold State.expLoop; (repeat' split) <;> simp

@[simp] theorem State.wbOne_keep (s : State) (n : Nat) (z : List (List Nat)) (k : Nat) : (State.wbOne s n z k).pending = s.pending ∧ (State.wbOne s n z k).sec = s.sec ∧ (State.wbOne s n z k).guard = s.guard ∧ (State.wbOne s n z k).mem = s.mem ∧ (State.wbOne s n z k).stations = s.stations := by
  unfold State.wbOne; dsimp only; (repeat' split) <;> simp_all

@[simp] theorem State.wbLoop_keep (s : State) (n : Nat) (z : List (List Nat)) (valid : Bool) : (State.wbLoop s n z valid).pending = s.pending ∧ (State.wbLoop s n z valid).sec = s.sec ∧ (State.wbLoop s n z valid).guard = s.guard ∧ (State.wbLoop s n z valid).mem = s.mem ∧ (State.wbLoop s n z valid).stations = s.stations := by
  simp [State.wbLoop]

@[simp] theorem State.windowEnd_keep (s : State) (n : Nat) : (State.windowEnd s n).pending = s.pending ∧ (State.windowEnd s n).sec = s.sec ∧ (State.windowEnd s n).guard = s.guard ∧ (State.windowEnd s n).mem = s.mem ∧ (State.windowEnd s n).stations = s.stations := by
  simp [State.windowEnd]

@[simp] theorem State.diAccepted_keep (s : State) (n : Nat) : (State.diAccepted s n).pending = s.pending ∧ (State.diAccepted s n).sec = s.sec ∧ (State.diAccepted s n).guard = s.guard ∧ (State.diAccepted s n).mem = s.mem ∧ (State.diAccepted s n).stations = s.stations := by
  simp [State.diAccepted]

@[simp] theorem State.mapInput_keep (s : State) (n : Nat) (f : Input → Input) : (State.mapInput s n f).pending = s.pending ∧ (State.mapInput s n f).sec = s.sec ∧ (State.mapInput s n f).guard = s.guard ∧ (State.mapInput s n f).mem = s.mem ∧ (State.mapInput s n f).stations = s.stations := by
  simp [State.mapInput]

@[simp] theorem State.diChange_keep (s : State) (n : Nat) : (State.diChange s n).pending = s.pending ∧ (State.diChange s n).sec = s.sec ∧ (State.diChange s n).guard = s.guard ∧ (State.diChange s n).mem = s.mem ∧ (State.diChange s n).stations = s.stations := by
  simp [State.diChange]

@[simp] theorem State.diSample_keep (s : State) (n : Nat) (mv : Nat) (ua : Nat) : (State.diSample s n mv ua).pending = s.pending ∧ (State.diSample s n mv ua).sec = s.sec ∧ (State.diSample s n mv ua).guard = s.guard ∧ (State.diSample s n mv ua).mem = s.mem ∧ (State.diSample s n mv ua).stations = s.stations := by
  simp [State.diSample]

@[simp] theorem State.dmaDeclare_keep (s : State) (sid : Nat) (d : DmaDesc) : (State.dmaDeclare s sid d).pending = s.pending ∧ (State.dmaDeclare s sid d).sec = s.sec ∧ (State.dmaDeclare s sid d).guard = s.guard ∧ (State.dmaDeclare s sid d).stations = s.stations := by
  unfold State.dmaDeclare; (repeat' split) <;> simp

@[simp] theorem State.dmaWrite_keep (s : State) (sid : Nat) (d : DmaDesc) (l : List Byte) : (State.dmaWrite s sid d l).pending = s.pending ∧ (State.dmaWrite s sid d l).sec = s.sec ∧ (State.dmaWrite s sid d l).guard = s.guard ∧ (State.dmaWrite s sid d l).stations = s.stations := by
  simp [State.dmaWrite]

@[simp] theorem State.eccCount_keep (s : State) (off : Nat) (e : EccResult) : (State.eccCount s off e).pending = s.pending ∧ (State.eccCount s off e).sec = s.sec ∧ (State.eccCount s off e).guard = s.guard ∧ (State.eccCount s off e).mem = s.mem ∧ (State.eccCount s off e).stations = s.stations := by
  unfold State.eccCount; (repeat' split) <;> simp

@[simp] theorem State.dmaRead_keep (s : State) (sid : Nat) (d : DmaDesc) : (State.dmaRead s sid d).2.2.pending = s.pending ∧ (State.dmaRead s sid d).2.2.sec = s.sec ∧ (State.dmaRead s sid d).2.2.guard = s.guard ∧ (State.dmaRead s sid d).2.2.stations = s.stations := by
  unfold State.dmaRead; dsimp only; (repeat' split) <;> simp_all

@[simp] theorem State.dmaLocal_keep (s : State) (sid : Nat) (d : DmaDesc) : (State.dmaLocal s sid d).pending = s.pending ∧ (State.dmaLocal s sid d).sec = s.sec ∧ (State.dmaLocal s sid d).guard = s.guard := by
  simp [State.dmaLocal]

@[simp] theorem State.remoteWrite_keep (s : State) (sid : Nat) (dst : Nat) (d : DmaDesc) : (State.remoteWrite s sid dst d).pending = s.pending ∧ (State.remoteWrite s sid dst d).sec = s.sec ∧ (State.remoteWrite s sid dst d).guard = s.guard := by
  simp [State.remoteWrite]

@[simp] theorem State.remoteRead_keep (s : State) (sid : Nat) (dst : Nat) (d : DmaDesc) : (State.remoteRead s sid dst d).pending = s.pending ∧ (State.remoteRead s sid dst d).sec = s.sec ∧ (State.remoteRead s sid dst d).guard = s.guard := by
  simp [State.remoteRead]

@[simp] theorem State.dmaTransfer_keep (s : State) (sid : Nat) (d : DmaDesc) : (State.dmaTransfer s sid d).pending = s.pending ∧ (State.dmaTransfer s sid d).sec = s.sec ∧ (State.dmaTransfer s sid d).guard = s.guard := by
  unfold State.dmaTransfer; (repeat' split) <;> simp

@[simp] theorem State.mapOutput_keep (s : State) (n : Nat) (f : Output → Output) : (State.mapOutput s n f).pending = s.pending ∧ (State.mapOutput s n f).sec = s.sec ∧ (State.mapOutput s n f).guard = s.guard ∧ (State.mapOutput s n f).mem = s.mem ∧ (State.mapOutput s n f).stations = s.stations := by
  simp [State.mapOutput]

@[simp] theorem State.driveOut_keep (s : State) (k : Nat) (level : Bool) : (State.driveOut s k level).pending = s.pending ∧ (State.driveOut s k level).sec = s.sec ∧ (State.driveOut s k level).guard = s.guard ∧ (State.driveOut s k level).mem = s.mem ∧ (State.driveOut s k level).stations = s.stations := by
  simp [State.driveOut]

@[simp] theorem State.doFaultAck_keep (s : State) (k : Nat) : (State.doFaultAck s k).pending = s.pending ∧ (State.doFaultAck s k).sec = s.sec ∧ (State.doFaultAck s k).guard = s.guard ∧ (State.doFaultAck s k).mem = s.mem ∧ (State.doFaultAck s k).stations = s.stations := by
  simp [State.doFaultAck]

@[simp] theorem State.doRetry_keep (s : State) (k : Nat) : (State.doRetry s k).pending = s.pending ∧ (State.doRetry s k).sec = s.sec ∧ (State.doRetry s k).guard = s.guard ∧ (State.doRetry s k).mem = s.mem ∧ (State.doRetry s k).stations = s.stations := by
  simp [State.doRetry]

@[simp] theorem State.savedWrite_keep (s : State) (e : Ent) : (State.savedWrite s e).pending = s.pending ∧ (State.savedWrite s e).sec = s.sec ∧ (State.savedWrite s e).guard = s.guard ∧ (State.savedWrite s e).mem = s.mem ∧ (State.savedWrite s e).stations = s.stations := by
  simp [State.savedWrite]

@[simp] theorem State.joinGroups_keep (s : State) (port : Nat) : (State.joinGroups s port).pending = s.pending ∧ (State.joinGroups s port).sec = s.sec ∧ (State.joinGroups s port).guard = s.guard ∧ (State.joinGroups s port).mem = s.mem ∧ (State.joinGroups s port).stations = s.stations := by
  simp [State.joinGroups]

@[simp] theorem State.joinBoth_keep (s : State) : (State.joinBoth s).pending = s.pending ∧ (State.joinBoth s).sec = s.sec ∧ (State.joinBoth s).guard = s.guard ∧ (State.joinBoth s).mem = s.mem ∧ (State.joinBoth s).stations = s.stations := by
  simp [State.joinBoth]

@[simp] theorem State.msWrite_keep (s : State) (part : Nat) (block : Nat) (l : List Byte) (x4 : Nat) : (State.msWrite s part block l x4).pending = s.pending ∧ (State.msWrite s part block l x4).sec = s.sec ∧ (State.msWrite s part block l x4).guard = s.guard ∧ (State.msWrite s part block l x4).stations = s.stations := by
  fun_induction State.msWrite s part block l x4 <;> simp_all

@[simp] theorem State.modelEnd_keep (s : State) (k : Nat) (l : List Byte) : (State.modelEnd s k l).2.pending = s.pending ∧ (State.modelEnd s k l).2.sec = s.sec ∧ (State.modelEnd s k l).2.guard = s.guard ∧ (State.modelEnd s k l).2.stations = s.stations := by
  unfold State.modelEnd; dsimp only; (repeat' split) <;> simp_all

@[simp] theorem State.fwEnd_keep (s : State) (k : Nat) (l : List Byte) : (State.fwEnd s k l).2.pending = s.pending := by
  unfold State.fwEnd; dsimp only; (repeat' split) <;> simp_all

@[simp] theorem State.select_keep (s : State) (who : Nat) (e : Ent) (v : Int) : (State.select s who e v).pending = s.pending ∧ (State.select s who e v).sec = s.sec ∧ (State.select s who e v).guard = s.guard ∧ (State.select s who e v).mem = s.mem ∧ (State.select s who e v).stations = s.stations := by
  unfold State.select; (repeat' split) <;> simp

@[simp] theorem State.store_keep (s : State) (b : By) (e : Ent) (j : Nat) (k : Nat) (v : Int) (l : List Byte) : (State.store s b e j k v l).pending = s.pending ∧ (State.store s b e j k v l).sec = s.sec ∧ (State.store s b e j k v l).guard = s.guard ∧ (State.store s b e j k v l).mem = s.mem ∧ (State.store s b e j k v l).stations = s.stations := by
  simp [State.store]

@[simp] theorem State.domainWrite_keep (s : State) (b : By) (e : Ent) (k : Nat) (l : List Byte) : (State.domainWrite s b e k l).2.pending = s.pending := by
  have hv : ∀ (t : List (Ent × Effect)) f, viewOf t e = some f → ∃ p ∈ t, p.2 = f := by
    intro t f hf
    unfold viewOf at hf
    cases hq : t.find? fun p => p.1.i == e.i && p.1.s == e.s with
    | none => simp [hq] at hf
    | some p =>
      simp only [hq, Option.map_some, Option.some.injEq] at hf
      exact ⟨p, List.mem_of_find?_eq_some hq, hf⟩
  have he : ∀ p ∈ domainEffects, ∀ s b j k v l, (p.2 s b j k v l).2.pending = s.pending := by
    simp only [domainEffects, List.forall_mem_cons, List.not_mem_nil, false_imp_iff, implies_true, and_true]
    refine ⟨?_, ?_, ?_, ?_, ?_⟩ <;> intro s b j k v l <;> (try unfold programEffect) <;> (try unfold tokenEffect) <;> (try dsimp only) <;> (repeat' split) <;> simp
  unfold State.domainWrite
  cases hm : viewOf domainEffects e with
  | none => dsimp only; (repeat' split) <;> simp
  | some f =>
    obtain ⟨p, hp, rfl⟩ := hv _ _ hm
    have hq := he p hp s b 0 k 0 l
    dsimp only
    (repeat' split) <;> first | rfl | (simpa using hq) | exact hq

@[simp] theorem State.drainReport_keep (s : State) (sid : Nat) : (State.drainReport s sid).pending = s.pending ∧ (State.drainReport s sid).sec = s.sec ∧ (State.drainReport s sid).guard = s.guard ∧ (State.drainReport s sid).mem = s.mem := by
  unfold State.drainReport; dsimp only; (repeat' split) <;> simp_all

@[simp] theorem State.drainRows_keep (s : State) (sid : Nat) (kind : AccKind) (g : MulArgs) (rows : List (List Acc32)) : (State.drainRows s sid kind g rows).2.pending = s.pending ∧ (State.drainRows s sid kind g rows).2.sec = s.sec ∧ (State.drainRows s sid kind g rows).2.guard = s.guard ∧ (State.drainRows s sid kind g rows).2.mem = s.mem := by
  unfold State.drainRows; (repeat' split) <;> simp

@[simp] theorem State.emitTile_keep (s : State) (sid : Nat) (r0 : Running) (o : OutTile) (addr : Nat) (scale : Nat) (sot : Bool) (eot : Bool) : (State.emitTile s sid r0 o addr scale sot eot).pending = s.pending ∧ (State.emitTile s sid r0 o addr scale sot eot).sec = s.sec ∧ (State.emitTile s sid r0 o addr scale sot eot).guard = s.guard := by
  simp [State.emitTile]

@[simp] theorem State.emitBegun_keep (s : State) (sid : Nat) (addr : Nat) (scale : Nat) (written : Nat) : (State.emitBegun s sid addr scale written).pending = s.pending ∧ (State.emitBegun s sid addr scale written).sec = s.sec ∧ (State.emitBegun s sid addr scale written).guard = s.guard := by
  unfold State.emitBegun; (repeat' split) <;> simp

@[simp] theorem State.drainTimeout_keep (s : State) (sid : Nat) (addr : Nat) (scale : Nat) (written : Nat) : (State.drainTimeout s sid addr scale written).pending = s.pending ∧ (State.drainTimeout s sid addr scale written).sec = s.sec ∧ (State.drainTimeout s sid addr scale written).guard = s.guard := by
  unfold State.drainTimeout; (repeat' split) <;> simp

@[simp] theorem State.driveAll_keep (s : State) (p : Nat → Bool) : (State.driveAll s p).pending = s.pending ∧ (State.driveAll s p).sec = s.sec ∧ (State.driveAll s p).guard = s.guard ∧ (State.driveAll s p).mem = s.mem ∧ (State.driveAll s p).stations = s.stations := by
  simp [State.driveAll]

@[simp] theorem State.driverFault_keep (s : State) (v : Nat) : (State.driverFault s v).pending = s.pending ∧ (State.driverFault s v).sec = s.sec ∧ (State.driverFault s v).guard = s.guard ∧ (State.driverFault s v).mem = s.mem ∧ (State.driverFault s v).stations = s.stations := by
  simp [State.driverFault]

@[simp] theorem State.dropDone_keep (s : State) : (State.dropDone s).pending = s.pending ∧ (State.dropDone s).sec = s.sec ∧ (State.dropDone s).guard = s.guard ∧ (State.dropDone s).mem = s.mem ∧ (State.dropDone s).stations = s.stations := by
  simp [State.dropDone]

@[simp] theorem State.echo_keep (s : State) (v : Nat) (diag : BitVec 256) : (State.echo s v diag).pending = s.pending ∧ (State.echo s v diag).sec = s.sec ∧ (State.echo s v diag).guard = s.guard ∧ (State.echo s v diag).mem = s.mem ∧ (State.echo s v diag).stations = s.stations := by
  simp [State.echo]

@[simp] theorem State.encFault_keep (s : State) (ch : Nat) : (State.encFault s ch).pending = s.pending ∧ (State.encFault s ch).sec = s.sec ∧ (State.encFault s ch).guard = s.guard ∧ (State.encFault s ch).mem = s.mem ∧ (State.encFault s ch).stations = s.stations := by
  simp [State.encFault]

@[simp] theorem State.edgeFault_keep (s : State) (ch : Nat) : (State.edgeFault s ch).pending = s.pending ∧ (State.edgeFault s ch).sec = s.sec ∧ (State.edgeFault s ch).guard = s.guard ∧ (State.edgeFault s ch).mem = s.mem ∧ (State.edgeFault s ch).stations = s.stations := by
  simp [State.edgeFault]

@[simp] theorem State.encBreak_keep (s : State) (ch : Nat) : (State.encBreak s ch).pending = s.pending ∧ (State.encBreak s ch).sec = s.sec ∧ (State.encBreak s ch).guard = s.guard ∧ (State.encBreak s ch).mem = s.mem ∧ (State.encBreak s ch).stations = s.stations := by
  simp [State.encBreak]

@[simp] theorem State.endTable_keep (s : State) (sid : Nat) : (State.endTable s sid).pending = s.pending ∧ (State.endTable s sid).sec = s.sec ∧ (State.endTable s sid).guard = s.guard ∧ (State.endTable s sid).mem = s.mem := by
  simp [State.endTable]

@[simp] theorem State.takeAddr_keep (s : State) (a : Nat) : (State.takeAddr s a).pending = s.pending ∧ (State.takeAddr s a).sec = s.sec ∧ (State.takeAddr s a).guard = s.guard ∧ (State.takeAddr s a).mem = s.mem ∧ (State.takeAddr s a).stations = s.stations := by
  simp [State.takeAddr]

@[simp] theorem State.entdaa_keep (s : State) (a : Nat) : (State.entdaa s a).pending = s.pending ∧ (State.entdaa s a).sec = s.sec ∧ (State.entdaa s a).guard = s.guard ∧ (State.entdaa s a).mem = s.mem ∧ (State.entdaa s a).stations = s.stations := by
  simp [State.entdaa]

@[simp] theorem State.enterMode_keep (s : State) (ch : Nat) : (State.enterMode s ch).pending = s.pending ∧ (State.enterMode s ch).sec = s.sec ∧ (State.enterMode s ch).guard = s.guard ∧ (State.enterMode s ch).mem = s.mem ∧ (State.enterMode s ch).stations = s.stations := by
  simp [State.enterMode]

@[simp] theorem State.noteOverflow_keep (s : State) (n : Nat) : (State.noteOverflow s n).pending = s.pending ∧ (State.noteOverflow s n).sec = s.sec ∧ (State.noteOverflow s n).guard = s.guard ∧ (State.noteOverflow s n).mem = s.mem ∧ (State.noteOverflow s n).stations = s.stations := by
  simp [State.noteOverflow]

@[simp] theorem State.enterOverflow_keep (s : State) (n : Nat) (full : Bool) : (State.enterOverflow s n full).pending = s.pending ∧ (State.enterOverflow s n full).sec = s.sec ∧ (State.enterOverflow s n full).guard = s.guard ∧ (State.enterOverflow s n full).mem = s.mem ∧ (State.enterOverflow s n full).stations = s.stations := by
  simp [State.enterOverflow]

@[simp] theorem State.enthdr0_keep (s : State) : (State.enthdr0 s).pending = s.pending ∧ (State.enthdr0 s).sec = s.sec ∧ (State.enthdr0 s).guard = s.guard ∧ (State.enthdr0 s).mem = s.mem ∧ (State.enthdr0 s).stations = s.stations := by
  simp [State.enthdr0]

@[simp] theorem State.setThresholds_pending (s : State) (acc : Nat) (rej : Nat) (pos : Nat) (role : Nat) (restart : State → State) (hk : ∀ s, (restart s).pending = s.pending) : (State.setThresholds s acc rej pos role restart).pending = s.pending := by
  unfold State.setThresholds; (repeat' split) <;> simp_all

@[simp] theorem State.setThresholds_sec (s : State) (acc : Nat) (rej : Nat) (pos : Nat) (role : Nat) (restart : State → State) (hk : ∀ s, (restart s).sec = s.sec) : (State.setThresholds s acc rej pos role restart).sec = s.sec := by
  unfold State.setThresholds; (repeat' split) <;> simp_all

@[simp] theorem State.setThresholds_guard (s : State) (acc : Nat) (rej : Nat) (pos : Nat) (role : Nat) (restart : State → State) (hk : ∀ s, (restart s).guard = s.guard) : (State.setThresholds s acc rej pos role restart).guard = s.guard := by
  unfold State.setThresholds; (repeat' split) <;> simp_all

@[simp] theorem State.setThresholds_mem (s : State) (acc : Nat) (rej : Nat) (pos : Nat) (role : Nat) (restart : State → State) (hk : ∀ s, (restart s).mem = s.mem) : (State.setThresholds s acc rej pos role restart).mem = s.mem := by
  unfold State.setThresholds; (repeat' split) <;> simp_all

@[simp] theorem State.setThresholds_stations (s : State) (acc : Nat) (rej : Nat) (pos : Nat) (role : Nat) (restart : State → State) (hk : ∀ s, (restart s).stations = s.stations) : (State.setThresholds s acc rej pos role restart).stations = s.stations := by
  unfold State.setThresholds; (repeat' split) <;> simp_all

@[simp] theorem State.releaseOutputs_keep (s : State) : (State.releaseOutputs s).pending = s.pending ∧ (State.releaseOutputs s).sec = s.sec ∧ (State.releaseOutputs s).guard = s.guard ∧ (State.releaseOutputs s).mem = s.mem ∧ (State.releaseOutputs s).stations = s.stations := by
  simp [State.releaseOutputs]

@[simp] theorem State.lineClear_keep (s : State) (ch : Nat) (pair : Nat) : (State.lineClear s ch pair).pending = s.pending ∧ (State.lineClear s ch pair).sec = s.sec ∧ (State.lineClear s ch pair).guard = s.guard ∧ (State.lineClear s ch pair).mem = s.mem ∧ (State.lineClear s ch pair).stations = s.stations := by
  simp [State.lineClear]

@[simp] theorem State.setIndexMode_keep (s : State) (ch : Nat) (v : Int) : (State.setIndexMode s ch v).pending = s.pending ∧ (State.setIndexMode s ch v).sec = s.sec ∧ (State.setIndexMode s ch v).guard = s.guard ∧ (State.setIndexMode s ch v).mem = s.mem ∧ (State.setIndexMode s ch v).stations = s.stations := by
  simp [State.setIndexMode]

@[simp] theorem State.setPeriodEdges_keep (s : State) (ch : Nat) (v : Int) : (State.setPeriodEdges s ch v).pending = s.pending ∧ (State.setPeriodEdges s ch v).sec = s.sec ∧ (State.setPeriodEdges s ch v).guard = s.guard ∧ (State.setPeriodEdges s ch v).mem = s.mem ∧ (State.setPeriodEdges s ch v).stations = s.stations := by
  simp [State.setPeriodEdges]

@[simp] theorem State.setPosition_keep (s : State) (ch : Nat) (v : Int) : (State.setPosition s ch v).pending = s.pending ∧ (State.setPosition s ch v).sec = s.sec ∧ (State.setPosition s ch v).guard = s.guard ∧ (State.setPosition s ch v).mem = s.mem ∧ (State.setPosition s ch v).stations = s.stations := by
  simp [State.setPosition]

@[simp] theorem State.setGainRef_keep (s : State) (n : Nat) (i : Nat) : (State.setGainRef s n i).pending = s.pending ∧ (State.setGainRef s n i).sec = s.sec ∧ (State.setGainRef s n i).guard = s.guard ∧ (State.setGainRef s n i).mem = s.mem ∧ (State.setGainRef s n i).stations = s.stations := by
  simp [State.setGainRef]

@[simp] theorem State.loopOn_keep (s : State) (n : Nat) (wb : Bool) : (State.loopOn s n wb).pending = s.pending ∧ (State.loopOn s n wb).sec = s.sec ∧ (State.loopOn s n wb).guard = s.guard ∧ (State.loopOn s n wb).mem = s.mem ∧ (State.loopOn s n wb).stations = s.stations := by
  simp [State.loopOn]

@[simp] theorem State.setLoop_keep (s : State) (e : Ent) (wb : Bool) (n : Nat) (v : Int) : (State.setLoop s e wb n v).pending = s.pending ∧ (State.setLoop s e wb n v).sec = s.sec ∧ (State.setLoop s e wb n v).guard = s.guard ∧ (State.setLoop s e wb n v).mem = s.mem ∧ (State.setLoop s e wb n v).stations = s.stations := by
  simp [State.setLoop]

@[simp] theorem State.setStringEnable_keep (s : State) (v : Nat) (x : Int) : (State.setStringEnable s v x).pending = s.pending ∧ (State.setStringEnable s v x).sec = s.sec ∧ (State.setStringEnable s v x).guard = s.guard ∧ (State.setStringEnable s v x).mem = s.mem ∧ (State.setStringEnable s v x).stations = s.stations := by
  simp [State.setStringEnable]

@[simp] theorem State.setPortEnable_keep (s : State) (n : Nat) (v : Int) : (State.setPortEnable s n v).pending = s.pending ∧ (State.setPortEnable s n v).sec = s.sec ∧ (State.setPortEnable s n v).guard = s.guard ∧ (State.setPortEnable s n v).mem = s.mem ∧ (State.setPortEnable s n v).stations = s.stations := by
  simp [State.setPortEnable]

@[simp] theorem State.zeroRange_keep (s : State) (a : Nat) (n : Nat) : (State.zeroRange s a n).pending = s.pending ∧ (State.zeroRange s a n).sec = s.sec ∧ (State.zeroRange s a n).guard = s.guard ∧ (State.zeroRange s a n).stations = s.stations := by
  simp [State.zeroRange]

@[simp] theorem State.moveArray_keep (s : State) (n : Nat) : (State.moveArray s n).pending = s.pending ∧ (State.moveArray s n).sec = s.sec ∧ (State.moveArray s n).guard = s.guard := by
  simp [State.moveArray]

@[simp] theorem State.writeArrayMap_keep (s : State) (v : Nat) : (State.writeArrayMap s v).2.pending = s.pending ∧ (State.writeArrayMap s v).2.sec = s.sec ∧ (State.writeArrayMap s v).2.guard = s.guard := by
  unfold State.writeArrayMap; (repeat' split) <;> simp

@[simp] theorem State.writeStop_keep (s : State) : (State.writeStop s).2.pending = s.pending ∧ (State.writeStop s).2.sec = s.sec ∧ (State.writeStop s).2.mem = s.mem := by
  simp [State.writeStop]

@[simp] theorem State.writeStart_keep (s : State) : (State.writeStart s).2.pending = s.pending ∧ (State.writeStart s).2.sec = s.sec ∧ (State.writeStart s).2.mem = s.mem := by
  unfold State.writeStart; (repeat' split) <;> simp

@[simp] theorem State.queueFlush_keep (s : State) (issuer : Nat) (q : Nat) (bad : Bool) : (State.queueFlush s issuer q bad).pending = s.pending ∧ (State.queueFlush s issuer q bad).sec = s.sec ∧ (State.queueFlush s issuer q bad).guard = s.guard ∧ (State.queueFlush s issuer q bad).mem = s.mem ∧ (State.queueFlush s issuer q bad).stations = s.stations := by
  simp [State.queueFlush]

@[simp] theorem State.queueDisable_keep (s : State) (q : Nat) : (State.queueDisable s q).pending = s.pending ∧ (State.queueDisable s q).sec = s.sec ∧ (State.queueDisable s q).guard = s.guard ∧ (State.queueDisable s q).mem = s.mem ∧ (State.queueDisable s q).stations = s.stations := by
  simp [State.queueDisable]

@[simp] theorem State.setQueueEnable_keep (s : State) (q : Nat) (v : Int) : (State.setQueueEnable s q v).pending = s.pending ∧ (State.setQueueEnable s q v).sec = s.sec ∧ (State.setQueueEnable s q v).guard = s.guard ∧ (State.setQueueEnable s q v).mem = s.mem ∧ (State.setQueueEnable s q v).stations = s.stations := by
  simp [State.setQueueEnable]

@[simp] theorem State.setDmaMap_keep (s : State) (v : Nat) : (State.setDmaMap s v).pending = s.pending ∧ (State.setDmaMap s v).sec = s.sec ∧ (State.setDmaMap s v).guard = s.guard ∧ (State.setDmaMap s v).mem = s.mem := by
  simp [State.setDmaMap]

@[simp] theorem State.setSharedMap_keep (s : State) (v : Nat) : (State.setSharedMap s v).pending = s.pending ∧ (State.setSharedMap s v).sec = s.sec ∧ (State.setSharedMap s v).guard = s.guard ∧ (State.setSharedMap s v).stations = s.stations := by
  simp [State.setSharedMap]

@[simp] theorem State.train_keep (s : State) (k : Nat) : (State.train s k).pending = s.pending ∧ (State.train s k).sec = s.sec ∧ (State.train s k).guard = s.guard ∧ (State.train s k).mem = s.mem ∧ (State.train s k).stations = s.stations := by
  simp [State.train]

@[simp] theorem State.linkDown_keep (s : State) (k : Nat) : (State.linkDown s k).pending = s.pending ∧ (State.linkDown s k).sec = s.sec ∧ (State.linkDown s k).guard = s.guard ∧ (State.linkDown s k).mem = s.mem ∧ (State.linkDown s k).stations = s.stations := by
  simp [State.linkDown]

@[simp] theorem State.writeLinkEnable_keep (s : State) (k : Nat) (v : Nat) : (State.writeLinkEnable s k v).2.pending = s.pending ∧ (State.writeLinkEnable s k v).2.sec = s.sec ∧ (State.writeLinkEnable s k v).2.guard = s.guard ∧ (State.writeLinkEnable s k v).2.mem = s.mem ∧ (State.writeLinkEnable s k v).2.stations = s.stations := by
  unfold State.writeLinkEnable; dsimp only; (repeat' split) <;> simp_all

@[simp] theorem State.rollBack_keep (s : State) (vals : List Byte) : (State.rollBack s vals).pending = s.pending ∧ (State.rollBack s vals).sec = s.sec ∧ (State.rollBack s vals).guard = s.guard ∧ (State.rollBack s vals).mem = s.mem ∧ (State.rollBack s vals).stations = s.stations := by
  simp [State.rollBack]

@[simp] theorem State.writeRollback_keep (s : State) (id : Nat) : (State.writeRollback s id).2.pending = s.pending ∧ (State.writeRollback s id).2.sec = s.sec ∧ (State.writeRollback s id).2.guard = s.guard ∧ (State.writeRollback s id).2.mem = s.mem ∧ (State.writeRollback s id).2.stations = s.stations := by
  unfold State.writeRollback; (repeat' split) <;> simp

@[simp] theorem State.writeRefuse_keep (s : State) (role : Role) (id : Nat) : (State.writeRefuse s role id).2.pending = s.pending ∧ (State.writeRefuse s role id).2.sec = s.sec ∧ (State.writeRefuse s role id).2.guard = s.guard ∧ (State.writeRefuse s role id).2.mem = s.mem ∧ (State.writeRefuse s role id).2.stations = s.stations := by
  unfold State.writeRefuse; (repeat' split) <;> simp

@[simp] theorem State.writeApprove_keep (s : State) (role : Role) (id : Nat) : (State.writeApprove s role id).2.pending = s.pending ∧ (State.writeApprove s role id).2.sec = s.sec ∧ (State.writeApprove s role id).2.guard = s.guard ∧ (State.writeApprove s role id).2.mem = s.mem ∧ (State.writeApprove s role id).2.stations = s.stations := by
  unfold State.writeApprove; dsimp only; (repeat' split) <;> simp_all

@[simp] theorem State.writeAbort_keep (s : State) (id : Nat) : (State.writeAbort s id).2.pending = s.pending ∧ (State.writeAbort s id).2.sec = s.sec ∧ (State.writeAbort s id).2.guard = s.guard := by
  simp [State.writeAbort]

@[simp] theorem State.writeSplitMap_keep (s : State) (v : Nat) : (State.writeSplitMap s v).2.pending = s.pending ∧ (State.writeSplitMap s v).2.sec = s.sec ∧ (State.writeSplitMap s v).2.guard = s.guard ∧ (State.writeSplitMap s v).2.mem = s.mem ∧ (State.writeSplitMap s v).2.stations = s.stations := by
  unfold State.writeSplitMap; (repeat' split) <;> simp

@[simp] theorem State.writeRecClear_keep (s : State) (v : Nat) : (State.writeRecClear s v).2.pending = s.pending ∧ (State.writeRecClear s v).2.sec = s.sec ∧ (State.writeRecClear s v).2.guard = s.guard ∧ (State.writeRecClear s v).2.mem = s.mem ∧ (State.writeRecClear s v).2.stations = s.stations := by
  unfold State.writeRecClear; (repeat' split) <;> simp

@[simp] theorem State.releaseUnit_keep (s : State) (addr : Nat) : (State.releaseUnit s addr).pending = s.pending ∧ (State.releaseUnit s addr).sec = s.sec ∧ (State.releaseUnit s addr).guard = s.guard ∧ (State.releaseUnit s addr).mem = s.mem := by
  simp [State.releaseUnit]

@[simp] theorem State.ptpOff_keep (s : State) : (State.ptpOff s).pending = s.pending ∧ (State.ptpOff s).sec = s.sec ∧ (State.ptpOff s).guard = s.guard ∧ (State.ptpOff s).mem = s.mem ∧ (State.ptpOff s).stations = s.stations := by
  simp [State.ptpOff]

@[simp] theorem State.writeOverride_keep (s : State) (v : Nat) : (State.writeOverride s v).2.pending = s.pending ∧ (State.writeOverride s v).2.sec = s.sec ∧ (State.writeOverride s v).2.guard = s.guard ∧ (State.writeOverride s v).2.mem = s.mem ∧ (State.writeOverride s v).2.stations = s.stations := by
  unfold State.writeOverride; (repeat' split) <;> simp

@[simp] theorem State.writeTime_keep (s : State) (sec : Nat) (ns : Nat) : (State.writeTime s sec ns).2.pending = s.pending ∧ (State.writeTime s sec ns).2.sec = s.sec ∧ (State.writeTime s sec ns).2.guard = s.guard ∧ (State.writeTime s sec ns).2.mem = s.mem ∧ (State.writeTime s sec ns).2.stations = s.stations := by
  unfold State.writeTime; dsimp only; (repeat' split) <;> simp_all

@[simp] theorem State.ethDown_keep (s : State) (port : Nat) : (State.ethDown s port).pending = s.pending ∧ (State.ethDown s port).sec = s.sec ∧ (State.ethDown s port).guard = s.guard ∧ (State.ethDown s port).mem = s.mem ∧ (State.ethDown s port).stations = s.stations := by
  simp [State.ethDown]

@[simp] theorem State.slipDrawn_keep (s : State) (n : Nat) : (State.slipDrawn s n).pending = s.pending ∧ (State.slipDrawn s n).sec = s.sec ∧ (State.slipDrawn s n).guard = s.guard ∧ (State.slipDrawn s n).mem = s.mem ∧ (State.slipDrawn s n).stations = s.stations := by
  simp [State.slipDrawn]

@[simp] theorem State.restartCounters_keep (s : State) (b : Nat) (which : List Nat) : (State.restartCounters s b which).pending = s.pending ∧ (State.restartCounters s b which).sec = s.sec ∧ (State.restartCounters s b which).guard = s.guard ∧ (State.restartCounters s b which).mem = s.mem ∧ (State.restartCounters s b which).stations = s.stations := by
  simp [State.restartCounters]

@[simp] theorem State.writePhase_keep (s : State) (v : Nat) : (State.writePhase s v).2.pending = s.pending ∧ (State.writePhase s v).2.sec = s.sec ∧ (State.writePhase s v).2.guard = s.guard ∧ (State.writePhase s v).2.mem = s.mem ∧ (State.writePhase s v).2.stations = s.stations := by
  unfold State.writePhase; (repeat' split) <;> simp

@[simp] theorem State.writeReset_keep (s : State) (v : Nat) : (State.writeReset s v).2.pending = s.pending ∧ (State.writeReset s v).2.sec = s.sec ∧ (State.writeReset s v).2.guard = s.guard ∧ (State.writeReset s v).2.mem = s.mem ∧ (State.writeReset s v).2.stations = s.stations := by
  unfold State.writeReset; (repeat' split) <;> simp

theorem State.reserveLeaf_keep (s : State) : ∀ r, (State.reserveLeaf s) = some r → r.2.pending = s.pending ∧ r.2.guard = s.guard ∧ r.2.mem = s.mem ∧ r.2.stations = s.stations := by
  unfold State.reserveLeaf; (repeat' split) <;> simp

@[simp] theorem State.writeNonce_keep (s : State) (who : Nat) (nonce : List Byte) : (State.writeNonce s who nonce).2.pending = s.pending ∧ (State.writeNonce s who nonce).2.guard = s.guard ∧ (State.writeNonce s who nonce).2.mem = s.mem ∧ (State.writeNonce s who nonce).2.stations = s.stations := by
  unfold State.writeNonce
  split
  · simp
  · split
    · simp
    · split
      · rename_i h1
        unfold State.reserveLeaf at h1
        dsimp only at h1
        split at h1
        · simp only [Option.some.injEq, Prod.mk.injEq] at h1
          obtain ⟨-, rfl⟩ := h1
          simp
        · split at h1
          · simp only [Option.some.injEq, Prod.mk.injEq] at h1
            obtain ⟨-, rfl⟩ := h1
            simp
          · cases h1
      · simp

@[simp] theorem State.writeIntegratorKey_keep (s : State) (which : Nat) (key : List Byte) (header : List Byte) (signature : List Byte) : (State.writeIntegratorKey s which key header signature).2.pending = s.pending ∧ (State.writeIntegratorKey s which key header signature).2.sec = s.sec ∧ (State.writeIntegratorKey s which key header signature).2.guard = s.guard ∧ (State.writeIntegratorKey s which key header signature).2.mem = s.mem ∧ (State.writeIntegratorKey s which key header signature).2.stations = s.stations := by
  unfold State.writeIntegratorKey; dsimp only; (repeat' split) <;> simp_all

@[simp] theorem State.eraseWaited_keep (s : State) (area : Nat) (slot : Nat) : (State.eraseWaited s area slot).pending = s.pending ∧ (State.eraseWaited s area slot).sec = s.sec ∧ (State.eraseWaited s area slot).guard = s.guard ∧ (State.eraseWaited s area slot).mem = s.mem ∧ (State.eraseWaited s area slot).stations = s.stations := by
  simp [State.eraseWaited]

@[simp] theorem State.eraseDone_keep (s : State) (area : Nat) (slot : Nat) : (State.eraseDone s area slot).pending = s.pending ∧ (State.eraseDone s area slot).sec = s.sec ∧ (State.eraseDone s area slot).guard = s.guard ∧ (State.eraseDone s area slot).stations = s.stations := by
  simp [State.eraseDone]

@[simp] theorem State.ethSend_keep (s : State) (port : Nat) (l : List Byte) : (State.ethSend s port l).pending = s.pending ∧ (State.ethSend s port l).sec = s.sec ∧ (State.ethSend s port l).guard = s.guard ∧ (State.ethSend s port l).mem = s.mem ∧ (State.ethSend s port l).stations = s.stations := by
  simp [State.ethSend]

@[simp] theorem State.internal_keep (s : State) (port : Nat) (l : List Byte) : (State.internal s port l).pending = s.pending ∧ (State.internal s port l).sec = s.sec ∧ (State.internal s port l).guard = s.guard ∧ (State.internal s port l).mem = s.mem ∧ (State.internal s port l).stations = s.stations := by
  unfold State.internal; dsimp only; (repeat' split) <;> simp_all

@[simp] theorem State.learn_keep (s : State) (port : Nat) (l : List Byte) : (State.learn s port l).pending = s.pending ∧ (State.learn s port l).sec = s.sec ∧ (State.learn s port l).guard = s.guard ∧ (State.learn s port l).mem = s.mem ∧ (State.learn s port l).stations = s.stations := by
  simp [State.learn]

@[simp] theorem State.ethFrame_keep (s : State) (port : Nat) (l : List Byte) (fcsOk : Bool) (residence : Nat) : (State.ethFrame s port l fcsOk residence).pending = s.pending ∧ (State.ethFrame s port l fcsOk residence).sec = s.sec ∧ (State.ethFrame s port l fcsOk residence).guard = s.guard ∧ (State.ethFrame s port l fcsOk residence).mem = s.mem ∧ (State.ethFrame s port l fcsOk residence).stations = s.stations := by
  unfold State.ethFrame; dsimp only; (repeat' split) <;> simp_all

@[simp] theorem State.ethUp_keep (s : State) (port : Nat) : (State.ethUp s port).pending = s.pending ∧ (State.ethUp s port).sec = s.sec ∧ (State.ethUp s port).guard = s.guard ∧ (State.ethUp s port).mem = s.mem ∧ (State.ethUp s port).stations = s.stations := by
  simp [State.ethUp]

@[simp] theorem State.i3cWrite_pending (s : State) (cmd : Nat) (body : List Byte) (crc : BitVec 8) (ok : Bool) (loader : Bool) (f : By → State → State) (hk : ∀ b s, (f b s).pending = s.pending) : (State.i3cWrite s cmd body crc ok loader f).pending = s.pending := by
  unfold State.i3cWrite
  dsimp only
  (repeat' split) <;> simp [hk]

@[simp] theorem State.i3cWrite_sec (s : State) (cmd : Nat) (body : List Byte) (crc : BitVec 8) (ok : Bool) (loader : Bool) (f : By → State → State) (hk : ∀ b s, (f b s).sec = s.sec) : (State.i3cWrite s cmd body crc ok loader f).sec = s.sec := by
  unfold State.i3cWrite
  dsimp only
  (repeat' split) <;> simp [hk]

@[simp] theorem State.i3cWrite_guard (s : State) (cmd : Nat) (body : List Byte) (crc : BitVec 8) (ok : Bool) (loader : Bool) (f : By → State → State) (hk : ∀ b s, (f b s).guard = s.guard) : (State.i3cWrite s cmd body crc ok loader f).guard = s.guard := by
  unfold State.i3cWrite
  dsimp only
  (repeat' split) <;> simp [hk]

@[simp] theorem State.i3cWrite_mem (s : State) (cmd : Nat) (body : List Byte) (crc : BitVec 8) (ok : Bool) (loader : Bool) (f : By → State → State) (hk : ∀ b s, (f b s).mem = s.mem) : (State.i3cWrite s cmd body crc ok loader f).mem = s.mem := by
  unfold State.i3cWrite
  dsimp only
  (repeat' split) <;> simp [hk]

@[simp] theorem State.i3cWrite_stations (s : State) (cmd : Nat) (body : List Byte) (crc : BitVec 8) (ok : Bool) (loader : Bool) (f : By → State → State) (hk : ∀ b s, (f b s).stations = s.stations) : (State.i3cWrite s cmd body crc ok loader f).stations = s.stations := by
  unfold State.i3cWrite
  dsimp only
  (repeat' split) <;> simp [hk]

@[simp] theorem State.eventPop_keep (s : State) (body : List Byte) (crc : BitVec 8) : (State.eventPop s body crc).pending = s.pending ∧ (State.eventPop s body crc).sec = s.sec ∧ (State.eventPop s body crc).guard = s.guard ∧ (State.eventPop s body crc).mem = s.mem ∧ (State.eventPop s body crc).stations = s.stations := by
  unfold State.eventPop
  refine ⟨State.i3cWrite_pending _ _ _ _ _ _ _ (fun b u => ?_), State.i3cWrite_sec _ _ _ _ _ _ _ (fun b u => ?_), State.i3cWrite_guard _ _ _ _ _ _ _ (fun b u => ?_), State.i3cWrite_mem _ _ _ _ _ _ _ (fun b u => ?_), State.i3cWrite_stations _ _ _ _ _ _ _ (fun b u => ?_)⟩ <;> split <;> simp

@[simp] theorem State.fence1_keep (s : State) (tag : Nat) (x : Trans) : (State.fence1 s tag x).pending = s.pending ∧ (State.fence1 s tag x).sec = s.sec ∧ (State.fence1 s tag x).guard = s.guard := by
  simp [State.fence1]

@[simp] theorem State.fabTimeout_keep (s : State) (tag : Nat) : (State.fabTimeout s tag).pending = s.pending ∧ (State.fabTimeout s tag).sec = s.sec ∧ (State.fabTimeout s tag).guard = s.guard := by
  unfold State.fabTimeout; (repeat' split) <;> simp

@[simp] theorem State.faultHalves_keep (s : State) (sid : Nat) (w : Word) : (State.faultHalves s sid w).pending = s.pending := by
  simp [State.faultHalves]

@[simp] theorem State.mapFront_keep (s : State) (sid : Nat) (f : Front → Front) : (State.mapFront s sid f).pending = s.pending ∧ (State.mapFront s sid f).sec = s.sec ∧ (State.mapFront s sid f).guard = s.guard ∧ (State.mapFront s sid f).mem = s.mem ∧ (State.mapFront s sid f).stations = s.stations := by
  simp [State.mapFront]

@[simp] theorem State.releaseTiles_keep (s : State) (sid : Nat) (port : Nat) : (State.releaseTiles s sid port).pending = s.pending ∧ (State.releaseTiles s sid port).sec = s.sec ∧ (State.releaseTiles s sid port).guard = s.guard ∧ (State.releaseTiles s sid port).mem = s.mem ∧ (State.releaseTiles s sid port).stations = s.stations := by
  unfold State.releaseTiles; dsimp only; (repeat' split) <;> simp_all

@[simp] theorem State.rowDone_keep (s : State) (sid : Nat) (r0 : Running) (outs : List OutTile) (q : Nat) (v : Nat) : (State.rowDone s sid r0 outs q v).pending = s.pending ∧ (State.rowDone s sid r0 outs q v).sec = s.sec ∧ (State.rowDone s sid r0 outs q v).guard = s.guard ∧ (State.rowDone s sid r0 outs q v).mem = s.mem := by
  simp [State.rowDone]

@[simp] theorem State.readParts_keep (s : State) (sid : Nat) (f : Nat) (chans : Nat) (x4 : List Item) : (State.readParts s sid f chans x4).2.2.pending = s.pending ∧ (State.readParts s sid f chans x4).2.2.sec = s.sec ∧ (State.readParts s sid f chans x4).2.2.guard = s.guard ∧ (State.readParts s sid f chans x4).2.2.stations = s.stations := by
  fun_induction State.readParts s sid f chans x4 <;> ((try simp only [Prod.ext_iff] at *) <;> (try casesm* _ ∧ _) <;> (try subst_vars) <;> (first | (simp_all; done) | (simp_all +zetaDelta; done)))

@[simp] theorem State.readWin_keep (s : State) (sid : Nat) (fmt : Nat) (chans : Nat) (zc : Bool) (x5 : List FeTile) : (State.readWin s sid fmt chans zc x5).2.2.pending = s.pending ∧ (State.readWin s sid fmt chans zc x5).2.2.sec = s.sec ∧ (State.readWin s sid fmt chans zc x5).2.2.guard = s.guard ∧ (State.readWin s sid fmt chans zc x5).2.2.stations = s.stations := by
  fun_induction State.readWin s sid fmt chans zc x5 <;> ((try simp only [Prod.ext_iff] at *) <;> (try casesm* _ ∧ _) <;> (try subst_vars) <;> (first | (simp_all; done) | (simp_all +zetaDelta; done)))

@[simp] theorem State.noteEnd_keep (s : State) (sid : Nat) (port : Nat) : (State.noteEnd s sid port).pending = s.pending ∧ (State.noteEnd s sid port).sec = s.sec ∧ (State.noteEnd s sid port).guard = s.guard ∧ (State.noteEnd s sid port).mem = s.mem ∧ (State.noteEnd s sid port).stations = s.stations := by
  unfold State.noteEnd; dsimp only; (repeat' split) <;> simp_all

@[simp] theorem State.noteEnds_keep (s : State) (sid : Nat) : (State.noteEnds s sid).pending = s.pending ∧ (State.noteEnds s sid).sec = s.sec ∧ (State.noteEnds s sid).guard = s.guard ∧ (State.noteEnds s sid).mem = s.mem ∧ (State.noteEnds s sid).stations = s.stations := by
  simp [State.noteEnds]

@[simp] theorem State.syncEnd_keep (s : State) (sid : Nat) (port : Nat) : (State.syncEnd s sid port).pending = s.pending ∧ (State.syncEnd s sid port).sec = s.sec ∧ (State.syncEnd s sid port).guard = s.guard ∧ (State.syncEnd s sid port).mem = s.mem ∧ (State.syncEnd s sid port).stations = s.stations := by
  unfold State.syncEnd; dsimp only; (repeat' split) <;> simp_all

@[simp] theorem State.intakeOne_keep (s : State) (sid : Nat) (port : Nat) (chans : Nat) (it : Item) : (State.intakeOne s sid port chans it).pending = s.pending ∧ (State.intakeOne s sid port chans it).sec = s.sec ∧ (State.intakeOne s sid port chans it).guard = s.guard ∧ (State.intakeOne s sid port chans it).mem = s.mem ∧ (State.intakeOne s sid port chans it).stations = s.stations := by
  simp [State.intakeOne]

@[simp] theorem State.fdpAnswer_keep (s : State) (kind : Nat) (m : Datagram) (key : List Byte) (w : Word) (body : List Byte) : (State.fdpAnswer s kind m key w body).pending = s.pending ∧ (State.fdpAnswer s kind m key w body).guard = s.guard ∧ (State.fdpAnswer s kind m key w body).mem = s.mem ∧ (State.fdpAnswer s kind m key w body).stations = s.stations := by
  unfold State.fdpAnswer; dsimp only; (repeat' split) <;> simp_all

@[simp] theorem State.fdpGood_pending (s : State) (kind : Nat) (m : Datagram) (x : Session) (f : FdpWork) (hk : ∀ b l s, (f b l s).2.2.pending = s.pending) : (State.fdpGood s kind m x f).pending = s.pending := by
  unfold State.fdpGood
  dsimp only
  (repeat' split) <;> simp [hk]

@[simp] theorem State.fdpGood_guard (s : State) (kind : Nat) (m : Datagram) (x : Session) (f : FdpWork) (hk : ∀ b l s, (f b l s).2.2.guard = s.guard) : (State.fdpGood s kind m x f).guard = s.guard := by
  unfold State.fdpGood
  dsimp only
  (repeat' split) <;> simp [hk]

@[simp] theorem State.fdpGood_mem (s : State) (kind : Nat) (m : Datagram) (x : Session) (f : FdpWork) (hk : ∀ b l s, (f b l s).2.2.mem = s.mem) : (State.fdpGood s kind m x f).mem = s.mem := by
  unfold State.fdpGood
  dsimp only
  (repeat' split) <;> simp [hk]

@[simp] theorem State.fdpGood_stations (s : State) (kind : Nat) (m : Datagram) (x : Session) (f : FdpWork) (hk : ∀ b l s, (f b l s).2.2.stations = s.stations) : (State.fdpGood s kind m x f).stations = s.stations := by
  unfold State.fdpGood
  dsimp only
  (repeat' split) <;> simp [hk]

@[simp] theorem State.fdpIn_pending (s : State) (kind : Nat) (m : Datagram) (f : FdpWork) (hk : ∀ b l s, (f b l s).2.2.pending = s.pending) : (State.fdpIn s kind m f).pending = s.pending := by
  unfold State.fdpIn
  (repeat' split) <;> simp [hk]

@[simp] theorem State.fdpIn_guard (s : State) (kind : Nat) (m : Datagram) (f : FdpWork) (hk : ∀ b l s, (f b l s).2.2.guard = s.guard) : (State.fdpIn s kind m f).guard = s.guard := by
  unfold State.fdpIn
  (repeat' split) <;> simp [hk]

@[simp] theorem State.fdpIn_mem (s : State) (kind : Nat) (m : Datagram) (f : FdpWork) (hk : ∀ b l s, (f b l s).2.2.mem = s.mem) : (State.fdpIn s kind m f).mem = s.mem := by
  unfold State.fdpIn
  (repeat' split) <;> simp [hk]

@[simp] theorem State.fdpIn_stations (s : State) (kind : Nat) (m : Datagram) (f : FdpWork) (hk : ∀ b l s, (f b l s).2.2.stations = s.stations) : (State.fdpIn s kind m f).stations = s.stations := by
  unfold State.fdpIn
  (repeat' split) <;> simp [hk]

@[simp] theorem State.openAnswer_keep (s : State) (m : Datagram) (key : List Byte) (ver : Nat) (ses : Nat) (status : Word) (body : List Byte) : (State.openAnswer s m key ver ses status body).pending = s.pending ∧ (State.openAnswer s m key ver ses status body).sec = s.sec ∧ (State.openAnswer s m key ver ses status body).guard = s.guard ∧ (State.openAnswer s m key ver ses status body).mem = s.mem ∧ (State.openAnswer s m key ver ses status body).stations = s.stations := by
  simp [State.openAnswer]

@[simp] theorem State.openSession_keep (s : State) (m : Datagram) (role : Role) (key : List Byte) : (State.openSession s m role key).pending = s.pending ∧ (State.openSession s m role key).sec = s.sec ∧ (State.openSession s m role key).guard = s.guard ∧ (State.openSession s m role key).mem = s.mem ∧ (State.openSession s m role key).stations = s.stations := by
  simp [State.openSession]

@[simp] theorem State.openChecked_keep (s : State) (m : Datagram) (role : Role) (key : List Byte) : (State.openChecked s m role key).pending = s.pending ∧ (State.openChecked s m role key).sec = s.sec ∧ (State.openChecked s m role key).guard = s.guard ∧ (State.openChecked s m role key).mem = s.mem ∧ (State.openChecked s m role key).stations = s.stations := by
  unfold State.openChecked; dsimp only; (repeat' split) <;> simp_all

@[simp] theorem State.fdpOpen_keep (s : State) (m : Datagram) : (State.fdpOpen s m).pending = s.pending ∧ (State.fdpOpen s m).sec = s.sec ∧ (State.fdpOpen s m).guard = s.guard ∧ (State.fdpOpen s m).mem = s.mem ∧ (State.fdpOpen s m).stations = s.stations := by
  unfold State.fdpOpen; dsimp only; (repeat' split) <;> simp_all

@[simp] theorem State.fence_keep (s : State) (sid : Nat) : (State.fence s sid).pending = s.pending ∧ (State.fence s sid).sec = s.sec ∧ (State.fence s sid).guard = s.guard ∧ (State.fence s sid).mem = s.mem := by
  simp [State.fence]

@[simp] theorem State.fenceDone_keep (s : State) (sid : Nat) : (State.fenceDone s sid).pending = s.pending ∧ (State.fenceDone s sid).sec = s.sec ∧ (State.fenceDone s sid).guard = s.guard ∧ (State.fenceDone s sid).mem = s.mem := by
  simp [State.fenceDone]

@[simp] theorem State.fieldLinkLost_keep (s : State) : (State.fieldLinkLost s).pending = s.pending ∧ (State.fieldLinkLost s).sec = s.sec ∧ (State.fieldLinkLost s).guard = s.guard ∧ (State.fieldLinkLost s).mem = s.mem ∧ (State.fieldLinkLost s).stations = s.stations := by
  simp [State.fieldLinkLost]

@[simp] theorem State.outputsOff_keep (s : State) : (State.outputsOff s).pending = s.pending ∧ (State.outputsOff s).sec = s.sec ∧ (State.outputsOff s).guard = s.guard ∧ (State.outputsOff s).mem = s.mem ∧ (State.outputsOff s).stations = s.stations := by
  simp [State.outputsOff]

@[simp] theorem State.fieldPowerUp_keep (s : State) : (State.fieldPowerUp s).pending = s.pending ∧ (State.fieldPowerUp s).sec = s.sec ∧ (State.fieldPowerUp s).guard = s.guard ∧ (State.fieldPowerUp s).mem = s.mem ∧ (State.fieldPowerUp s).stations = s.stations := by
  simp [State.fieldPowerUp]

@[simp] theorem State.fillDone_keep (s : State) (g : Nat) : (State.fillDone s g).pending = s.pending ∧ (State.fillDone s g).sec = s.sec ∧ (State.fillDone s g).guard = s.guard ∧ (State.fillDone s g).mem = s.mem ∧ (State.fillDone s g).stations = s.stations := by
  simp [State.fillDone]

@[simp] theorem State.putArea_keep (s : State) (area : Nat) (rec : BitVec 512) (x3 : List SlotFail) : (State.putArea s area rec x3).pending = s.pending ∧ (State.putArea s area rec x3).sec = s.sec ∧ (State.putArea s area rec x3).guard = s.guard ∧ (State.putArea s area rec x3).mem = s.mem ∧ (State.putArea s area rec x3).stations = s.stations := by
  fun_induction State.putArea s area rec x3 <;> simp_all

@[simp] theorem State.writeRecord_keep (s : State) (rec : BitVec 512) (fails : List SlotFail) : (State.writeRecord s rec fails).pending = s.pending ∧ (State.writeRecord s rec fails).sec = s.sec ∧ (State.writeRecord s rec fails).guard = s.guard ∧ (State.writeRecord s rec fails).mem = s.mem ∧ (State.writeRecord s rec fails).stations = s.stations := by
  simp [State.writeRecord]

@[simp] theorem State.overflowRecord_keep (s : State) : (State.overflowRecord s).pending = s.pending ∧ (State.overflowRecord s).sec = s.sec ∧ (State.overflowRecord s).guard = s.guard ∧ (State.overflowRecord s).mem = s.mem ∧ (State.overflowRecord s).stations = s.stations := by
  simp [State.overflowRecord]

@[simp] theorem State.flushOne_keep (s : State) (fails : List SlotFail) : (State.flushOne s fails).pending = s.pending ∧ (State.flushOne s fails).sec = s.sec ∧ (State.flushOne s fails).guard = s.guard ∧ (State.flushOne s fails).mem = s.mem ∧ (State.flushOne s fails).stations = s.stations := by
  unfold State.flushOne; (repeat' split) <;> simp

@[simp] theorem State.flushTo_keep (s : State) (seq : Nat) (x2 : Nat) : (State.flushTo s seq x2).pending = s.pending ∧ (State.flushTo s seq x2).sec = s.sec ∧ (State.flushTo s seq x2).guard = s.guard ∧ (State.flushTo s seq x2).mem = s.mem ∧ (State.flushTo s seq x2).stations = s.stations := by
  fun_induction State.flushTo s seq x2 <;> simp_all

@[simp] theorem State.forkLists_keep (s : State) (sid : Nat) (src : Nat) (dst : Nat) (ds : BitVec 128) (dd : BitVec 128) : (State.forkLists s sid src dst ds dd).2.pending = s.pending ∧ (State.forkLists s sid src dst ds dd).2.sec = s.sec ∧ (State.forkLists s sid src dst ds dd).2.guard = s.guard := by
  simp [State.forkLists]

@[simp] theorem State.frameEnd_keep (s : State) (n : Nat) (vc : Nat) (fifoLow : Bool) : (State.frameEnd s n vc fifoLow).pending = s.pending ∧ (State.frameEnd s n vc fifoLow).sec = s.sec ∧ (State.frameEnd s n vc fifoLow).guard = s.guard ∧ (State.frameEnd s n vc fifoLow).mem = s.mem ∧ (State.frameEnd s n vc fifoLow).stations = s.stations := by
  simp [State.frameEnd]

@[simp] theorem State.sendAck_keep (s : State) (k : Nat) : (State.sendAck s k).pending = s.pending ∧ (State.sendAck s k).sec = s.sec ∧ (State.sendAck s k).guard = s.guard ∧ (State.sendAck s k).mem = s.mem ∧ (State.sendAck s k).stations = s.stations := by
  simp [State.sendAck]

@[simp] theorem State.sendNak_keep (s : State) (k : Nat) : (State.sendNak s k).pending = s.pending ∧ (State.sendNak s k).sec = s.sec ∧ (State.sendNak s k).guard = s.guard ∧ (State.sendNak s k).mem = s.mem ∧ (State.sendNak s k).stations = s.stations := by
  simp [State.sendNak]

@[simp] theorem State.frameIn_pending (s : State) (k : Nat) (kind : Nat) (f : Frame) (take : State → State) (hk : ∀ s, (take s).pending = s.pending) : (State.frameIn s k kind f take).pending = s.pending := by
  unfold State.frameIn; (repeat' split) <;> simp_all

@[simp] theorem State.frameIn_sec (s : State) (k : Nat) (kind : Nat) (f : Frame) (take : State → State) (hk : ∀ s, (take s).sec = s.sec) : (State.frameIn s k kind f take).sec = s.sec := by
  unfold State.frameIn; (repeat' split) <;> simp_all

@[simp] theorem State.frameIn_guard (s : State) (k : Nat) (kind : Nat) (f : Frame) (take : State → State) (hk : ∀ s, (take s).guard = s.guard) : (State.frameIn s k kind f take).guard = s.guard := by
  unfold State.frameIn; (repeat' split) <;> simp_all

@[simp] theorem State.frameIn_mem (s : State) (k : Nat) (kind : Nat) (f : Frame) (take : State → State) (hk : ∀ s, (take s).mem = s.mem) : (State.frameIn s k kind f take).mem = s.mem := by
  unfold State.frameIn; (repeat' split) <;> simp_all

@[simp] theorem State.frameIn_stations (s : State) (k : Nat) (kind : Nat) (f : Frame) (take : State → State) (hk : ∀ s, (take s).stations = s.stations) : (State.frameIn s k kind f take).stations = s.stations := by
  unfold State.frameIn; (repeat' split) <;> simp_all

@[simp] theorem State.openFrame_keep (s : State) (n : Nat) : (State.openFrame s n).pending = s.pending ∧ (State.openFrame s n).sec = s.sec ∧ (State.openFrame s n).guard = s.guard ∧ (State.openFrame s n).mem = s.mem ∧ (State.openFrame s n).stations = s.stations := by
  simp [State.openFrame]

@[simp] theorem State.frameStart_keep (s : State) (n : Nat) (vc : Nat) (number : BitVec 16) (fifoLow : Bool) : (State.frameStart s n vc number fifoLow).pending = s.pending ∧ (State.frameStart s n vc number fifoLow).sec = s.sec ∧ (State.frameStart s n vc number fifoLow).guard = s.guard ∧ (State.frameStart s n vc number fifoLow).mem = s.mem ∧ (State.frameStart s n vc number fifoLow).stations = s.stations := by
  simp [State.frameStart]

@[simp] theorem State.frameTaken_keep (s : State) (levels : Nat) (safe : Bool) : (State.frameTaken s levels safe).pending = s.pending ∧ (State.frameTaken s levels safe).sec = s.sec ∧ (State.frameTaken s levels safe).guard = s.guard ∧ (State.frameTaken s levels safe).mem = s.mem ∧ (State.frameTaken s levels safe).stations = s.stations := by
  simp [State.frameTaken]

@[simp] theorem State.freeList_keep (s : State) (sid : Nat) (l : KvList) (i : Nat) (x4 : Nat) : (State.freeList s sid l i x4).pending = s.pending ∧ (State.freeList s sid l i x4).sec = s.sec ∧ (State.freeList s sid l i x4).guard = s.guard := by
  fun_induction State.freeList s sid l i x4 <;> ((try simp only [Prod.ext_iff] at *) <;> (try casesm* _ ∧ _) <;> (try subst_vars) <;> (first | (simp_all; done) | (simp_all +zetaDelta; done)))

@[simp] theorem State.freeRows_keep (s : State) (kind : AccKind) (m : Nat) (n : Nat) : (State.freeRows s kind m n).2.pending = s.pending ∧ (State.freeRows s kind m n).2.sec = s.sec ∧ (State.freeRows s kind m n).2.guard = s.guard ∧ (State.freeRows s kind m n).2.mem = s.mem ∧ (State.freeRows s kind m n).2.stations = s.stations := by
  simp [State.freeRows]

@[simp] theorem State.freshDomain_keep (s : State) : (State.freshDomain s).pending = s.pending ∧ (State.freshDomain s).sec = s.sec ∧ (State.freshDomain s).guard = s.guard ∧ (State.freshDomain s).mem = s.mem ∧ (State.freshDomain s).stations = s.stations := by
  simp [State.freshDomain]

@[simp] theorem State.fwInit_keep (s : State) (total : Nat) : (State.fwInit s total).pending = s.pending ∧ (State.fwInit s total).sec = s.sec ∧ (State.fwInit s total).guard = s.guard ∧ (State.fwInit s total).mem = s.mem ∧ (State.fwInit s total).stations = s.stations := by
  simp [State.fwInit]

@[simp] theorem State.fwload_keep (s : State) (sid : Nat) : (State.fwload s sid).pending = s.pending ∧ (State.fwload s sid).sec = s.sec ∧ (State.fwload s sid).guard = s.guard := by
  unfold State.fwload
  split
  · simp
  · split
    · simp
    · dsimp only
      split
      · simp
      · rename_i h1
        have k1 := State.feed_keep _ _ _ _ _ h1
        simp only [State.finishStep_keep, State.mapFront_keep]
        (repeat' split) <;> ((try simp only [Prod.ext_iff] at *) <;> (try casesm* _ ∧ _) <;> (try subst_vars) <;> (first | (simp_all; done) | (simp_all +zetaDelta; done)))

@[simp] theorem State.gated_pending (s : State) (role : Role) (e : Ent) (f : State → Prod Word State) (hk : ∀ s, (f s).2.pending = s.pending) : (State.gated s role e f).2.pending = s.pending := by
  unfold State.gated; dsimp only; (repeat' split) <;> simp_all

@[simp] theorem State.gated_sec (s : State) (role : Role) (e : Ent) (f : State → Prod Word State) (hk : ∀ s, (f s).2.sec = s.sec) : (State.gated s role e f).2.sec = s.sec := by
  unfold State.gated; dsimp only; (repeat' split) <;> simp_all

@[simp] theorem State.gated_guard (s : State) (role : Role) (e : Ent) (f : State → Prod Word State) (hk : ∀ s, (f s).2.guard = s.guard) : (State.gated s role e f).2.guard = s.guard := by
  unfold State.gated; dsimp only; (repeat' split) <;> simp_all

@[simp] theorem State.gated_mem (s : State) (role : Role) (e : Ent) (f : State → Prod Word State) (hk : ∀ s, (f s).2.mem = s.mem) : (State.gated s role e f).2.mem = s.mem := by
  unfold State.gated; dsimp only; (repeat' split) <;> simp_all

@[simp] theorem State.gated_stations (s : State) (role : Role) (e : Ent) (f : State → Prod Word State) (hk : ∀ s, (f s).2.stations = s.stations) : (State.gated s role e f).2.stations = s.stations := by
  unfold State.gated; dsimp only; (repeat' split) <;> simp_all

@[simp] theorem State.getHbm_keep (s : State) (a : Nat) (n : Nat) : (State.getHbm s a n).2.pending = s.pending ∧ (State.getHbm s a n).2.sec = s.sec ∧ (State.getHbm s a n).2.guard = s.guard ∧ (State.getHbm s a n).2.stations = s.stations := by
  simp [State.getHbm]

@[simp] theorem State.rollFrame_keep (s : State) (n : Nat) (fifoLow : Bool) : (State.rollFrame s n fifoLow).pending = s.pending ∧ (State.rollFrame s n fifoLow).sec = s.sec ∧ (State.rollFrame s n fifoLow).guard = s.guard ∧ (State.rollFrame s n fifoLow).mem = s.mem ∧ (State.rollFrame s n fifoLow).stations = s.stations := by
  simp [State.rollFrame]

@[simp] theorem State.skipLines_keep (s : State) (n : Nat) (fifoLow : Bool) (x3 : Nat) : (State.skipLines s n fifoLow x3).pending = s.pending ∧ (State.skipLines s n fifoLow x3).sec = s.sec ∧ (State.skipLines s n fifoLow x3).guard = s.guard ∧ (State.skipLines s n fifoLow x3).mem = s.mem ∧ (State.skipLines s n fifoLow x3).stations = s.stations := by
  fun_induction State.skipLines s n fifoLow x3 <;> ((try simp only [Prod.ext_iff] at *) <;> (try casesm* _ ∧ _) <;> (try subst_vars) <;> (first | (simp_all; done) | (simp_all +zetaDelta; done)))

@[simp] theorem State.noteLine_keep (s : State) (n : Nat) (ch : Nat) : (State.noteLine s n ch).2.pending = s.pending ∧ (State.noteLine s n ch).2.sec = s.sec ∧ (State.noteLine s n ch).2.guard = s.guard ∧ (State.noteLine s n ch).2.mem = s.mem ∧ (State.noteLine s n ch).2.stations = s.stations := by
  simp [State.noteLine]

@[simp] theorem State.goodHeader_keep (s : State) (n : Nat) (p : LinePacket) (fifoLow : Bool) : (State.goodHeader s n p fifoLow).pending = s.pending ∧ (State.goodHeader s n p fifoLow).sec = s.sec ∧ (State.goodHeader s n p fifoLow).guard = s.guard ∧ (State.goodHeader s n p fifoLow).mem = s.mem ∧ (State.goodHeader s n p fifoLow).stations = s.stations := by
  simp [State.goodHeader]

@[simp] theorem State.groupCleared_keep (s : State) (g : Nat) : (State.groupCleared s g).pending = s.pending ∧ (State.groupCleared s g).sec = s.sec ∧ (State.groupCleared s g).guard = s.guard ∧ (State.groupCleared s g).mem = s.mem ∧ (State.groupCleared s g).stations = s.stations := by
  simp [State.groupCleared]

end Sys2Proof.Machine
end

