-- ==== Sys2Proof/Laws/KeepHost.lean ====
section
/-! SUPPORT. What an operation leaves as it was, of: the waiting commands, the security state, the guard, the memory,
the stations. One lemma for an operation names those of the five that it never touches (goes on from the file before). -/

namespace Sys2Proof.Machine

set_option linter.all false

set_option maxRecDepth 4000 in
@[simp] theorem State.groupDown_keep (s : State) (g : Nat) (n : Nat) : (State.groupDown s g n).pending = s.pending ∧ (State.groupDown s g n).sec = s.sec ∧ (State.groupDown s g n).guard = s.guard ∧ (State.groupDown s g n).mem = s.mem ∧ (State.groupDown s g n).stations = s.stations := by
  simp [State.groupDown]

set_option maxRecDepth 4000 in
@[simp] theorem State.groupEnterOff_keep (s : State) (g : Nat) (waiting : List (BitVec 8)) : (State.groupEnterOff s g waiting).pending = s.pending ∧ (State.groupEnterOff s g waiting).sec = s.sec ∧ (State.groupEnterOff s g waiting).guard = s.guard := by
  simp [State.groupEnterOff]

@[simp] theorem State.groupForcedOff_keep (s : State) (g : Nat) (waiting : List (BitVec 8)) : (State.groupForcedOff s g waiting).pending = s.pending ∧ (State.groupForcedOff s g waiting).sec = s.sec ∧ (State.groupForcedOff s g waiting).guard = s.guard := by
  simp [State.groupForcedOff]

@[simp] theorem State.groupOff_keep (s : State) (g : Nat) (waiting : List (BitVec 8)) : (State.groupOff s g waiting).pending = s.pending ∧ (State.groupOff s g waiting).sec = s.sec ∧ (State.groupOff s g waiting).guard = s.guard := by
  simp [State.groupOff]

@[simp] theorem State.pdRefuse_keep (s : State) (pd : Nat) : (State.pdRefuse s pd).pending = s.pending ∧ (State.pdRefuse s pd).sec = s.sec ∧ (State.pdRefuse s pd).guard = s.guard ∧ (State.pdRefuse s pd).mem = s.mem ∧ (State.pdRefuse s pd).stations = s.stations := by
  simp [State.pdRefuse]

@[simp] theorem State.groupReady_keep (s : State) (g : Nat) : (State.groupReady s g).pending = s.pending ∧ (State.groupReady s g).sec = s.sec ∧ (State.groupReady s g).guard = s.guard ∧ (State.groupReady s g).mem = s.mem ∧ (State.groupReady s g).stations = s.stations := by
  simp [State.groupReady]

@[simp] theorem State.groupUp_keep (s : State) (g : Nat) : (State.groupUp s g).pending = s.pending ∧ (State.groupUp s g).sec = s.sec ∧ (State.groupUp s g).guard = s.guard ∧ (State.groupUp s g).stations = s.stations := by
  unfold State.groupUp; (repeat' split) <;> simp

@[simp] theorem State.halfFence_keep (s : State) (sid : Nat) (w : Word) : (State.halfFence s sid w).pending = s.pending := by
  simp [State.halfFence]

@[simp] theorem State.setChannel_keep (s : State) (c : Nat) (q : List HbmReq) : (State.setChannel s c q).pending = s.pending ∧ (State.setChannel s c q).sec = s.sec ∧ (State.setChannel s c q).guard = s.guard ∧ (State.setChannel s c q).stations = s.stations := by
  simp [State.setChannel]

@[simp] theorem State.hbmDone_keep (s : State) (sid : Nat) (off : Nat) (n : Nat) (hint : Nat) (data : Option (List Byte)) (ecc : EccResult) : (State.hbmDone s sid off n hint data ecc).pending = s.pending ∧ (State.hbmDone s sid off n hint data ecc).sec = s.sec ∧ (State.hbmDone s sid off n hint data ecc).guard = s.guard := by
  unfold State.hbmDone; (repeat' split) <;> simp

@[simp] theorem State.noteWait_keep (s : State) (r0 : HbmReq) : (State.noteWait s r0).pending = s.pending ∧ (State.noteWait s r0).sec = s.sec ∧ (State.noteWait s r0).guard = s.guard ∧ (State.noteWait s r0).mem = s.mem ∧ (State.noteWait s r0).stations = s.stations := by
  simp [State.noteWait]

@[simp] theorem State.slotServe_keep (s : State) (c : Nat) (open' : Bool) (ecc : EccResult) : (State.slotServe s c open' ecc).pending = s.pending ∧ (State.slotServe s c open' ecc).sec = s.sec ∧ (State.slotServe s c open' ecc).guard = s.guard := by
  unfold State.slotServe; (repeat' split) <;> simp

@[simp] theorem State.hbmAccess_keep (s : State) (sid : Nat) (off : Nat) (hint : Nat) (n : Nat) (open' : Bool) (data : Option (List Byte)) (ecc : EccResult) : (State.hbmAccess s sid off hint n open' data ecc).pending = s.pending ∧ (State.hbmAccess s sid off hint n open' data ecc).sec = s.sec ∧ (State.hbmAccess s sid off hint n open' data ecc).guard = s.guard := by
  simp [State.hbmAccess]

@[simp] theorem State.heartbeat_keep (s : State) : (State.heartbeat s).pending = s.pending ∧ (State.heartbeat s).sec = s.sec ∧ (State.heartbeat s).mem = s.mem ∧ (State.heartbeat s).stations = s.stations := by
  simp [State.heartbeat]

@[simp] theorem State.heartbeatLost_keep (s : State) : (State.heartbeatLost s).pending = s.pending := by
  simp [State.heartbeatLost]

@[simp] theorem State.heartbeatReset_keep (s : State) : (State.heartbeatReset s).pending = s.pending := by
  simp [State.heartbeatReset]

@[simp] theorem State.heatLower_keep (s : State) : (State.heatLower s).pending = s.pending ∧ (State.heatLower s).sec = s.sec ∧ (State.heatLower s).guard = s.guard ∧ (State.heatLower s).mem = s.mem ∧ (State.heatLower s).stations = s.stations := by
  unfold State.heatLower; dsimp only; (repeat' split) <;> simp_all

@[simp] theorem State.heatLowers_keep (s : State) (x1 : Nat) : (State.heatLowers s x1).pending = s.pending ∧ (State.heatLowers s x1).sec = s.sec ∧ (State.heatLowers s x1).guard = s.guard ∧ (State.heatLowers s x1).mem = s.mem ∧ (State.heatLowers s x1).stations = s.stations := by
  fun_induction State.heatLowers s x1 <;> simp_all

@[simp] theorem State.heat_keep (s : State) : (State.heat s).pending = s.pending ∧ (State.heat s).sec = s.sec ∧ (State.heat s).mem = s.mem ∧ (State.heat s).stations = s.stations := by
  simp [State.heat]

@[simp] theorem State.hello_keep (s : State) (k : Nat) (f : Frame) : (State.hello s k f).pending = s.pending ∧ (State.hello s k f).sec = s.sec ∧ (State.hello s k f).guard = s.guard ∧ (State.hello s k f).mem = s.mem ∧ (State.hello s k f).stations = s.stations := by
  simp [State.hello]

@[simp] theorem State.holdEnd_keep (s : State) : (State.holdEnd s).pending = s.pending ∧ (State.holdEnd s).sec = s.sec ∧ (State.holdEnd s).guard = s.guard ∧ (State.holdEnd s).mem = s.mem ∧ (State.holdEnd s).stations = s.stations := by
  simp [State.holdEnd]

@[simp] theorem State.i3cDescribe_keep (s : State) (body : List Byte) (crc : BitVec 8) : (State.i3cDescribe s body crc).pending = s.pending ∧ (State.i3cDescribe s body crc).sec = s.sec ∧ (State.i3cDescribe s body crc).guard = s.guard ∧ (State.i3cDescribe s body crc).mem = s.mem ∧ (State.i3cDescribe s body crc).stations = s.stations := by
  simp [State.i3cDescribe]

@[simp] theorem State.i3cRead_keep (s : State) (body : List Byte) (crc : BitVec 8) : (State.i3cRead s body crc).pending = s.pending ∧ (State.i3cRead s body crc).sec = s.sec ∧ (State.i3cRead s body crc).guard = s.guard ∧ (State.i3cRead s body crc).mem = s.mem ∧ (State.i3cRead s body crc).stations = s.stations := by
  simp [State.i3cRead]

@[simp] theorem State.noteStaged_keep (s : State) (x : Xfer) : (State.noteStaged s x).pending = s.pending ∧ (State.noteStaged s x).sec = s.sec ∧ (State.noteStaged s x).guard = s.guard ∧ (State.noteStaged s x).mem = s.mem ∧ (State.noteStaged s x).stations = s.stations := by
  simp [State.noteStaged]

@[simp] theorem State.segData_keep (s : State) (who : Nat) (size : Nat) (no : Nat) (data : List Byte) : (State.segData s who size no data).2.pending = s.pending ∧ (State.segData s who size no data).2.sec = s.sec ∧ (State.segData s who size no data).2.guard = s.guard ∧ (State.segData s who size no data).2.mem = s.mem ∧ (State.segData s who size no data).2.stations = s.stations := by
  unfold State.segData
  split
  · rename_i h1
    have k1 : ∀ (u : State) (w : Word) (n : Nat), u.segFind n = .error (w, s) → True := fun _ _ _ _ => trivial
    unfold State.segFind at h1
    (repeat' split at h1) <;> simp at h1 <;> (try (obtain ⟨-, rfl⟩ := h1)) <;> simp
  · (repeat' split) <;> simp

@[simp] theorem State.i3cSegData_keep (s : State) (body : List Byte) (crc : BitVec 8) : (State.i3cSegData s body crc).pending = s.pending ∧ (State.i3cSegData s body crc).sec = s.sec ∧ (State.i3cSegData s body crc).guard = s.guard ∧ (State.i3cSegData s body crc).mem = s.mem ∧ (State.i3cSegData s body crc).stations = s.stations := by
  simp [State.i3cSegData]

@[simp] theorem State.segEnd_keep (s : State) (b : By) : (State.segEnd s b).2.pending = s.pending := by
  unfold State.segEnd
  split
  · rename_i h1
    unfold State.segFind at h1
    (repeat' split at h1) <;> simp at h1 <;> (try (obtain ⟨-, rfl⟩ := h1)) <;> simp
  · (repeat' split) <;> simp [endStaged] <;> (repeat' split) <;> simp

@[simp] theorem State.i3cSegEnd_keep (s : State) (body : List Byte) (crc : BitVec 8) : (State.i3cSegEnd s body crc).pending = s.pending := by
  simp [State.i3cSegEnd]

@[simp] theorem State.settleModel_keep (s : State) : (State.settleModel s).pending = s.pending ∧ (State.settleModel s).sec = s.sec ∧ (State.settleModel s).guard = s.guard ∧ (State.settleModel s).mem = s.mem ∧ (State.settleModel s).stations = s.stations := by
  unfold State.settleModel; (repeat' split) <;> simp

@[simp] theorem State.modelInit_keep (s : State) (total : Nat) : (State.modelInit s total).2.pending = s.pending ∧ (State.modelInit s total).2.sec = s.sec ∧ (State.modelInit s total).2.guard = s.guard ∧ (State.modelInit s total).2.mem = s.mem ∧ (State.modelInit s total).2.stations = s.stations := by
  unfold State.modelInit; (repeat' split) <;> simp

@[simp] theorem State.stageInit_keep (s : State) (e : Ent) (total : Nat) : (State.stageInit s e total).2.pending = s.pending ∧ (State.stageInit s e total).2.sec = s.sec ∧ (State.stageInit s e total).2.guard = s.guard ∧ (State.stageInit s e total).2.mem = s.mem ∧ (State.stageInit s e total).2.stations = s.stations := by
  unfold State.stageInit; (repeat' split) <;> simp

@[simp] theorem State.segInit_keep (s : State) (b : By) (i : Nat) (sub : Nat) (write : Bool) (total : Nat) : (State.segInit s b i sub write total).2.pending = s.pending ∧ (State.segInit s b i sub write total).2.sec = s.sec ∧ (State.segInit s b i sub write total).2.guard = s.guard ∧ (State.segInit s b i sub write total).2.mem = s.mem ∧ (State.segInit s b i sub write total).2.stations = s.stations := by
  unfold State.segInit; dsimp only; (repeat' split) <;> simp_all

@[simp] theorem State.i3cSegInit_keep (s : State) (body : List Byte) (crc : BitVec 8) : (State.i3cSegInit s body crc).pending = s.pending ∧ (State.i3cSegInit s body crc).sec = s.sec ∧ (State.i3cSegInit s body crc).guard = s.guard ∧ (State.i3cSegInit s body crc).mem = s.mem ∧ (State.i3cSegInit s body crc).stations = s.stations := by
  simp [State.i3cSegInit]

@[simp] theorem State.imageLine_keep (s : State) (n : Nat) (p : LinePacket) (fifoLow : Bool) : (State.imageLine s n p fifoLow).pending = s.pending ∧ (State.imageLine s n p fifoLow).sec = s.sec ∧ (State.imageLine s n p fifoLow).guard = s.guard ∧ (State.imageLine s n p fifoLow).mem = s.mem ∧ (State.imageLine s n p fifoLow).stations = s.stations := by
  simp [State.imageLine]

@[simp] theorem State.indexEdge_keep (s : State) (ch : Nat) : (State.indexEdge s ch).pending = s.pending ∧ (State.indexEdge s ch).sec = s.sec ∧ (State.indexEdge s ch).guard = s.guard ∧ (State.indexEdge s ch).mem = s.mem ∧ (State.indexEdge s ch).stations = s.stations := by
  simp [State.indexEdge]

@[simp] theorem State.queueStep_keep (s : State) (sid : Nat) (w : StepWord) : (State.queueStep s sid w).pending = s.pending ∧ (State.queueStep s sid w).sec = s.sec ∧ (State.queueStep s sid w).guard = s.guard ∧ (State.queueStep s sid w).mem = s.mem ∧ (State.queueStep s sid w).stations = s.stations := by
  simp [State.queueStep]

@[simp] theorem State.issueStep_keep (s : State) (sid : Nat) (w : StepWord) : (State.issueStep s sid w).pending = s.pending ∧ (State.issueStep s sid w).sec = s.sec ∧ (State.issueStep s sid w).guard = s.guard ∧ (State.issueStep s sid w).mem = s.mem := by
  simp [State.issueStep]

@[simp] theorem State.itemTag_keep (s : State) (sid : Nat) (items : List (Prod Nat Item)) : (State.itemTag s sid items).2.pending = s.pending ∧ (State.itemTag s sid items).2.sec = s.sec ∧ (State.itemTag s sid items).2.guard = s.guard ∧ (State.itemTag s sid items).2.mem = s.mem ∧ (State.itemTag s sid items).2.stations = s.stations := by
  unfold State.itemTag; dsimp only; (repeat' split) <;> simp_all

@[simp] theorem State.jobBlocked_keep (s : State) (id : Nat) : (State.jobBlocked s id).pending = s.pending ∧ (State.jobBlocked s id).sec = s.sec ∧ (State.jobBlocked s id).guard = s.guard ∧ (State.jobBlocked s id).mem = s.mem := by
  simp [State.jobBlocked]

@[simp] theorem State.jobEnd_keep (s : State) (id : Nat) : (State.jobEnd s id).pending = s.pending ∧ (State.jobEnd s id).sec = s.sec ∧ (State.jobEnd s id).guard = s.guard := by
  unfold State.jobEnd; (repeat' split) <;> simp

@[simp] theorem State.submitQueued_keep (s : State) : (State.submitQueued s).pending = s.pending ∧ (State.submitQueued s).sec = s.sec ∧ (State.submitQueued s).guard = s.guard ∧ (State.submitQueued s).mem = s.mem := by
  unfold State.submitQueued; dsimp only; (repeat' split) <;> simp_all

@[simp] theorem State.jobSubmit_keep (s : State) (role : Role) (d : Option Desc) : (State.jobSubmit s role d).pending = s.pending ∧ (State.jobSubmit s role d).sec = s.sec ∧ (State.jobSubmit s role d).guard = s.guard ∧ (State.jobSubmit s role d).mem = s.mem := by
  unfold State.jobSubmit finish
  split
  · simp
  · simp

@[simp] theorem State.jobUnblocked_keep (s : State) (id : Nat) : (State.jobUnblocked s id).pending = s.pending ∧ (State.jobUnblocked s id).sec = s.sec ∧ (State.jobUnblocked s id).guard = s.guard ∧ (State.jobUnblocked s id).mem = s.mem := by
  simp [State.jobUnblocked]

@[simp] theorem State.kick_keep (s : State) (first : BitVec 8) (second : BitVec 8) (gap : Nat) : (State.kick s first second gap).pending = s.pending ∧ (State.kick s first second gap).sec = s.sec ∧ (State.kick s first second gap).guard = s.guard ∧ (State.kick s first second gap).mem = s.mem ∧ (State.kick s first second gap).stations = s.stations := by
  simp [State.kick]

@[simp] theorem State.kittyEmpty_keep (s : State) (sid : Nat) : (State.kittyEmpty s sid).pending = s.pending ∧ (State.kittyEmpty s sid).sec = s.sec ∧ (State.kittyEmpty s sid).guard = s.guard := by
  unfold State.kittyEmpty; dsimp only; (repeat' split) <;> simp_all

@[simp] theorem State.setDir_keep (s : State) (sid : Nat) (seq : Nat) (d : BitVec 128) : (State.setDir s sid seq d).pending = s.pending ∧ (State.setDir s sid seq d).sec = s.sec ∧ (State.setDir s sid seq d).guard = s.guard ∧ (State.setDir s sid seq d).stations = s.stations := by
  simp [State.setDir]

@[simp] theorem State.kvFree_keep (s : State) (sid : Nat) (seq : Nat) (d : BitVec 128) : (State.kvFree s sid seq d).pending = s.pending ∧ (State.kvFree s sid seq d).sec = s.sec ∧ (State.kvFree s sid seq d).guard = s.guard := by
  simp [State.kvFree]

@[simp] theorem State.reclaim_keep (s : State) (x1 : List Nat) : (State.reclaim s x1).pending = s.pending ∧ (State.reclaim s x1).sec = s.sec ∧ (State.reclaim s x1).guard = s.guard := by
  fun_induction State.reclaim s x1 <;> ((try simp only [Prod.ext_iff] at *) <;> (try casesm* _ ∧ _) <;> (try subst_vars) <;> (first | (simp_all; done) | (simp_all +zetaDelta; done)))

@[simp] theorem State.refillKitty_keep (s : State) (x1 : Nat) : (State.refillKitty s x1).pending = s.pending ∧ (State.refillKitty s x1).sec = s.sec ∧ (State.refillKitty s x1).guard = s.guard ∧ (State.refillKitty s x1).stations = s.stations := by
  fun_induction State.refillKitty s x1 <;> simp_all

@[simp] theorem State.kittyRefill_keep (s : State) : (State.kittyRefill s).pending = s.pending ∧ (State.kittyRefill s).sec = s.sec ∧ (State.kittyRefill s).guard = s.guard := by
  simp [State.kittyRefill]

@[simp] theorem State.kvClose_keep (s : State) (sid : Nat) (seq : Nat) (d : BitVec 128) : (State.kvClose s sid seq d).pending = s.pending ∧ (State.kvClose s sid seq d).sec = s.sec ∧ (State.kvClose s sid seq d).guard = s.guard ∧ (State.kvClose s sid seq d).stations = s.stations := by
  simp [State.kvClose]

@[simp] theorem State.listPages_keep (s : State) (sid : Nat) (l : KvList) (i : Nat) (x4 : Nat) : (State.listPages s sid l i x4).2.pending = s.pending ∧ (State.listPages s sid l i x4).2.sec = s.sec ∧ (State.listPages s sid l i x4).2.guard = s.guard := by
  fun_induction State.listPages s sid l i x4 <;> ((try simp only [Prod.ext_iff] at *) <;> (try casesm* _ ∧ _) <;> (try subst_vars) <;> (first | (simp_all; done) | (simp_all +zetaDelta; done)))

@[simp] theorem State.kvFork_keep (s : State) (sid : Nat) (src : Nat) (dst : Nat) (ds : BitVec 128) (dd : BitVec 128) : (State.kvFork s sid src dst ds dd).pending = s.pending ∧ (State.kvFork s sid src dst ds dd).sec = s.sec ∧ (State.kvFork s sid src dst ds dd).guard = s.guard := by
  simp [State.kvFork]

@[simp] theorem State.kvOpen_keep (s : State) (sid : Nat) (seq : Nat) (d : BitVec 128) : (State.kvOpen s sid seq d).pending = s.pending ∧ (State.kvOpen s sid seq d).sec = s.sec ∧ (State.kvOpen s sid seq d).guard = s.guard := by
  simp [State.kvOpen]

@[simp] theorem State.tryLock_keep (s : State) (sid : Nat) (seqs : List Nat) : (State.tryLock s sid seqs).2.pending = s.pending ∧ (State.tryLock s sid seqs).2.sec = s.sec ∧ (State.tryLock s sid seqs).2.guard = s.guard ∧ (State.tryLock s sid seqs).2.mem = s.mem := by
  unfold State.tryLock; (repeat' split) <;> simp

@[simp] theorem State.kvop_pending (s : State) (sid : Nat) (sub : Nat) (op : State → StepWord → BitVec 128 → BitVec 128 → State) (hk : ∀ s w d e, (op s w d e).pending = s.pending) : (State.kvop s sid sub op).pending = s.pending := by
  unfold State.kvop
  dsimp only
  (repeat' split) <;> ((try simp only [Prod.ext_iff] at *) <;> (try casesm* _ ∧ _) <;> (try subst_vars) <;> (first | (simp_all; done) | (simp_all +zetaDelta; done)))

@[simp] theorem State.kvop_sec (s : State) (sid : Nat) (sub : Nat) (op : State → StepWord → BitVec 128 → BitVec 128 → State) (hk : ∀ s w d e, (op s w d e).sec = s.sec) : (State.kvop s sid sub op).sec = s.sec := by
  unfold State.kvop
  dsimp only
  (repeat' split) <;> ((try simp only [Prod.ext_iff] at *) <;> (try casesm* _ ∧ _) <;> (try subst_vars) <;> (first | (simp_all; done) | (simp_all +zetaDelta; done)))

@[simp] theorem State.kvop_guard (s : State) (sid : Nat) (sub : Nat) (op : State → StepWord → BitVec 128 → BitVec 128 → State) (hk : ∀ s w d e, (op s w d e).guard = s.guard) : (State.kvop s sid sub op).guard = s.guard := by
  unfold State.kvop
  dsimp only
  (repeat' split) <;> ((try simp only [Prod.ext_iff] at *) <;> (try casesm* _ ∧ _) <;> (try subst_vars) <;> (first | (simp_all; done) | (simp_all +zetaDelta; done)))

@[simp] theorem State.labelOne_keep (s : State) (l : Prod Nat Nat) : (State.labelOne s l).pending = s.pending ∧ (State.labelOne s l).sec = s.sec ∧ (State.labelOne s l).guard = s.guard ∧ (State.labelOne s l).stations = s.stations := by
  unfold State.labelOne; dsimp only; (repeat' split) <;> simp_all

@[simp] theorem State.latchCommit_keep (s : State) (v : Nat) : (State.latchCommit s v).pending = s.pending ∧ (State.latchCommit s v).sec = s.sec ∧ (State.latchCommit s v).guard = s.guard ∧ (State.latchCommit s v).mem = s.mem ∧ (State.latchCommit s v).stations = s.stations := by
  unfold State.latchCommit; (repeat' split) <;> simp

@[simp] theorem State.missedRecord_keep (s : State) (id : Nat) : (State.missedRecord s id).pending = s.pending ∧ (State.missedRecord s id).sec = s.sec ∧ (State.missedRecord s id).guard = s.guard ∧ (State.missedRecord s id).mem = s.mem ∧ (State.missedRecord s id).stations = s.stations := by
  simp [State.missedRecord]

@[simp] theorem State.missPart_keep (s : State) (v : Nat) (l : Latch) (id : Nat) : (State.missPart s v l id).1.pending = s.pending ∧ (State.missPart s v l id).1.sec = s.sec ∧ (State.missPart s v l id).1.guard = s.guard ∧ (State.missPart s v l id).1.mem = s.mem ∧ (State.missPart s v l id).1.stations = s.stations := by
  unfold State.missPart; (repeat' split) <;> simp

@[simp] theorem State.openPart_keep (s : State) (v : Nat) (l : Latch) (id : Nat) (late : Bool) : (State.openPart s v l id late).1.pending = s.pending ∧ (State.openPart s v l id late).1.sec = s.sec ∧ (State.openPart s v l id late).1.guard = s.guard ∧ (State.openPart s v l id late).1.mem = s.mem ∧ (State.openPart s v l id late).1.stations = s.stations := by
  unfold State.openPart; (repeat' split) <;> simp

@[simp] theorem foldReports_pending {α : Type} (f : State → α → Prod State (List (List Byte))) (s : State) (l : List α) (hk : ∀ s a, (f s a).1.pending = s.pending) : (@foldReports α f s l).1.pending = s.pending := by
  unfold foldReports; (repeat' split) <;> simp_all

@[simp] theorem foldReports_sec {α : Type} (f : State → α → Prod State (List (List Byte))) (s : State) (l : List α) (hk : ∀ s a, (f s a).1.sec = s.sec) : (@foldReports α f s l).1.sec = s.sec := by
  unfold foldReports; (repeat' split) <;> simp_all

@[simp] theorem foldReports_guard {α : Type} (f : State → α → Prod State (List (List Byte))) (s : State) (l : List α) (hk : ∀ s a, (f s a).1.guard = s.guard) : (@foldReports α f s l).1.guard = s.guard := by
  unfold foldReports; (repeat' split) <;> simp_all

@[simp] theorem foldReports_mem {α : Type} (f : State → α → Prod State (List (List Byte))) (s : State) (l : List α) (hk : ∀ s a, (f s a).1.mem = s.mem) : (@foldReports α f s l).1.mem = s.mem := by
  unfold foldReports; (repeat' split) <;> simp_all

@[simp] theorem foldReports_stations {α : Type} (f : State → α → Prod State (List (List Byte))) (s : State) (l : List α) (hk : ∀ s a, (f s a).1.stations = s.stations) : (@foldReports α f s l).1.stations = s.stations := by
  unfold foldReports; (repeat' split) <;> simp_all

@[simp] theorem State.takeImage_keep (s : State) (v : Nat) (image : BitVec 256) (dev : Nat) : (State.takeImage s v image dev).pending = s.pending ∧ (State.takeImage s v image dev).sec = s.sec ∧ (State.takeImage s v image dev).guard = s.guard ∧ (State.takeImage s v image dev).mem = s.mem ∧ (State.takeImage s v image dev).stations = s.stations := by
  simp [State.takeImage]

@[simp] theorem State.leaveIdle_keep (s : State) (sid : Nat) : (State.leaveIdle s sid).pending = s.pending ∧ (State.leaveIdle s sid).sec = s.sec ∧ (State.leaveIdle s sid).guard = s.guard ∧ (State.leaveIdle s sid).mem = s.mem := by
  simp [State.leaveIdle]

@[simp] theorem State.quadFault_keep (s : State) (ch : Nat) : (State.quadFault s ch).pending = s.pending ∧ (State.quadFault s ch).sec = s.sec ∧ (State.quadFault s ch).guard = s.guard ∧ (State.quadFault s ch).mem = s.mem ∧ (State.quadFault s ch).stations = s.stations := by
  simp [State.quadFault]

@[simp] theorem State.magStep_keep (s : State) (ch : Nat) (u : Bool) (v : Bool) (w : Bool) : (State.magStep s ch u v w).pending = s.pending ∧ (State.magStep s ch u v w).sec = s.sec ∧ (State.magStep s ch u v w).guard = s.guard ∧ (State.magStep s ch u v w).mem = s.mem ∧ (State.magStep s ch u v w).stations = s.stations := by
  unfold State.magStep; dsimp only; (repeat' split) <;> simp_all

@[simp] theorem State.quadEdge_keep (s : State) (ch : Nat) (e : Encoder) (a : Bool) (b : Bool) : (State.quadEdge s ch e a b).pending = s.pending ∧ (State.quadEdge s ch e a b).sec = s.sec ∧ (State.quadEdge s ch e a b).guard = s.guard ∧ (State.quadEdge s ch e a b).mem = s.mem ∧ (State.quadEdge s ch e a b).stations = s.stations := by
  unfold State.quadEdge; dsimp only; (repeat' split) <;> simp_all

@[simp] theorem State.levels_keep (s : State) (ch : Nat) (a : Bool) (b : Bool) (z : Bool) : (State.levels s ch a b z).pending = s.pending ∧ (State.levels s ch a b z).sec = s.sec ∧ (State.levels s ch a b z).guard = s.guard ∧ (State.levels s ch a b z).mem = s.mem ∧ (State.levels s ch a b z).stations = s.stations := by
  unfold State.levels; dsimp only; (repeat' split) <;> simp_all

@[simp] theorem State.lineFault_keep (s : State) (ch : Nat) (pair : Nat) : (State.lineFault s ch pair).pending = s.pending ∧ (State.lineFault s ch pair).sec = s.sec ∧ (State.lineFault s ch pair).guard = s.guard ∧ (State.lineFault s ch pair).mem = s.mem ∧ (State.lineFault s ch pair).stations = s.stations := by
  simp [State.lineFault]

@[simp] theorem State.loadAdapter_keep (s : State) : (State.loadAdapter s).pending = s.pending ∧ (State.loadAdapter s).sec = s.sec ∧ (State.loadAdapter s).guard = s.guard ∧ (State.loadAdapter s).stations = s.stations := by
  unfold State.loadAdapter; (repeat' split) <;> simp

@[simp] theorem State.loadDone_keep (s : State) (id : Nat) (tables : List (Prod Nat (Prod Nat (List StepWord)))) (es : List MapEntry) (credits : Nat) (moved : List (Prod Nat (List Byte))) (usesModel : Bool) : (State.loadDone s id tables es credits moved usesModel).pending = s.pending ∧ (State.loadDone s id tables es credits moved usesModel).sec = s.sec ∧ (State.loadDone s id tables es credits moved usesModel).guard = s.guard := by
  unfold State.loadDone; (repeat' split) <;> simp

@[simp] theorem State.loadSets_keep (s : State) : (State.loadSets s).pending = s.pending ∧ (State.loadSets s).sec = s.sec ∧ (State.loadSets s).guard = s.guard ∧ (State.loadSets s).mem = s.mem := by
  unfold State.loadSets; (repeat' split) <;> simp

theorem State.loadWeights_keep (s : State) (sid : Nat) (r0 : Running) : ∀ r, (State.loadWeights s sid r0) = some r → r.2.2.pending = s.pending ∧ r.2.2.sec = s.sec ∧ r.2.2.guard = s.guard := by
  intro q h
  unfold State.loadWeights at h
  dsimp only at h
  split at h
  · cases h
  · rename_i h1
    have k1 := State.feedN_keep _ _ _ _ _ _ h1
    simp only [Option.some.injEq] at h
    subst h
    simp_all

@[simp] theorem State.loaderFault_keep (s : State) (sid : Nat) : (State.loaderFault s sid).pending = s.pending := by
  simp [State.loaderFault]

@[simp] theorem State.lockLoss_keep (s : State) (n : Nat) : (State.lockLoss s n).pending = s.pending ∧ (State.lockLoss s n).sec = s.sec ∧ (State.lockLoss s n).guard = s.guard ∧ (State.lockLoss s n).mem = s.mem ∧ (State.lockLoss s n).stations = s.stations := by
  simp [State.lockLoss]

@[simp] theorem State.refuse_keep (s : State) (w : Word) : (State.refuse s w).pending = s.pending ∧ (State.refuse s w).sec = s.sec ∧ (State.refuse s w).guard = s.guard ∧ (State.refuse s w).mem = s.mem ∧ (State.refuse s w).stations = s.stations := by
  simp [State.refuse]

@[simp] theorem State.mapLoad_keep (s : State) (es : List MapEntry) (credits : Nat) : (State.mapLoad s es credits).pending = s.pending ∧ (State.mapLoad s es credits).sec = s.sec ∧ (State.mapLoad s es credits).guard = s.guard ∧ (State.mapLoad s es credits).mem = s.mem := by
  unfold State.mapLoad; dsimp only; (repeat' split) <;> simp_all

@[simp] theorem State.mapPd_keep (s : State) (pd : Nat) (f : Pd → Pd) : (State.mapPd s pd f).pending = s.pending ∧ (State.mapPd s pd f).sec = s.sec ∧ (State.mapPd s pd f).guard = s.guard ∧ (State.mapPd s pd f).mem = s.mem ∧ (State.mapPd s pd f).stations = s.stations := by
  simp [State.mapPd]

@[simp] theorem State.mapSensor_keep (s : State) (k : Nat) (f : Sensor → Sensor) : (State.mapSensor s k f).pending = s.pending ∧ (State.mapSensor s k f).sec = s.sec ∧ (State.mapSensor s k f).mem = s.mem ∧ (State.mapSensor s k f).stations = s.stations := by
  simp [State.mapSensor]

@[simp] theorem State.masterLost_keep (s : State) : (State.masterLost s).pending = s.pending ∧ (State.masterLost s).sec = s.sec ∧ (State.masterLost s).guard = s.guard ∧ (State.masterLost s).mem = s.mem ∧ (State.masterLost s).stations = s.stations := by
  simp [State.masterLost]

@[simp] theorem State.putCtx_keep (s : State) (i : Nat) (c : BitVec 512) : (State.putCtx s i c).pending = s.pending ∧ (State.putCtx s i c).sec = s.sec ∧ (State.putCtx s i c).guard = s.guard ∧ (State.putCtx s i c).mem = s.mem ∧ (State.putCtx s i c).stations = s.stations := by
  simp [State.putCtx]

@[simp] theorem State.survive_keep (s : State) (i : Nat) (old : BitVec 512) (new : BitVec 512) (fire : Bool) : (State.survive s i old new fire).1.pending = s.pending ∧ (State.survive s i old new fire).1.sec = s.sec ∧ (State.survive s i old new fire).1.guard = s.guard ∧ (State.survive s i old new fire).1.mem = s.mem ∧ (State.survive s i old new fire).1.stations = s.stations := by
  simp [State.survive]

@[simp] theorem State.winner_keep (s : State) (a : BitVec 512) (b : BitVec 512) : (State.winner s a b).2.pending = s.pending ∧ (State.winner s a b).2.sec = s.sec ∧ (State.winner s a b).2.guard = s.guard ∧ (State.winner s a b).2.mem = s.mem ∧ (State.winner s a b).2.stations = s.stations := by
  unfold State.winner; dsimp only; (repeat' split) <;> simp_all

@[simp] theorem State.winners_keep (s : State) (a : BitVec 512) (x2 : List (BitVec 512)) : (State.winners s a x2).2.pending = s.pending ∧ (State.winners s a x2).2.sec = s.sec ∧ (State.winners s a x2).2.guard = s.guard ∧ (State.winners s a x2).2.mem = s.mem ∧ (State.winners s a x2).2.stations = s.stations := by
  fun_induction State.winners s a x2 <;> ((try simp only [Prod.ext_iff] at *) <;> (try casesm* _ ∧ _) <;> (try subst_vars) <;> (first | (simp_all; done) | (simp_all +zetaDelta; done)))

@[simp] theorem State.merge_keep (s : State) (v : BitVec 512) (i : Nat) (rest : List Nat) : (State.merge s v i rest).1.pending = s.pending ∧ (State.merge s v i rest).1.sec = s.sec ∧ (State.merge s v i rest).1.guard = s.guard ∧ (State.merge s v i rest).1.mem = s.mem ∧ (State.merge s v i rest).1.stations = s.stations := by
  simp [State.merge]

@[simp] theorem State.metadata_keep (s : State) (n : Nat) (vc : Nat) (dt : Nat) (crcOk : Bool) (corrected : Bool) (payload : List Byte) (full : Bool) (addr : Nat) : (State.metadata s n vc dt crcOk corrected payload full addr).pending = s.pending ∧ (State.metadata s n vc dt crcOk corrected payload full addr).sec = s.sec ∧ (State.metadata s n vc dt crcOk corrected payload full addr).guard = s.guard := by
  simp [State.metadata]

@[simp] theorem State.setDoFault_keep (s : State) (k : Nat) (b : Nat) (w : Word) : (State.setDoFault s k b w).pending = s.pending ∧ (State.setDoFault s k b w).sec = s.sec ∧ (State.setDoFault s k b w).guard = s.guard ∧ (State.setDoFault s k b w).mem = s.mem ∧ (State.setDoFault s k b w).stations = s.stations := by
  simp [State.setDoFault]

@[simp] theorem State.mismatch_keep (s : State) (k : Nat) : (State.mismatch s k).pending = s.pending ∧ (State.mismatch s k).sec = s.sec ∧ (State.mismatch s k).guard = s.guard ∧ (State.mismatch s k).mem = s.mem ∧ (State.mismatch s k).stations = s.stations := by
  simp [State.mismatch]

@[simp] theorem State.msCommand_keep (s : State) (c : MsCmd) : (State.msCommand s c).pending = s.pending ∧ (State.msCommand s c).sec = s.sec ∧ (State.msCommand s c).guard = s.guard := by
  simp [State.msCommand]

@[simp] theorem State.msMove_keep (s : State) (c : MsCmd) : (State.msMove s c).pending = s.pending ∧ (State.msMove s c).sec = s.sec ∧ (State.msMove s c).guard = s.guard ∧ (State.msMove s c).stations = s.stations := by
  simp [State.msMove]

@[simp] theorem State.poisonUnits_keep (s : State) (a : Nat) (x2 : Nat) : (State.poisonUnits s a x2).pending = s.pending ∧ (State.poisonUnits s a x2).sec = s.sec ∧ (State.poisonUnits s a x2).guard = s.guard ∧ (State.poisonUnits s a x2).stations = s.stations := by
  fun_induction State.poisonUnits s a x2 <;> simp_all

@[simp] theorem State.msFailed_keep (s : State) (c : MsCmd) : (State.msFailed s c).pending = s.pending ∧ (State.msFailed s c).sec = s.sec ∧ (State.msFailed s c).guard = s.guard ∧ (State.msFailed s c).stations = s.stations := by
  simp [State.msFailed]

@[simp] theorem State.msComplete_keep (s : State) (i : Nat) (failed : Bool) : (State.msComplete s i failed).pending = s.pending ∧ (State.msComplete s i failed).sec = s.sec ∧ (State.msComplete s i failed).guard = s.guard := by
  unfold State.msComplete; (repeat' split) <;> simp

@[simp] theorem State.replay_keep (s : State) (k : Nat) : (State.replay s k).pending = s.pending ∧ (State.replay s k).sec = s.sec ∧ (State.replay s k).guard = s.guard ∧ (State.replay s k).mem = s.mem ∧ (State.replay s k).stations = s.stations := by
  simp [State.replay]

@[simp] theorem State.nak_keep (s : State) (k : Nat) (f : Frame) : (State.nak s k f).pending = s.pending ∧ (State.nak s k f).sec = s.sec ∧ (State.nak s k f).guard = s.guard ∧ (State.nak s k f).mem = s.mem ∧ (State.nak s k f).stations = s.stations := by
  simp [State.nak]

@[simp] theorem State.nearest_keep (s : State) (n : Int) (d : Nat) : (State.nearest s n d).2.pending = s.pending ∧ (State.nearest s n d).2.sec = s.sec ∧ (State.nearest s n d).2.guard = s.guard ∧ (State.nearest s n d).2.mem = s.mem ∧ (State.nearest s n d).2.stations = s.stations := by
  unfold State.nearest; dsimp only; (repeat' split) <;> simp_all

@[simp] theorem State.peakTracks_keep (s : State) : (State.peakTracks s).pending = s.pending ∧ (State.peakTracks s).sec = s.sec ∧ (State.peakTracks s).guard = s.guard ∧ (State.peakTracks s).mem = s.mem ∧ (State.peakTracks s).stations = s.stations := by
  simp [State.peakTracks]

@[simp] theorem State.takeCtx_keep (s : State) (i : Nat) (v : BitVec 512) : (State.takeCtx s i v).1.pending = s.pending ∧ (State.takeCtx s i v).1.sec = s.sec ∧ (State.takeCtx s i v).1.guard = s.guard ∧ (State.takeCtx s i v).1.mem = s.mem ∧ (State.takeCtx s i v).1.stations = s.stations := by
  simp [State.takeCtx]

@[simp] theorem State.newTrack_keep (s : State) (v : BitVec 512) : (State.newTrack s v).1.pending = s.pending ∧ (State.newTrack s v).1.sec = s.sec ∧ (State.newTrack s v).1.guard = s.guard ∧ (State.newTrack s v).1.mem = s.mem ∧ (State.newTrack s v).1.stations = s.stations := by
  unfold State.newTrack; dsimp only; (repeat' split) <;> simp_all

@[simp] theorem State.nextUnit_keep (s : State) (n : Nat) : (State.nextUnit s n).pending = s.pending ∧ (State.nextUnit s n).sec = s.sec ∧ (State.nextUnit s n).guard = s.guard ∧ (State.nextUnit s n).mem = s.mem ∧ (State.nextUnit s n).stations = s.stations := by
  simp [State.nextUnit]

@[simp] theorem State.notInService_keep (s : State) (issuer : Nat) : (State.notInService s issuer).pending = s.pending ∧ (State.notInService s issuer).sec = s.sec ∧ (State.notInService s issuer).guard = s.guard ∧ (State.notInService s issuer).mem = s.mem ∧ (State.notInService s issuer).stations = s.stations := by
  simp [State.notInService]

@[simp] theorem State.opTimeSave_keep (s : State) : (State.opTimeSave s).pending = s.pending ∧ (State.opTimeSave s).sec = s.sec ∧ (State.opTimeSave s).guard = s.guard ∧ (State.opTimeSave s).mem = s.mem ∧ (State.opTimeSave s).stations = s.stations := by
  simp [State.opTimeSave]

@[simp] theorem State.openIdle_keep (s : State) (n : Nat) : (State.openIdle s n).pending = s.pending ∧ (State.openIdle s n).guard = s.guard ∧ (State.openIdle s n).mem = s.mem ∧ (State.openIdle s n).stations = s.stations := by
  unfold State.openIdle; (repeat' split) <;> simp

@[simp] theorem State.openLoad_keep (s : State) (k : Nat) : (State.openLoad s k).pending = s.pending ∧ (State.openLoad s k).sec = s.sec ∧ (State.openLoad s k).guard = s.guard ∧ (State.openLoad s k).mem = s.mem ∧ (State.openLoad s k).stations = s.stations := by
  simp [State.openLoad]

@[simp] theorem State.opened_keep (s : State) (rep : Nat) : (State.opened s rep).pending = s.pending ∧ (State.opened s rep).sec = s.sec ∧ (State.opened s rep).guard = s.guard ∧ (State.opened s rep).mem = s.mem ∧ (State.opened s rep).stations = s.stations := by
  simp [State.opened]

@[simp] theorem State.outputFrame_keep (s : State) (received : Bool) : (State.outputFrame s received).pending = s.pending ∧ (State.outputFrame s received).sec = s.sec ∧ (State.outputFrame s received).guard = s.guard ∧ (State.outputFrame s received).mem = s.mem ∧ (State.outputFrame s received).stations = s.stations := by
  simp [State.outputFrame]

@[simp] theorem State.overcurrent_keep (s : State) (k : Nat) : (State.overcurrent s k).pending = s.pending ∧ (State.overcurrent s k).sec = s.sec ∧ (State.overcurrent s k).guard = s.guard ∧ (State.overcurrent s k).mem = s.mem ∧ (State.overcurrent s k).stations = s.stations := by
  simp [State.overcurrent]

@[simp] theorem State.overlayPending_keep (s : State) (n : Nat) : (State.overlayPending s n).pending = s.pending ∧ (State.overlayPending s n).sec = s.sec ∧ (State.overlayPending s n).guard = s.guard ∧ (State.overlayPending s n).mem = s.mem ∧ (State.overlayPending s n).stations = s.stations := by
  unfold State.overlayPending; dsimp only; (repeat' split) <;> simp_all

@[simp] theorem State.overrideEnds_keep (s : State) : (State.overrideEnds s).pending = s.pending ∧ (State.overrideEnds s).sec = s.sec ∧ (State.overrideEnds s).guard = s.guard ∧ (State.overrideEnds s).mem = s.mem ∧ (State.overrideEnds s).stations = s.stations := by
  unfold State.overrideEnds; (repeat' split) <;> simp

@[simp] theorem State.overrun_keep (s : State) (id : Nat) : (State.overrun s id).pending = s.pending ∧ (State.overrun s id).sec = s.sec ∧ (State.overrun s id).guard = s.guard := by
  unfold State.overrun; (repeat' split) <;> simp

@[simp] theorem State.pdDown_keep (s : State) (pd : Nat) (outstanding : Nat) : (State.pdDown s pd outstanding).pending = s.pending ∧ (State.pdDown s pd outstanding).sec = s.sec ∧ (State.pdDown s pd outstanding).guard = s.guard := by
  unfold State.pdDown; (repeat' split) <;> simp

@[simp] theorem State.stationsOff_keep (s : State) (pd : Nat) : (State.stationsOff s pd).pending = s.pending ∧ (State.stationsOff s pd).sec = s.sec ∧ (State.stationsOff s pd).guard = s.guard ∧ (State.stationsOff s pd).mem = s.mem := by
  simp [State.stationsOff]

@[simp] theorem State.pdDownDone_keep (s : State) (pd : Nat) : (State.pdDownDone s pd).pending = s.pending ∧ (State.pdDownDone s pd).sec = s.sec ∧ (State.pdDownDone s pd).guard = s.guard := by
  simp [State.pdDownDone]

@[simp] theorem State.pdWait_keep (s : State) (pd : Nat) (w : Option Bool) : (State.pdWait s pd w).pending = s.pending ∧ (State.pdWait s pd w).sec = s.sec ∧ (State.pdWait s pd w).guard = s.guard ∧ (State.pdWait s pd w).mem = s.mem ∧ (State.pdWait s pd w).stations = s.stations := by
  unfold State.pdWait; (repeat' split) <;> simp

@[simp] theorem State.pdRequest_keep (s : State) (pd : Nat) (on : Bool) (outstanding : Nat) : (State.pdRequest s pd on outstanding).pending = s.pending ∧ (State.pdRequest s pd on outstanding).sec = s.sec ∧ (State.pdRequest s pd on outstanding).guard = s.guard := by
  unfold State.pdRequest; (repeat' split) <;> simp

@[simp] theorem State.pdUpDone_keep (s : State) (pd : Nat) : (State.pdUpDone s pd).pending = s.pending ∧ (State.pdUpDone s pd).sec = s.sec ∧ (State.pdUpDone s pd).guard = s.guard := by
  simp [State.pdUpDone]

@[simp] theorem State.periodInvalid_keep (s : State) (ch : Nat) : (State.periodInvalid s ch).pending = s.pending ∧ (State.periodInvalid s ch).sec = s.sec ∧ (State.periodInvalid s ch).guard = s.guard ∧ (State.periodInvalid s ch).mem = s.mem ∧ (State.periodInvalid s ch).stations = s.stations := by
  simp [State.periodInvalid]

@[simp] theorem State.pfIssue_keep (s : State) (i : Nat) : (State.pfIssue s i).pending = s.pending ∧ (State.pfIssue s i).sec = s.sec ∧ (State.pfIssue s i).guard = s.guard ∧ (State.pfIssue s i).stations = s.stations := by
  simp [State.pfIssue]

@[simp] theorem State.vUnsupported_keep (s : State) (n : Nat) (u : AccessUnit) : (State.vUnsupported s n u).pending = s.pending ∧ (State.vUnsupported s n u).sec = s.sec ∧ (State.vUnsupported s n u).guard = s.guard ∧ (State.vUnsupported s n u).mem = s.mem ∧ (State.vUnsupported s n u).stations = s.stations := by
  simp [State.vUnsupported]

@[simp] theorem State.planWindow_keep (s : State) (i : Nat) : (State.planWindow s i).pending = s.pending ∧ (State.planWindow s i).sec = s.sec ∧ (State.planWindow s i).guard = s.guard ∧ (State.planWindow s i).mem = s.mem ∧ (State.planWindow s i).stations = s.stations := by
  simp [State.planWindow]

@[simp] theorem State.powerGood_keep (s : State) : (State.powerGood s).pending = s.pending := by
  simp [State.powerGood]

set_option maxRecDepth 4000 in
@[simp] theorem State.powerSample_keep (s : State) (mw : Nat) : (State.powerSample s mw).pending = s.pending ∧ (State.powerSample s mw).sec = s.sec ∧ (State.powerSample s mw).guard = s.guard ∧ (State.powerSample s mw).mem = s.mem ∧ (State.powerSample s mw).stations = s.stations := by
  simp [State.powerSample]

@[simp] theorem State.psramRead_keep (s : State) (a : Nat) (dev0 : EccResult) (dev1 : EccResult) : (State.psramRead s a dev0 dev1).pending = s.pending := by
  unfold State.psramRead; (repeat' split) <;> simp

@[simp] theorem State.queueMark_keep (s : State) (issuer : Nat) (q : Nat) (bad : Bool) : (State.queueMark s issuer q bad).pending = s.pending ∧ (State.queueMark s issuer q bad).sec = s.sec ∧ (State.queueMark s issuer q bad).guard = s.guard ∧ (State.queueMark s issuer q bad).mem = s.mem ∧ (State.queueMark s issuer q bad).stations = s.stations := by
  simp [State.queueMark]

@[simp] theorem State.queuePop_keep (s : State) (issuer : Nat) (q : Nat) (bad : Bool) (parity : Bool) : (State.queuePop s issuer q bad parity).pending = s.pending ∧ (State.queuePop s issuer q bad parity).sec = s.sec ∧ (State.queuePop s issuer q bad parity).guard = s.guard := by
  unfold State.queuePop; (repeat' split) <;> simp

@[simp] theorem State.queueReset_keep (s : State) (issuer : Nat) (q : Nat) : (State.queueReset s issuer q).pending = s.pending ∧ (State.queueReset s issuer q).sec = s.sec ∧ (State.queueReset s issuer q).guard = s.guard ∧ (State.queueReset s issuer q).mem = s.mem ∧ (State.queueReset s issuer q).stations = s.stations := by
  simp [State.queueReset]

@[simp] theorem State.queueRewind_keep (s : State) (issuer : Nat) (q : Nat) (bad : Bool) : (State.queueRewind s issuer q bad).pending = s.pending ∧ (State.queueRewind s issuer q bad).sec = s.sec ∧ (State.queueRewind s issuer q bad).guard = s.guard ∧ (State.queueRewind s issuer q bad).mem = s.mem ∧ (State.queueRewind s issuer q bad).stations = s.stations := by
  unfold State.queueRewind; (repeat' split) <;> simp

@[simp] theorem State.raiseIbi_keep (s : State) : (State.raiseIbi s).pending = s.pending ∧ (State.raiseIbi s).sec = s.sec ∧ (State.raiseIbi s).guard = s.guard ∧ (State.raiseIbi s).mem = s.mem ∧ (State.raiseIbi s).stations = s.stations := by
  unfold State.raiseIbi; (repeat' split) <;> simp

@[simp] theorem State.rampDown_keep (s : State) (n : Nat) (cycles : Nat) (completed : Bool) : (State.rampDown s n cycles completed).pending = s.pending ∧ (State.rampDown s n cycles completed).sec = s.sec ∧ (State.rampDown s n cycles completed).guard = s.guard ∧ (State.rampDown s n cycles completed).mem = s.mem ∧ (State.rampDown s n cycles completed).stations = s.stations := by
  unfold State.rampDown; (repeat' split) <;> simp

@[simp] theorem State.rampUpDone_keep (s : State) (n : Nat) : (State.rampUpDone s n).pending = s.pending ∧ (State.rampUpDone s n).sec = s.sec ∧ (State.rampUpDone s n).guard = s.guard ∧ (State.rampUpDone s n).mem = s.mem ∧ (State.rampUpDone s n).stations = s.stations := by
  unfold State.rampUpDone; (repeat' split) <;> simp

@[simp] theorem State.readLengths_keep (s : State) (sid : Nat) (r0 : Running) (g : AttnArgs) : (State.readLengths s sid r0 g).pending = s.pending ∧ (State.readLengths s sid r0 g).sec = s.sec ∧ (State.readLengths s sid r0 g).guard = s.guard := by
  unfold State.readLengths
  split
  · simp
  · rename_i h1
    have k1 := State.feed_keep _ _ _ _ _ h1
    dsimp only
    (repeat' split) <;> ((try simp only [Prod.ext_iff] at *) <;> (try casesm* _ ∧ _) <;> (try subst_vars) <;> (first | (simp_all; done) | (simp_all +zetaDelta; done)))

@[simp] theorem State.recEraseDone_keep (s : State) : (State.recEraseDone s).pending = s.pending ∧ (State.recEraseDone s).sec = s.sec ∧ (State.recEraseDone s).guard = s.guard ∧ (State.recEraseDone s).mem = s.mem ∧ (State.recEraseDone s).stations = s.stations := by
  simp [State.recEraseDone]

@[simp] theorem State.recFlashWrite_keep (s : State) (fails : List SlotFail) : (State.recFlashWrite s fails).pending = s.pending ∧ (State.recFlashWrite s fails).sec = s.sec ∧ (State.recFlashWrite s fails).guard = s.guard ∧ (State.recFlashWrite s fails).mem = s.mem ∧ (State.recFlashWrite s fails).stations = s.stations := by
  unfold State.recFlashWrite; (repeat' split) <;> simp

@[simp] theorem State.replayTimeout_keep (s : State) (k : Nat) : (State.replayTimeout s k).pending = s.pending ∧ (State.replayTimeout s k).sec = s.sec ∧ (State.replayTimeout s k).guard = s.guard ∧ (State.replayTimeout s k).mem = s.mem ∧ (State.replayTimeout s k).stations = s.stations := by
  simp [State.replayTimeout]

@[simp] theorem State.restartModule_keep (s : State) : (State.restartModule s).pending = s.pending := by
  simp [State.restartModule]

@[simp] theorem State.resetEffect_keep (s : State) : (State.resetEffect s).pending = s.pending := by
  unfold State.resetEffect; (repeat' split) <;> simp

@[simp] theorem State.resultRead_keep (s : State) : (State.resultRead s).pending = s.pending ∧ (State.resultRead s).sec = s.sec ∧ (State.resultRead s).guard = s.guard ∧ (State.resultRead s).mem = s.mem ∧ (State.resultRead s).stations = s.stations := by
  unfold State.resultRead; dsimp only; (repeat' split) <;> simp_all

@[simp] theorem State.rstdaa_keep (s : State) : (State.rstdaa s).pending = s.pending ∧ (State.rstdaa s).sec = s.sec ∧ (State.rstdaa s).guard = s.guard ∧ (State.rstdaa s).mem = s.mem ∧ (State.rstdaa s).stations = s.stations := by
  simp [State.rstdaa]

@[simp] theorem State.rtpPacket_keep (s : State) (source : Nat) (port : Nat) (pt : Nat) (p : RtpPacket) : (State.rtpPacket s source port pt p).pending = s.pending ∧ (State.rtpPacket s source port pt p).sec = s.sec ∧ (State.rtpPacket s source port pt p).guard = s.guard ∧ (State.rtpPacket s source port pt p).mem = s.mem ∧ (State.rtpPacket s source port pt p).stations = s.stations := by
  unfold State.rtpPacket; (repeat' split) <;> simp

@[simp] theorem State.rtpRelease_keep (s : State) (n : Nat) : (State.rtpRelease s n).pending = s.pending ∧ (State.rtpRelease s n).sec = s.sec ∧ (State.rtpRelease s n).guard = s.guard ∧ (State.rtpRelease s n).mem = s.mem ∧ (State.rtpRelease s n).stations = s.stations := by
  unfold State.rtpRelease; dsimp only; (repeat' split) <;> simp_all

@[simp] theorem State.rxWakeUp_keep (s : State) (k : Nat) : (State.rxWakeUp s k).pending = s.pending ∧ (State.rxWakeUp s k).sec = s.sec ∧ (State.rxWakeUp s k).guard = s.guard ∧ (State.rxWakeUp s k).mem = s.mem ∧ (State.rxWakeUp s k).stations = s.stations := by
  simp [State.rxWakeUp]

@[simp] theorem State.score16_keep (s : State) (lo : Int) (hi : Int) (v : Int) : (State.score16 s lo hi v).2.pending = s.pending ∧ (State.score16 s lo hi v).2.sec = s.sec ∧ (State.score16 s lo hi v).2.guard = s.guard ∧ (State.score16 s lo hi v).2.mem = s.mem ∧ (State.score16 s lo hi v).2.stations = s.stations := by
  unfold State.score16; dsimp only; (repeat' split) <;> simp_all

@[simp] theorem State.scrub_keep (s : State) (off : Nat) (claimed : Bool) (ecc : EccResult) : (State.scrub s off claimed ecc).pending = s.pending ∧ (State.scrub s off claimed ecc).sec = s.sec ∧ (State.scrub s off claimed ecc).guard = s.guard ∧ (State.scrub s off claimed ecc).stations = s.stations := by
  simp [State.scrub]

@[simp] theorem State.segTimeout_keep (s : State) (who : Nat) : (State.segTimeout s who).pending = s.pending ∧ (State.segTimeout s who).sec = s.sec ∧ (State.segTimeout s who).guard = s.guard ∧ (State.segTimeout s who).mem = s.mem ∧ (State.segTimeout s who).stations = s.stations := by
  unfold State.segTimeout; (repeat' split) <;> simp

@[simp] theorem State.selfCheck_keep (s : State) (good : Bool) : (State.selfCheck s good).pending = s.pending := by
  simp [State.selfCheck]

@[simp] theorem State.sensorLevel_keep (s : State) (k : Nat) (level : Nat) : (State.sensorLevel s k level).pending = s.pending := by
  simp [State.sensorLevel]

@[simp] theorem State.sensorBound_keep (s : State) (k : Nat) (r0 : List Int) (b : Bound) : (State.sensorBound s k r0 b).pending = s.pending := by
  simp [State.sensorBound]

@[simp] theorem State.sensorClear_keep (s : State) (k : Nat) : (State.sensorClear s k).pending = s.pending ∧ (State.sensorClear s k).sec = s.sec ∧ (State.sensorClear s k).mem = s.mem := by
  simp [State.sensorClear]

@[simp] theorem State.sensorFail_keep (s : State) (k : Nat) : (State.sensorFail s k).pending = s.pending := by
  unfold State.sensorFail; (repeat' split) <;> simp

@[simp] theorem State.sensorSample_keep (s : State) (k : Nat) (v : Int) : (State.sensorSample s k v).pending = s.pending := by
  simp [State.sensorSample]

@[simp] theorem State.sensorSilent_keep (s : State) (k : Nat) : (State.sensorSilent s k).pending = s.pending := by
  simp [State.sensorSilent]

@[simp] theorem State.seqLock_keep (s : State) (sid : Nat) : (State.seqLock s sid).pending = s.pending ∧ (State.seqLock s sid).sec = s.sec ∧ (State.seqLock s sid).guard = s.guard := by
  unfold State.seqLock; (repeat' split) <;> simp

@[simp] theorem State.sessionTimeout_keep (s : State) (n : Nat) : (State.sessionTimeout s n).pending = s.pending ∧ (State.sessionTimeout s n).guard = s.guard ∧ (State.sessionTimeout s n).mem = s.mem ∧ (State.sessionTimeout s n).stations = s.stations := by
  unfold State.sessionTimeout; (repeat' split) <;> simp

@[simp] theorem State.setIbi_keep (s : State) (on : Bool) (events : Nat) : (State.setIbi s on events).pending = s.pending ∧ (State.setIbi s on events).sec = s.sec ∧ (State.setIbi s on events).guard = s.guard ∧ (State.setIbi s on events).mem = s.mem ∧ (State.setIbi s on events).stations = s.stations := by
  simp [State.setIbi]

@[simp] theorem State.setLength_keep (s : State) (top : Nat) (v : Nat) (f : I3c → Nat → I3c) : (State.setLength s top v f).pending = s.pending ∧ (State.setLength s top v f).sec = s.sec ∧ (State.setLength s top v f).guard = s.guard ∧ (State.setLength s top v f).mem = s.mem ∧ (State.setLength s top v f).stations = s.stations := by
  simp [State.setLength]

@[simp] theorem State.setdasa_keep (s : State) (static : Nat) (a : Nat) : (State.setdasa s static a).pending = s.pending ∧ (State.setdasa s static a).sec = s.sec ∧ (State.setdasa s static a).guard = s.guard ∧ (State.setdasa s static a).mem = s.mem ∧ (State.setdasa s static a).stations = s.stations := by
  simp [State.setdasa]

@[simp] theorem State.setnewda_keep (s : State) (a : Nat) : (State.setnewda s a).pending = s.pending ∧ (State.setnewda s a).sec = s.sec ∧ (State.setnewda s a).guard = s.guard ∧ (State.setnewda s a).mem = s.mem ∧ (State.setnewda s a).stations = s.stations := by
  simp [State.setnewda]

@[simp] theorem State.settingsCommit_keep (s : State) : (State.settingsCommit s).pending = s.pending ∧ (State.settingsCommit s).sec = s.sec ∧ (State.settingsCommit s).guard = s.guard ∧ (State.settingsCommit s).mem = s.mem ∧ (State.settingsCommit s).stations = s.stations := by
  unfold State.settingsCommit; (repeat' split) <;> simp

@[simp] theorem State.shiftStart_keep (s : State) : (State.shiftStart s).pending = s.pending ∧ (State.shiftStart s).sec = s.sec ∧ (State.shiftStart s).guard = s.guard ∧ (State.shiftStart s).mem = s.mem ∧ (State.shiftStart s).stations = s.stations := by
  simp [State.shiftStart]

@[simp] theorem State.sleep_keep (s : State) (k : Nat) (x2 : Frame) : (State.sleep s k x2).pending = s.pending ∧ (State.sleep s k x2).sec = s.sec ∧ (State.sleep s k x2).guard = s.guard ∧ (State.sleep s k x2).mem = s.mem ∧ (State.sleep s k x2).stations = s.stations := by
  simp [State.sleep]

@[simp] theorem State.splitCommand_keep (s : State) (n : Nat) (split : Bool) : (State.splitCommand s n split).pending = s.pending ∧ (State.splitCommand s n split).sec = s.sec ∧ (State.splitCommand s n split).guard = s.guard ∧ (State.splitCommand s n split).mem = s.mem := by
  simp [State.splitCommand]

@[simp] theorem State.ssiEdges_keep (s : State) (ch : Nat) (d : Int) (t0 : Int) (t1 : Int) (n : Nat) : (State.ssiEdges s ch d t0 t1 n).pending = s.pending ∧ (State.ssiEdges s ch d t0 t1 n).sec = s.sec ∧ (State.ssiEdges s ch d t0 t1 n).guard = s.guard ∧ (State.ssiEdges s ch d t0 t1 n).mem = s.mem ∧ (State.ssiEdges s ch d t0 t1 n).stations = s.stations := by
  simp [State.ssiEdges]

@[simp] theorem State.ssiJump_keep (s : State) (ch : Nat) (v : Nat) (t : Int) (near : Bool) : (State.ssiJump s ch v t near).pending = s.pending ∧ (State.ssiJump s ch v t near).sec = s.sec ∧ (State.ssiJump s ch v t near).guard = s.guard ∧ (State.ssiJump s ch v t near).mem = s.mem ∧ (State.ssiJump s ch v t near).stations = s.stations := by
  simp [State.ssiJump]

@[simp] theorem State.ssiGood_keep (s : State) (ch : Nat) (v : Nat) (t : Int) : (State.ssiGood s ch v t).pending = s.pending ∧ (State.ssiGood s ch v t).sec = s.sec ∧ (State.ssiGood s ch v t).guard = s.guard ∧ (State.ssiGood s ch v t).mem = s.mem ∧ (State.ssiGood s ch v t).stations = s.stations := by
  unfold State.ssiGood; dsimp only; (repeat' split) <;> simp_all

@[simp] theorem State.ssiFail_keep (s : State) (ch : Nat) : (State.ssiFail s ch).pending = s.pending ∧ (State.ssiFail s ch).sec = s.sec ∧ (State.ssiFail s ch).guard = s.guard ∧ (State.ssiFail s ch).mem = s.mem ∧ (State.ssiFail s ch).stations = s.stations := by
  simp [State.ssiFail]

@[simp] theorem State.ssiEnd_keep (s : State) (ch : Nat) (raw : Nat) (notReady : Bool) (recoveryBad : Bool) : (State.ssiEnd s ch raw notReady recoveryBad).pending = s.pending ∧ (State.ssiEnd s ch raw notReady recoveryBad).sec = s.sec ∧ (State.ssiEnd s ch raw notReady recoveryBad).guard = s.guard ∧ (State.ssiEnd s ch raw notReady recoveryBad).mem = s.mem ∧ (State.ssiEnd s ch raw notReady recoveryBad).stations = s.stations := by
  unfold State.ssiEnd; dsimp only; (repeat' split) <;> simp_all

@[simp] theorem State.ssiStart_keep (s : State) (ch : Nat) : (State.ssiStart s ch).pending = s.pending ∧ (State.ssiStart s ch).sec = s.sec ∧ (State.ssiStart s ch).guard = s.guard ∧ (State.ssiStart s ch).mem = s.mem ∧ (State.ssiStart s ch).stations = s.stations := by
  simp [State.ssiStart]

@[simp] theorem State.startRefs_keep (s : State) (n : Nat) : (State.startRefs s n).pending = s.pending ∧ (State.startRefs s n).sec = s.sec ∧ (State.startRefs s n).guard = s.guard ∧ (State.startRefs s n).mem = s.mem ∧ (State.startRefs s n).stations = s.stations := by
  simp [State.startRefs]

@[simp] theorem State.startStep_keep (s : State) (sid : Nat) (w : StepWord) : (State.startStep s sid w).pending = s.pending ∧ (State.startStep s sid w).sec = s.sec ∧ (State.startStep s sid w).guard = s.guard ∧ (State.startStep s sid w).mem = s.mem := by
  simp [State.startStep]

@[simp] theorem State.stationFault_keep (s : State) (sid : Nat) (w : Word) : (State.stationFault s sid w).pending = s.pending := by
  simp [State.stationFault]

@[simp] theorem State.stationStart_keep (s : State) (sid : Nat) : (State.stationStart s sid).pending = s.pending ∧ (State.stationStart s sid).sec = s.sec ∧ (State.stationStart s sid).guard = s.guard ∧ (State.stationStart s sid).mem = s.mem := by
  simp [State.stationStart]

@[simp] theorem State.swapCheck_keep (s : State) (sid : Nat) : (State.swapCheck s sid).pending = s.pending ∧ (State.swapCheck s sid).sec = s.sec ∧ (State.swapCheck s sid).guard = s.guard ∧ (State.swapCheck s sid).mem = s.mem := by
  unfold State.swapCheck; dsimp only; (repeat' split) <;> simp_all

@[simp] theorem State.stepStart_keep (s : State) (sid : Nat) : (State.stepStart s sid).pending = s.pending ∧ (State.stepStart s sid).sec = s.sec ∧ (State.stepStart s sid).guard = s.guard ∧ (State.stepStart s sid).mem = s.mem := by
  unfold State.stepStart; dsimp only; (repeat' split) <;> simp_all

@[simp] theorem State.stopHung_keep (s : State) : (State.stopHung s).pending = s.pending := by
  simp [State.stopHung]

@[simp] theorem State.stringRefresh_keep (s : State) (v : Nat) : (State.stringRefresh s v).pending = s.pending ∧ (State.stringRefresh s v).sec = s.sec ∧ (State.stringRefresh s v).guard = s.guard ∧ (State.stringRefresh s v).mem = s.mem ∧ (State.stringRefresh s v).stations = s.stations := by
  simp [State.stringRefresh]

@[simp] theorem State.supplyBack_keep (s : State) : (State.supplyBack s).pending = s.pending ∧ (State.supplyBack s).sec = s.sec ∧ (State.supplyBack s).guard = s.guard ∧ (State.supplyBack s).mem = s.mem ∧ (State.supplyBack s).stations = s.stations := by
  simp [State.supplyBack]

@[simp] theorem State.supplyLow_keep (s : State) : (State.supplyLow s).pending = s.pending ∧ (State.supplyLow s).sec = s.sec ∧ (State.supplyLow s).guard = s.guard ∧ (State.supplyLow s).mem = s.mem ∧ (State.supplyLow s).stations = s.stations := by
  simp [State.supplyLow]

@[simp] theorem State.swapArm_keep (s : State) : (State.swapArm s).pending = s.pending ∧ (State.swapArm s).sec = s.sec ∧ (State.swapArm s).guard = s.guard ∧ (State.swapArm s).mem = s.mem := by
  unfold State.swapArm; (repeat' split) <;> simp

@[simp] theorem State.takeBaseline_keep (s : State) : (State.takeBaseline s).pending = s.pending ∧ (State.takeBaseline s).sec = s.sec ∧ (State.takeBaseline s).guard = s.guard ∧ (State.takeBaseline s).mem = s.mem ∧ (State.takeBaseline s).stations = s.stations := by
  simp [State.takeBaseline]

@[simp] theorem State.switchTo_keep (s : State) (c : Candidate) : (State.switchTo s c).pending = s.pending ∧ (State.switchTo s c).sec = s.sec ∧ (State.switchTo s c).guard = s.guard ∧ (State.switchTo s c).mem = s.mem ∧ (State.switchTo s c).stations = s.stations := by
  unfold State.switchTo; (repeat' split) <;> simp

@[simp] theorem State.switchBack_keep (s : State) (c : Candidate) : (State.switchBack s c).pending = s.pending ∧ (State.switchBack s c).sec = s.sec ∧ (State.switchBack s c).guard = s.guard ∧ (State.switchBack s c).mem = s.mem ∧ (State.switchBack s c).stations = s.stations := by
  unfold State.switchBack; dsimp only; (repeat' split) <;> simp_all

@[simp] theorem State.swapSwitched_keep (s : State) (count : Nat) : (State.swapSwitched s count).pending = s.pending ∧ (State.swapSwitched s count).sec = s.sec ∧ (State.swapSwitched s count).guard = s.guard ∧ (State.swapSwitched s count).mem = s.mem ∧ (State.swapSwitched s count).stations = s.stations := by
  unfold State.swapSwitched; (repeat' split) <;> simp

@[simp] theorem State.sweepDone_keep (s : State) (q : Nat) : (State.sweepDone s q).pending = s.pending ∧ (State.sweepDone s q).sec = s.sec ∧ (State.sweepDone s q).guard = s.guard ∧ (State.sweepDone s q).mem = s.mem ∧ (State.sweepDone s q).stations = s.stations := by
  simp [State.sweepDone]

@[simp] theorem State.tableArm_keep (s : State) (sid : Nat) (c : SwitchCond) : (State.tableArm s sid c).pending = s.pending ∧ (State.tableArm s sid c).sec = s.sec ∧ (State.tableArm s sid c).guard = s.guard ∧ (State.tableArm s sid c).mem = s.mem := by
  unfold State.tableArm; (repeat' split) <;> simp

@[simp] theorem State.tableDisarm_keep (s : State) (sid : Nat) (same : Bool) : (State.tableDisarm s sid same).pending = s.pending ∧ (State.tableDisarm s sid same).sec = s.sec ∧ (State.tableDisarm s sid same).guard = s.guard ∧ (State.tableDisarm s sid same).mem = s.mem := by
  unfold State.tableDisarm; (repeat' split) <;> simp

@[simp] theorem State.tableLoad_keep (s : State) (sid : Nat) (tbl : List StepWord) : (State.tableLoad s sid tbl).pending = s.pending ∧ (State.tableLoad s sid tbl).sec = s.sec ∧ (State.tableLoad s sid tbl).guard = s.guard ∧ (State.tableLoad s sid tbl).mem = s.mem := by
  unfold State.tableLoad; (repeat' split) <;> simp

@[simp] theorem State.tamper_keep (s : State) : (State.tamper s).pending = s.pending := by
  simp [State.tamper]

@[simp] theorem State.teacherBatch_keep (s : State) (job : Desc) (labels : List (Prod Nat Nat)) : (State.teacherBatch s job labels).pending = s.pending ∧ (State.teacherBatch s job labels).sec = s.sec ∧ (State.teacherBatch s job labels).guard = s.guard := by
  unfold State.teacherBatch; (repeat' split) <;> simp

@[simp] theorem State.waitRoom_keep (s : State) (sid : Nat) (port : Nat) (o : OutTile) : (State.waitRoom s sid port o).pending = s.pending ∧ (State.waitRoom s sid port o).sec = s.sec ∧ (State.waitRoom s sid port o).guard = s.guard ∧ (State.waitRoom s sid port o).mem = s.mem ∧ (State.waitRoom s sid port o).stations = s.stations := by
  simp [State.waitRoom]

@[simp] theorem State.tileEmit_keep (s : State) (sid : Nat) (addr : Nat) (scale : Nat) (sot : Bool) (eot : Bool) : (State.tileEmit s sid addr scale sot eot).pending = s.pending ∧ (State.tileEmit s sid addr scale sot eot).sec = s.sec ∧ (State.tileEmit s sid addr scale sot eot).guard = s.guard := by
  unfold State.tileEmit; (repeat' split) <;> simp

@[simp] theorem State.tileReceive_keep (s : State) (dst : Nat) (port : Nat) (d : Desc) : (State.tileReceive s dst port d).pending = s.pending ∧ (State.tileReceive s dst port d).sec = s.sec ∧ (State.tileReceive s dst port d).guard = s.guard ∧ (State.tileReceive s dst port d).mem = s.mem := by
  simp [State.tileReceive]

@[simp] theorem State.trackRow_keep (s : State) (v : BitVec 512) : (State.trackRow s v).1.pending = s.pending ∧ (State.trackRow s v).1.sec = s.sec ∧ (State.trackRow s v).1.guard = s.guard ∧ (State.trackRow s v).1.mem = s.mem ∧ (State.trackRow s v).1.stations = s.stations := by
  unfold State.trackRow; (repeat' split) <;> simp

@[simp] theorem State.track_keep (s : State) : (State.track s).pending = s.pending ∧ (State.track s).sec = s.sec ∧ (State.track s).guard = s.guard := by
  unfold State.track; dsimp only; (repeat' split) <;> simp_all

@[simp] theorem State.trackEjecting_keep (s : State) (port : Nat) : (State.trackEjecting s port).pending = s.pending ∧ (State.trackEjecting s port).sec = s.sec ∧ (State.trackEjecting s port).guard = s.guard := by
  unfold State.trackEjecting; (repeat' split) <;> ((try simp only [Prod.ext_iff] at *) <;> (try casesm* _ ∧ _) <;> (try subst_vars) <;> (first | (simp_all; done) | (simp_all +zetaDelta; done)))

@[simp] theorem State.trackExpired_keep (s : State) (i : Nat) (addr : Nat) : (State.trackExpired s i addr).pending = s.pending ∧ (State.trackExpired s i addr).sec = s.sec ∧ (State.trackExpired s i addr).guard = s.guard := by
  simp [State.trackExpired]

@[simp] theorem State.trackRetire_keep (s : State) (i : Nat) : (State.trackRetire s i).pending = s.pending ∧ (State.trackRetire s i).sec = s.sec ∧ (State.trackRetire s i).guard = s.guard ∧ (State.trackRetire s i).mem = s.mem ∧ (State.trackRetire s i).stations = s.stations := by
  simp [State.trackRetire]

@[simp] theorem State.trainFail_keep (s : State) (labels : Nat) : (State.trainFail s labels).pending = s.pending ∧ (State.trainFail s labels).sec = s.sec ∧ (State.trainFail s labels).guard = s.guard ∧ (State.trainFail s labels).mem = s.mem ∧ (State.trainFail s labels).stations = s.stations := by
  simp [State.trainFail]

@[simp] theorem State.trainPowered_keep (s : State) (pd : Nat) : (State.trainPowered s pd).pending = s.pending ∧ (State.trainPowered s pd).sec = s.sec ∧ (State.trainPowered s pd).guard = s.guard ∧ (State.trainPowered s pd).mem = s.mem ∧ (State.trainPowered s pd).stations = s.stations := by
  simp [State.trainPowered]

@[simp] theorem State.trainingEnd_keep (s : State) (r0 : Option (Prod Nat AdapterImage)) : (State.trainingEnd s r0).pending = s.pending ∧ (State.trainingEnd s r0).sec = s.sec ∧ (State.trainingEnd s r0).guard = s.guard ∧ (State.trainingEnd s r0).mem = s.mem ∧ (State.trainingEnd s r0).stations = s.stations := by
  unfold State.trainingEnd; (repeat' split) <;> simp

@[simp] theorem State.trainingStart_keep (s : State) (job : Desc) : (State.trainingStart s job).pending = s.pending ∧ (State.trainingStart s job).sec = s.sec ∧ (State.trainingStart s job).guard = s.guard ∧ (State.trainingStart s job).mem = s.mem := by
  simp [State.trainingStart]

@[simp] theorem State.trumpHalted_keep (s : State) : (State.trumpHalted s).pending = s.pending ∧ (State.trumpHalted s).sec = s.sec ∧ (State.trumpHalted s).mem = s.mem := by
  simp [State.trumpHalted]

@[simp] theorem State.wakeStrings_keep (s : State) : (State.wakeStrings s).pending = s.pending ∧ (State.wakeStrings s).sec = s.sec ∧ (State.wakeStrings s).guard = s.guard ∧ (State.wakeStrings s).mem = s.mem ∧ (State.wakeStrings s).stations = s.stations := by
  simp [State.wakeStrings]

@[simp] theorem State.trumpStarted_keep (s : State) : (State.trumpStarted s).pending = s.pending ∧ (State.trumpStarted s).sec = s.sec := by
  unfold State.trumpStarted; dsimp only; (repeat' split) <;> ((try simp only [Prod.ext_iff] at *) <;> (try casesm* _ ∧ _) <;> (try subst_vars) <;> (first | (simp_all; done) | (simp_all +zetaDelta; done)))

@[simp] theorem State.txSleep_keep (s : State) (k : Nat) : (State.txSleep s k).pending = s.pending ∧ (State.txSleep s k).sec = s.sec ∧ (State.txSleep s k).guard = s.guard ∧ (State.txSleep s k).mem = s.mem ∧ (State.txSleep s k).stations = s.stations := by
  simp [State.txSleep]

@[simp] theorem State.txWake_keep (s : State) (k : Nat) : (State.txWake s k).pending = s.pending ∧ (State.txWake s k).sec = s.sec ∧ (State.txWake s k).guard = s.guard ∧ (State.txWake s k).mem = s.mem ∧ (State.txWake s k).stations = s.stations := by
  simp [State.txWake]

@[simp] theorem State.txWakeEnd_keep (s : State) (k : Nat) : (State.txWakeEnd s k).pending = s.pending ∧ (State.txWakeEnd s k).sec = s.sec ∧ (State.txWakeEnd s k).guard = s.guard ∧ (State.txWakeEnd s k).mem = s.mem ∧ (State.txWakeEnd s k).stations = s.stations := by
  unfold State.txWakeEnd; (repeat' split) <;> simp

@[simp] theorem State.validationEnd_keep (s : State) (objects : List GoldenScore) : (State.validationEnd s objects).pending = s.pending ∧ (State.validationEnd s objects).sec = s.sec ∧ (State.validationEnd s objects).guard = s.guard ∧ (State.validationEnd s objects).mem = s.mem ∧ (State.validationEnd s objects).stations = s.stations := by
  unfold State.validationEnd; (repeat' split) <;> simp

@[simp] theorem State.videoBudget_keep (s : State) (n : Nat) (first : Nat) (damaged : Nat) (total : Nat) : (State.videoBudget s n first damaged total).pending = s.pending ∧ (State.videoBudget s n first damaged total).sec = s.sec ∧ (State.videoBudget s n first damaged total).guard = s.guard ∧ (State.videoBudget s n first damaged total).stations = s.stations := by
  unfold State.videoBudget; (repeat' split) <;> simp

@[simp] theorem State.vstreamLost_keep (s : State) (n : Nat) : (State.vstreamLost s n).pending = s.pending ∧ (State.vstreamLost s n).sec = s.sec ∧ (State.vstreamLost s n).guard = s.guard ∧ (State.vstreamLost s n).mem = s.mem ∧ (State.vstreamLost s n).stations = s.stations := by
  simp [State.vstreamLost]

@[simp] theorem State.watchAccept_keep (s : State) : (State.watchAccept s).pending = s.pending ∧ (State.watchAccept s).sec = s.sec ∧ (State.watchAccept s).guard = s.guard ∧ (State.watchAccept s).mem = s.mem ∧ (State.watchAccept s).stations = s.stations := by
  unfold State.watchAccept; (repeat' split) <;> simp

@[simp] theorem State.watchDelta_keep (s : State) : (State.watchDelta s).2.pending = s.pending ∧ (State.watchDelta s).2.sec = s.sec ∧ (State.watchDelta s).2.guard = s.guard ∧ (State.watchDelta s).2.mem = s.mem ∧ (State.watchDelta s).2.stations = s.stations := by
  unfold State.watchDelta; dsimp only; (repeat' split) <;> simp_all

@[simp] theorem State.watchEvaluate_keep (s : State) : (State.watchEvaluate s).pending = s.pending ∧ (State.watchEvaluate s).sec = s.sec ∧ (State.watchEvaluate s).guard = s.guard ∧ (State.watchEvaluate s).mem = s.mem ∧ (State.watchEvaluate s).stations = s.stations := by
  simp [State.watchEvaluate]

@[simp] theorem State.watchdogExpiry_keep (s : State) : (State.watchdogExpiry s).pending = s.pending ∧ (State.watchdogExpiry s).sec = s.sec ∧ (State.watchdogExpiry s).guard = s.guard ∧ (State.watchdogExpiry s).mem = s.mem ∧ (State.watchdogExpiry s).stations = s.stations := by
  unfold State.watchdogExpiry; (repeat' split) <;> simp

@[simp] theorem State.wireBreak_keep (s : State) (n : Nat) : (State.wireBreak s n).pending = s.pending ∧ (State.wireBreak s n).sec = s.sec ∧ (State.wireBreak s n).guard = s.guard ∧ (State.wireBreak s n).mem = s.mem ∧ (State.wireBreak s n).stations = s.stations := by
  simp [State.wireBreak]

@[simp] theorem State.zeroLatch_keep (s : State) (v : Nat) (diag : BitVec 256) : (State.zeroLatch s v diag).pending = s.pending ∧ (State.zeroLatch s v diag).sec = s.sec ∧ (State.zeroLatch s v diag).guard = s.guard ∧ (State.zeroLatch s v diag).mem = s.mem ∧ (State.zeroLatch s v diag).stations = s.stations := by
  unfold State.zeroLatch; (repeat' split) <;> simp

@[simp] theorem twoFree_keep (s : State) : (twoFree s).2.pending = s.pending ∧ (twoFree s).2.sec = s.sec ∧ (twoFree s).2.guard = s.guard ∧ (twoFree s).2.mem = s.mem ∧ (twoFree s).2.stations = s.stations := by
  simp [twoFree]

end Sys2Proof.Machine
end

