-- ==== Sys2Proof/Laws/State.lean ====
section
/-! SUPPORT. The state record: one lemma per field that an update leaves alone, and one for the field it writes. -/

namespace Sys2Proof.Machine

/-! ### at -/

@[simp] theorem State.at_pending (s : State) (t : Nat) : (s.at t).pending = s.pending := rfl
@[simp] theorem State.at_free (s : State) (t : Nat) : (s.at t).free = s.free := rfl
@[simp] theorem State.at_regs (s : State) (t : Nat) : (s.at t).regs = s.regs := rfl
@[simp] theorem State.at_boot (s : State) (t : Nat) : (s.at t).boot = s.boot := rfl
@[simp] theorem State.at_sec (s : State) (t : Nat) : (s.at t).sec = s.sec := rfl
@[simp] theorem State.at_sup (s : State) (t : Nat) : (s.at t).sup = s.sup := rfl
@[simp] theorem State.at_power (s : State) (t : Nat) : (s.at t).power = s.power := rfl
@[simp] theorem State.at_guard (s : State) (t : Nat) : (s.at t).guard = s.guard := rfl
@[simp] theorem State.at_counters (s : State) (t : Nat) : (s.at t).counters = s.counters := rfl
@[simp] theorem State.at_host (s : State) (t : Nat) : (s.at t).host = s.host := rfl
@[simp] theorem State.at_errq (s : State) (t : Nat) : (s.at t).errq = s.errq := rfl
@[simp] theorem State.at_stations (s : State) (t : Nat) : (s.at t).stations = s.stations := rfl
@[simp] theorem State.at_streams (s : State) (t : Nat) : (s.at t).streams = s.streams := rfl
@[simp] theorem State.at_groups (s : State) (t : Nat) : (s.at t).groups = s.groups := rfl
@[simp] theorem State.at_banks (s : State) (t : Nat) : (s.at t).banks = s.banks := rfl
@[simp] theorem State.at_mem (s : State) (t : Nat) : (s.at t).mem = s.mem := rfl
@[simp] theorem State.at_queues (s : State) (t : Nat) : (s.at t).queues = s.queues := rfl
@[simp] theorem State.at_trump (s : State) (t : Nat) : (s.at t).trump = s.trump := rfl
@[simp] theorem State.at_sched (s : State) (t : Nat) : (s.at t).sched = s.sched := rfl
@[simp] theorem State.at_paths (s : State) (t : Nat) : (s.at t).paths = s.paths := rfl
@[simp] theorem State.at_arrays (s : State) (t : Nat) : (s.at t).arrays = s.arrays := rfl
@[simp] theorem State.at_enc (s : State) (t : Nat) : (s.at t).enc = s.enc := rfl
@[simp] theorem State.at_dec (s : State) (t : Nat) : (s.at t).dec = s.dec := rfl
@[simp] theorem State.at_trk (s : State) (t : Nat) : (s.at t).trk = s.trk := rfl
@[simp] theorem State.at_dealer (s : State) (t : Nat) : (s.at t).dealer = s.dealer := rfl
@[simp] theorem State.at_field (s : State) (t : Nat) : (s.at t).field = s.field := rfl
@[simp] theorem State.at_fab (s : State) (t : Nat) : (s.at t).fab = s.fab := rfl
@[simp] theorem State.at_attn (s : State) (t : Nat) : (s.at t).attn = s.attn := rfl
@[simp] theorem State.at_video (s : State) (t : Nat) : (s.at t).video = s.video := rfl
@[simp] theorem State.at_fronts (s : State) (t : Nat) : (s.at t).fronts = s.fronts := rfl
@[simp] theorem State.at_breaks (s : State) (t : Nat) : (s.at t).breaks = s.breaks := rfl
@[simp] theorem State.at_cams (s : State) (t : Nat) : (s.at t).cams = s.cams := rfl
@[simp] theorem State.at_couts (s : State) (t : Nat) : (s.at t).couts = s.couts := rfl
@[simp] theorem State.at_adapt (s : State) (t : Nat) : (s.at t).adapt = s.adapt := rfl
@[simp] theorem State.at_net (s : State) (t : Nat) : (s.at t).net = s.net := rfl

/-! ### emit -/

@[simp] theorem State.emit_pending (s : State) (o : Out) : (s.emit o).pending = s.pending := rfl
@[simp] theorem State.emit_free (s : State) (o : Out) : (s.emit o).free = s.free := rfl
@[simp] theorem State.emit_tb (s : State) (o : Out) : (s.emit o).tb = s.tb := rfl
@[simp] theorem State.emit_clk (s : State) (o : Out) : (s.emit o).clk = s.clk := rfl
@[simp] theorem State.emit_regs (s : State) (o : Out) : (s.emit o).regs = s.regs := rfl
@[simp] theorem State.emit_boot (s : State) (o : Out) : (s.emit o).boot = s.boot := rfl
@[simp] theorem State.emit_sec (s : State) (o : Out) : (s.emit o).sec = s.sec := rfl
@[simp] theorem State.emit_sup (s : State) (o : Out) : (s.emit o).sup = s.sup := rfl
@[simp] theorem State.emit_power (s : State) (o : Out) : (s.emit o).power = s.power := rfl
@[simp] theorem State.emit_guard (s : State) (o : Out) : (s.emit o).guard = s.guard := rfl
@[simp] theorem State.emit_recorder (s : State) (o : Out) : (s.emit o).recorder = s.recorder := rfl
@[simp] theorem State.emit_counters (s : State) (o : Out) : (s.emit o).counters = s.counters := rfl
@[simp] theorem State.emit_host (s : State) (o : Out) : (s.emit o).host = s.host := rfl
@[simp] theorem State.emit_errq (s : State) (o : Out) : (s.emit o).errq = s.errq := rfl
@[simp] theorem State.emit_stations (s : State) (o : Out) : (s.emit o).stations = s.stations := rfl
@[simp] theorem State.emit_streams (s : State) (o : Out) : (s.emit o).streams = s.streams := rfl
@[simp] theorem State.emit_groups (s : State) (o : Out) : (s.emit o).groups = s.groups := rfl
@[simp] theorem State.emit_banks (s : State) (o : Out) : (s.emit o).banks = s.banks := rfl
@[simp] theorem State.emit_mem (s : State) (o : Out) : (s.emit o).mem = s.mem := rfl
@[simp] theorem State.emit_queues (s : State) (o : Out) : (s.emit o).queues = s.queues := rfl
@[simp] theorem State.emit_trump (s : State) (o : Out) : (s.emit o).trump = s.trump := rfl
@[simp] theorem State.emit_sched (s : State) (o : Out) : (s.emit o).sched = s.sched := rfl
@[simp] theorem State.emit_paths (s : State) (o : Out) : (s.emit o).paths = s.paths := rfl
@[simp] theorem State.emit_arrays (s : State) (o : Out) : (s.emit o).arrays = s.arrays := rfl
@[simp] theorem State.emit_enc (s : State) (o : Out) : (s.emit o).enc = s.enc := rfl
@[simp] theorem State.emit_dec (s : State) (o : Out) : (s.emit o).dec = s.dec := rfl
@[simp] theorem State.emit_trk (s : State) (o : Out) : (s.emit o).trk = s.trk := rfl
@[simp] theorem State.emit_dealer (s : State) (o : Out) : (s.emit o).dealer = s.dealer := rfl
@[simp] theorem State.emit_field (s : State) (o : Out) : (s.emit o).field = s.field := rfl
@[simp] theorem State.emit_fab (s : State) (o : Out) : (s.emit o).fab = s.fab := rfl
@[simp] theorem State.emit_attn (s : State) (o : Out) : (s.emit o).attn = s.attn := rfl
@[simp] theorem State.emit_video (s : State) (o : Out) : (s.emit o).video = s.video := rfl
@[simp] theorem State.emit_fronts (s : State) (o : Out) : (s.emit o).fronts = s.fronts := rfl
@[simp] theorem State.emit_breaks (s : State) (o : Out) : (s.emit o).breaks = s.breaks := rfl
@[simp] theorem State.emit_cams (s : State) (o : Out) : (s.emit o).cams = s.cams := rfl
@[simp] theorem State.emit_couts (s : State) (o : Out) : (s.emit o).couts = s.couts := rfl
@[simp] theorem State.emit_adapt (s : State) (o : Out) : (s.emit o).adapt = s.adapt := rfl
@[simp] theorem State.emit_net (s : State) (o : Out) : (s.emit o).net = s.net := rfl

/-! ### toErr -/

@[simp] theorem State.toErr_pending (s : State) (k : Nat) (w : Word) : (s.toErr k w).pending = s.pending := rfl
@[simp] theorem State.toErr_out (s : State) (k : Nat) (w : Word) : (s.toErr k w).out = s.out := rfl
@[simp] theorem State.toErr_free (s : State) (k : Nat) (w : Word) : (s.toErr k w).free = s.free := rfl
@[simp] theorem State.toErr_tb (s : State) (k : Nat) (w : Word) : (s.toErr k w).tb = s.tb := rfl
@[simp] theorem State.toErr_clk (s : State) (k : Nat) (w : Word) : (s.toErr k w).clk = s.clk := rfl
@[simp] theorem State.toErr_regs (s : State) (k : Nat) (w : Word) : (s.toErr k w).regs = s.regs := rfl
@[simp] theorem State.toErr_boot (s : State) (k : Nat) (w : Word) : (s.toErr k w).boot = s.boot := rfl
@[simp] theorem State.toErr_sec (s : State) (k : Nat) (w : Word) : (s.toErr k w).sec = s.sec := rfl
@[simp] theorem State.toErr_sup (s : State) (k : Nat) (w : Word) : (s.toErr k w).sup = s.sup := rfl
@[simp] theorem State.toErr_power (s : State) (k : Nat) (w : Word) : (s.toErr k w).power = s.power := rfl
@[simp] theorem State.toErr_guard (s : State) (k : Nat) (w : Word) : (s.toErr k w).guard = s.guard := rfl
@[simp] theorem State.toErr_recorder (s : State) (k : Nat) (w : Word) : (s.toErr k w).recorder = s.recorder := rfl
@[simp] theorem State.toErr_counters (s : State) (k : Nat) (w : Word) : (s.toErr k w).counters = s.counters := rfl
@[simp] theorem State.toErr_host (s : State) (k : Nat) (w : Word) : (s.toErr k w).host = s.host := rfl
@[simp] theorem State.toErr_stations (s : State) (k : Nat) (w : Word) : (s.toErr k w).stations = s.stations := rfl
@[simp] theorem State.toErr_streams (s : State) (k : Nat) (w : Word) : (s.toErr k w).streams = s.streams := rfl
@[simp] theorem State.toErr_groups (s : State) (k : Nat) (w : Word) : (s.toErr k w).groups = s.groups := rfl
@[simp] theorem State.toErr_banks (s : State) (k : Nat) (w : Word) : (s.toErr k w).banks = s.banks := rfl
@[simp] theorem State.toErr_mem (s : State) (k : Nat) (w : Word) : (s.toErr k w).mem = s.mem := rfl
@[simp] theorem State.toErr_queues (s : State) (k : Nat) (w : Word) : (s.toErr k w).queues = s.queues := rfl
@[simp] theorem State.toErr_trump (s : State) (k : Nat) (w : Word) : (s.toErr k w).trump = s.trump := rfl
@[simp] theorem State.toErr_sched (s : State) (k : Nat) (w : Word) : (s.toErr k w).sched = s.sched := rfl
@[simp] theorem State.toErr_paths (s : State) (k : Nat) (w : Word) : (s.toErr k w).paths = s.paths := rfl
@[simp] theorem State.toErr_arrays (s : State) (k : Nat) (w : Word) : (s.toErr k w).arrays = s.arrays := rfl
@[simp] theorem State.toErr_enc (s : State) (k : Nat) (w : Word) : (s.toErr k w).enc = s.enc := rfl
@[simp] theorem State.toErr_dec (s : State) (k : Nat) (w : Word) : (s.toErr k w).dec = s.dec := rfl
@[simp] theorem State.toErr_trk (s : State) (k : Nat) (w : Word) : (s.toErr k w).trk = s.trk := rfl
@[simp] theorem State.toErr_dealer (s : State) (k : Nat) (w : Word) : (s.toErr k w).dealer = s.dealer := rfl
@[simp] theorem State.toErr_field (s : State) (k : Nat) (w : Word) : (s.toErr k w).field = s.field := rfl
@[simp] theorem State.toErr_fab (s : State) (k : Nat) (w : Word) : (s.toErr k w).fab = s.fab := rfl
@[simp] theorem State.toErr_attn (s : State) (k : Nat) (w : Word) : (s.toErr k w).attn = s.attn := rfl
@[simp] theorem State.toErr_video (s : State) (k : Nat) (w : Word) : (s.toErr k w).video = s.video := rfl
@[simp] theorem State.toErr_fronts (s : State) (k : Nat) (w : Word) : (s.toErr k w).fronts = s.fronts := rfl
@[simp] theorem State.toErr_breaks (s : State) (k : Nat) (w : Word) : (s.toErr k w).breaks = s.breaks := rfl
@[simp] theorem State.toErr_cams (s : State) (k : Nat) (w : Word) : (s.toErr k w).cams = s.cams := rfl
@[simp] theorem State.toErr_couts (s : State) (k : Nat) (w : Word) : (s.toErr k w).couts = s.couts := rfl
@[simp] theorem State.toErr_adapt (s : State) (k : Nat) (w : Word) : (s.toErr k w).adapt = s.adapt := rfl
@[simp] theorem State.toErr_net (s : State) (k : Nat) (w : Word) : (s.toErr k w).net = s.net := rfl

/-! ### setNumAt -/

@[simp] theorem State.setNumAt_pending (s : State) (e : Ent) (j : Nat) (k : Nat) (v : Int) : (s.setNumAt e j k v).pending = s.pending := rfl
@[simp] theorem State.setNumAt_out (s : State) (e : Ent) (j : Nat) (k : Nat) (v : Int) : (s.setNumAt e j k v).out = s.out := rfl
@[simp] theorem State.setNumAt_free (s : State) (e : Ent) (j : Nat) (k : Nat) (v : Int) : (s.setNumAt e j k v).free = s.free := rfl
@[simp] theorem State.setNumAt_tb (s : State) (e : Ent) (j : Nat) (k : Nat) (v : Int) : (s.setNumAt e j k v).tb = s.tb := rfl
@[simp] theorem State.setNumAt_clk (s : State) (e : Ent) (j : Nat) (k : Nat) (v : Int) : (s.setNumAt e j k v).clk = s.clk := rfl
@[simp] theorem State.setNumAt_boot (s : State) (e : Ent) (j : Nat) (k : Nat) (v : Int) : (s.setNumAt e j k v).boot = s.boot := rfl
@[simp] theorem State.setNumAt_sec (s : State) (e : Ent) (j : Nat) (k : Nat) (v : Int) : (s.setNumAt e j k v).sec = s.sec := rfl
@[simp] theorem State.setNumAt_sup (s : State) (e : Ent) (j : Nat) (k : Nat) (v : Int) : (s.setNumAt e j k v).sup = s.sup := rfl
@[simp] theorem State.setNumAt_power (s : State) (e : Ent) (j : Nat) (k : Nat) (v : Int) : (s.setNumAt e j k v).power = s.power := rfl
@[simp] theorem State.setNumAt_guard (s : State) (e : Ent) (j : Nat) (k : Nat) (v : Int) : (s.setNumAt e j k v).guard = s.guard := rfl
@[simp] theorem State.setNumAt_recorder (s : State) (e : Ent) (j : Nat) (k : Nat) (v : Int) : (s.setNumAt e j k v).recorder = s.recorder := rfl
@[simp] theorem State.setNumAt_counters (s : State) (e : Ent) (j : Nat) (k : Nat) (v : Int) : (s.setNumAt e j k v).counters = s.counters := rfl
@[simp] theorem State.setNumAt_host (s : State) (e : Ent) (j : Nat) (k : Nat) (v : Int) : (s.setNumAt e j k v).host = s.host := rfl
@[simp] theorem State.setNumAt_errq (s : State) (e : Ent) (j : Nat) (k : Nat) (v : Int) : (s.setNumAt e j k v).errq = s.errq := rfl
@[simp] theorem State.setNumAt_stations (s : State) (e : Ent) (j : Nat) (k : Nat) (v : Int) : (s.setNumAt e j k v).stations = s.stations := rfl
@[simp] theorem State.setNumAt_streams (s : State) (e : Ent) (j : Nat) (k : Nat) (v : Int) : (s.setNumAt e j k v).streams = s.streams := rfl
@[simp] theorem State.setNumAt_groups (s : State) (e : Ent) (j : Nat) (k : Nat) (v : Int) : (s.setNumAt e j k v).groups = s.groups := rfl
@[simp] theorem State.setNumAt_banks (s : State) (e : Ent) (j : Nat) (k : Nat) (v : Int) : (s.setNumAt e j k v).banks = s.banks := rfl
@[simp] theorem State.setNumAt_mem (s : State) (e : Ent) (j : Nat) (k : Nat) (v : Int) : (s.setNumAt e j k v).mem = s.mem := rfl
@[simp] theorem State.setNumAt_queues (s : State) (e : Ent) (j : Nat) (k : Nat) (v : Int) : (s.setNumAt e j k v).queues = s.queues := rfl
@[simp] theorem State.setNumAt_trump (s : State) (e : Ent) (j : Nat) (k : Nat) (v : Int) : (s.setNumAt e j k v).trump = s.trump := rfl
@[simp] theorem State.setNumAt_sched (s : State) (e : Ent) (j : Nat) (k : Nat) (v : Int) : (s.setNumAt e j k v).sched = s.sched := rfl
@[simp] theorem State.setNumAt_paths (s : State) (e : Ent) (j : Nat) (k : Nat) (v : Int) : (s.setNumAt e j k v).paths = s.paths := rfl
@[simp] theorem State.setNumAt_arrays (s : State) (e : Ent) (j : Nat) (k : Nat) (v : Int) : (s.setNumAt e j k v).arrays = s.arrays := rfl
@[simp] theorem State.setNumAt_enc (s : State) (e : Ent) (j : Nat) (k : Nat) (v : Int) : (s.setNumAt e j k v).enc = s.enc := rfl
@[simp] theorem State.setNumAt_dec (s : State) (e : Ent) (j : Nat) (k : Nat) (v : Int) : (s.setNumAt e j k v).dec = s.dec := rfl
@[simp] theorem State.setNumAt_trk (s : State) (e : Ent) (j : Nat) (k : Nat) (v : Int) : (s.setNumAt e j k v).trk = s.trk := rfl
@[simp] theorem State.setNumAt_dealer (s : State) (e : Ent) (j : Nat) (k : Nat) (v : Int) : (s.setNumAt e j k v).dealer = s.dealer := rfl
@[simp] theorem State.setNumAt_field (s : State) (e : Ent) (j : Nat) (k : Nat) (v : Int) : (s.setNumAt e j k v).field = s.field := rfl
@[simp] theorem State.setNumAt_fab (s : State) (e : Ent) (j : Nat) (k : Nat) (v : Int) : (s.setNumAt e j k v).fab = s.fab := rfl
@[simp] theorem State.setNumAt_attn (s : State) (e : Ent) (j : Nat) (k : Nat) (v : Int) : (s.setNumAt e j k v).attn = s.attn := rfl
@[simp] theorem State.setNumAt_video (s : State) (e : Ent) (j : Nat) (k : Nat) (v : Int) : (s.setNumAt e j k v).video = s.video := rfl
@[simp] theorem State.setNumAt_fronts (s : State) (e : Ent) (j : Nat) (k : Nat) (v : Int) : (s.setNumAt e j k v).fronts = s.fronts := rfl
@[simp] theorem State.setNumAt_breaks (s : State) (e : Ent) (j : Nat) (k : Nat) (v : Int) : (s.setNumAt e j k v).breaks = s.breaks := rfl
@[simp] theorem State.setNumAt_cams (s : State) (e : Ent) (j : Nat) (k : Nat) (v : Int) : (s.setNumAt e j k v).cams = s.cams := rfl
@[simp] theorem State.setNumAt_couts (s : State) (e : Ent) (j : Nat) (k : Nat) (v : Int) : (s.setNumAt e j k v).couts = s.couts := rfl
@[simp] theorem State.setNumAt_adapt (s : State) (e : Ent) (j : Nat) (k : Nat) (v : Int) : (s.setNumAt e j k v).adapt = s.adapt := rfl
@[simp] theorem State.setNumAt_net (s : State) (e : Ent) (j : Nat) (k : Nat) (v : Int) : (s.setNumAt e j k v).net = s.net := rfl

/-! ### setBlob -/

@[simp] theorem State.setBlob_pending (s : State) (e : Ent) (j : Nat) (k : Nat) (v : List Byte) : (s.setBlob e j k v).pending = s.pending := rfl
@[simp] theorem State.setBlob_out (s : State) (e : Ent) (j : Nat) (k : Nat) (v : List Byte) : (s.setBlob e j k v).out = s.out := rfl
@[simp] theorem State.setBlob_free (s : State) (e : Ent) (j : Nat) (k : Nat) (v : List Byte) : (s.setBlob e j k v).free = s.free := rfl
@[simp] theorem State.setBlob_tb (s : State) (e : Ent) (j : Nat) (k : Nat) (v : List Byte) : (s.setBlob e j k v).tb = s.tb := rfl
@[simp] theorem State.setBlob_clk (s : State) (e : Ent) (j : Nat) (k : Nat) (v : List Byte) : (s.setBlob e j k v).clk = s.clk := rfl
@[simp] theorem State.setBlob_boot (s : State) (e : Ent) (j : Nat) (k : Nat) (v : List Byte) : (s.setBlob e j k v).boot = s.boot := rfl
@[simp] theorem State.setBlob_sec (s : State) (e : Ent) (j : Nat) (k : Nat) (v : List Byte) : (s.setBlob e j k v).sec = s.sec := rfl
@[simp] theorem State.setBlob_sup (s : State) (e : Ent) (j : Nat) (k : Nat) (v : List Byte) : (s.setBlob e j k v).sup = s.sup := rfl
@[simp] theorem State.setBlob_power (s : State) (e : Ent) (j : Nat) (k : Nat) (v : List Byte) : (s.setBlob e j k v).power = s.power := rfl
@[simp] theorem State.setBlob_guard (s : State) (e : Ent) (j : Nat) (k : Nat) (v : List Byte) : (s.setBlob e j k v).guard = s.guard := rfl
@[simp] theorem State.setBlob_recorder (s : State) (e : Ent) (j : Nat) (k : Nat) (v : List Byte) : (s.setBlob e j k v).recorder = s.recorder := rfl
@[simp] theorem State.setBlob_counters (s : State) (e : Ent) (j : Nat) (k : Nat) (v : List Byte) : (s.setBlob e j k v).counters = s.counters := rfl
@[simp] theorem State.setBlob_host (s : State) (e : Ent) (j : Nat) (k : Nat) (v : List Byte) : (s.setBlob e j k v).host = s.host := rfl
@[simp] theorem State.setBlob_errq (s : State) (e : Ent) (j : Nat) (k : Nat) (v : List Byte) : (s.setBlob e j k v).errq = s.errq := rfl
@[simp] theorem State.setBlob_stations (s : State) (e : Ent) (j : Nat) (k : Nat) (v : List Byte) : (s.setBlob e j k v).stations = s.stations := rfl
@[simp] theorem State.setBlob_streams (s : State) (e : Ent) (j : Nat) (k : Nat) (v : List Byte) : (s.setBlob e j k v).streams = s.streams := rfl
@[simp] theorem State.setBlob_groups (s : State) (e : Ent) (j : Nat) (k : Nat) (v : List Byte) : (s.setBlob e j k v).groups = s.groups := rfl
@[simp] theorem State.setBlob_banks (s : State) (e : Ent) (j : Nat) (k : Nat) (v : List Byte) : (s.setBlob e j k v).banks = s.banks := rfl
@[simp] theorem State.setBlob_mem (s : State) (e : Ent) (j : Nat) (k : Nat) (v : List Byte) : (s.setBlob e j k v).mem = s.mem := rfl
@[simp] theorem State.setBlob_queues (s : State) (e : Ent) (j : Nat) (k : Nat) (v : List Byte) : (s.setBlob e j k v).queues = s.queues := rfl
@[simp] theorem State.setBlob_trump (s : State) (e : Ent) (j : Nat) (k : Nat) (v : List Byte) : (s.setBlob e j k v).trump = s.trump := rfl
@[simp] theorem State.setBlob_sched (s : State) (e : Ent) (j : Nat) (k : Nat) (v : List Byte) : (s.setBlob e j k v).sched = s.sched := rfl
@[simp] theorem State.setBlob_paths (s : State) (e : Ent) (j : Nat) (k : Nat) (v : List Byte) : (s.setBlob e j k v).paths = s.paths := rfl
@[simp] theorem State.setBlob_arrays (s : State) (e : Ent) (j : Nat) (k : Nat) (v : List Byte) : (s.setBlob e j k v).arrays = s.arrays := rfl
@[simp] theorem State.setBlob_enc (s : State) (e : Ent) (j : Nat) (k : Nat) (v : List Byte) : (s.setBlob e j k v).enc = s.enc := rfl
@[simp] theorem State.setBlob_dec (s : State) (e : Ent) (j : Nat) (k : Nat) (v : List Byte) : (s.setBlob e j k v).dec = s.dec := rfl
@[simp] theorem State.setBlob_trk (s : State) (e : Ent) (j : Nat) (k : Nat) (v : List Byte) : (s.setBlob e j k v).trk = s.trk := rfl
@[simp] theorem State.setBlob_dealer (s : State) (e : Ent) (j : Nat) (k : Nat) (v : List Byte) : (s.setBlob e j k v).dealer = s.dealer := rfl
@[simp] theorem State.setBlob_field (s : State) (e : Ent) (j : Nat) (k : Nat) (v : List Byte) : (s.setBlob e j k v).field = s.field := rfl
@[simp] theorem State.setBlob_fab (s : State) (e : Ent) (j : Nat) (k : Nat) (v : List Byte) : (s.setBlob e j k v).fab = s.fab := rfl
@[simp] theorem State.setBlob_attn (s : State) (e : Ent) (j : Nat) (k : Nat) (v : List Byte) : (s.setBlob e j k v).attn = s.attn := rfl
@[simp] theorem State.setBlob_video (s : State) (e : Ent) (j : Nat) (k : Nat) (v : List Byte) : (s.setBlob e j k v).video = s.video := rfl
@[simp] theorem State.setBlob_fronts (s : State) (e : Ent) (j : Nat) (k : Nat) (v : List Byte) : (s.setBlob e j k v).fronts = s.fronts := rfl
@[simp] theorem State.setBlob_breaks (s : State) (e : Ent) (j : Nat) (k : Nat) (v : List Byte) : (s.setBlob e j k v).breaks = s.breaks := rfl
@[simp] theorem State.setBlob_cams (s : State) (e : Ent) (j : Nat) (k : Nat) (v : List Byte) : (s.setBlob e j k v).cams = s.cams := rfl
@[simp] theorem State.setBlob_couts (s : State) (e : Ent) (j : Nat) (k : Nat) (v : List Byte) : (s.setBlob e j k v).couts = s.couts := rfl
@[simp] theorem State.setBlob_adapt (s : State) (e : Ent) (j : Nat) (k : Nat) (v : List Byte) : (s.setBlob e j k v).adapt = s.adapt := rfl
@[simp] theorem State.setBlob_net (s : State) (e : Ent) (j : Nat) (k : Nat) (v : List Byte) : (s.setBlob e j k v).net = s.net := rfl

/-! ### mapStation -/

@[simp] theorem State.mapStation_pending (s : State) (sid : Nat) (f : Station → Station) : (s.mapStation sid f).pending = s.pending := rfl
@[simp] theorem State.mapStation_out (s : State) (sid : Nat) (f : Station → Station) : (s.mapStation sid f).out = s.out := rfl
@[simp] theorem State.mapStation_free (s : State) (sid : Nat) (f : Station → Station) : (s.mapStation sid f).free = s.free := rfl
@[simp] theorem State.mapStation_tb (s : State) (sid : Nat) (f : Station → Station) : (s.mapStation sid f).tb = s.tb := rfl
@[simp] theorem State.mapStation_clk (s : State) (sid : Nat) (f : Station → Station) : (s.mapStation sid f).clk = s.clk := rfl
@[simp] theorem State.mapStation_regs (s : State) (sid : Nat) (f : Station → Station) : (s.mapStation sid f).regs = s.regs := rfl
@[simp] theorem State.mapStation_boot (s : State) (sid : Nat) (f : Station → Station) : (s.mapStation sid f).boot = s.boot := rfl
@[simp] theorem State.mapStation_sec (s : State) (sid : Nat) (f : Station → Station) : (s.mapStation sid f).sec = s.sec := rfl
@[simp] theorem State.mapStation_sup (s : State) (sid : Nat) (f : Station → Station) : (s.mapStation sid f).sup = s.sup := rfl
@[simp] theorem State.mapStation_power (s : State) (sid : Nat) (f : Station → Station) : (s.mapStation sid f).power = s.power := rfl
@[simp] theorem State.mapStation_guard (s : State) (sid : Nat) (f : Station → Station) : (s.mapStation sid f).guard = s.guard := rfl
@[simp] theorem State.mapStation_recorder (s : State) (sid : Nat) (f : Station → Station) : (s.mapStation sid f).recorder = s.recorder := rfl
@[simp] theorem State.mapStation_counters (s : State) (sid : Nat) (f : Station → Station) : (s.mapStation sid f).counters = s.counters := rfl
@[simp] theorem State.mapStation_host (s : State) (sid : Nat) (f : Station → Station) : (s.mapStation sid f).host = s.host := rfl
@[simp] theorem State.mapStation_errq (s : State) (sid : Nat) (f : Station → Station) : (s.mapStation sid f).errq = s.errq := rfl
@[simp] theorem State.mapStation_streams (s : State) (sid : Nat) (f : Station → Station) : (s.mapStation sid f).streams = s.streams := rfl
@[simp] theorem State.mapStation_groups (s : State) (sid : Nat) (f : Station → Station) : (s.mapStation sid f).groups = s.groups := rfl
@[simp] theorem State.mapStation_banks (s : State) (sid : Nat) (f : Station → Station) : (s.mapStation sid f).banks = s.banks := rfl
@[simp] theorem State.mapStation_mem (s : State) (sid : Nat) (f : Station → Station) : (s.mapStation sid f).mem = s.mem := rfl
@[simp] theorem State.mapStation_queues (s : State) (sid : Nat) (f : Station → Station) : (s.mapStation sid f).queues = s.queues := rfl
@[simp] theorem State.mapStation_trump (s : State) (sid : Nat) (f : Station → Station) : (s.mapStation sid f).trump = s.trump := rfl
@[simp] theorem State.mapStation_sched (s : State) (sid : Nat) (f : Station → Station) : (s.mapStation sid f).sched = s.sched := rfl
@[simp] theorem State.mapStation_paths (s : State) (sid : Nat) (f : Station → Station) : (s.mapStation sid f).paths = s.paths := rfl
@[simp] theorem State.mapStation_arrays (s : State) (sid : Nat) (f : Station → Station) : (s.mapStation sid f).arrays = s.arrays := rfl
@[simp] theorem State.mapStation_enc (s : State) (sid : Nat) (f : Station → Station) : (s.mapStation sid f).enc = s.enc := rfl
@[simp] theorem State.mapStation_dec (s : State) (sid : Nat) (f : Station → Station) : (s.mapStation sid f).dec = s.dec := rfl
@[simp] theorem State.mapStation_trk (s : State) (sid : Nat) (f : Station → Station) : (s.mapStation sid f).trk = s.trk := rfl
@[simp] theorem State.mapStation_dealer (s : State) (sid : Nat) (f : Station → Station) : (s.mapStation sid f).dealer = s.dealer := rfl
@[simp] theorem State.mapStation_field (s : State) (sid : Nat) (f : Station → Station) : (s.mapStation sid f).field = s.field := rfl
@[simp] theorem State.mapStation_fab (s : State) (sid : Nat) (f : Station → Station) : (s.mapStation sid f).fab = s.fab := rfl
@[simp] theorem State.mapStation_attn (s : State) (sid : Nat) (f : Station → Station) : (s.mapStation sid f).attn = s.attn := rfl
@[simp] theorem State.mapStation_video (s : State) (sid : Nat) (f : Station → Station) : (s.mapStation sid f).video = s.video := rfl
@[simp] theorem State.mapStation_fronts (s : State) (sid : Nat) (f : Station → Station) : (s.mapStation sid f).fronts = s.fronts := rfl
@[simp] theorem State.mapStation_breaks (s : State) (sid : Nat) (f : Station → Station) : (s.mapStation sid f).breaks = s.breaks := rfl
@[simp] theorem State.mapStation_cams (s : State) (sid : Nat) (f : Station → Station) : (s.mapStation sid f).cams = s.cams := rfl
@[simp] theorem State.mapStation_couts (s : State) (sid : Nat) (f : Station → Station) : (s.mapStation sid f).couts = s.couts := rfl
@[simp] theorem State.mapStation_adapt (s : State) (sid : Nat) (f : Station → Station) : (s.mapStation sid f).adapt = s.adapt := rfl
@[simp] theorem State.mapStation_net (s : State) (sid : Nat) (f : Station → Station) : (s.mapStation sid f).net = s.net := rfl

/-! ### mapGroup -/

@[simp] theorem State.mapGroup_pending (s : State) (g : Nat) (f : Group → Group) : (s.mapGroup g f).pending = s.pending := rfl
@[simp] theorem State.mapGroup_out (s : State) (g : Nat) (f : Group → Group) : (s.mapGroup g f).out = s.out := rfl
@[simp] theorem State.mapGroup_free (s : State) (g : Nat) (f : Group → Group) : (s.mapGroup g f).free = s.free := rfl
@[simp] theorem State.mapGroup_tb (s : State) (g : Nat) (f : Group → Group) : (s.mapGroup g f).tb = s.tb := rfl
@[simp] theorem State.mapGroup_clk (s : State) (g : Nat) (f : Group → Group) : (s.mapGroup g f).clk = s.clk := rfl
@[simp] theorem State.mapGroup_regs (s : State) (g : Nat) (f : Group → Group) : (s.mapGroup g f).regs = s.regs := rfl
@[simp] theorem State.mapGroup_boot (s : State) (g : Nat) (f : Group → Group) : (s.mapGroup g f).boot = s.boot := rfl
@[simp] theorem State.mapGroup_sec (s : State) (g : Nat) (f : Group → Group) : (s.mapGroup g f).sec = s.sec := rfl
@[simp] theorem State.mapGroup_sup (s : State) (g : Nat) (f : Group → Group) : (s.mapGroup g f).sup = s.sup := rfl
@[simp] theorem State.mapGroup_power (s : State) (g : Nat) (f : Group → Group) : (s.mapGroup g f).power = s.power := rfl
@[simp] theorem State.mapGroup_guard (s : State) (g : Nat) (f : Group → Group) : (s.mapGroup g f).guard = s.guard := rfl
@[simp] theorem State.mapGroup_recorder (s : State) (g : Nat) (f : Group → Group) : (s.mapGroup g f).recorder = s.recorder := rfl
@[simp] theorem State.mapGroup_counters (s : State) (g : Nat) (f : Group → Group) : (s.mapGroup g f).counters = s.counters := rfl
@[simp] theorem State.mapGroup_host (s : State) (g : Nat) (f : Group → Group) : (s.mapGroup g f).host = s.host := rfl
@[simp] theorem State.mapGroup_errq (s : State) (g : Nat) (f : Group → Group) : (s.mapGroup g f).errq = s.errq := rfl
@[simp] theorem State.mapGroup_stations (s : State) (g : Nat) (f : Group → Group) : (s.mapGroup g f).stations = s.stations := rfl
@[simp] theorem State.mapGroup_streams (s : State) (g : Nat) (f : Group → Group) : (s.mapGroup g f).streams = s.streams := rfl
@[simp] theorem State.mapGroup_banks (s : State) (g : Nat) (f : Group → Group) : (s.mapGroup g f).banks = s.banks := rfl
@[simp] theorem State.mapGroup_mem (s : State) (g : Nat) (f : Group → Group) : (s.mapGroup g f).mem = s.mem := rfl
@[simp] theorem State.mapGroup_queues (s : State) (g : Nat) (f : Group → Group) : (s.mapGroup g f).queues = s.queues := rfl
@[simp] theorem State.mapGroup_trump (s : State) (g : Nat) (f : Group → Group) : (s.mapGroup g f).trump = s.trump := rfl
@[simp] theorem State.mapGroup_sched (s : State) (g : Nat) (f : Group → Group) : (s.mapGroup g f).sched = s.sched := rfl
@[simp] theorem State.mapGroup_paths (s : State) (g : Nat) (f : Group → Group) : (s.mapGroup g f).paths = s.paths := rfl
@[simp] theorem State.mapGroup_arrays (s : State) (g : Nat) (f : Group → Group) : (s.mapGroup g f).arrays = s.arrays := rfl
@[simp] theorem State.mapGroup_enc (s : State) (g : Nat) (f : Group → Group) : (s.mapGroup g f).enc = s.enc := rfl
@[simp] theorem State.mapGroup_dec (s : State) (g : Nat) (f : Group → Group) : (s.mapGroup g f).dec = s.dec := rfl
@[simp] theorem State.mapGroup_trk (s : State) (g : Nat) (f : Group → Group) : (s.mapGroup g f).trk = s.trk := rfl
@[simp] theorem State.mapGroup_dealer (s : State) (g : Nat) (f : Group → Group) : (s.mapGroup g f).dealer = s.dealer := rfl
@[simp] theorem State.mapGroup_field (s : State) (g : Nat) (f : Group → Group) : (s.mapGroup g f).field = s.field := rfl
@[simp] theorem State.mapGroup_fab (s : State) (g : Nat) (f : Group → Group) : (s.mapGroup g f).fab = s.fab := rfl
@[simp] theorem State.mapGroup_attn (s : State) (g : Nat) (f : Group → Group) : (s.mapGroup g f).attn = s.attn := rfl
@[simp] theorem State.mapGroup_video (s : State) (g : Nat) (f : Group → Group) : (s.mapGroup g f).video = s.video := rfl
@[simp] theorem State.mapGroup_fronts (s : State) (g : Nat) (f : Group → Group) : (s.mapGroup g f).fronts = s.fronts := rfl
@[simp] theorem State.mapGroup_breaks (s : State) (g : Nat) (f : Group → Group) : (s.mapGroup g f).breaks = s.breaks := rfl
@[simp] theorem State.mapGroup_cams (s : State) (g : Nat) (f : Group → Group) : (s.mapGroup g f).cams = s.cams := rfl
@[simp] theorem State.mapGroup_couts (s : State) (g : Nat) (f : Group → Group) : (s.mapGroup g f).couts = s.couts := rfl
@[simp] theorem State.mapGroup_adapt (s : State) (g : Nat) (f : Group → Group) : (s.mapGroup g f).adapt = s.adapt := rfl
@[simp] theorem State.mapGroup_net (s : State) (g : Nat) (f : Group → Group) : (s.mapGroup g f).net = s.net := rfl

/-! ### mapBank -/

@[simp] theorem State.mapBank_pending (s : State) (b : Nat) (f : Bank → Bank) : (s.mapBank b f).pending = s.pending := rfl
@[simp] theorem State.mapBank_out (s : State) (b : Nat) (f : Bank → Bank) : (s.mapBank b f).out = s.out := rfl
@[simp] theorem State.mapBank_free (s : State) (b : Nat) (f : Bank → Bank) : (s.mapBank b f).free = s.free := rfl
@[simp] theorem State.mapBank_tb (s : State) (b : Nat) (f : Bank → Bank) : (s.mapBank b f).tb = s.tb := rfl
@[simp] theorem State.mapBank_clk (s : State) (b : Nat) (f : Bank → Bank) : (s.mapBank b f).clk = s.clk := rfl
@[simp] theorem State.mapBank_regs (s : State) (b : Nat) (f : Bank → Bank) : (s.mapBank b f).regs = s.regs := rfl
@[simp] theorem State.mapBank_boot (s : State) (b : Nat) (f : Bank → Bank) : (s.mapBank b f).boot = s.boot := rfl
@[simp] theorem State.mapBank_sec (s : State) (b : Nat) (f : Bank → Bank) : (s.mapBank b f).sec = s.sec := rfl
@[simp] theorem State.mapBank_sup (s : State) (b : Nat) (f : Bank → Bank) : (s.mapBank b f).sup = s.sup := rfl
@[simp] theorem State.mapBank_power (s : State) (b : Nat) (f : Bank → Bank) : (s.mapBank b f).power = s.power := rfl
@[simp] theorem State.mapBank_guard (s : State) (b : Nat) (f : Bank → Bank) : (s.mapBank b f).guard = s.guard := rfl
@[simp] theorem State.mapBank_recorder (s : State) (b : Nat) (f : Bank → Bank) : (s.mapBank b f).recorder = s.recorder := rfl
@[simp] theorem State.mapBank_counters (s : State) (b : Nat) (f : Bank → Bank) : (s.mapBank b f).counters = s.counters := rfl
@[simp] theorem State.mapBank_host (s : State) (b : Nat) (f : Bank → Bank) : (s.mapBank b f).host = s.host := rfl
@[simp] theorem State.mapBank_errq (s : State) (b : Nat) (f : Bank → Bank) : (s.mapBank b f).errq = s.errq := rfl
@[simp] theorem State.mapBank_stations (s : State) (b : Nat) (f : Bank → Bank) : (s.mapBank b f).stations = s.stations := rfl
@[simp] theorem State.mapBank_streams (s : State) (b : Nat) (f : Bank → Bank) : (s.mapBank b f).streams = s.streams := rfl
@[simp] theorem State.mapBank_groups (s : State) (b : Nat) (f : Bank → Bank) : (s.mapBank b f).groups = s.groups := rfl
@[simp] theorem State.mapBank_mem (s : State) (b : Nat) (f : Bank → Bank) : (s.mapBank b f).mem = s.mem := rfl
@[simp] theorem State.mapBank_queues (s : State) (b : Nat) (f : Bank → Bank) : (s.mapBank b f).queues = s.queues := rfl
@[simp] theorem State.mapBank_trump (s : State) (b : Nat) (f : Bank → Bank) : (s.mapBank b f).trump = s.trump := rfl
@[simp] theorem State.mapBank_sched (s : State) (b : Nat) (f : Bank → Bank) : (s.mapBank b f).sched = s.sched := rfl
@[simp] theorem State.mapBank_paths (s : State) (b : Nat) (f : Bank → Bank) : (s.mapBank b f).paths = s.paths := rfl
@[simp] theorem State.mapBank_arrays (s : State) (b : Nat) (f : Bank → Bank) : (s.mapBank b f).arrays = s.arrays := rfl
@[simp] theorem State.mapBank_enc (s : State) (b : Nat) (f : Bank → Bank) : (s.mapBank b f).enc = s.enc := rfl
@[simp] theorem State.mapBank_dec (s : State) (b : Nat) (f : Bank → Bank) : (s.mapBank b f).dec = s.dec := rfl
@[simp] theorem State.mapBank_trk (s : State) (b : Nat) (f : Bank → Bank) : (s.mapBank b f).trk = s.trk := rfl
@[simp] theorem State.mapBank_dealer (s : State) (b : Nat) (f : Bank → Bank) : (s.mapBank b f).dealer = s.dealer := rfl
@[simp] theorem State.mapBank_field (s : State) (b : Nat) (f : Bank → Bank) : (s.mapBank b f).field = s.field := rfl
@[simp] theorem State.mapBank_fab (s : State) (b : Nat) (f : Bank → Bank) : (s.mapBank b f).fab = s.fab := rfl
@[simp] theorem State.mapBank_attn (s : State) (b : Nat) (f : Bank → Bank) : (s.mapBank b f).attn = s.attn := rfl
@[simp] theorem State.mapBank_video (s : State) (b : Nat) (f : Bank → Bank) : (s.mapBank b f).video = s.video := rfl
@[simp] theorem State.mapBank_fronts (s : State) (b : Nat) (f : Bank → Bank) : (s.mapBank b f).fronts = s.fronts := rfl
@[simp] theorem State.mapBank_breaks (s : State) (b : Nat) (f : Bank → Bank) : (s.mapBank b f).breaks = s.breaks := rfl
@[simp] theorem State.mapBank_cams (s : State) (b : Nat) (f : Bank → Bank) : (s.mapBank b f).cams = s.cams := rfl
@[simp] theorem State.mapBank_couts (s : State) (b : Nat) (f : Bank → Bank) : (s.mapBank b f).couts = s.couts := rfl
@[simp] theorem State.mapBank_adapt (s : State) (b : Nat) (f : Bank → Bank) : (s.mapBank b f).adapt = s.adapt := rfl
@[simp] theorem State.mapBank_net (s : State) (b : Nat) (f : Bank → Bank) : (s.mapBank b f).net = s.net := rfl

/-! ### mapArr -/

@[simp] theorem State.mapArr_pending (s : State) (n : Nat) (f : ArrayShared → ArrayShared) : (s.mapArr n f).pending = s.pending := rfl
@[simp] theorem State.mapArr_out (s : State) (n : Nat) (f : ArrayShared → ArrayShared) : (s.mapArr n f).out = s.out := rfl
@[simp] theorem State.mapArr_free (s : State) (n : Nat) (f : ArrayShared → ArrayShared) : (s.mapArr n f).free = s.free := rfl
@[simp] theorem State.mapArr_tb (s : State) (n : Nat) (f : ArrayShared → ArrayShared) : (s.mapArr n f).tb = s.tb := rfl
@[simp] theorem State.mapArr_clk (s : State) (n : Nat) (f : ArrayShared → ArrayShared) : (s.mapArr n f).clk = s.clk := rfl
@[simp] theorem State.mapArr_regs (s : State) (n : Nat) (f : ArrayShared → ArrayShared) : (s.mapArr n f).regs = s.regs := rfl
@[simp] theorem State.mapArr_boot (s : State) (n : Nat) (f : ArrayShared → ArrayShared) : (s.mapArr n f).boot = s.boot := rfl
@[simp] theorem State.mapArr_sec (s : State) (n : Nat) (f : ArrayShared → ArrayShared) : (s.mapArr n f).sec = s.sec := rfl
@[simp] theorem State.mapArr_sup (s : State) (n : Nat) (f : ArrayShared → ArrayShared) : (s.mapArr n f).sup = s.sup := rfl
@[simp] theorem State.mapArr_power (s : State) (n : Nat) (f : ArrayShared → ArrayShared) : (s.mapArr n f).power = s.power := rfl
@[simp] theorem State.mapArr_guard (s : State) (n : Nat) (f : ArrayShared → ArrayShared) : (s.mapArr n f).guard = s.guard := rfl
@[simp] theorem State.mapArr_recorder (s : State) (n : Nat) (f : ArrayShared → ArrayShared) : (s.mapArr n f).recorder = s.recorder := rfl
@[simp] theorem State.mapArr_counters (s : State) (n : Nat) (f : ArrayShared → ArrayShared) : (s.mapArr n f).counters = s.counters := rfl
@[simp] theorem State.mapArr_host (s : State) (n : Nat) (f : ArrayShared → ArrayShared) : (s.mapArr n f).host = s.host := rfl
@[simp] theorem State.mapArr_errq (s : State) (n : Nat) (f : ArrayShared → ArrayShared) : (s.mapArr n f).errq = s.errq := rfl
@[simp] theorem State.mapArr_stations (s : State) (n : Nat) (f : ArrayShared → ArrayShared) : (s.mapArr n f).stations = s.stations := rfl
@[simp] theorem State.mapArr_streams (s : State) (n : Nat) (f : ArrayShared → ArrayShared) : (s.mapArr n f).streams = s.streams := rfl
@[simp] theorem State.mapArr_groups (s : State) (n : Nat) (f : ArrayShared → ArrayShared) : (s.mapArr n f).groups = s.groups := rfl
@[simp] theorem State.mapArr_banks (s : State) (n : Nat) (f : ArrayShared → ArrayShared) : (s.mapArr n f).banks = s.banks := rfl
@[simp] theorem State.mapArr_mem (s : State) (n : Nat) (f : ArrayShared → ArrayShared) : (s.mapArr n f).mem = s.mem := rfl
@[simp] theorem State.mapArr_queues (s : State) (n : Nat) (f : ArrayShared → ArrayShared) : (s.mapArr n f).queues = s.queues := rfl
@[simp] theorem State.mapArr_trump (s : State) (n : Nat) (f : ArrayShared → ArrayShared) : (s.mapArr n f).trump = s.trump := rfl
@[simp] theorem State.mapArr_sched (s : State) (n : Nat) (f : ArrayShared → ArrayShared) : (s.mapArr n f).sched = s.sched := rfl
@[simp] theorem State.mapArr_paths (s : State) (n : Nat) (f : ArrayShared → ArrayShared) : (s.mapArr n f).paths = s.paths := rfl
@[simp] theorem State.mapArr_enc (s : State) (n : Nat) (f : ArrayShared → ArrayShared) : (s.mapArr n f).enc = s.enc := rfl
@[simp] theorem State.mapArr_dec (s : State) (n : Nat) (f : ArrayShared → ArrayShared) : (s.mapArr n f).dec = s.dec := rfl
@[simp] theorem State.mapArr_trk (s : State) (n : Nat) (f : ArrayShared → ArrayShared) : (s.mapArr n f).trk = s.trk := rfl
@[simp] theorem State.mapArr_dealer (s : State) (n : Nat) (f : ArrayShared → ArrayShared) : (s.mapArr n f).dealer = s.dealer := rfl
@[simp] theorem State.mapArr_field (s : State) (n : Nat) (f : ArrayShared → ArrayShared) : (s.mapArr n f).field = s.field := rfl
@[simp] theorem State.mapArr_fab (s : State) (n : Nat) (f : ArrayShared → ArrayShared) : (s.mapArr n f).fab = s.fab := rfl
@[simp] theorem State.mapArr_attn (s : State) (n : Nat) (f : ArrayShared → ArrayShared) : (s.mapArr n f).attn = s.attn := rfl
@[simp] theorem State.mapArr_video (s : State) (n : Nat) (f : ArrayShared → ArrayShared) : (s.mapArr n f).video = s.video := rfl
@[simp] theorem State.mapArr_fronts (s : State) (n : Nat) (f : ArrayShared → ArrayShared) : (s.mapArr n f).fronts = s.fronts := rfl
@[simp] theorem State.mapArr_breaks (s : State) (n : Nat) (f : ArrayShared → ArrayShared) : (s.mapArr n f).breaks = s.breaks := rfl
@[simp] theorem State.mapArr_cams (s : State) (n : Nat) (f : ArrayShared → ArrayShared) : (s.mapArr n f).cams = s.cams := rfl
@[simp] theorem State.mapArr_couts (s : State) (n : Nat) (f : ArrayShared → ArrayShared) : (s.mapArr n f).couts = s.couts := rfl
@[simp] theorem State.mapArr_adapt (s : State) (n : Nat) (f : ArrayShared → ArrayShared) : (s.mapArr n f).adapt = s.adapt := rfl
@[simp] theorem State.mapArr_net (s : State) (n : Nat) (f : ArrayShared → ArrayShared) : (s.mapArr n f).net = s.net := rfl

/-! ### mapPath -/

@[simp] theorem State.mapPath_pending (s : State) (sid : Nat) (f : Datapath → Datapath) : (s.mapPath sid f).pending = s.pending := rfl
@[simp] theorem State.mapPath_out (s : State) (sid : Nat) (f : Datapath → Datapath) : (s.mapPath sid f).out = s.out := rfl
@[simp] theorem State.mapPath_free (s : State) (sid : Nat) (f : Datapath → Datapath) : (s.mapPath sid f).free = s.free := rfl
@[simp] theorem State.mapPath_tb (s : State) (sid : Nat) (f : Datapath → Datapath) : (s.mapPath sid f).tb = s.tb := rfl
@[simp] theorem State.mapPath_clk (s : State) (sid : Nat) (f : Datapath → Datapath) : (s.mapPath sid f).clk = s.clk := rfl
@[simp] theorem State.mapPath_regs (s : State) (sid : Nat) (f : Datapath → Datapath) : (s.mapPath sid f).regs = s.regs := rfl
@[simp] theorem State.mapPath_boot (s : State) (sid : Nat) (f : Datapath → Datapath) : (s.mapPath sid f).boot = s.boot := rfl
@[simp] theorem State.mapPath_sec (s : State) (sid : Nat) (f : Datapath → Datapath) : (s.mapPath sid f).sec = s.sec := rfl
@[simp] theorem State.mapPath_sup (s : State) (sid : Nat) (f : Datapath → Datapath) : (s.mapPath sid f).sup = s.sup := rfl
@[simp] theorem State.mapPath_power (s : State) (sid : Nat) (f : Datapath → Datapath) : (s.mapPath sid f).power = s.power := rfl
@[simp] theorem State.mapPath_guard (s : State) (sid : Nat) (f : Datapath → Datapath) : (s.mapPath sid f).guard = s.guard := rfl
@[simp] theorem State.mapPath_recorder (s : State) (sid : Nat) (f : Datapath → Datapath) : (s.mapPath sid f).recorder = s.recorder := rfl
@[simp] theorem State.mapPath_counters (s : State) (sid : Nat) (f : Datapath → Datapath) : (s.mapPath sid f).counters = s.counters := rfl
@[simp] theorem State.mapPath_host (s : State) (sid : Nat) (f : Datapath → Datapath) : (s.mapPath sid f).host = s.host := rfl
@[simp] theorem State.mapPath_errq (s : State) (sid : Nat) (f : Datapath → Datapath) : (s.mapPath sid f).errq = s.errq := rfl
@[simp] theorem State.mapPath_stations (s : State) (sid : Nat) (f : Datapath → Datapath) : (s.mapPath sid f).stations = s.stations := rfl
@[simp] theorem State.mapPath_streams (s : State) (sid : Nat) (f : Datapath → Datapath) : (s.mapPath sid f).streams = s.streams := rfl
@[simp] theorem State.mapPath_groups (s : State) (sid : Nat) (f : Datapath → Datapath) : (s.mapPath sid f).groups = s.groups := rfl
@[simp] theorem State.mapPath_banks (s : State) (sid : Nat) (f : Datapath → Datapath) : (s.mapPath sid f).banks = s.banks := rfl
@[simp] theorem State.mapPath_mem (s : State) (sid : Nat) (f : Datapath → Datapath) : (s.mapPath sid f).mem = s.mem := rfl
@[simp] theorem State.mapPath_queues (s : State) (sid : Nat) (f : Datapath → Datapath) : (s.mapPath sid f).queues = s.queues := rfl
@[simp] theorem State.mapPath_trump (s : State) (sid : Nat) (f : Datapath → Datapath) : (s.mapPath sid f).trump = s.trump := rfl
@[simp] theorem State.mapPath_sched (s : State) (sid : Nat) (f : Datapath → Datapath) : (s.mapPath sid f).sched = s.sched := rfl
@[simp] theorem State.mapPath_arrays (s : State) (sid : Nat) (f : Datapath → Datapath) : (s.mapPath sid f).arrays = s.arrays := rfl
@[simp] theorem State.mapPath_enc (s : State) (sid : Nat) (f : Datapath → Datapath) : (s.mapPath sid f).enc = s.enc := rfl
@[simp] theorem State.mapPath_dec (s : State) (sid : Nat) (f : Datapath → Datapath) : (s.mapPath sid f).dec = s.dec := rfl
@[simp] theorem State.mapPath_trk (s : State) (sid : Nat) (f : Datapath → Datapath) : (s.mapPath sid f).trk = s.trk := rfl
@[simp] theorem State.mapPath_dealer (s : State) (sid : Nat) (f : Datapath → Datapath) : (s.mapPath sid f).dealer = s.dealer := rfl
@[simp] theorem State.mapPath_field (s : State) (sid : Nat) (f : Datapath → Datapath) : (s.mapPath sid f).field = s.field := rfl
@[simp] theorem State.mapPath_fab (s : State) (sid : Nat) (f : Datapath → Datapath) : (s.mapPath sid f).fab = s.fab := rfl
@[simp] theorem State.mapPath_attn (s : State) (sid : Nat) (f : Datapath → Datapath) : (s.mapPath sid f).attn = s.attn := rfl
@[simp] theorem State.mapPath_video (s : State) (sid : Nat) (f : Datapath → Datapath) : (s.mapPath sid f).video = s.video := rfl
@[simp] theorem State.mapPath_fronts (s : State) (sid : Nat) (f : Datapath → Datapath) : (s.mapPath sid f).fronts = s.fronts := rfl
@[simp] theorem State.mapPath_breaks (s : State) (sid : Nat) (f : Datapath → Datapath) : (s.mapPath sid f).breaks = s.breaks := rfl
@[simp] theorem State.mapPath_cams (s : State) (sid : Nat) (f : Datapath → Datapath) : (s.mapPath sid f).cams = s.cams := rfl
@[simp] theorem State.mapPath_couts (s : State) (sid : Nat) (f : Datapath → Datapath) : (s.mapPath sid f).couts = s.couts := rfl
@[simp] theorem State.mapPath_adapt (s : State) (sid : Nat) (f : Datapath → Datapath) : (s.mapPath sid f).adapt = s.adapt := rfl
@[simp] theorem State.mapPath_net (s : State) (sid : Nat) (f : Datapath → Datapath) : (s.mapPath sid f).net = s.net := rfl

/-! ### mapCout -/

@[simp] theorem State.mapCout_pending (s : State) (n : Nat) (f : Cout → Cout) : (s.mapCout n f).pending = s.pending := rfl
@[simp] theorem State.mapCout_out (s : State) (n : Nat) (f : Cout → Cout) : (s.mapCout n f).out = s.out := rfl
@[simp] theorem State.mapCout_free (s : State) (n : Nat) (f : Cout → Cout) : (s.mapCout n f).free = s.free := rfl
@[simp] theorem State.mapCout_tb (s : State) (n : Nat) (f : Cout → Cout) : (s.mapCout n f).tb = s.tb := rfl
@[simp] theorem State.mapCout_clk (s : State) (n : Nat) (f : Cout → Cout) : (s.mapCout n f).clk = s.clk := rfl
@[simp] theorem State.mapCout_regs (s : State) (n : Nat) (f : Cout → Cout) : (s.mapCout n f).regs = s.regs := rfl
@[simp] theorem State.mapCout_boot (s : State) (n : Nat) (f : Cout → Cout) : (s.mapCout n f).boot = s.boot := rfl
@[simp] theorem State.mapCout_sec (s : State) (n : Nat) (f : Cout → Cout) : (s.mapCout n f).sec = s.sec := rfl
@[simp] theorem State.mapCout_sup (s : State) (n : Nat) (f : Cout → Cout) : (s.mapCout n f).sup = s.sup := rfl
@[simp] theorem State.mapCout_power (s : State) (n : Nat) (f : Cout → Cout) : (s.mapCout n f).power = s.power := rfl
@[simp] theorem State.mapCout_guard (s : State) (n : Nat) (f : Cout → Cout) : (s.mapCout n f).guard = s.guard := rfl
@[simp] theorem State.mapCout_recorder (s : State) (n : Nat) (f : Cout → Cout) : (s.mapCout n f).recorder = s.recorder := rfl
@[simp] theorem State.mapCout_counters (s : State) (n : Nat) (f : Cout → Cout) : (s.mapCout n f).counters = s.counters := rfl
@[simp] theorem State.mapCout_host (s : State) (n : Nat) (f : Cout → Cout) : (s.mapCout n f).host = s.host := rfl
@[simp] theorem State.mapCout_errq (s : State) (n : Nat) (f : Cout → Cout) : (s.mapCout n f).errq = s.errq := rfl
@[simp] theorem State.mapCout_stations (s : State) (n : Nat) (f : Cout → Cout) : (s.mapCout n f).stations = s.stations := rfl
@[simp] theorem State.mapCout_streams (s : State) (n : Nat) (f : Cout → Cout) : (s.mapCout n f).streams = s.streams := rfl
@[simp] theorem State.mapCout_groups (s : State) (n : Nat) (f : Cout → Cout) : (s.mapCout n f).groups = s.groups := rfl
@[simp] theorem State.mapCout_banks (s : State) (n : Nat) (f : Cout → Cout) : (s.mapCout n f).banks = s.banks := rfl
@[simp] theorem State.mapCout_mem (s : State) (n : Nat) (f : Cout → Cout) : (s.mapCout n f).mem = s.mem := rfl
@[simp] theorem State.mapCout_queues (s : State) (n : Nat) (f : Cout → Cout) : (s.mapCout n f).queues = s.queues := rfl
@[simp] theorem State.mapCout_trump (s : State) (n : Nat) (f : Cout → Cout) : (s.mapCout n f).trump = s.trump := rfl
@[simp] theorem State.mapCout_sched (s : State) (n : Nat) (f : Cout → Cout) : (s.mapCout n f).sched = s.sched := rfl
@[simp] theorem State.mapCout_paths (s : State) (n : Nat) (f : Cout → Cout) : (s.mapCout n f).paths = s.paths := rfl
@[simp] theorem State.mapCout_arrays (s : State) (n : Nat) (f : Cout → Cout) : (s.mapCout n f).arrays = s.arrays := rfl
@[simp] theorem State.mapCout_enc (s : State) (n : Nat) (f : Cout → Cout) : (s.mapCout n f).enc = s.enc := rfl
@[simp] theorem State.mapCout_dec (s : State) (n : Nat) (f : Cout → Cout) : (s.mapCout n f).dec = s.dec := rfl
@[simp] theorem State.mapCout_trk (s : State) (n : Nat) (f : Cout → Cout) : (s.mapCout n f).trk = s.trk := rfl
@[simp] theorem State.mapCout_dealer (s : State) (n : Nat) (f : Cout → Cout) : (s.mapCout n f).dealer = s.dealer := rfl
@[simp] theorem State.mapCout_field (s : State) (n : Nat) (f : Cout → Cout) : (s.mapCout n f).field = s.field := rfl
@[simp] theorem State.mapCout_fab (s : State) (n : Nat) (f : Cout → Cout) : (s.mapCout n f).fab = s.fab := rfl
@[simp] theorem State.mapCout_attn (s : State) (n : Nat) (f : Cout → Cout) : (s.mapCout n f).attn = s.attn := rfl
@[simp] theorem State.mapCout_video (s : State) (n : Nat) (f : Cout → Cout) : (s.mapCout n f).video = s.video := rfl
@[simp] theorem State.mapCout_fronts (s : State) (n : Nat) (f : Cout → Cout) : (s.mapCout n f).fronts = s.fronts := rfl
@[simp] theorem State.mapCout_breaks (s : State) (n : Nat) (f : Cout → Cout) : (s.mapCout n f).breaks = s.breaks := rfl
@[simp] theorem State.mapCout_cams (s : State) (n : Nat) (f : Cout → Cout) : (s.mapCout n f).cams = s.cams := rfl
@[simp] theorem State.mapCout_adapt (s : State) (n : Nat) (f : Cout → Cout) : (s.mapCout n f).adapt = s.adapt := rfl
@[simp] theorem State.mapCout_net (s : State) (n : Nat) (f : Cout → Cout) : (s.mapCout n f).net = s.net := rfl

/-! ### mapCam -/

@[simp] theorem State.mapCam_pending (s : State) (n : Nat) (f : Cam → Cam) : (s.mapCam n f).pending = s.pending := rfl
@[simp] theorem State.mapCam_out (s : State) (n : Nat) (f : Cam → Cam) : (s.mapCam n f).out = s.out := rfl
@[simp] theorem State.mapCam_free (s : State) (n : Nat) (f : Cam → Cam) : (s.mapCam n f).free = s.free := rfl
@[simp] theorem State.mapCam_tb (s : State) (n : Nat) (f : Cam → Cam) : (s.mapCam n f).tb = s.tb := rfl
@[simp] theorem State.mapCam_clk (s : State) (n : Nat) (f : Cam → Cam) : (s.mapCam n f).clk = s.clk := rfl
@[simp] theorem State.mapCam_regs (s : State) (n : Nat) (f : Cam → Cam) : (s.mapCam n f).regs = s.regs := rfl
@[simp] theorem State.mapCam_boot (s : State) (n : Nat) (f : Cam → Cam) : (s.mapCam n f).boot = s.boot := rfl
@[simp] theorem State.mapCam_sec (s : State) (n : Nat) (f : Cam → Cam) : (s.mapCam n f).sec = s.sec := rfl
@[simp] theorem State.mapCam_sup (s : State) (n : Nat) (f : Cam → Cam) : (s.mapCam n f).sup = s.sup := rfl
@[simp] theorem State.mapCam_power (s : State) (n : Nat) (f : Cam → Cam) : (s.mapCam n f).power = s.power := rfl
@[simp] theorem State.mapCam_guard (s : State) (n : Nat) (f : Cam → Cam) : (s.mapCam n f).guard = s.guard := rfl
@[simp] theorem State.mapCam_recorder (s : State) (n : Nat) (f : Cam → Cam) : (s.mapCam n f).recorder = s.recorder := rfl
@[simp] theorem State.mapCam_counters (s : State) (n : Nat) (f : Cam → Cam) : (s.mapCam n f).counters = s.counters := rfl
@[simp] theorem State.mapCam_host (s : State) (n : Nat) (f : Cam → Cam) : (s.mapCam n f).host = s.host := rfl
@[simp] theorem State.mapCam_errq (s : State) (n : Nat) (f : Cam → Cam) : (s.mapCam n f).errq = s.errq := rfl
@[simp] theorem State.mapCam_stations (s : State) (n : Nat) (f : Cam → Cam) : (s.mapCam n f).stations = s.stations := rfl
@[simp] theorem State.mapCam_streams (s : State) (n : Nat) (f : Cam → Cam) : (s.mapCam n f).streams = s.streams := rfl
@[simp] theorem State.mapCam_groups (s : State) (n : Nat) (f : Cam → Cam) : (s.mapCam n f).groups = s.groups := rfl
@[simp] theorem State.mapCam_banks (s : State) (n : Nat) (f : Cam → Cam) : (s.mapCam n f).banks = s.banks := rfl
@[simp] theorem State.mapCam_mem (s : State) (n : Nat) (f : Cam → Cam) : (s.mapCam n f).mem = s.mem := rfl
@[simp] theorem State.mapCam_queues (s : State) (n : Nat) (f : Cam → Cam) : (s.mapCam n f).queues = s.queues := rfl
@[simp] theorem State.mapCam_trump (s : State) (n : Nat) (f : Cam → Cam) : (s.mapCam n f).trump = s.trump := rfl
@[simp] theorem State.mapCam_sched (s : State) (n : Nat) (f : Cam → Cam) : (s.mapCam n f).sched = s.sched := rfl
@[simp] theorem State.mapCam_paths (s : State) (n : Nat) (f : Cam → Cam) : (s.mapCam n f).paths = s.paths := rfl
@[simp] theorem State.mapCam_arrays (s : State) (n : Nat) (f : Cam → Cam) : (s.mapCam n f).arrays = s.arrays := rfl
@[simp] theorem State.mapCam_enc (s : State) (n : Nat) (f : Cam → Cam) : (s.mapCam n f).enc = s.enc := rfl
@[simp] theorem State.mapCam_dec (s : State) (n : Nat) (f : Cam → Cam) : (s.mapCam n f).dec = s.dec := rfl
@[simp] theorem State.mapCam_trk (s : State) (n : Nat) (f : Cam → Cam) : (s.mapCam n f).trk = s.trk := rfl
@[simp] theorem State.mapCam_dealer (s : State) (n : Nat) (f : Cam → Cam) : (s.mapCam n f).dealer = s.dealer := rfl
@[simp] theorem State.mapCam_field (s : State) (n : Nat) (f : Cam → Cam) : (s.mapCam n f).field = s.field := rfl
@[simp] theorem State.mapCam_fab (s : State) (n : Nat) (f : Cam → Cam) : (s.mapCam n f).fab = s.fab := rfl
@[simp] theorem State.mapCam_attn (s : State) (n : Nat) (f : Cam → Cam) : (s.mapCam n f).attn = s.attn := rfl
@[simp] theorem State.mapCam_video (s : State) (n : Nat) (f : Cam → Cam) : (s.mapCam n f).video = s.video := rfl
@[simp] theorem State.mapCam_fronts (s : State) (n : Nat) (f : Cam → Cam) : (s.mapCam n f).fronts = s.fronts := rfl
@[simp] theorem State.mapCam_breaks (s : State) (n : Nat) (f : Cam → Cam) : (s.mapCam n f).breaks = s.breaks := rfl
@[simp] theorem State.mapCam_couts (s : State) (n : Nat) (f : Cam → Cam) : (s.mapCam n f).couts = s.couts := rfl
@[simp] theorem State.mapCam_adapt (s : State) (n : Nat) (f : Cam → Cam) : (s.mapCam n f).adapt = s.adapt := rfl
@[simp] theorem State.mapCam_net (s : State) (n : Nat) (f : Cam → Cam) : (s.mapCam n f).net = s.net := rfl

/-! ### mapFront -/

@[simp] theorem State.mapFront_pending (s : State) (sid : Nat) (f : Front → Front) : (s.mapFront sid f).pending = s.pending := rfl
@[simp] theorem State.mapFront_out (s : State) (sid : Nat) (f : Front → Front) : (s.mapFront sid f).out = s.out := rfl
@[simp] theorem State.mapFront_free (s : State) (sid : Nat) (f : Front → Front) : (s.mapFront sid f).free = s.free := rfl
@[simp] theorem State.mapFront_tb (s : State) (sid : Nat) (f : Front → Front) : (s.mapFront sid f).tb = s.tb := rfl
@[simp] theorem State.mapFront_clk (s : State) (sid : Nat) (f : Front → Front) : (s.mapFront sid f).clk = s.clk := rfl
@[simp] theorem State.mapFront_regs (s : State) (sid : Nat) (f : Front → Front) : (s.mapFront sid f).regs = s.regs := rfl
@[simp] theorem State.mapFront_boot (s : State) (sid : Nat) (f : Front → Front) : (s.mapFront sid f).boot = s.boot := rfl
@[simp] theorem State.mapFront_sec (s : State) (sid : Nat) (f : Front → Front) : (s.mapFront sid f).sec = s.sec := rfl
@[simp] theorem State.mapFront_sup (s : State) (sid : Nat) (f : Front → Front) : (s.mapFront sid f).sup = s.sup := rfl
@[simp] theorem State.mapFront_power (s : State) (sid : Nat) (f : Front → Front) : (s.mapFront sid f).power = s.power := rfl
@[simp] theorem State.mapFront_guard (s : State) (sid : Nat) (f : Front → Front) : (s.mapFront sid f).guard = s.guard := rfl
@[simp] theorem State.mapFront_recorder (s : State) (sid : Nat) (f : Front → Front) : (s.mapFront sid f).recorder = s.recorder := rfl
@[simp] theorem State.mapFront_counters (s : State) (sid : Nat) (f : Front → Front) : (s.mapFront sid f).counters = s.counters := rfl
@[simp] theorem State.mapFront_host (s : State) (sid : Nat) (f : Front → Front) : (s.mapFront sid f).host = s.host := rfl
@[simp] theorem State.mapFront_errq (s : State) (sid : Nat) (f : Front → Front) : (s.mapFront sid f).errq = s.errq := rfl
@[simp] theorem State.mapFront_stations (s : State) (sid : Nat) (f : Front → Front) : (s.mapFront sid f).stations = s.stations := rfl
@[simp] theorem State.mapFront_streams (s : State) (sid : Nat) (f : Front → Front) : (s.mapFront sid f).streams = s.streams := rfl
@[simp] theorem State.mapFront_groups (s : State) (sid : Nat) (f : Front → Front) : (s.mapFront sid f).groups = s.groups := rfl
@[simp] theorem State.mapFront_banks (s : State) (sid : Nat) (f : Front → Front) : (s.mapFront sid f).banks = s.banks := rfl
@[simp] theorem State.mapFront_mem (s : State) (sid : Nat) (f : Front → Front) : (s.mapFront sid f).mem = s.mem := rfl
@[simp] theorem State.mapFront_queues (s : State) (sid : Nat) (f : Front → Front) : (s.mapFront sid f).queues = s.queues := rfl
@[simp] theorem State.mapFront_trump (s : State) (sid : Nat) (f : Front → Front) : (s.mapFront sid f).trump = s.trump := rfl
@[simp] theorem State.mapFront_sched (s : State) (sid : Nat) (f : Front → Front) : (s.mapFront sid f).sched = s.sched := rfl
@[simp] theorem State.mapFront_paths (s : State) (sid : Nat) (f : Front → Front) : (s.mapFront sid f).paths = s.paths := rfl
@[simp] theorem State.mapFront_arrays (s : State) (sid : Nat) (f : Front → Front) : (s.mapFront sid f).arrays = s.arrays := rfl
@[simp] theorem State.mapFront_enc (s : State) (sid : Nat) (f : Front → Front) : (s.mapFront sid f).enc = s.enc := rfl
@[simp] theorem State.mapFront_dec (s : State) (sid : Nat) (f : Front → Front) : (s.mapFront sid f).dec = s.dec := rfl
@[simp] theorem State.mapFront_trk (s : State) (sid : Nat) (f : Front → Front) : (s.mapFront sid f).trk = s.trk := rfl
@[simp] theorem State.mapFront_dealer (s : State) (sid : Nat) (f : Front → Front) : (s.mapFront sid f).dealer = s.dealer := rfl
@[simp] theorem State.mapFront_field (s : State) (sid : Nat) (f : Front → Front) : (s.mapFront sid f).field = s.field := rfl
@[simp] theorem State.mapFront_fab (s : State) (sid : Nat) (f : Front → Front) : (s.mapFront sid f).fab = s.fab := rfl
@[simp] theorem State.mapFront_attn (s : State) (sid : Nat) (f : Front → Front) : (s.mapFront sid f).attn = s.attn := rfl
@[simp] theorem State.mapFront_video (s : State) (sid : Nat) (f : Front → Front) : (s.mapFront sid f).video = s.video := rfl
@[simp] theorem State.mapFront_breaks (s : State) (sid : Nat) (f : Front → Front) : (s.mapFront sid f).breaks = s.breaks := rfl
@[simp] theorem State.mapFront_cams (s : State) (sid : Nat) (f : Front → Front) : (s.mapFront sid f).cams = s.cams := rfl
@[simp] theorem State.mapFront_couts (s : State) (sid : Nat) (f : Front → Front) : (s.mapFront sid f).couts = s.couts := rfl
@[simp] theorem State.mapFront_adapt (s : State) (sid : Nat) (f : Front → Front) : (s.mapFront sid f).adapt = s.adapt := rfl
@[simp] theorem State.mapFront_net (s : State) (sid : Nat) (f : Front → Front) : (s.mapFront sid f).net = s.net := rfl

/-! ### mapEnc -/

@[simp] theorem State.mapEnc_pending (s : State) (ch : Nat) (f : Encoder → Encoder) : (s.mapEnc ch f).pending = s.pending := rfl
@[simp] theorem State.mapEnc_out (s : State) (ch : Nat) (f : Encoder → Encoder) : (s.mapEnc ch f).out = s.out := rfl
@[simp] theorem State.mapEnc_free (s : State) (ch : Nat) (f : Encoder → Encoder) : (s.mapEnc ch f).free = s.free := rfl
@[simp] theorem State.mapEnc_tb (s : State) (ch : Nat) (f : Encoder → Encoder) : (s.mapEnc ch f).tb = s.tb := rfl
@[simp] theorem State.mapEnc_clk (s : State) (ch : Nat) (f : Encoder → Encoder) : (s.mapEnc ch f).clk = s.clk := rfl
@[simp] theorem State.mapEnc_regs (s : State) (ch : Nat) (f : Encoder → Encoder) : (s.mapEnc ch f).regs = s.regs := rfl
@[simp] theorem State.mapEnc_boot (s : State) (ch : Nat) (f : Encoder → Encoder) : (s.mapEnc ch f).boot = s.boot := rfl
@[simp] theorem State.mapEnc_sec (s : State) (ch : Nat) (f : Encoder → Encoder) : (s.mapEnc ch f).sec = s.sec := rfl
@[simp] theorem State.mapEnc_sup (s : State) (ch : Nat) (f : Encoder → Encoder) : (s.mapEnc ch f).sup = s.sup := rfl
@[simp] theorem State.mapEnc_power (s : State) (ch : Nat) (f : Encoder → Encoder) : (s.mapEnc ch f).power = s.power := rfl
@[simp] theorem State.mapEnc_guard (s : State) (ch : Nat) (f : Encoder → Encoder) : (s.mapEnc ch f).guard = s.guard := rfl
@[simp] theorem State.mapEnc_recorder (s : State) (ch : Nat) (f : Encoder → Encoder) : (s.mapEnc ch f).recorder = s.recorder := rfl
@[simp] theorem State.mapEnc_counters (s : State) (ch : Nat) (f : Encoder → Encoder) : (s.mapEnc ch f).counters = s.counters := rfl
@[simp] theorem State.mapEnc_host (s : State) (ch : Nat) (f : Encoder → Encoder) : (s.mapEnc ch f).host = s.host := rfl
@[simp] theorem State.mapEnc_errq (s : State) (ch : Nat) (f : Encoder → Encoder) : (s.mapEnc ch f).errq = s.errq := rfl
@[simp] theorem State.mapEnc_stations (s : State) (ch : Nat) (f : Encoder → Encoder) : (s.mapEnc ch f).stations = s.stations := rfl
@[simp] theorem State.mapEnc_streams (s : State) (ch : Nat) (f : Encoder → Encoder) : (s.mapEnc ch f).streams = s.streams := rfl
@[simp] theorem State.mapEnc_groups (s : State) (ch : Nat) (f : Encoder → Encoder) : (s.mapEnc ch f).groups = s.groups := rfl
@[simp] theorem State.mapEnc_banks (s : State) (ch : Nat) (f : Encoder → Encoder) : (s.mapEnc ch f).banks = s.banks := rfl
@[simp] theorem State.mapEnc_mem (s : State) (ch : Nat) (f : Encoder → Encoder) : (s.mapEnc ch f).mem = s.mem := rfl
@[simp] theorem State.mapEnc_queues (s : State) (ch : Nat) (f : Encoder → Encoder) : (s.mapEnc ch f).queues = s.queues := rfl
@[simp] theorem State.mapEnc_trump (s : State) (ch : Nat) (f : Encoder → Encoder) : (s.mapEnc ch f).trump = s.trump := rfl
@[simp] theorem State.mapEnc_sched (s : State) (ch : Nat) (f : Encoder → Encoder) : (s.mapEnc ch f).sched = s.sched := rfl
@[simp] theorem State.mapEnc_paths (s : State) (ch : Nat) (f : Encoder → Encoder) : (s.mapEnc ch f).paths = s.paths := rfl
@[simp] theorem State.mapEnc_arrays (s : State) (ch : Nat) (f : Encoder → Encoder) : (s.mapEnc ch f).arrays = s.arrays := rfl
@[simp] theorem State.mapEnc_dec (s : State) (ch : Nat) (f : Encoder → Encoder) : (s.mapEnc ch f).dec = s.dec := rfl
@[simp] theorem State.mapEnc_trk (s : State) (ch : Nat) (f : Encoder → Encoder) : (s.mapEnc ch f).trk = s.trk := rfl
@[simp] theorem State.mapEnc_dealer (s : State) (ch : Nat) (f : Encoder → Encoder) : (s.mapEnc ch f).dealer = s.dealer := rfl
@[simp] theorem State.mapEnc_field (s : State) (ch : Nat) (f : Encoder → Encoder) : (s.mapEnc ch f).field = s.field := rfl
@[simp] theorem State.mapEnc_fab (s : State) (ch : Nat) (f : Encoder → Encoder) : (s.mapEnc ch f).fab = s.fab := rfl
@[simp] theorem State.mapEnc_attn (s : State) (ch : Nat) (f : Encoder → Encoder) : (s.mapEnc ch f).attn = s.attn := rfl
@[simp] theorem State.mapEnc_video (s : State) (ch : Nat) (f : Encoder → Encoder) : (s.mapEnc ch f).video = s.video := rfl
@[simp] theorem State.mapEnc_fronts (s : State) (ch : Nat) (f : Encoder → Encoder) : (s.mapEnc ch f).fronts = s.fronts := rfl
@[simp] theorem State.mapEnc_breaks (s : State) (ch : Nat) (f : Encoder → Encoder) : (s.mapEnc ch f).breaks = s.breaks := rfl
@[simp] theorem State.mapEnc_cams (s : State) (ch : Nat) (f : Encoder → Encoder) : (s.mapEnc ch f).cams = s.cams := rfl
@[simp] theorem State.mapEnc_couts (s : State) (ch : Nat) (f : Encoder → Encoder) : (s.mapEnc ch f).couts = s.couts := rfl
@[simp] theorem State.mapEnc_adapt (s : State) (ch : Nat) (f : Encoder → Encoder) : (s.mapEnc ch f).adapt = s.adapt := rfl
@[simp] theorem State.mapEnc_net (s : State) (ch : Nat) (f : Encoder → Encoder) : (s.mapEnc ch f).net = s.net := rfl

/-! ### mapString -/

@[simp] theorem State.mapString_pending (s : State) (v : Nat) (f : VString → VString) : (s.mapString v f).pending = s.pending := rfl
@[simp] theorem State.mapString_out (s : State) (v : Nat) (f : VString → VString) : (s.mapString v f).out = s.out := rfl
@[simp] theorem State.mapString_free (s : State) (v : Nat) (f : VString → VString) : (s.mapString v f).free = s.free := rfl
@[simp] theorem State.mapString_tb (s : State) (v : Nat) (f : VString → VString) : (s.mapString v f).tb = s.tb := rfl
@[simp] theorem State.mapString_clk (s : State) (v : Nat) (f : VString → VString) : (s.mapString v f).clk = s.clk := rfl
@[simp] theorem State.mapString_regs (s : State) (v : Nat) (f : VString → VString) : (s.mapString v f).regs = s.regs := rfl
@[simp] theorem State.mapString_boot (s : State) (v : Nat) (f : VString → VString) : (s.mapString v f).boot = s.boot := rfl
@[simp] theorem State.mapString_sec (s : State) (v : Nat) (f : VString → VString) : (s.mapString v f).sec = s.sec := rfl
@[simp] theorem State.mapString_sup (s : State) (v : Nat) (f : VString → VString) : (s.mapString v f).sup = s.sup := rfl
@[simp] theorem State.mapString_power (s : State) (v : Nat) (f : VString → VString) : (s.mapString v f).power = s.power := rfl
@[simp] theorem State.mapString_guard (s : State) (v : Nat) (f : VString → VString) : (s.mapString v f).guard = s.guard := rfl
@[simp] theorem State.mapString_recorder (s : State) (v : Nat) (f : VString → VString) : (s.mapString v f).recorder = s.recorder := rfl
@[simp] theorem State.mapString_counters (s : State) (v : Nat) (f : VString → VString) : (s.mapString v f).counters = s.counters := rfl
@[simp] theorem State.mapString_host (s : State) (v : Nat) (f : VString → VString) : (s.mapString v f).host = s.host := rfl
@[simp] theorem State.mapString_errq (s : State) (v : Nat) (f : VString → VString) : (s.mapString v f).errq = s.errq := rfl
@[simp] theorem State.mapString_stations (s : State) (v : Nat) (f : VString → VString) : (s.mapString v f).stations = s.stations := rfl
@[simp] theorem State.mapString_streams (s : State) (v : Nat) (f : VString → VString) : (s.mapString v f).streams = s.streams := rfl
@[simp] theorem State.mapString_groups (s : State) (v : Nat) (f : VString → VString) : (s.mapString v f).groups = s.groups := rfl
@[simp] theorem State.mapString_banks (s : State) (v : Nat) (f : VString → VString) : (s.mapString v f).banks = s.banks := rfl
@[simp] theorem State.mapString_mem (s : State) (v : Nat) (f : VString → VString) : (s.mapString v f).mem = s.mem := rfl
@[simp] theorem State.mapString_queues (s : State) (v : Nat) (f : VString → VString) : (s.mapString v f).queues = s.queues := rfl
@[simp] theorem State.mapString_trump (s : State) (v : Nat) (f : VString → VString) : (s.mapString v f).trump = s.trump := rfl
@[simp] theorem State.mapString_sched (s : State) (v : Nat) (f : VString → VString) : (s.mapString v f).sched = s.sched := rfl
@[simp] theorem State.mapString_paths (s : State) (v : Nat) (f : VString → VString) : (s.mapString v f).paths = s.paths := rfl
@[simp] theorem State.mapString_arrays (s : State) (v : Nat) (f : VString → VString) : (s.mapString v f).arrays = s.arrays := rfl
@[simp] theorem State.mapString_enc (s : State) (v : Nat) (f : VString → VString) : (s.mapString v f).enc = s.enc := rfl
@[simp] theorem State.mapString_dec (s : State) (v : Nat) (f : VString → VString) : (s.mapString v f).dec = s.dec := rfl
@[simp] theorem State.mapString_trk (s : State) (v : Nat) (f : VString → VString) : (s.mapString v f).trk = s.trk := rfl
@[simp] theorem State.mapString_field (s : State) (v : Nat) (f : VString → VString) : (s.mapString v f).field = s.field := rfl
@[simp] theorem State.mapString_fab (s : State) (v : Nat) (f : VString → VString) : (s.mapString v f).fab = s.fab := rfl
@[simp] theorem State.mapString_attn (s : State) (v : Nat) (f : VString → VString) : (s.mapString v f).attn = s.attn := rfl
@[simp] theorem State.mapString_video (s : State) (v : Nat) (f : VString → VString) : (s.mapString v f).video = s.video := rfl
@[simp] theorem State.mapString_fronts (s : State) (v : Nat) (f : VString → VString) : (s.mapString v f).fronts = s.fronts := rfl
@[simp] theorem State.mapString_breaks (s : State) (v : Nat) (f : VString → VString) : (s.mapString v f).breaks = s.breaks := rfl
@[simp] theorem State.mapString_cams (s : State) (v : Nat) (f : VString → VString) : (s.mapString v f).cams = s.cams := rfl
@[simp] theorem State.mapString_couts (s : State) (v : Nat) (f : VString → VString) : (s.mapString v f).couts = s.couts := rfl
@[simp] theorem State.mapString_adapt (s : State) (v : Nat) (f : VString → VString) : (s.mapString v f).adapt = s.adapt := rfl
@[simp] theorem State.mapString_net (s : State) (v : Nat) (f : VString → VString) : (s.mapString v f).net = s.net := rfl

/-! ### mapField -/

@[simp] theorem State.mapField_pending (s : State) (f : Field → Field) : (s.mapField f).pending = s.pending := rfl
@[simp] theorem State.mapField_out (s : State) (f : Field → Field) : (s.mapField f).out = s.out := rfl
@[simp] theorem State.mapField_free (s : State) (f : Field → Field) : (s.mapField f).free = s.free := rfl
@[simp] theorem State.mapField_tb (s : State) (f : Field → Field) : (s.mapField f).tb = s.tb := rfl
@[simp] theorem State.mapField_clk (s : State) (f : Field → Field) : (s.mapField f).clk = s.clk := rfl
@[simp] theorem State.mapField_regs (s : State) (f : Field → Field) : (s.mapField f).regs = s.regs := rfl
@[simp] theorem State.mapField_boot (s : State) (f : Field → Field) : (s.mapField f).boot = s.boot := rfl
@[simp] theorem State.mapField_sec (s : State) (f : Field → Field) : (s.mapField f).sec = s.sec := rfl
@[simp] theorem State.mapField_sup (s : State) (f : Field → Field) : (s.mapField f).sup = s.sup := rfl
@[simp] theorem State.mapField_power (s : State) (f : Field → Field) : (s.mapField f).power = s.power := rfl
@[simp] theorem State.mapField_guard (s : State) (f : Field → Field) : (s.mapField f).guard = s.guard := rfl
@[simp] theorem State.mapField_recorder (s : State) (f : Field → Field) : (s.mapField f).recorder = s.recorder := rfl
@[simp] theorem State.mapField_counters (s : State) (f : Field → Field) : (s.mapField f).counters = s.counters := rfl
@[simp] theorem State.mapField_host (s : State) (f : Field → Field) : (s.mapField f).host = s.host := rfl
@[simp] theorem State.mapField_errq (s : State) (f : Field → Field) : (s.mapField f).errq = s.errq := rfl
@[simp] theorem State.mapField_stations (s : State) (f : Field → Field) : (s.mapField f).stations = s.stations := rfl
@[simp] theorem State.mapField_streams (s : State) (f : Field → Field) : (s.mapField f).streams = s.streams := rfl
@[simp] theorem State.mapField_groups (s : State) (f : Field → Field) : (s.mapField f).groups = s.groups := rfl
@[simp] theorem State.mapField_banks (s : State) (f : Field → Field) : (s.mapField f).banks = s.banks := rfl
@[simp] theorem State.mapField_mem (s : State) (f : Field → Field) : (s.mapField f).mem = s.mem := rfl
@[simp] theorem State.mapField_queues (s : State) (f : Field → Field) : (s.mapField f).queues = s.queues := rfl
@[simp] theorem State.mapField_trump (s : State) (f : Field → Field) : (s.mapField f).trump = s.trump := rfl
@[simp] theorem State.mapField_sched (s : State) (f : Field → Field) : (s.mapField f).sched = s.sched := rfl
@[simp] theorem State.mapField_paths (s : State) (f : Field → Field) : (s.mapField f).paths = s.paths := rfl
@[simp] theorem State.mapField_arrays (s : State) (f : Field → Field) : (s.mapField f).arrays = s.arrays := rfl
@[simp] theorem State.mapField_enc (s : State) (f : Field → Field) : (s.mapField f).enc = s.enc := rfl
@[simp] theorem State.mapField_dec (s : State) (f : Field → Field) : (s.mapField f).dec = s.dec := rfl
@[simp] theorem State.mapField_trk (s : State) (f : Field → Field) : (s.mapField f).trk = s.trk := rfl
@[simp] theorem State.mapField_dealer (s : State) (f : Field → Field) : (s.mapField f).dealer = s.dealer := rfl
@[simp] theorem State.mapField_fab (s : State) (f : Field → Field) : (s.mapField f).fab = s.fab := rfl
@[simp] theorem State.mapField_attn (s : State) (f : Field → Field) : (s.mapField f).attn = s.attn := rfl
@[simp] theorem State.mapField_video (s : State) (f : Field → Field) : (s.mapField f).video = s.video := rfl
@[simp] theorem State.mapField_fronts (s : State) (f : Field → Field) : (s.mapField f).fronts = s.fronts := rfl
@[simp] theorem State.mapField_breaks (s : State) (f : Field → Field) : (s.mapField f).breaks = s.breaks := rfl
@[simp] theorem State.mapField_cams (s : State) (f : Field → Field) : (s.mapField f).cams = s.cams := rfl
@[simp] theorem State.mapField_couts (s : State) (f : Field → Field) : (s.mapField f).couts = s.couts := rfl
@[simp] theorem State.mapField_adapt (s : State) (f : Field → Field) : (s.mapField f).adapt = s.adapt := rfl
@[simp] theorem State.mapField_net (s : State) (f : Field → Field) : (s.mapField f).net = s.net := rfl

/-! ### mapAtu -/

@[simp] theorem State.mapAtu_pending (s : State) (sid : Nat) (f : Atu → Atu) : (s.mapAtu sid f).pending = s.pending := rfl
@[simp] theorem State.mapAtu_out (s : State) (sid : Nat) (f : Atu → Atu) : (s.mapAtu sid f).out = s.out := rfl
@[simp] theorem State.mapAtu_free (s : State) (sid : Nat) (f : Atu → Atu) : (s.mapAtu sid f).free = s.free := rfl
@[simp] theorem State.mapAtu_tb (s : State) (sid : Nat) (f : Atu → Atu) : (s.mapAtu sid f).tb = s.tb := rfl
@[simp] theorem State.mapAtu_clk (s : State) (sid : Nat) (f : Atu → Atu) : (s.mapAtu sid f).clk = s.clk := rfl
@[simp] theorem State.mapAtu_regs (s : State) (sid : Nat) (f : Atu → Atu) : (s.mapAtu sid f).regs = s.regs := rfl
@[simp] theorem State.mapAtu_boot (s : State) (sid : Nat) (f : Atu → Atu) : (s.mapAtu sid f).boot = s.boot := rfl
@[simp] theorem State.mapAtu_sec (s : State) (sid : Nat) (f : Atu → Atu) : (s.mapAtu sid f).sec = s.sec := rfl
@[simp] theorem State.mapAtu_sup (s : State) (sid : Nat) (f : Atu → Atu) : (s.mapAtu sid f).sup = s.sup := rfl
@[simp] theorem State.mapAtu_power (s : State) (sid : Nat) (f : Atu → Atu) : (s.mapAtu sid f).power = s.power := rfl
@[simp] theorem State.mapAtu_guard (s : State) (sid : Nat) (f : Atu → Atu) : (s.mapAtu sid f).guard = s.guard := rfl
@[simp] theorem State.mapAtu_recorder (s : State) (sid : Nat) (f : Atu → Atu) : (s.mapAtu sid f).recorder = s.recorder := rfl
@[simp] theorem State.mapAtu_counters (s : State) (sid : Nat) (f : Atu → Atu) : (s.mapAtu sid f).counters = s.counters := rfl
@[simp] theorem State.mapAtu_host (s : State) (sid : Nat) (f : Atu → Atu) : (s.mapAtu sid f).host = s.host := rfl
@[simp] theorem State.mapAtu_errq (s : State) (sid : Nat) (f : Atu → Atu) : (s.mapAtu sid f).errq = s.errq := rfl
@[simp] theorem State.mapAtu_stations (s : State) (sid : Nat) (f : Atu → Atu) : (s.mapAtu sid f).stations = s.stations := rfl
@[simp] theorem State.mapAtu_streams (s : State) (sid : Nat) (f : Atu → Atu) : (s.mapAtu sid f).streams = s.streams := rfl
@[simp] theorem State.mapAtu_groups (s : State) (sid : Nat) (f : Atu → Atu) : (s.mapAtu sid f).groups = s.groups := rfl
@[simp] theorem State.mapAtu_banks (s : State) (sid : Nat) (f : Atu → Atu) : (s.mapAtu sid f).banks = s.banks := rfl
@[simp] theorem State.mapAtu_mem (s : State) (sid : Nat) (f : Atu → Atu) : (s.mapAtu sid f).mem = s.mem := rfl
@[simp] theorem State.mapAtu_queues (s : State) (sid : Nat) (f : Atu → Atu) : (s.mapAtu sid f).queues = s.queues := rfl
@[simp] theorem State.mapAtu_trump (s : State) (sid : Nat) (f : Atu → Atu) : (s.mapAtu sid f).trump = s.trump := rfl
@[simp] theorem State.mapAtu_sched (s : State) (sid : Nat) (f : Atu → Atu) : (s.mapAtu sid f).sched = s.sched := rfl
@[simp] theorem State.mapAtu_paths (s : State) (sid : Nat) (f : Atu → Atu) : (s.mapAtu sid f).paths = s.paths := rfl
@[simp] theorem State.mapAtu_arrays (s : State) (sid : Nat) (f : Atu → Atu) : (s.mapAtu sid f).arrays = s.arrays := rfl
@[simp] theorem State.mapAtu_enc (s : State) (sid : Nat) (f : Atu → Atu) : (s.mapAtu sid f).enc = s.enc := rfl
@[simp] theorem State.mapAtu_dec (s : State) (sid : Nat) (f : Atu → Atu) : (s.mapAtu sid f).dec = s.dec := rfl
@[simp] theorem State.mapAtu_trk (s : State) (sid : Nat) (f : Atu → Atu) : (s.mapAtu sid f).trk = s.trk := rfl
@[simp] theorem State.mapAtu_dealer (s : State) (sid : Nat) (f : Atu → Atu) : (s.mapAtu sid f).dealer = s.dealer := rfl
@[simp] theorem State.mapAtu_field (s : State) (sid : Nat) (f : Atu → Atu) : (s.mapAtu sid f).field = s.field := rfl
@[simp] theorem State.mapAtu_fab (s : State) (sid : Nat) (f : Atu → Atu) : (s.mapAtu sid f).fab = s.fab := rfl
@[simp] theorem State.mapAtu_video (s : State) (sid : Nat) (f : Atu → Atu) : (s.mapAtu sid f).video = s.video := rfl
@[simp] theorem State.mapAtu_fronts (s : State) (sid : Nat) (f : Atu → Atu) : (s.mapAtu sid f).fronts = s.fronts := rfl
@[simp] theorem State.mapAtu_breaks (s : State) (sid : Nat) (f : Atu → Atu) : (s.mapAtu sid f).breaks = s.breaks := rfl
@[simp] theorem State.mapAtu_cams (s : State) (sid : Nat) (f : Atu → Atu) : (s.mapAtu sid f).cams = s.cams := rfl
@[simp] theorem State.mapAtu_couts (s : State) (sid : Nat) (f : Atu → Atu) : (s.mapAtu sid f).couts = s.couts := rfl
@[simp] theorem State.mapAtu_adapt (s : State) (sid : Nat) (f : Atu → Atu) : (s.mapAtu sid f).adapt = s.adapt := rfl
@[simp] theorem State.mapAtu_net (s : State) (sid : Nat) (f : Atu → Atu) : (s.mapAtu sid f).net = s.net := rfl

/-! ### mapVstream -/

@[simp] theorem State.mapVstream_pending (s : State) (n : Nat) (f : VStream → VStream) : (s.mapVstream n f).pending = s.pending := rfl
@[simp] theorem State.mapVstream_out (s : State) (n : Nat) (f : VStream → VStream) : (s.mapVstream n f).out = s.out := rfl
@[simp] theorem State.mapVstream_free (s : State) (n : Nat) (f : VStream → VStream) : (s.mapVstream n f).free = s.free := rfl
@[simp] theorem State.mapVstream_tb (s : State) (n : Nat) (f : VStream → VStream) : (s.mapVstream n f).tb = s.tb := rfl
@[simp] theorem State.mapVstream_clk (s : State) (n : Nat) (f : VStream → VStream) : (s.mapVstream n f).clk = s.clk := rfl
@[simp] theorem State.mapVstream_regs (s : State) (n : Nat) (f : VStream → VStream) : (s.mapVstream n f).regs = s.regs := rfl
@[simp] theorem State.mapVstream_boot (s : State) (n : Nat) (f : VStream → VStream) : (s.mapVstream n f).boot = s.boot := rfl
@[simp] theorem State.mapVstream_sec (s : State) (n : Nat) (f : VStream → VStream) : (s.mapVstream n f).sec = s.sec := rfl
@[simp] theorem State.mapVstream_sup (s : State) (n : Nat) (f : VStream → VStream) : (s.mapVstream n f).sup = s.sup := rfl
@[simp] theorem State.mapVstream_power (s : State) (n : Nat) (f : VStream → VStream) : (s.mapVstream n f).power = s.power := rfl
@[simp] theorem State.mapVstream_guard (s : State) (n : Nat) (f : VStream → VStream) : (s.mapVstream n f).guard = s.guard := rfl
@[simp] theorem State.mapVstream_recorder (s : State) (n : Nat) (f : VStream → VStream) : (s.mapVstream n f).recorder = s.recorder := rfl
@[simp] theorem State.mapVstream_counters (s : State) (n : Nat) (f : VStream → VStream) : (s.mapVstream n f).counters = s.counters := rfl
@[simp] theorem State.mapVstream_host (s : State) (n : Nat) (f : VStream → VStream) : (s.mapVstream n f).host = s.host := rfl
@[simp] theorem State.mapVstream_errq (s : State) (n : Nat) (f : VStream → VStream) : (s.mapVstream n f).errq = s.errq := rfl
@[simp] theorem State.mapVstream_stations (s : State) (n : Nat) (f : VStream → VStream) : (s.mapVstream n f).stations = s.stations := rfl
@[simp] theorem State.mapVstream_streams (s : State) (n : Nat) (f : VStream → VStream) : (s.mapVstream n f).streams = s.streams := rfl
@[simp] theorem State.mapVstream_groups (s : State) (n : Nat) (f : VStream → VStream) : (s.mapVstream n f).groups = s.groups := rfl
@[simp] theorem State.mapVstream_banks (s : State) (n : Nat) (f : VStream → VStream) : (s.mapVstream n f).banks = s.banks := rfl
@[simp] theorem State.mapVstream_mem (s : State) (n : Nat) (f : VStream → VStream) : (s.mapVstream n f).mem = s.mem := rfl
@[simp] theorem State.mapVstream_queues (s : State) (n : Nat) (f : VStream → VStream) : (s.mapVstream n f).queues = s.queues := rfl
@[simp] theorem State.mapVstream_trump (s : State) (n : Nat) (f : VStream → VStream) : (s.mapVstream n f).trump = s.trump := rfl
@[simp] theorem State.mapVstream_sched (s : State) (n : Nat) (f : VStream → VStream) : (s.mapVstream n f).sched = s.sched := rfl
@[simp] theorem State.mapVstream_paths (s : State) (n : Nat) (f : VStream → VStream) : (s.mapVstream n f).paths = s.paths := rfl
@[simp] theorem State.mapVstream_arrays (s : State) (n : Nat) (f : VStream → VStream) : (s.mapVstream n f).arrays = s.arrays := rfl
@[simp] theorem State.mapVstream_enc (s : State) (n : Nat) (f : VStream → VStream) : (s.mapVstream n f).enc = s.enc := rfl
@[simp] theorem State.mapVstream_dec (s : State) (n : Nat) (f : VStream → VStream) : (s.mapVstream n f).dec = s.dec := rfl
@[simp] theorem State.mapVstream_trk (s : State) (n : Nat) (f : VStream → VStream) : (s.mapVstream n f).trk = s.trk := rfl
@[simp] theorem State.mapVstream_dealer (s : State) (n : Nat) (f : VStream → VStream) : (s.mapVstream n f).dealer = s.dealer := rfl
@[simp] theorem State.mapVstream_field (s : State) (n : Nat) (f : VStream → VStream) : (s.mapVstream n f).field = s.field := rfl
@[simp] theorem State.mapVstream_fab (s : State) (n : Nat) (f : VStream → VStream) : (s.mapVstream n f).fab = s.fab := rfl
@[simp] theorem State.mapVstream_attn (s : State) (n : Nat) (f : VStream → VStream) : (s.mapVstream n f).attn = s.attn := rfl
@[simp] theorem State.mapVstream_fronts (s : State) (n : Nat) (f : VStream → VStream) : (s.mapVstream n f).fronts = s.fronts := rfl
@[simp] theorem State.mapVstream_breaks (s : State) (n : Nat) (f : VStream → VStream) : (s.mapVstream n f).breaks = s.breaks := rfl
@[simp] theorem State.mapVstream_cams (s : State) (n : Nat) (f : VStream → VStream) : (s.mapVstream n f).cams = s.cams := rfl
@[simp] theorem State.mapVstream_couts (s : State) (n : Nat) (f : VStream → VStream) : (s.mapVstream n f).couts = s.couts := rfl
@[simp] theorem State.mapVstream_adapt (s : State) (n : Nat) (f : VStream → VStream) : (s.mapVstream n f).adapt = s.adapt := rfl
@[simp] theorem State.mapVstream_net (s : State) (n : Nat) (f : VStream → VStream) : (s.mapVstream n f).net = s.net := rfl

/-! ### mapClk -/

@[simp] theorem State.mapClk_pending (s : State) (f : Clock → Clock) : (s.mapClk f).pending = s.pending := rfl
@[simp] theorem State.mapClk_out (s : State) (f : Clock → Clock) : (s.mapClk f).out = s.out := rfl
@[simp] theorem State.mapClk_free (s : State) (f : Clock → Clock) : (s.mapClk f).free = s.free := rfl
@[simp] theorem State.mapClk_tb (s : State) (f : Clock → Clock) : (s.mapClk f).tb = s.tb := rfl
@[simp] theorem State.mapClk_regs (s : State) (f : Clock → Clock) : (s.mapClk f).regs = s.regs := rfl
@[simp] theorem State.mapClk_boot (s : State) (f : Clock → Clock) : (s.mapClk f).boot = s.boot := rfl
@[simp] theorem State.mapClk_sec (s : State) (f : Clock → Clock) : (s.mapClk f).sec = s.sec := rfl
@[simp] theorem State.mapClk_sup (s : State) (f : Clock → Clock) : (s.mapClk f).sup = s.sup := rfl
@[simp] theorem State.mapClk_power (s : State) (f : Clock → Clock) : (s.mapClk f).power = s.power := rfl
@[simp] theorem State.mapClk_guard (s : State) (f : Clock → Clock) : (s.mapClk f).guard = s.guard := rfl
@[simp] theorem State.mapClk_recorder (s : State) (f : Clock → Clock) : (s.mapClk f).recorder = s.recorder := rfl
@[simp] theorem State.mapClk_counters (s : State) (f : Clock → Clock) : (s.mapClk f).counters = s.counters := rfl
@[simp] theorem State.mapClk_host (s : State) (f : Clock → Clock) : (s.mapClk f).host = s.host := rfl
@[simp] theorem State.mapClk_errq (s : State) (f : Clock → Clock) : (s.mapClk f).errq = s.errq := rfl
@[simp] theorem State.mapClk_stations (s : State) (f : Clock → Clock) : (s.mapClk f).stations = s.stations := rfl
@[simp] theorem State.mapClk_streams (s : State) (f : Clock → Clock) : (s.mapClk f).streams = s.streams := rfl
@[simp] theorem State.mapClk_groups (s : State) (f : Clock → Clock) : (s.mapClk f).groups = s.groups := rfl
@[simp] theorem State.mapClk_banks (s : State) (f : Clock → Clock) : (s.mapClk f).banks = s.banks := rfl
@[simp] theorem State.mapClk_mem (s : State) (f : Clock → Clock) : (s.mapClk f).mem = s.mem := rfl
@[simp] theorem State.mapClk_queues (s : State) (f : Clock → Clock) : (s.mapClk f).queues = s.queues := rfl
@[simp] theorem State.mapClk_trump (s : State) (f : Clock → Clock) : (s.mapClk f).trump = s.trump := rfl
@[simp] theorem State.mapClk_sched (s : State) (f : Clock → Clock) : (s.mapClk f).sched = s.sched := rfl
@[simp] theorem State.mapClk_paths (s : State) (f : Clock → Clock) : (s.mapClk f).paths = s.paths := rfl
@[simp] theorem State.mapClk_arrays (s : State) (f : Clock → Clock) : (s.mapClk f).arrays = s.arrays := rfl
@[simp] theorem State.mapClk_enc (s : State) (f : Clock → Clock) : (s.mapClk f).enc = s.enc := rfl
@[simp] theorem State.mapClk_dec (s : State) (f : Clock → Clock) : (s.mapClk f).dec = s.dec := rfl
@[simp] theorem State.mapClk_trk (s : State) (f : Clock → Clock) : (s.mapClk f).trk = s.trk := rfl
@[simp] theorem State.mapClk_dealer (s : State) (f : Clock → Clock) : (s.mapClk f).dealer = s.dealer := rfl
@[simp] theorem State.mapClk_field (s : State) (f : Clock → Clock) : (s.mapClk f).field = s.field := rfl
@[simp] theorem State.mapClk_fab (s : State) (f : Clock → Clock) : (s.mapClk f).fab = s.fab := rfl
@[simp] theorem State.mapClk_attn (s : State) (f : Clock → Clock) : (s.mapClk f).attn = s.attn := rfl
@[simp] theorem State.mapClk_video (s : State) (f : Clock → Clock) : (s.mapClk f).video = s.video := rfl
@[simp] theorem State.mapClk_fronts (s : State) (f : Clock → Clock) : (s.mapClk f).fronts = s.fronts := rfl
@[simp] theorem State.mapClk_breaks (s : State) (f : Clock → Clock) : (s.mapClk f).breaks = s.breaks := rfl
@[simp] theorem State.mapClk_cams (s : State) (f : Clock → Clock) : (s.mapClk f).cams = s.cams := rfl
@[simp] theorem State.mapClk_couts (s : State) (f : Clock → Clock) : (s.mapClk f).couts = s.couts := rfl
@[simp] theorem State.mapClk_adapt (s : State) (f : Clock → Clock) : (s.mapClk f).adapt = s.adapt := rfl
@[simp] theorem State.mapClk_net (s : State) (f : Clock → Clock) : (s.mapClk f).net = s.net := rfl

/-! ### mapIsland -/

@[simp] theorem State.mapIsland_pending (s : State) (i : Nat) (f : Island → Island) : (s.mapIsland i f).pending = s.pending := rfl
@[simp] theorem State.mapIsland_out (s : State) (i : Nat) (f : Island → Island) : (s.mapIsland i f).out = s.out := rfl
@[simp] theorem State.mapIsland_free (s : State) (i : Nat) (f : Island → Island) : (s.mapIsland i f).free = s.free := rfl
@[simp] theorem State.mapIsland_tb (s : State) (i : Nat) (f : Island → Island) : (s.mapIsland i f).tb = s.tb := rfl
@[simp] theorem State.mapIsland_clk (s : State) (i : Nat) (f : Island → Island) : (s.mapIsland i f).clk = s.clk := rfl
@[simp] theorem State.mapIsland_regs (s : State) (i : Nat) (f : Island → Island) : (s.mapIsland i f).regs = s.regs := rfl
@[simp] theorem State.mapIsland_boot (s : State) (i : Nat) (f : Island → Island) : (s.mapIsland i f).boot = s.boot := rfl
@[simp] theorem State.mapIsland_sec (s : State) (i : Nat) (f : Island → Island) : (s.mapIsland i f).sec = s.sec := rfl
@[simp] theorem State.mapIsland_sup (s : State) (i : Nat) (f : Island → Island) : (s.mapIsland i f).sup = s.sup := rfl
@[simp] theorem State.mapIsland_guard (s : State) (i : Nat) (f : Island → Island) : (s.mapIsland i f).guard = s.guard := rfl
@[simp] theorem State.mapIsland_recorder (s : State) (i : Nat) (f : Island → Island) : (s.mapIsland i f).recorder = s.recorder := rfl
@[simp] theorem State.mapIsland_counters (s : State) (i : Nat) (f : Island → Island) : (s.mapIsland i f).counters = s.counters := rfl
@[simp] theorem State.mapIsland_host (s : State) (i : Nat) (f : Island → Island) : (s.mapIsland i f).host = s.host := rfl
@[simp] theorem State.mapIsland_errq (s : State) (i : Nat) (f : Island → Island) : (s.mapIsland i f).errq = s.errq := rfl
@[simp] theorem State.mapIsland_stations (s : State) (i : Nat) (f : Island → Island) : (s.mapIsland i f).stations = s.stations := rfl
@[simp] theorem State.mapIsland_streams (s : State) (i : Nat) (f : Island → Island) : (s.mapIsland i f).streams = s.streams := rfl
@[simp] theorem State.mapIsland_groups (s : State) (i : Nat) (f : Island → Island) : (s.mapIsland i f).groups = s.groups := rfl
@[simp] theorem State.mapIsland_banks (s : State) (i : Nat) (f : Island → Island) : (s.mapIsland i f).banks = s.banks := rfl
@[simp] theorem State.mapIsland_mem (s : State) (i : Nat) (f : Island → Island) : (s.mapIsland i f).mem = s.mem := rfl
@[simp] theorem State.mapIsland_queues (s : State) (i : Nat) (f : Island → Island) : (s.mapIsland i f).queues = s.queues := rfl
@[simp] theorem State.mapIsland_trump (s : State) (i : Nat) (f : Island → Island) : (s.mapIsland i f).trump = s.trump := rfl
@[simp] theorem State.mapIsland_sched (s : State) (i : Nat) (f : Island → Island) : (s.mapIsland i f).sched = s.sched := rfl
@[simp] theorem State.mapIsland_paths (s : State) (i : Nat) (f : Island → Island) : (s.mapIsland i f).paths = s.paths := rfl
@[simp] theorem State.mapIsland_arrays (s : State) (i : Nat) (f : Island → Island) : (s.mapIsland i f).arrays = s.arrays := rfl
@[simp] theorem State.mapIsland_enc (s : State) (i : Nat) (f : Island → Island) : (s.mapIsland i f).enc = s.enc := rfl
@[simp] theorem State.mapIsland_dec (s : State) (i : Nat) (f : Island → Island) : (s.mapIsland i f).dec = s.dec := rfl
@[simp] theorem State.mapIsland_trk (s : State) (i : Nat) (f : Island → Island) : (s.mapIsland i f).trk = s.trk := rfl
@[simp] theorem State.mapIsland_dealer (s : State) (i : Nat) (f : Island → Island) : (s.mapIsland i f).dealer = s.dealer := rfl
@[simp] theorem State.mapIsland_field (s : State) (i : Nat) (f : Island → Island) : (s.mapIsland i f).field = s.field := rfl
@[simp] theorem State.mapIsland_fab (s : State) (i : Nat) (f : Island → Island) : (s.mapIsland i f).fab = s.fab := rfl
@[simp] theorem State.mapIsland_attn (s : State) (i : Nat) (f : Island → Island) : (s.mapIsland i f).attn = s.attn := rfl
@[simp] theorem State.mapIsland_video (s : State) (i : Nat) (f : Island → Island) : (s.mapIsland i f).video = s.video := rfl
@[simp] theorem State.mapIsland_fronts (s : State) (i : Nat) (f : Island → Island) : (s.mapIsland i f).fronts = s.fronts := rfl
@[simp] theorem State.mapIsland_breaks (s : State) (i : Nat) (f : Island → Island) : (s.mapIsland i f).breaks = s.breaks := rfl
@[simp] theorem State.mapIsland_cams (s : State) (i : Nat) (f : Island → Island) : (s.mapIsland i f).cams = s.cams := rfl
@[simp] theorem State.mapIsland_couts (s : State) (i : Nat) (f : Island → Island) : (s.mapIsland i f).couts = s.couts := rfl
@[simp] theorem State.mapIsland_adapt (s : State) (i : Nat) (f : Island → Island) : (s.mapIsland i f).adapt = s.adapt := rfl
@[simp] theorem State.mapIsland_net (s : State) (i : Nat) (f : Island → Island) : (s.mapIsland i f).net = s.net := rfl

/-! ### mapPd -/

@[simp] theorem State.mapPd_pending (s : State) (pd : Nat) (f : Pd → Pd) : (s.mapPd pd f).pending = s.pending := rfl
@[simp] theorem State.mapPd_out (s : State) (pd : Nat) (f : Pd → Pd) : (s.mapPd pd f).out = s.out := rfl
@[simp] theorem State.mapPd_free (s : State) (pd : Nat) (f : Pd → Pd) : (s.mapPd pd f).free = s.free := rfl
@[simp] theorem State.mapPd_tb (s : State) (pd : Nat) (f : Pd → Pd) : (s.mapPd pd f).tb = s.tb := rfl
@[simp] theorem State.mapPd_clk (s : State) (pd : Nat) (f : Pd → Pd) : (s.mapPd pd f).clk = s.clk := rfl
@[simp] theorem State.mapPd_regs (s : State) (pd : Nat) (f : Pd → Pd) : (s.mapPd pd f).regs = s.regs := rfl
@[simp] theorem State.mapPd_boot (s : State) (pd : Nat) (f : Pd → Pd) : (s.mapPd pd f).boot = s.boot := rfl
@[simp] theorem State.mapPd_sec (s : State) (pd : Nat) (f : Pd → Pd) : (s.mapPd pd f).sec = s.sec := rfl
@[simp] theorem State.mapPd_sup (s : State) (pd : Nat) (f : Pd → Pd) : (s.mapPd pd f).sup = s.sup := rfl
@[simp] theorem State.mapPd_guard (s : State) (pd : Nat) (f : Pd → Pd) : (s.mapPd pd f).guard = s.guard := rfl
@[simp] theorem State.mapPd_recorder (s : State) (pd : Nat) (f : Pd → Pd) : (s.mapPd pd f).recorder = s.recorder := rfl
@[simp] theorem State.mapPd_counters (s : State) (pd : Nat) (f : Pd → Pd) : (s.mapPd pd f).counters = s.counters := rfl
@[simp] theorem State.mapPd_host (s : State) (pd : Nat) (f : Pd → Pd) : (s.mapPd pd f).host = s.host := rfl
@[simp] theorem State.mapPd_errq (s : State) (pd : Nat) (f : Pd → Pd) : (s.mapPd pd f).errq = s.errq := rfl
@[simp] theorem State.mapPd_stations (s : State) (pd : Nat) (f : Pd → Pd) : (s.mapPd pd f).stations = s.stations := rfl
@[simp] theorem State.mapPd_streams (s : State) (pd : Nat) (f : Pd → Pd) : (s.mapPd pd f).streams = s.streams := rfl
@[simp] theorem State.mapPd_groups (s : State) (pd : Nat) (f : Pd → Pd) : (s.mapPd pd f).groups = s.groups := rfl
@[simp] theorem State.mapPd_banks (s : State) (pd : Nat) (f : Pd → Pd) : (s.mapPd pd f).banks = s.banks := rfl
@[simp] theorem State.mapPd_mem (s : State) (pd : Nat) (f : Pd → Pd) : (s.mapPd pd f).mem = s.mem := rfl
@[simp] theorem State.mapPd_queues (s : State) (pd : Nat) (f : Pd → Pd) : (s.mapPd pd f).queues = s.queues := rfl
@[simp] theorem State.mapPd_trump (s : State) (pd : Nat) (f : Pd → Pd) : (s.mapPd pd f).trump = s.trump := rfl
@[simp] theorem State.mapPd_sched (s : State) (pd : Nat) (f : Pd → Pd) : (s.mapPd pd f).sched = s.sched := rfl
@[simp] theorem State.mapPd_paths (s : State) (pd : Nat) (f : Pd → Pd) : (s.mapPd pd f).paths = s.paths := rfl
@[simp] theorem State.mapPd_arrays (s : State) (pd : Nat) (f : Pd → Pd) : (s.mapPd pd f).arrays = s.arrays := rfl
@[simp] theorem State.mapPd_enc (s : State) (pd : Nat) (f : Pd → Pd) : (s.mapPd pd f).enc = s.enc := rfl
@[simp] theorem State.mapPd_dec (s : State) (pd : Nat) (f : Pd → Pd) : (s.mapPd pd f).dec = s.dec := rfl
@[simp] theorem State.mapPd_trk (s : State) (pd : Nat) (f : Pd → Pd) : (s.mapPd pd f).trk = s.trk := rfl
@[simp] theorem State.mapPd_dealer (s : State) (pd : Nat) (f : Pd → Pd) : (s.mapPd pd f).dealer = s.dealer := rfl
@[simp] theorem State.mapPd_field (s : State) (pd : Nat) (f : Pd → Pd) : (s.mapPd pd f).field = s.field := rfl
@[simp] theorem State.mapPd_fab (s : State) (pd : Nat) (f : Pd → Pd) : (s.mapPd pd f).fab = s.fab := rfl
@[simp] theorem State.mapPd_attn (s : State) (pd : Nat) (f : Pd → Pd) : (s.mapPd pd f).attn = s.attn := rfl
@[simp] theorem State.mapPd_video (s : State) (pd : Nat) (f : Pd → Pd) : (s.mapPd pd f).video = s.video := rfl
@[simp] theorem State.mapPd_fronts (s : State) (pd : Nat) (f : Pd → Pd) : (s.mapPd pd f).fronts = s.fronts := rfl
@[simp] theorem State.mapPd_breaks (s : State) (pd : Nat) (f : Pd → Pd) : (s.mapPd pd f).breaks = s.breaks := rfl
@[simp] theorem State.mapPd_cams (s : State) (pd : Nat) (f : Pd → Pd) : (s.mapPd pd f).cams = s.cams := rfl
@[simp] theorem State.mapPd_couts (s : State) (pd : Nat) (f : Pd → Pd) : (s.mapPd pd f).couts = s.couts := rfl
@[simp] theorem State.mapPd_adapt (s : State) (pd : Nat) (f : Pd → Pd) : (s.mapPd pd f).adapt = s.adapt := rfl
@[simp] theorem State.mapPd_net (s : State) (pd : Nat) (f : Pd → Pd) : (s.mapPd pd f).net = s.net := rfl

/-! ### mapSensor -/

@[simp] theorem State.mapSensor_pending (s : State) (k : Nat) (f : Sensor → Sensor) : (s.mapSensor k f).pending = s.pending := rfl
@[simp] theorem State.mapSensor_out (s : State) (k : Nat) (f : Sensor → Sensor) : (s.mapSensor k f).out = s.out := rfl
@[simp] theorem State.mapSensor_free (s : State) (k : Nat) (f : Sensor → Sensor) : (s.mapSensor k f).free = s.free := rfl
@[simp] theorem State.mapSensor_tb (s : State) (k : Nat) (f : Sensor → Sensor) : (s.mapSensor k f).tb = s.tb := rfl
@[simp] theorem State.mapSensor_clk (s : State) (k : Nat) (f : Sensor → Sensor) : (s.mapSensor k f).clk = s.clk := rfl
@[simp] theorem State.mapSensor_regs (s : State) (k : Nat) (f : Sensor → Sensor) : (s.mapSensor k f).regs = s.regs := rfl
@[simp] theorem State.mapSensor_boot (s : State) (k : Nat) (f : Sensor → Sensor) : (s.mapSensor k f).boot = s.boot := rfl
@[simp] theorem State.mapSensor_sec (s : State) (k : Nat) (f : Sensor → Sensor) : (s.mapSensor k f).sec = s.sec := rfl
@[simp] theorem State.mapSensor_sup (s : State) (k : Nat) (f : Sensor → Sensor) : (s.mapSensor k f).sup = s.sup := rfl
@[simp] theorem State.mapSensor_power (s : State) (k : Nat) (f : Sensor → Sensor) : (s.mapSensor k f).power = s.power := rfl
@[simp] theorem State.mapSensor_recorder (s : State) (k : Nat) (f : Sensor → Sensor) : (s.mapSensor k f).recorder = s.recorder := rfl
@[simp] theorem State.mapSensor_counters (s : State) (k : Nat) (f : Sensor → Sensor) : (s.mapSensor k f).counters = s.counters := rfl
@[simp] theorem State.mapSensor_host (s : State) (k : Nat) (f : Sensor → Sensor) : (s.mapSensor k f).host = s.host := rfl
@[simp] theorem State.mapSensor_errq (s : State) (k : Nat) (f : Sensor → Sensor) : (s.mapSensor k f).errq = s.errq := rfl
@[simp] theorem State.mapSensor_stations (s : State) (k : Nat) (f : Sensor → Sensor) : (s.mapSensor k f).stations = s.stations := rfl
@[simp] theorem State.mapSensor_streams (s : State) (k : Nat) (f : Sensor → Sensor) : (s.mapSensor k f).streams = s.streams := rfl
@[simp] theorem State.mapSensor_groups (s : State) (k : Nat) (f : Sensor → Sensor) : (s.mapSensor k f).groups = s.groups := rfl
@[simp] theorem State.mapSensor_banks (s : State) (k : Nat) (f : Sensor → Sensor) : (s.mapSensor k f).banks = s.banks := rfl
@[simp] theorem State.mapSensor_mem (s : State) (k : Nat) (f : Sensor → Sensor) : (s.mapSensor k f).mem = s.mem := rfl
@[simp] theorem State.mapSensor_queues (s : State) (k : Nat) (f : Sensor → Sensor) : (s.mapSensor k f).queues = s.queues := rfl
@[simp] theorem State.mapSensor_trump (s : State) (k : Nat) (f : Sensor → Sensor) : (s.mapSensor k f).trump = s.trump := rfl
@[simp] theorem State.mapSensor_sched (s : State) (k : Nat) (f : Sensor → Sensor) : (s.mapSensor k f).sched = s.sched := rfl
@[simp] theorem State.mapSensor_paths (s : State) (k : Nat) (f : Sensor → Sensor) : (s.mapSensor k f).paths = s.paths := rfl
@[simp] theorem State.mapSensor_arrays (s : State) (k : Nat) (f : Sensor → Sensor) : (s.mapSensor k f).arrays = s.arrays := rfl
@[simp] theorem State.mapSensor_enc (s : State) (k : Nat) (f : Sensor → Sensor) : (s.mapSensor k f).enc = s.enc := rfl
@[simp] theorem State.mapSensor_dec (s : State) (k : Nat) (f : Sensor → Sensor) : (s.mapSensor k f).dec = s.dec := rfl
@[simp] theorem State.mapSensor_trk (s : State) (k : Nat) (f : Sensor → Sensor) : (s.mapSensor k f).trk = s.trk := rfl
@[simp] theorem State.mapSensor_dealer (s : State) (k : Nat) (f : Sensor → Sensor) : (s.mapSensor k f).dealer = s.dealer := rfl
@[simp] theorem State.mapSensor_field (s : State) (k : Nat) (f : Sensor → Sensor) : (s.mapSensor k f).field = s.field := rfl
@[simp] theorem State.mapSensor_fab (s : State) (k : Nat) (f : Sensor → Sensor) : (s.mapSensor k f).fab = s.fab := rfl
@[simp] theorem State.mapSensor_attn (s : State) (k : Nat) (f : Sensor → Sensor) : (s.mapSensor k f).attn = s.attn := rfl
@[simp] theorem State.mapSensor_video (s : State) (k : Nat) (f : Sensor → Sensor) : (s.mapSensor k f).video = s.video := rfl
@[simp] theorem State.mapSensor_fronts (s : State) (k : Nat) (f : Sensor → Sensor) : (s.mapSensor k f).fronts = s.fronts := rfl
@[simp] theorem State.mapSensor_breaks (s : State) (k : Nat) (f : Sensor → Sensor) : (s.mapSensor k f).breaks = s.breaks := rfl
@[simp] theorem State.mapSensor_cams (s : State) (k : Nat) (f : Sensor → Sensor) : (s.mapSensor k f).cams = s.cams := rfl
@[simp] theorem State.mapSensor_couts (s : State) (k : Nat) (f : Sensor → Sensor) : (s.mapSensor k f).couts = s.couts := rfl
@[simp] theorem State.mapSensor_adapt (s : State) (k : Nat) (f : Sensor → Sensor) : (s.mapSensor k f).adapt = s.adapt := rfl
@[simp] theorem State.mapSensor_net (s : State) (k : Nat) (f : Sensor → Sensor) : (s.mapSensor k f).net = s.net := rfl

/-! ### mapLane -/

@[simp] theorem State.mapLane_pending (s : State) (n : Nat) (f : Lane → Lane) : (s.mapLane n f).pending = s.pending := rfl
@[simp] theorem State.mapLane_out (s : State) (n : Nat) (f : Lane → Lane) : (s.mapLane n f).out = s.out := rfl
@[simp] theorem State.mapLane_free (s : State) (n : Nat) (f : Lane → Lane) : (s.mapLane n f).free = s.free := rfl
@[simp] theorem State.mapLane_tb (s : State) (n : Nat) (f : Lane → Lane) : (s.mapLane n f).tb = s.tb := rfl
@[simp] theorem State.mapLane_clk (s : State) (n : Nat) (f : Lane → Lane) : (s.mapLane n f).clk = s.clk := rfl
@[simp] theorem State.mapLane_regs (s : State) (n : Nat) (f : Lane → Lane) : (s.mapLane n f).regs = s.regs := rfl
@[simp] theorem State.mapLane_boot (s : State) (n : Nat) (f : Lane → Lane) : (s.mapLane n f).boot = s.boot := rfl
@[simp] theorem State.mapLane_sec (s : State) (n : Nat) (f : Lane → Lane) : (s.mapLane n f).sec = s.sec := rfl
@[simp] theorem State.mapLane_sup (s : State) (n : Nat) (f : Lane → Lane) : (s.mapLane n f).sup = s.sup := rfl
@[simp] theorem State.mapLane_power (s : State) (n : Nat) (f : Lane → Lane) : (s.mapLane n f).power = s.power := rfl
@[simp] theorem State.mapLane_guard (s : State) (n : Nat) (f : Lane → Lane) : (s.mapLane n f).guard = s.guard := rfl
@[simp] theorem State.mapLane_recorder (s : State) (n : Nat) (f : Lane → Lane) : (s.mapLane n f).recorder = s.recorder := rfl
@[simp] theorem State.mapLane_counters (s : State) (n : Nat) (f : Lane → Lane) : (s.mapLane n f).counters = s.counters := rfl
@[simp] theorem State.mapLane_host (s : State) (n : Nat) (f : Lane → Lane) : (s.mapLane n f).host = s.host := rfl
@[simp] theorem State.mapLane_errq (s : State) (n : Nat) (f : Lane → Lane) : (s.mapLane n f).errq = s.errq := rfl
@[simp] theorem State.mapLane_stations (s : State) (n : Nat) (f : Lane → Lane) : (s.mapLane n f).stations = s.stations := rfl
@[simp] theorem State.mapLane_streams (s : State) (n : Nat) (f : Lane → Lane) : (s.mapLane n f).streams = s.streams := rfl
@[simp] theorem State.mapLane_groups (s : State) (n : Nat) (f : Lane → Lane) : (s.mapLane n f).groups = s.groups := rfl
@[simp] theorem State.mapLane_banks (s : State) (n : Nat) (f : Lane → Lane) : (s.mapLane n f).banks = s.banks := rfl
@[simp] theorem State.mapLane_mem (s : State) (n : Nat) (f : Lane → Lane) : (s.mapLane n f).mem = s.mem := rfl
@[simp] theorem State.mapLane_queues (s : State) (n : Nat) (f : Lane → Lane) : (s.mapLane n f).queues = s.queues := rfl
@[simp] theorem State.mapLane_trump (s : State) (n : Nat) (f : Lane → Lane) : (s.mapLane n f).trump = s.trump := rfl
@[simp] theorem State.mapLane_sched (s : State) (n : Nat) (f : Lane → Lane) : (s.mapLane n f).sched = s.sched := rfl
@[simp] theorem State.mapLane_paths (s : State) (n : Nat) (f : Lane → Lane) : (s.mapLane n f).paths = s.paths := rfl
@[simp] theorem State.mapLane_arrays (s : State) (n : Nat) (f : Lane → Lane) : (s.mapLane n f).arrays = s.arrays := rfl
@[simp] theorem State.mapLane_enc (s : State) (n : Nat) (f : Lane → Lane) : (s.mapLane n f).enc = s.enc := rfl
@[simp] theorem State.mapLane_dec (s : State) (n : Nat) (f : Lane → Lane) : (s.mapLane n f).dec = s.dec := rfl
@[simp] theorem State.mapLane_trk (s : State) (n : Nat) (f : Lane → Lane) : (s.mapLane n f).trk = s.trk := rfl
@[simp] theorem State.mapLane_dealer (s : State) (n : Nat) (f : Lane → Lane) : (s.mapLane n f).dealer = s.dealer := rfl
@[simp] theorem State.mapLane_field (s : State) (n : Nat) (f : Lane → Lane) : (s.mapLane n f).field = s.field := rfl
@[simp] theorem State.mapLane_attn (s : State) (n : Nat) (f : Lane → Lane) : (s.mapLane n f).attn = s.attn := rfl
@[simp] theorem State.mapLane_video (s : State) (n : Nat) (f : Lane → Lane) : (s.mapLane n f).video = s.video := rfl
@[simp] theorem State.mapLane_fronts (s : State) (n : Nat) (f : Lane → Lane) : (s.mapLane n f).fronts = s.fronts := rfl
@[simp] theorem State.mapLane_breaks (s : State) (n : Nat) (f : Lane → Lane) : (s.mapLane n f).breaks = s.breaks := rfl
@[simp] theorem State.mapLane_cams (s : State) (n : Nat) (f : Lane → Lane) : (s.mapLane n f).cams = s.cams := rfl
@[simp] theorem State.mapLane_couts (s : State) (n : Nat) (f : Lane → Lane) : (s.mapLane n f).couts = s.couts := rfl
@[simp] theorem State.mapLane_adapt (s : State) (n : Nat) (f : Lane → Lane) : (s.mapLane n f).adapt = s.adapt := rfl
@[simp] theorem State.mapLane_net (s : State) (n : Nat) (f : Lane → Lane) : (s.mapLane n f).net = s.net := rfl

/-! ### mapLink -/

@[simp] theorem State.mapLink_pending (s : State) (k : Nat) (f : Link → Link) : (s.mapLink k f).pending = s.pending := rfl
@[simp] theorem State.mapLink_out (s : State) (k : Nat) (f : Link → Link) : (s.mapLink k f).out = s.out := rfl
@[simp] theorem State.mapLink_free (s : State) (k : Nat) (f : Link → Link) : (s.mapLink k f).free = s.free := rfl
@[simp] theorem State.mapLink_tb (s : State) (k : Nat) (f : Link → Link) : (s.mapLink k f).tb = s.tb := rfl
@[simp] theorem State.mapLink_clk (s : State) (k : Nat) (f : Link → Link) : (s.mapLink k f).clk = s.clk := rfl
@[simp] theorem State.mapLink_regs (s : State) (k : Nat) (f : Link → Link) : (s.mapLink k f).regs = s.regs := rfl
@[simp] theorem State.mapLink_boot (s : State) (k : Nat) (f : Link → Link) : (s.mapLink k f).boot = s.boot := rfl
@[simp] theorem State.mapLink_sec (s : State) (k : Nat) (f : Link → Link) : (s.mapLink k f).sec = s.sec := rfl
@[simp] theorem State.mapLink_sup (s : State) (k : Nat) (f : Link → Link) : (s.mapLink k f).sup = s.sup := rfl
@[simp] theorem State.mapLink_power (s : State) (k : Nat) (f : Link → Link) : (s.mapLink k f).power = s.power := rfl
@[simp] theorem State.mapLink_guard (s : State) (k : Nat) (f : Link → Link) : (s.mapLink k f).guard = s.guard := rfl
@[simp] theorem State.mapLink_recorder (s : State) (k : Nat) (f : Link → Link) : (s.mapLink k f).recorder = s.recorder := rfl
@[simp] theorem State.mapLink_counters (s : State) (k : Nat) (f : Link → Link) : (s.mapLink k f).counters = s.counters := rfl
@[simp] theorem State.mapLink_host (s : State) (k : Nat) (f : Link → Link) : (s.mapLink k f).host = s.host := rfl
@[simp] theorem State.mapLink_errq (s : State) (k : Nat) (f : Link → Link) : (s.mapLink k f).errq = s.errq := rfl
@[simp] theorem State.mapLink_stations (s : State) (k : Nat) (f : Link → Link) : (s.mapLink k f).stations = s.stations := rfl
@[simp] theorem State.mapLink_streams (s : State) (k : Nat) (f : Link → Link) : (s.mapLink k f).streams = s.streams := rfl
@[simp] theorem State.mapLink_groups (s : State) (k : Nat) (f : Link → Link) : (s.mapLink k f).groups = s.groups := rfl
@[simp] theorem State.mapLink_banks (s : State) (k : Nat) (f : Link → Link) : (s.mapLink k f).banks = s.banks := rfl
@[simp] theorem State.mapLink_mem (s : State) (k : Nat) (f : Link → Link) : (s.mapLink k f).mem = s.mem := rfl
@[simp] theorem State.mapLink_queues (s : State) (k : Nat) (f : Link → Link) : (s.mapLink k f).queues = s.queues := rfl
@[simp] theorem State.mapLink_trump (s : State) (k : Nat) (f : Link → Link) : (s.mapLink k f).trump = s.trump := rfl
@[simp] theorem State.mapLink_sched (s : State) (k : Nat) (f : Link → Link) : (s.mapLink k f).sched = s.sched := rfl
@[simp] theorem State.mapLink_paths (s : State) (k : Nat) (f : Link → Link) : (s.mapLink k f).paths = s.paths := rfl
@[simp] theorem State.mapLink_arrays (s : State) (k : Nat) (f : Link → Link) : (s.mapLink k f).arrays = s.arrays := rfl
@[simp] theorem State.mapLink_enc (s : State) (k : Nat) (f : Link → Link) : (s.mapLink k f).enc = s.enc := rfl
@[simp] theorem State.mapLink_dec (s : State) (k : Nat) (f : Link → Link) : (s.mapLink k f).dec = s.dec := rfl
@[simp] theorem State.mapLink_trk (s : State) (k : Nat) (f : Link → Link) : (s.mapLink k f).trk = s.trk := rfl
@[simp] theorem State.mapLink_dealer (s : State) (k : Nat) (f : Link → Link) : (s.mapLink k f).dealer = s.dealer := rfl
@[simp] theorem State.mapLink_field (s : State) (k : Nat) (f : Link → Link) : (s.mapLink k f).field = s.field := rfl
@[simp] theorem State.mapLink_attn (s : State) (k : Nat) (f : Link → Link) : (s.mapLink k f).attn = s.attn := rfl
@[simp] theorem State.mapLink_video (s : State) (k : Nat) (f : Link → Link) : (s.mapLink k f).video = s.video := rfl
@[simp] theorem State.mapLink_fronts (s : State) (k : Nat) (f : Link → Link) : (s.mapLink k f).fronts = s.fronts := rfl
@[simp] theorem State.mapLink_breaks (s : State) (k : Nat) (f : Link → Link) : (s.mapLink k f).breaks = s.breaks := rfl
@[simp] theorem State.mapLink_cams (s : State) (k : Nat) (f : Link → Link) : (s.mapLink k f).cams = s.cams := rfl
@[simp] theorem State.mapLink_couts (s : State) (k : Nat) (f : Link → Link) : (s.mapLink k f).couts = s.couts := rfl
@[simp] theorem State.mapLink_adapt (s : State) (k : Nat) (f : Link → Link) : (s.mapLink k f).adapt = s.adapt := rfl
@[simp] theorem State.mapLink_net (s : State) (k : Nat) (f : Link → Link) : (s.mapLink k f).net = s.net := rfl

/-! ### mapFlow -/

@[simp] theorem State.mapFlow_pending (s : State) (i : Nat) (f : RemoteFlow → RemoteFlow) : (s.mapFlow i f).pending = s.pending := rfl
@[simp] theorem State.mapFlow_out (s : State) (i : Nat) (f : RemoteFlow → RemoteFlow) : (s.mapFlow i f).out = s.out := rfl
@[simp] theorem State.mapFlow_free (s : State) (i : Nat) (f : RemoteFlow → RemoteFlow) : (s.mapFlow i f).free = s.free := rfl
@[simp] theorem State.mapFlow_tb (s : State) (i : Nat) (f : RemoteFlow → RemoteFlow) : (s.mapFlow i f).tb = s.tb := rfl
@[simp] theorem State.mapFlow_clk (s : State) (i : Nat) (f : RemoteFlow → RemoteFlow) : (s.mapFlow i f).clk = s.clk := rfl
@[simp] theorem State.mapFlow_regs (s : State) (i : Nat) (f : RemoteFlow → RemoteFlow) : (s.mapFlow i f).regs = s.regs := rfl
@[simp] theorem State.mapFlow_boot (s : State) (i : Nat) (f : RemoteFlow → RemoteFlow) : (s.mapFlow i f).boot = s.boot := rfl
@[simp] theorem State.mapFlow_sec (s : State) (i : Nat) (f : RemoteFlow → RemoteFlow) : (s.mapFlow i f).sec = s.sec := rfl
@[simp] theorem State.mapFlow_sup (s : State) (i : Nat) (f : RemoteFlow → RemoteFlow) : (s.mapFlow i f).sup = s.sup := rfl
@[simp] theorem State.mapFlow_power (s : State) (i : Nat) (f : RemoteFlow → RemoteFlow) : (s.mapFlow i f).power = s.power := rfl
@[simp] theorem State.mapFlow_guard (s : State) (i : Nat) (f : RemoteFlow → RemoteFlow) : (s.mapFlow i f).guard = s.guard := rfl
@[simp] theorem State.mapFlow_recorder (s : State) (i : Nat) (f : RemoteFlow → RemoteFlow) : (s.mapFlow i f).recorder = s.recorder := rfl
@[simp] theorem State.mapFlow_counters (s : State) (i : Nat) (f : RemoteFlow → RemoteFlow) : (s.mapFlow i f).counters = s.counters := rfl
@[simp] theorem State.mapFlow_host (s : State) (i : Nat) (f : RemoteFlow → RemoteFlow) : (s.mapFlow i f).host = s.host := rfl
@[simp] theorem State.mapFlow_errq (s : State) (i : Nat) (f : RemoteFlow → RemoteFlow) : (s.mapFlow i f).errq = s.errq := rfl
@[simp] theorem State.mapFlow_stations (s : State) (i : Nat) (f : RemoteFlow → RemoteFlow) : (s.mapFlow i f).stations = s.stations := rfl
@[simp] theorem State.mapFlow_streams (s : State) (i : Nat) (f : RemoteFlow → RemoteFlow) : (s.mapFlow i f).streams = s.streams := rfl
@[simp] theorem State.mapFlow_groups (s : State) (i : Nat) (f : RemoteFlow → RemoteFlow) : (s.mapFlow i f).groups = s.groups := rfl
@[simp] theorem State.mapFlow_banks (s : State) (i : Nat) (f : RemoteFlow → RemoteFlow) : (s.mapFlow i f).banks = s.banks := rfl
@[simp] theorem State.mapFlow_mem (s : State) (i : Nat) (f : RemoteFlow → RemoteFlow) : (s.mapFlow i f).mem = s.mem := rfl
@[simp] theorem State.mapFlow_queues (s : State) (i : Nat) (f : RemoteFlow → RemoteFlow) : (s.mapFlow i f).queues = s.queues := rfl
@[simp] theorem State.mapFlow_trump (s : State) (i : Nat) (f : RemoteFlow → RemoteFlow) : (s.mapFlow i f).trump = s.trump := rfl
@[simp] theorem State.mapFlow_sched (s : State) (i : Nat) (f : RemoteFlow → RemoteFlow) : (s.mapFlow i f).sched = s.sched := rfl
@[simp] theorem State.mapFlow_paths (s : State) (i : Nat) (f : RemoteFlow → RemoteFlow) : (s.mapFlow i f).paths = s.paths := rfl
@[simp] theorem State.mapFlow_arrays (s : State) (i : Nat) (f : RemoteFlow → RemoteFlow) : (s.mapFlow i f).arrays = s.arrays := rfl
@[simp] theorem State.mapFlow_enc (s : State) (i : Nat) (f : RemoteFlow → RemoteFlow) : (s.mapFlow i f).enc = s.enc := rfl
@[simp] theorem State.mapFlow_dec (s : State) (i : Nat) (f : RemoteFlow → RemoteFlow) : (s.mapFlow i f).dec = s.dec := rfl
@[simp] theorem State.mapFlow_trk (s : State) (i : Nat) (f : RemoteFlow → RemoteFlow) : (s.mapFlow i f).trk = s.trk := rfl
@[simp] theorem State.mapFlow_dealer (s : State) (i : Nat) (f : RemoteFlow → RemoteFlow) : (s.mapFlow i f).dealer = s.dealer := rfl
@[simp] theorem State.mapFlow_field (s : State) (i : Nat) (f : RemoteFlow → RemoteFlow) : (s.mapFlow i f).field = s.field := rfl
@[simp] theorem State.mapFlow_attn (s : State) (i : Nat) (f : RemoteFlow → RemoteFlow) : (s.mapFlow i f).attn = s.attn := rfl
@[simp] theorem State.mapFlow_video (s : State) (i : Nat) (f : RemoteFlow → RemoteFlow) : (s.mapFlow i f).video = s.video := rfl
@[simp] theorem State.mapFlow_fronts (s : State) (i : Nat) (f : RemoteFlow → RemoteFlow) : (s.mapFlow i f).fronts = s.fronts := rfl
@[simp] theorem State.mapFlow_breaks (s : State) (i : Nat) (f : RemoteFlow → RemoteFlow) : (s.mapFlow i f).breaks = s.breaks := rfl
@[simp] theorem State.mapFlow_cams (s : State) (i : Nat) (f : RemoteFlow → RemoteFlow) : (s.mapFlow i f).cams = s.cams := rfl
@[simp] theorem State.mapFlow_couts (s : State) (i : Nat) (f : RemoteFlow → RemoteFlow) : (s.mapFlow i f).couts = s.couts := rfl
@[simp] theorem State.mapFlow_adapt (s : State) (i : Nat) (f : RemoteFlow → RemoteFlow) : (s.mapFlow i f).adapt = s.adapt := rfl
@[simp] theorem State.mapFlow_net (s : State) (i : Nat) (f : RemoteFlow → RemoteFlow) : (s.mapFlow i f).net = s.net := rfl

/-! ### mapQueue -/

@[simp] theorem State.mapQueue_pending (s : State) (q : Nat) (f : Queue → Queue) : (s.mapQueue q f).pending = s.pending := rfl
@[simp] theorem State.mapQueue_out (s : State) (q : Nat) (f : Queue → Queue) : (s.mapQueue q f).out = s.out := rfl
@[simp] theorem State.mapQueue_free (s : State) (q : Nat) (f : Queue → Queue) : (s.mapQueue q f).free = s.free := rfl
@[simp] theorem State.mapQueue_tb (s : State) (q : Nat) (f : Queue → Queue) : (s.mapQueue q f).tb = s.tb := rfl
@[simp] theorem State.mapQueue_clk (s : State) (q : Nat) (f : Queue → Queue) : (s.mapQueue q f).clk = s.clk := rfl
@[simp] theorem State.mapQueue_regs (s : State) (q : Nat) (f : Queue → Queue) : (s.mapQueue q f).regs = s.regs := rfl
@[simp] theorem State.mapQueue_boot (s : State) (q : Nat) (f : Queue → Queue) : (s.mapQueue q f).boot = s.boot := rfl
@[simp] theorem State.mapQueue_sec (s : State) (q : Nat) (f : Queue → Queue) : (s.mapQueue q f).sec = s.sec := rfl
@[simp] theorem State.mapQueue_sup (s : State) (q : Nat) (f : Queue → Queue) : (s.mapQueue q f).sup = s.sup := rfl
@[simp] theorem State.mapQueue_power (s : State) (q : Nat) (f : Queue → Queue) : (s.mapQueue q f).power = s.power := rfl
@[simp] theorem State.mapQueue_guard (s : State) (q : Nat) (f : Queue → Queue) : (s.mapQueue q f).guard = s.guard := rfl
@[simp] theorem State.mapQueue_recorder (s : State) (q : Nat) (f : Queue → Queue) : (s.mapQueue q f).recorder = s.recorder := rfl
@[simp] theorem State.mapQueue_counters (s : State) (q : Nat) (f : Queue → Queue) : (s.mapQueue q f).counters = s.counters := rfl
@[simp] theorem State.mapQueue_host (s : State) (q : Nat) (f : Queue → Queue) : (s.mapQueue q f).host = s.host := rfl
@[simp] theorem State.mapQueue_errq (s : State) (q : Nat) (f : Queue → Queue) : (s.mapQueue q f).errq = s.errq := rfl
@[simp] theorem State.mapQueue_stations (s : State) (q : Nat) (f : Queue → Queue) : (s.mapQueue q f).stations = s.stations := rfl
@[simp] theorem State.mapQueue_streams (s : State) (q : Nat) (f : Queue → Queue) : (s.mapQueue q f).streams = s.streams := rfl
@[simp] theorem State.mapQueue_groups (s : State) (q : Nat) (f : Queue → Queue) : (s.mapQueue q f).groups = s.groups := rfl
@[simp] theorem State.mapQueue_banks (s : State) (q : Nat) (f : Queue → Queue) : (s.mapQueue q f).banks = s.banks := rfl
@[simp] theorem State.mapQueue_mem (s : State) (q : Nat) (f : Queue → Queue) : (s.mapQueue q f).mem = s.mem := rfl
@[simp] theorem State.mapQueue_trump (s : State) (q : Nat) (f : Queue → Queue) : (s.mapQueue q f).trump = s.trump := rfl
@[simp] theorem State.mapQueue_sched (s : State) (q : Nat) (f : Queue → Queue) : (s.mapQueue q f).sched = s.sched := rfl
@[simp] theorem State.mapQueue_paths (s : State) (q : Nat) (f : Queue → Queue) : (s.mapQueue q f).paths = s.paths := rfl
@[simp] theorem State.mapQueue_arrays (s : State) (q : Nat) (f : Queue → Queue) : (s.mapQueue q f).arrays = s.arrays := rfl
@[simp] theorem State.mapQueue_enc (s : State) (q : Nat) (f : Queue → Queue) : (s.mapQueue q f).enc = s.enc := rfl
@[simp] theorem State.mapQueue_dec (s : State) (q : Nat) (f : Queue → Queue) : (s.mapQueue q f).dec = s.dec := rfl
@[simp] theorem State.mapQueue_trk (s : State) (q : Nat) (f : Queue → Queue) : (s.mapQueue q f).trk = s.trk := rfl
@[simp] theorem State.mapQueue_dealer (s : State) (q : Nat) (f : Queue → Queue) : (s.mapQueue q f).dealer = s.dealer := rfl
@[simp] theorem State.mapQueue_field (s : State) (q : Nat) (f : Queue → Queue) : (s.mapQueue q f).field = s.field := rfl
@[simp] theorem State.mapQueue_fab (s : State) (q : Nat) (f : Queue → Queue) : (s.mapQueue q f).fab = s.fab := rfl
@[simp] theorem State.mapQueue_attn (s : State) (q : Nat) (f : Queue → Queue) : (s.mapQueue q f).attn = s.attn := rfl
@[simp] theorem State.mapQueue_video (s : State) (q : Nat) (f : Queue → Queue) : (s.mapQueue q f).video = s.video := rfl
@[simp] theorem State.mapQueue_fronts (s : State) (q : Nat) (f : Queue → Queue) : (s.mapQueue q f).fronts = s.fronts := rfl
@[simp] theorem State.mapQueue_breaks (s : State) (q : Nat) (f : Queue → Queue) : (s.mapQueue q f).breaks = s.breaks := rfl
@[simp] theorem State.mapQueue_cams (s : State) (q : Nat) (f : Queue → Queue) : (s.mapQueue q f).cams = s.cams := rfl
@[simp] theorem State.mapQueue_couts (s : State) (q : Nat) (f : Queue → Queue) : (s.mapQueue q f).couts = s.couts := rfl
@[simp] theorem State.mapQueue_adapt (s : State) (q : Nat) (f : Queue → Queue) : (s.mapQueue q f).adapt = s.adapt := rfl
@[simp] theorem State.mapQueue_net (s : State) (q : Nat) (f : Queue → Queue) : (s.mapQueue q f).net = s.net := rfl

/-! ### mapI3c -/

@[simp] theorem State.mapI3c_pending (s : State) (f : I3c → I3c) : (s.mapI3c f).pending = s.pending := rfl
@[simp] theorem State.mapI3c_out (s : State) (f : I3c → I3c) : (s.mapI3c f).out = s.out := rfl
@[simp] theorem State.mapI3c_free (s : State) (f : I3c → I3c) : (s.mapI3c f).free = s.free := rfl
@[simp] theorem State.mapI3c_tb (s : State) (f : I3c → I3c) : (s.mapI3c f).tb = s.tb := rfl
@[simp] theorem State.mapI3c_clk (s : State) (f : I3c → I3c) : (s.mapI3c f).clk = s.clk := rfl
@[simp] theorem State.mapI3c_regs (s : State) (f : I3c → I3c) : (s.mapI3c f).regs = s.regs := rfl
@[simp] theorem State.mapI3c_boot (s : State) (f : I3c → I3c) : (s.mapI3c f).boot = s.boot := rfl
@[simp] theorem State.mapI3c_sec (s : State) (f : I3c → I3c) : (s.mapI3c f).sec = s.sec := rfl
@[simp] theorem State.mapI3c_sup (s : State) (f : I3c → I3c) : (s.mapI3c f).sup = s.sup := rfl
@[simp] theorem State.mapI3c_power (s : State) (f : I3c → I3c) : (s.mapI3c f).power = s.power := rfl
@[simp] theorem State.mapI3c_guard (s : State) (f : I3c → I3c) : (s.mapI3c f).guard = s.guard := rfl
@[simp] theorem State.mapI3c_recorder (s : State) (f : I3c → I3c) : (s.mapI3c f).recorder = s.recorder := rfl
@[simp] theorem State.mapI3c_counters (s : State) (f : I3c → I3c) : (s.mapI3c f).counters = s.counters := rfl
@[simp] theorem State.mapI3c_errq (s : State) (f : I3c → I3c) : (s.mapI3c f).errq = s.errq := rfl
@[simp] theorem State.mapI3c_stations (s : State) (f : I3c → I3c) : (s.mapI3c f).stations = s.stations := rfl
@[simp] theorem State.mapI3c_streams (s : State) (f : I3c → I3c) : (s.mapI3c f).streams = s.streams := rfl
@[simp] theorem State.mapI3c_groups (s : State) (f : I3c → I3c) : (s.mapI3c f).groups = s.groups := rfl
@[simp] theorem State.mapI3c_banks (s : State) (f : I3c → I3c) : (s.mapI3c f).banks = s.banks := rfl
@[simp] theorem State.mapI3c_mem (s : State) (f : I3c → I3c) : (s.mapI3c f).mem = s.mem := rfl
@[simp] theorem State.mapI3c_queues (s : State) (f : I3c → I3c) : (s.mapI3c f).queues = s.queues := rfl
@[simp] theorem State.mapI3c_trump (s : State) (f : I3c → I3c) : (s.mapI3c f).trump = s.trump := rfl
@[simp] theorem State.mapI3c_sched (s : State) (f : I3c → I3c) : (s.mapI3c f).sched = s.sched := rfl
@[simp] theorem State.mapI3c_paths (s : State) (f : I3c → I3c) : (s.mapI3c f).paths = s.paths := rfl
@[simp] theorem State.mapI3c_arrays (s : State) (f : I3c → I3c) : (s.mapI3c f).arrays = s.arrays := rfl
@[simp] theorem State.mapI3c_enc (s : State) (f : I3c → I3c) : (s.mapI3c f).enc = s.enc := rfl
@[simp] theorem State.mapI3c_dec (s : State) (f : I3c → I3c) : (s.mapI3c f).dec = s.dec := rfl
@[simp] theorem State.mapI3c_trk (s : State) (f : I3c → I3c) : (s.mapI3c f).trk = s.trk := rfl
@[simp] theorem State.mapI3c_dealer (s : State) (f : I3c → I3c) : (s.mapI3c f).dealer = s.dealer := rfl
@[simp] theorem State.mapI3c_field (s : State) (f : I3c → I3c) : (s.mapI3c f).field = s.field := rfl
@[simp] theorem State.mapI3c_fab (s : State) (f : I3c → I3c) : (s.mapI3c f).fab = s.fab := rfl
@[simp] theorem State.mapI3c_attn (s : State) (f : I3c → I3c) : (s.mapI3c f).attn = s.attn := rfl
@[simp] theorem State.mapI3c_video (s : State) (f : I3c → I3c) : (s.mapI3c f).video = s.video := rfl
@[simp] theorem State.mapI3c_fronts (s : State) (f : I3c → I3c) : (s.mapI3c f).fronts = s.fronts := rfl
@[simp] theorem State.mapI3c_breaks (s : State) (f : I3c → I3c) : (s.mapI3c f).breaks = s.breaks := rfl
@[simp] theorem State.mapI3c_cams (s : State) (f : I3c → I3c) : (s.mapI3c f).cams = s.cams := rfl
@[simp] theorem State.mapI3c_couts (s : State) (f : I3c → I3c) : (s.mapI3c f).couts = s.couts := rfl
@[simp] theorem State.mapI3c_adapt (s : State) (f : I3c → I3c) : (s.mapI3c f).adapt = s.adapt := rfl
@[simp] theorem State.mapI3c_net (s : State) (f : I3c → I3c) : (s.mapI3c f).net = s.net := rfl

/-! ### mapAdapt -/

@[simp] theorem State.mapAdapt_pending (s : State) (f : Adapt → Adapt) : (s.mapAdapt f).pending = s.pending := rfl
@[simp] theorem State.mapAdapt_out (s : State) (f : Adapt → Adapt) : (s.mapAdapt f).out = s.out := rfl
@[simp] theorem State.mapAdapt_free (s : State) (f : Adapt → Adapt) : (s.mapAdapt f).free = s.free := rfl
@[simp] theorem State.mapAdapt_tb (s : State) (f : Adapt → Adapt) : (s.mapAdapt f).tb = s.tb := rfl
@[simp] theorem State.mapAdapt_clk (s : State) (f : Adapt → Adapt) : (s.mapAdapt f).clk = s.clk := rfl
@[simp] theorem State.mapAdapt_regs (s : State) (f : Adapt → Adapt) : (s.mapAdapt f).regs = s.regs := rfl
@[simp] theorem State.mapAdapt_boot (s : State) (f : Adapt → Adapt) : (s.mapAdapt f).boot = s.boot := rfl
@[simp] theorem State.mapAdapt_sec (s : State) (f : Adapt → Adapt) : (s.mapAdapt f).sec = s.sec := rfl
@[simp] theorem State.mapAdapt_sup (s : State) (f : Adapt → Adapt) : (s.mapAdapt f).sup = s.sup := rfl
@[simp] theorem State.mapAdapt_power (s : State) (f : Adapt → Adapt) : (s.mapAdapt f).power = s.power := rfl
@[simp] theorem State.mapAdapt_guard (s : State) (f : Adapt → Adapt) : (s.mapAdapt f).guard = s.guard := rfl
@[simp] theorem State.mapAdapt_recorder (s : State) (f : Adapt → Adapt) : (s.mapAdapt f).recorder = s.recorder := rfl
@[simp] theorem State.mapAdapt_counters (s : State) (f : Adapt → Adapt) : (s.mapAdapt f).counters = s.counters := rfl
@[simp] theorem State.mapAdapt_host (s : State) (f : Adapt → Adapt) : (s.mapAdapt f).host = s.host := rfl
@[simp] theorem State.mapAdapt_errq (s : State) (f : Adapt → Adapt) : (s.mapAdapt f).errq = s.errq := rfl
@[simp] theorem State.mapAdapt_stations (s : State) (f : Adapt → Adapt) : (s.mapAdapt f).stations = s.stations := rfl
@[simp] theorem State.mapAdapt_streams (s : State) (f : Adapt → Adapt) : (s.mapAdapt f).streams = s.streams := rfl
@[simp] theorem State.mapAdapt_groups (s : State) (f : Adapt → Adapt) : (s.mapAdapt f).groups = s.groups := rfl
@[simp] theorem State.mapAdapt_banks (s : State) (f : Adapt → Adapt) : (s.mapAdapt f).banks = s.banks := rfl
@[simp] theorem State.mapAdapt_mem (s : State) (f : Adapt → Adapt) : (s.mapAdapt f).mem = s.mem := rfl
@[simp] theorem State.mapAdapt_queues (s : State) (f : Adapt → Adapt) : (s.mapAdapt f).queues = s.queues := rfl
@[simp] theorem State.mapAdapt_trump (s : State) (f : Adapt → Adapt) : (s.mapAdapt f).trump = s.trump := rfl
@[simp] theorem State.mapAdapt_sched (s : State) (f : Adapt → Adapt) : (s.mapAdapt f).sched = s.sched := rfl
@[simp] theorem State.mapAdapt_paths (s : State) (f : Adapt → Adapt) : (s.mapAdapt f).paths = s.paths := rfl
@[simp] theorem State.mapAdapt_arrays (s : State) (f : Adapt → Adapt) : (s.mapAdapt f).arrays = s.arrays := rfl
@[simp] theorem State.mapAdapt_enc (s : State) (f : Adapt → Adapt) : (s.mapAdapt f).enc = s.enc := rfl
@[simp] theorem State.mapAdapt_dec (s : State) (f : Adapt → Adapt) : (s.mapAdapt f).dec = s.dec := rfl
@[simp] theorem State.mapAdapt_trk (s : State) (f : Adapt → Adapt) : (s.mapAdapt f).trk = s.trk := rfl
@[simp] theorem State.mapAdapt_dealer (s : State) (f : Adapt → Adapt) : (s.mapAdapt f).dealer = s.dealer := rfl
@[simp] theorem State.mapAdapt_field (s : State) (f : Adapt → Adapt) : (s.mapAdapt f).field = s.field := rfl
@[simp] theorem State.mapAdapt_fab (s : State) (f : Adapt → Adapt) : (s.mapAdapt f).fab = s.fab := rfl
@[simp] theorem State.mapAdapt_attn (s : State) (f : Adapt → Adapt) : (s.mapAdapt f).attn = s.attn := rfl
@[simp] theorem State.mapAdapt_video (s : State) (f : Adapt → Adapt) : (s.mapAdapt f).video = s.video := rfl
@[simp] theorem State.mapAdapt_fronts (s : State) (f : Adapt → Adapt) : (s.mapAdapt f).fronts = s.fronts := rfl
@[simp] theorem State.mapAdapt_breaks (s : State) (f : Adapt → Adapt) : (s.mapAdapt f).breaks = s.breaks := rfl
@[simp] theorem State.mapAdapt_cams (s : State) (f : Adapt → Adapt) : (s.mapAdapt f).cams = s.cams := rfl
@[simp] theorem State.mapAdapt_couts (s : State) (f : Adapt → Adapt) : (s.mapAdapt f).couts = s.couts := rfl
@[simp] theorem State.mapAdapt_net (s : State) (f : Adapt → Adapt) : (s.mapAdapt f).net = s.net := rfl

/-! ### mapWindows -/

@[simp] theorem State.mapWindows_pending (s : State) (f : Window → Window) : (s.mapWindows f).pending = s.pending := rfl
@[simp] theorem State.mapWindows_out (s : State) (f : Window → Window) : (s.mapWindows f).out = s.out := rfl
@[simp] theorem State.mapWindows_free (s : State) (f : Window → Window) : (s.mapWindows f).free = s.free := rfl
@[simp] theorem State.mapWindows_tb (s : State) (f : Window → Window) : (s.mapWindows f).tb = s.tb := rfl
@[simp] theorem State.mapWindows_clk (s : State) (f : Window → Window) : (s.mapWindows f).clk = s.clk := rfl
@[simp] theorem State.mapWindows_regs (s : State) (f : Window → Window) : (s.mapWindows f).regs = s.regs := rfl
@[simp] theorem State.mapWindows_boot (s : State) (f : Window → Window) : (s.mapWindows f).boot = s.boot := rfl
@[simp] theorem State.mapWindows_sec (s : State) (f : Window → Window) : (s.mapWindows f).sec = s.sec := rfl
@[simp] theorem State.mapWindows_sup (s : State) (f : Window → Window) : (s.mapWindows f).sup = s.sup := rfl
@[simp] theorem State.mapWindows_power (s : State) (f : Window → Window) : (s.mapWindows f).power = s.power := rfl
@[simp] theorem State.mapWindows_guard (s : State) (f : Window → Window) : (s.mapWindows f).guard = s.guard := rfl
@[simp] theorem State.mapWindows_recorder (s : State) (f : Window → Window) : (s.mapWindows f).recorder = s.recorder := rfl
@[simp] theorem State.mapWindows_counters (s : State) (f : Window → Window) : (s.mapWindows f).counters = s.counters := rfl
@[simp] theorem State.mapWindows_host (s : State) (f : Window → Window) : (s.mapWindows f).host = s.host := rfl
@[simp] theorem State.mapWindows_errq (s : State) (f : Window → Window) : (s.mapWindows f).errq = s.errq := rfl
@[simp] theorem State.mapWindows_stations (s : State) (f : Window → Window) : (s.mapWindows f).stations = s.stations := rfl
@[simp] theorem State.mapWindows_streams (s : State) (f : Window → Window) : (s.mapWindows f).streams = s.streams := rfl
@[simp] theorem State.mapWindows_groups (s : State) (f : Window → Window) : (s.mapWindows f).groups = s.groups := rfl
@[simp] theorem State.mapWindows_banks (s : State) (f : Window → Window) : (s.mapWindows f).banks = s.banks := rfl
@[simp] theorem State.mapWindows_mem (s : State) (f : Window → Window) : (s.mapWindows f).mem = s.mem := rfl
@[simp] theorem State.mapWindows_queues (s : State) (f : Window → Window) : (s.mapWindows f).queues = s.queues := rfl
@[simp] theorem State.mapWindows_trump (s : State) (f : Window → Window) : (s.mapWindows f).trump = s.trump := rfl
@[simp] theorem State.mapWindows_sched (s : State) (f : Window → Window) : (s.mapWindows f).sched = s.sched := rfl
@[simp] theorem State.mapWindows_paths (s : State) (f : Window → Window) : (s.mapWindows f).paths = s.paths := rfl
@[simp] theorem State.mapWindows_arrays (s : State) (f : Window → Window) : (s.mapWindows f).arrays = s.arrays := rfl
@[simp] theorem State.mapWindows_enc (s : State) (f : Window → Window) : (s.mapWindows f).enc = s.enc := rfl
@[simp] theorem State.mapWindows_dec (s : State) (f : Window → Window) : (s.mapWindows f).dec = s.dec := rfl
@[simp] theorem State.mapWindows_trk (s : State) (f : Window → Window) : (s.mapWindows f).trk = s.trk := rfl
@[simp] theorem State.mapWindows_field (s : State) (f : Window → Window) : (s.mapWindows f).field = s.field := rfl
@[simp] theorem State.mapWindows_fab (s : State) (f : Window → Window) : (s.mapWindows f).fab = s.fab := rfl
@[simp] theorem State.mapWindows_attn (s : State) (f : Window → Window) : (s.mapWindows f).attn = s.attn := rfl
@[simp] theorem State.mapWindows_video (s : State) (f : Window → Window) : (s.mapWindows f).video = s.video := rfl
@[simp] theorem State.mapWindows_fronts (s : State) (f : Window → Window) : (s.mapWindows f).fronts = s.fronts := rfl
@[simp] theorem State.mapWindows_breaks (s : State) (f : Window → Window) : (s.mapWindows f).breaks = s.breaks := rfl
@[simp] theorem State.mapWindows_cams (s : State) (f : Window → Window) : (s.mapWindows f).cams = s.cams := rfl
@[simp] theorem State.mapWindows_couts (s : State) (f : Window → Window) : (s.mapWindows f).couts = s.couts := rfl
@[simp] theorem State.mapWindows_adapt (s : State) (f : Window → Window) : (s.mapWindows f).adapt = s.adapt := rfl
@[simp] theorem State.mapWindows_net (s : State) (f : Window → Window) : (s.mapWindows f).net = s.net := rfl

/-! ### putCtx -/

@[simp] theorem State.putCtx_pending (s : State) (i : Nat) (c : BitVec 512) : (s.putCtx i c).pending = s.pending := rfl
@[simp] theorem State.putCtx_out (s : State) (i : Nat) (c : BitVec 512) : (s.putCtx i c).out = s.out := rfl
@[simp] theorem State.putCtx_free (s : State) (i : Nat) (c : BitVec 512) : (s.putCtx i c).free = s.free := rfl
@[simp] theorem State.putCtx_tb (s : State) (i : Nat) (c : BitVec 512) : (s.putCtx i c).tb = s.tb := rfl
@[simp] theorem State.putCtx_clk (s : State) (i : Nat) (c : BitVec 512) : (s.putCtx i c).clk = s.clk := rfl
@[simp] theorem State.putCtx_regs (s : State) (i : Nat) (c : BitVec 512) : (s.putCtx i c).regs = s.regs := rfl
@[simp] theorem State.putCtx_boot (s : State) (i : Nat) (c : BitVec 512) : (s.putCtx i c).boot = s.boot := rfl
@[simp] theorem State.putCtx_sec (s : State) (i : Nat) (c : BitVec 512) : (s.putCtx i c).sec = s.sec := rfl
@[simp] theorem State.putCtx_sup (s : State) (i : Nat) (c : BitVec 512) : (s.putCtx i c).sup = s.sup := rfl
@[simp] theorem State.putCtx_power (s : State) (i : Nat) (c : BitVec 512) : (s.putCtx i c).power = s.power := rfl
@[simp] theorem State.putCtx_guard (s : State) (i : Nat) (c : BitVec 512) : (s.putCtx i c).guard = s.guard := rfl
@[simp] theorem State.putCtx_recorder (s : State) (i : Nat) (c : BitVec 512) : (s.putCtx i c).recorder = s.recorder := rfl
@[simp] theorem State.putCtx_counters (s : State) (i : Nat) (c : BitVec 512) : (s.putCtx i c).counters = s.counters := rfl
@[simp] theorem State.putCtx_host (s : State) (i : Nat) (c : BitVec 512) : (s.putCtx i c).host = s.host := rfl
@[simp] theorem State.putCtx_errq (s : State) (i : Nat) (c : BitVec 512) : (s.putCtx i c).errq = s.errq := rfl
@[simp] theorem State.putCtx_stations (s : State) (i : Nat) (c : BitVec 512) : (s.putCtx i c).stations = s.stations := rfl
@[simp] theorem State.putCtx_streams (s : State) (i : Nat) (c : BitVec 512) : (s.putCtx i c).streams = s.streams := rfl
@[simp] theorem State.putCtx_groups (s : State) (i : Nat) (c : BitVec 512) : (s.putCtx i c).groups = s.groups := rfl
@[simp] theorem State.putCtx_banks (s : State) (i : Nat) (c : BitVec 512) : (s.putCtx i c).banks = s.banks := rfl
@[simp] theorem State.putCtx_mem (s : State) (i : Nat) (c : BitVec 512) : (s.putCtx i c).mem = s.mem := rfl
@[simp] theorem State.putCtx_queues (s : State) (i : Nat) (c : BitVec 512) : (s.putCtx i c).queues = s.queues := rfl
@[simp] theorem State.putCtx_trump (s : State) (i : Nat) (c : BitVec 512) : (s.putCtx i c).trump = s.trump := rfl
@[simp] theorem State.putCtx_sched (s : State) (i : Nat) (c : BitVec 512) : (s.putCtx i c).sched = s.sched := rfl
@[simp] theorem State.putCtx_paths (s : State) (i : Nat) (c : BitVec 512) : (s.putCtx i c).paths = s.paths := rfl
@[simp] theorem State.putCtx_arrays (s : State) (i : Nat) (c : BitVec 512) : (s.putCtx i c).arrays = s.arrays := rfl
@[simp] theorem State.putCtx_enc (s : State) (i : Nat) (c : BitVec 512) : (s.putCtx i c).enc = s.enc := rfl
@[simp] theorem State.putCtx_dec (s : State) (i : Nat) (c : BitVec 512) : (s.putCtx i c).dec = s.dec := rfl
@[simp] theorem State.putCtx_dealer (s : State) (i : Nat) (c : BitVec 512) : (s.putCtx i c).dealer = s.dealer := rfl
@[simp] theorem State.putCtx_field (s : State) (i : Nat) (c : BitVec 512) : (s.putCtx i c).field = s.field := rfl
@[simp] theorem State.putCtx_fab (s : State) (i : Nat) (c : BitVec 512) : (s.putCtx i c).fab = s.fab := rfl
@[simp] theorem State.putCtx_attn (s : State) (i : Nat) (c : BitVec 512) : (s.putCtx i c).attn = s.attn := rfl
@[simp] theorem State.putCtx_video (s : State) (i : Nat) (c : BitVec 512) : (s.putCtx i c).video = s.video := rfl
@[simp] theorem State.putCtx_fronts (s : State) (i : Nat) (c : BitVec 512) : (s.putCtx i c).fronts = s.fronts := rfl
@[simp] theorem State.putCtx_breaks (s : State) (i : Nat) (c : BitVec 512) : (s.putCtx i c).breaks = s.breaks := rfl
@[simp] theorem State.putCtx_cams (s : State) (i : Nat) (c : BitVec 512) : (s.putCtx i c).cams = s.cams := rfl
@[simp] theorem State.putCtx_couts (s : State) (i : Nat) (c : BitVec 512) : (s.putCtx i c).couts = s.couts := rfl
@[simp] theorem State.putCtx_adapt (s : State) (i : Nat) (c : BitVec 512) : (s.putCtx i c).adapt = s.adapt := rfl
@[simp] theorem State.putCtx_net (s : State) (i : Nat) (c : BitVec 512) : (s.putCtx i c).net = s.net := rfl

/-! ### freeCtx -/

@[simp] theorem State.freeCtx_pending (s : State) (i : Nat) : (s.freeCtx i).pending = s.pending := rfl
@[simp] theorem State.freeCtx_out (s : State) (i : Nat) : (s.freeCtx i).out = s.out := rfl
@[simp] theorem State.freeCtx_free (s : State) (i : Nat) : (s.freeCtx i).free = s.free := rfl
@[simp] theorem State.freeCtx_tb (s : State) (i : Nat) : (s.freeCtx i).tb = s.tb := rfl
@[simp] theorem State.freeCtx_clk (s : State) (i : Nat) : (s.freeCtx i).clk = s.clk := rfl
@[simp] theorem State.freeCtx_regs (s : State) (i : Nat) : (s.freeCtx i).regs = s.regs := rfl
@[simp] theorem State.freeCtx_boot (s : State) (i : Nat) : (s.freeCtx i).boot = s.boot := rfl
@[simp] theorem State.freeCtx_sec (s : State) (i : Nat) : (s.freeCtx i).sec = s.sec := rfl
@[simp] theorem State.freeCtx_sup (s : State) (i : Nat) : (s.freeCtx i).sup = s.sup := rfl
@[simp] theorem State.freeCtx_power (s : State) (i : Nat) : (s.freeCtx i).power = s.power := rfl
@[simp] theorem State.freeCtx_guard (s : State) (i : Nat) : (s.freeCtx i).guard = s.guard := rfl
@[simp] theorem State.freeCtx_recorder (s : State) (i : Nat) : (s.freeCtx i).recorder = s.recorder := rfl
@[simp] theorem State.freeCtx_counters (s : State) (i : Nat) : (s.freeCtx i).counters = s.counters := rfl
@[simp] theorem State.freeCtx_host (s : State) (i : Nat) : (s.freeCtx i).host = s.host := rfl
@[simp] theorem State.freeCtx_errq (s : State) (i : Nat) : (s.freeCtx i).errq = s.errq := rfl
@[simp] theorem State.freeCtx_stations (s : State) (i : Nat) : (s.freeCtx i).stations = s.stations := rfl
@[simp] theorem State.freeCtx_streams (s : State) (i : Nat) : (s.freeCtx i).streams = s.streams := rfl
@[simp] theorem State.freeCtx_groups (s : State) (i : Nat) : (s.freeCtx i).groups = s.groups := rfl
@[simp] theorem State.freeCtx_banks (s : State) (i : Nat) : (s.freeCtx i).banks = s.banks := rfl
@[simp] theorem State.freeCtx_mem (s : State) (i : Nat) : (s.freeCtx i).mem = s.mem := rfl
@[simp] theorem State.freeCtx_queues (s : State) (i : Nat) : (s.freeCtx i).queues = s.queues := rfl
@[simp] theorem State.freeCtx_trump (s : State) (i : Nat) : (s.freeCtx i).trump = s.trump := rfl
@[simp] theorem State.freeCtx_sched (s : State) (i : Nat) : (s.freeCtx i).sched = s.sched := rfl
@[simp] theorem State.freeCtx_paths (s : State) (i : Nat) : (s.freeCtx i).paths = s.paths := rfl
@[simp] theorem State.freeCtx_arrays (s : State) (i : Nat) : (s.freeCtx i).arrays = s.arrays := rfl
@[simp] theorem State.freeCtx_enc (s : State) (i : Nat) : (s.freeCtx i).enc = s.enc := rfl
@[simp] theorem State.freeCtx_dec (s : State) (i : Nat) : (s.freeCtx i).dec = s.dec := rfl
@[simp] theorem State.freeCtx_dealer (s : State) (i : Nat) : (s.freeCtx i).dealer = s.dealer := rfl
@[simp] theorem State.freeCtx_field (s : State) (i : Nat) : (s.freeCtx i).field = s.field := rfl
@[simp] theorem State.freeCtx_fab (s : State) (i : Nat) : (s.freeCtx i).fab = s.fab := rfl
@[simp] theorem State.freeCtx_attn (s : State) (i : Nat) : (s.freeCtx i).attn = s.attn := rfl
@[simp] theorem State.freeCtx_video (s : State) (i : Nat) : (s.freeCtx i).video = s.video := rfl
@[simp] theorem State.freeCtx_fronts (s : State) (i : Nat) : (s.freeCtx i).fronts = s.fronts := rfl
@[simp] theorem State.freeCtx_breaks (s : State) (i : Nat) : (s.freeCtx i).breaks = s.breaks := rfl
@[simp] theorem State.freeCtx_cams (s : State) (i : Nat) : (s.freeCtx i).cams = s.cams := rfl
@[simp] theorem State.freeCtx_couts (s : State) (i : Nat) : (s.freeCtx i).couts = s.couts := rfl
@[simp] theorem State.freeCtx_adapt (s : State) (i : Nat) : (s.freeCtx i).adapt = s.adapt := rfl
@[simp] theorem State.freeCtx_net (s : State) (i : Nat) : (s.freeCtx i).net = s.net := rfl

/-! ### putWindow -/

@[simp] theorem State.putWindow_pending (s : State) (w : Window) : (s.putWindow w).pending = s.pending := rfl
@[simp] theorem State.putWindow_out (s : State) (w : Window) : (s.putWindow w).out = s.out := rfl
@[simp] theorem State.putWindow_free (s : State) (w : Window) : (s.putWindow w).free = s.free := rfl
@[simp] theorem State.putWindow_tb (s : State) (w : Window) : (s.putWindow w).tb = s.tb := rfl
@[simp] theorem State.putWindow_clk (s : State) (w : Window) : (s.putWindow w).clk = s.clk := rfl
@[simp] theorem State.putWindow_regs (s : State) (w : Window) : (s.putWindow w).regs = s.regs := rfl
@[simp] theorem State.putWindow_boot (s : State) (w : Window) : (s.putWindow w).boot = s.boot := rfl
@[simp] theorem State.putWindow_sec (s : State) (w : Window) : (s.putWindow w).sec = s.sec := rfl
@[simp] theorem State.putWindow_sup (s : State) (w : Window) : (s.putWindow w).sup = s.sup := rfl
@[simp] theorem State.putWindow_power (s : State) (w : Window) : (s.putWindow w).power = s.power := rfl
@[simp] theorem State.putWindow_guard (s : State) (w : Window) : (s.putWindow w).guard = s.guard := rfl
@[simp] theorem State.putWindow_recorder (s : State) (w : Window) : (s.putWindow w).recorder = s.recorder := rfl
@[simp] theorem State.putWindow_counters (s : State) (w : Window) : (s.putWindow w).counters = s.counters := rfl
@[simp] theorem State.putWindow_host (s : State) (w : Window) : (s.putWindow w).host = s.host := rfl
@[simp] theorem State.putWindow_errq (s : State) (w : Window) : (s.putWindow w).errq = s.errq := rfl
@[simp] theorem State.putWindow_stations (s : State) (w : Window) : (s.putWindow w).stations = s.stations := rfl
@[simp] theorem State.putWindow_streams (s : State) (w : Window) : (s.putWindow w).streams = s.streams := rfl
@[simp] theorem State.putWindow_groups (s : State) (w : Window) : (s.putWindow w).groups = s.groups := rfl
@[simp] theorem State.putWindow_banks (s : State) (w : Window) : (s.putWindow w).banks = s.banks := rfl
@[simp] theorem State.putWindow_mem (s : State) (w : Window) : (s.putWindow w).mem = s.mem := rfl
@[simp] theorem State.putWindow_queues (s : State) (w : Window) : (s.putWindow w).queues = s.queues := rfl
@[simp] theorem State.putWindow_trump (s : State) (w : Window) : (s.putWindow w).trump = s.trump := rfl
@[simp] theorem State.putWindow_sched (s : State) (w : Window) : (s.putWindow w).sched = s.sched := rfl
@[simp] theorem State.putWindow_paths (s : State) (w : Window) : (s.putWindow w).paths = s.paths := rfl
@[simp] theorem State.putWindow_arrays (s : State) (w : Window) : (s.putWindow w).arrays = s.arrays := rfl
@[simp] theorem State.putWindow_enc (s : State) (w : Window) : (s.putWindow w).enc = s.enc := rfl
@[simp] theorem State.putWindow_dec (s : State) (w : Window) : (s.putWindow w).dec = s.dec := rfl
@[simp] theorem State.putWindow_trk (s : State) (w : Window) : (s.putWindow w).trk = s.trk := rfl
@[simp] theorem State.putWindow_field (s : State) (w : Window) : (s.putWindow w).field = s.field := rfl
@[simp] theorem State.putWindow_fab (s : State) (w : Window) : (s.putWindow w).fab = s.fab := rfl
@[simp] theorem State.putWindow_attn (s : State) (w : Window) : (s.putWindow w).attn = s.attn := rfl
@[simp] theorem State.putWindow_video (s : State) (w : Window) : (s.putWindow w).video = s.video := rfl
@[simp] theorem State.putWindow_fronts (s : State) (w : Window) : (s.putWindow w).fronts = s.fronts := rfl
@[simp] theorem State.putWindow_breaks (s : State) (w : Window) : (s.putWindow w).breaks = s.breaks := rfl
@[simp] theorem State.putWindow_cams (s : State) (w : Window) : (s.putWindow w).cams = s.cams := rfl
@[simp] theorem State.putWindow_couts (s : State) (w : Window) : (s.putWindow w).couts = s.couts := rfl
@[simp] theorem State.putWindow_adapt (s : State) (w : Window) : (s.putWindow w).adapt = s.adapt := rfl
@[simp] theorem State.putWindow_net (s : State) (w : Window) : (s.putWindow w).net = s.net := rfl

/-! ### setPf -/

@[simp] theorem State.setPf_pending (s : State) (i : Nat) (p : Prefetcher) : (s.setPf i p).pending = s.pending := rfl
@[simp] theorem State.setPf_out (s : State) (i : Nat) (p : Prefetcher) : (s.setPf i p).out = s.out := rfl
@[simp] theorem State.setPf_free (s : State) (i : Nat) (p : Prefetcher) : (s.setPf i p).free = s.free := rfl
@[simp] theorem State.setPf_tb (s : State) (i : Nat) (p : Prefetcher) : (s.setPf i p).tb = s.tb := rfl
@[simp] theorem State.setPf_clk (s : State) (i : Nat) (p : Prefetcher) : (s.setPf i p).clk = s.clk := rfl
@[simp] theorem State.setPf_regs (s : State) (i : Nat) (p : Prefetcher) : (s.setPf i p).regs = s.regs := rfl
@[simp] theorem State.setPf_boot (s : State) (i : Nat) (p : Prefetcher) : (s.setPf i p).boot = s.boot := rfl
@[simp] theorem State.setPf_sec (s : State) (i : Nat) (p : Prefetcher) : (s.setPf i p).sec = s.sec := rfl
@[simp] theorem State.setPf_sup (s : State) (i : Nat) (p : Prefetcher) : (s.setPf i p).sup = s.sup := rfl
@[simp] theorem State.setPf_power (s : State) (i : Nat) (p : Prefetcher) : (s.setPf i p).power = s.power := rfl
@[simp] theorem State.setPf_guard (s : State) (i : Nat) (p : Prefetcher) : (s.setPf i p).guard = s.guard := rfl
@[simp] theorem State.setPf_recorder (s : State) (i : Nat) (p : Prefetcher) : (s.setPf i p).recorder = s.recorder := rfl
@[simp] theorem State.setPf_counters (s : State) (i : Nat) (p : Prefetcher) : (s.setPf i p).counters = s.counters := rfl
@[simp] theorem State.setPf_host (s : State) (i : Nat) (p : Prefetcher) : (s.setPf i p).host = s.host := rfl
@[simp] theorem State.setPf_errq (s : State) (i : Nat) (p : Prefetcher) : (s.setPf i p).errq = s.errq := rfl
@[simp] theorem State.setPf_stations (s : State) (i : Nat) (p : Prefetcher) : (s.setPf i p).stations = s.stations := rfl
@[simp] theorem State.setPf_streams (s : State) (i : Nat) (p : Prefetcher) : (s.setPf i p).streams = s.streams := rfl
@[simp] theorem State.setPf_groups (s : State) (i : Nat) (p : Prefetcher) : (s.setPf i p).groups = s.groups := rfl
@[simp] theorem State.setPf_banks (s : State) (i : Nat) (p : Prefetcher) : (s.setPf i p).banks = s.banks := rfl
@[simp] theorem State.setPf_queues (s : State) (i : Nat) (p : Prefetcher) : (s.setPf i p).queues = s.queues := rfl
@[simp] theorem State.setPf_trump (s : State) (i : Nat) (p : Prefetcher) : (s.setPf i p).trump = s.trump := rfl
@[simp] theorem State.setPf_sched (s : State) (i : Nat) (p : Prefetcher) : (s.setPf i p).sched = s.sched := rfl
@[simp] theorem State.setPf_paths (s : State) (i : Nat) (p : Prefetcher) : (s.setPf i p).paths = s.paths := rfl
@[simp] theorem State.setPf_arrays (s : State) (i : Nat) (p : Prefetcher) : (s.setPf i p).arrays = s.arrays := rfl
@[simp] theorem State.setPf_enc (s : State) (i : Nat) (p : Prefetcher) : (s.setPf i p).enc = s.enc := rfl
@[simp] theorem State.setPf_dec (s : State) (i : Nat) (p : Prefetcher) : (s.setPf i p).dec = s.dec := rfl
@[simp] theorem State.setPf_trk (s : State) (i : Nat) (p : Prefetcher) : (s.setPf i p).trk = s.trk := rfl
@[simp] theorem State.setPf_dealer (s : State) (i : Nat) (p : Prefetcher) : (s.setPf i p).dealer = s.dealer := rfl
@[simp] theorem State.setPf_field (s : State) (i : Nat) (p : Prefetcher) : (s.setPf i p).field = s.field := rfl
@[simp] theorem State.setPf_fab (s : State) (i : Nat) (p : Prefetcher) : (s.setPf i p).fab = s.fab := rfl
@[simp] theorem State.setPf_attn (s : State) (i : Nat) (p : Prefetcher) : (s.setPf i p).attn = s.attn := rfl
@[simp] theorem State.setPf_video (s : State) (i : Nat) (p : Prefetcher) : (s.setPf i p).video = s.video := rfl
@[simp] theorem State.setPf_fronts (s : State) (i : Nat) (p : Prefetcher) : (s.setPf i p).fronts = s.fronts := rfl
@[simp] theorem State.setPf_breaks (s : State) (i : Nat) (p : Prefetcher) : (s.setPf i p).breaks = s.breaks := rfl
@[simp] theorem State.setPf_cams (s : State) (i : Nat) (p : Prefetcher) : (s.setPf i p).cams = s.cams := rfl
@[simp] theorem State.setPf_couts (s : State) (i : Nat) (p : Prefetcher) : (s.setPf i p).couts = s.couts := rfl
@[simp] theorem State.setPf_adapt (s : State) (i : Nat) (p : Prefetcher) : (s.setPf i p).adapt = s.adapt := rfl
@[simp] theorem State.setPf_net (s : State) (i : Nat) (p : Prefetcher) : (s.setPf i p).net = s.net := rfl

/-! ### setLink -/

@[simp] theorem State.setLink_pending (s : State) (k : Nat) (l : BitVec 64) : (s.setLink k l).pending = s.pending := rfl
@[simp] theorem State.setLink_out (s : State) (k : Nat) (l : BitVec 64) : (s.setLink k l).out = s.out := rfl
@[simp] theorem State.setLink_free (s : State) (k : Nat) (l : BitVec 64) : (s.setLink k l).free = s.free := rfl
@[simp] theorem State.setLink_tb (s : State) (k : Nat) (l : BitVec 64) : (s.setLink k l).tb = s.tb := rfl
@[simp] theorem State.setLink_clk (s : State) (k : Nat) (l : BitVec 64) : (s.setLink k l).clk = s.clk := rfl
@[simp] theorem State.setLink_regs (s : State) (k : Nat) (l : BitVec 64) : (s.setLink k l).regs = s.regs := rfl
@[simp] theorem State.setLink_boot (s : State) (k : Nat) (l : BitVec 64) : (s.setLink k l).boot = s.boot := rfl
@[simp] theorem State.setLink_sec (s : State) (k : Nat) (l : BitVec 64) : (s.setLink k l).sec = s.sec := rfl
@[simp] theorem State.setLink_sup (s : State) (k : Nat) (l : BitVec 64) : (s.setLink k l).sup = s.sup := rfl
@[simp] theorem State.setLink_power (s : State) (k : Nat) (l : BitVec 64) : (s.setLink k l).power = s.power := rfl
@[simp] theorem State.setLink_guard (s : State) (k : Nat) (l : BitVec 64) : (s.setLink k l).guard = s.guard := rfl
@[simp] theorem State.setLink_recorder (s : State) (k : Nat) (l : BitVec 64) : (s.setLink k l).recorder = s.recorder := rfl
@[simp] theorem State.setLink_counters (s : State) (k : Nat) (l : BitVec 64) : (s.setLink k l).counters = s.counters := rfl
@[simp] theorem State.setLink_host (s : State) (k : Nat) (l : BitVec 64) : (s.setLink k l).host = s.host := rfl
@[simp] theorem State.setLink_errq (s : State) (k : Nat) (l : BitVec 64) : (s.setLink k l).errq = s.errq := rfl
@[simp] theorem State.setLink_stations (s : State) (k : Nat) (l : BitVec 64) : (s.setLink k l).stations = s.stations := rfl
@[simp] theorem State.setLink_streams (s : State) (k : Nat) (l : BitVec 64) : (s.setLink k l).streams = s.streams := rfl
@[simp] theorem State.setLink_groups (s : State) (k : Nat) (l : BitVec 64) : (s.setLink k l).groups = s.groups := rfl
@[simp] theorem State.setLink_banks (s : State) (k : Nat) (l : BitVec 64) : (s.setLink k l).banks = s.banks := rfl
@[simp] theorem State.setLink_mem (s : State) (k : Nat) (l : BitVec 64) : (s.setLink k l).mem = s.mem := rfl
@[simp] theorem State.setLink_trump (s : State) (k : Nat) (l : BitVec 64) : (s.setLink k l).trump = s.trump := rfl
@[simp] theorem State.setLink_sched (s : State) (k : Nat) (l : BitVec 64) : (s.setLink k l).sched = s.sched := rfl
@[simp] theorem State.setLink_paths (s : State) (k : Nat) (l : BitVec 64) : (s.setLink k l).paths = s.paths := rfl
@[simp] theorem State.setLink_arrays (s : State) (k : Nat) (l : BitVec 64) : (s.setLink k l).arrays = s.arrays := rfl
@[simp] theorem State.setLink_enc (s : State) (k : Nat) (l : BitVec 64) : (s.setLink k l).enc = s.enc := rfl
@[simp] theorem State.setLink_dec (s : State) (k : Nat) (l : BitVec 64) : (s.setLink k l).dec = s.dec := rfl
@[simp] theorem State.setLink_trk (s : State) (k : Nat) (l : BitVec 64) : (s.setLink k l).trk = s.trk := rfl
@[simp] theorem State.setLink_dealer (s : State) (k : Nat) (l : BitVec 64) : (s.setLink k l).dealer = s.dealer := rfl
@[simp] theorem State.setLink_field (s : State) (k : Nat) (l : BitVec 64) : (s.setLink k l).field = s.field := rfl
@[simp] theorem State.setLink_fab (s : State) (k : Nat) (l : BitVec 64) : (s.setLink k l).fab = s.fab := rfl
@[simp] theorem State.setLink_attn (s : State) (k : Nat) (l : BitVec 64) : (s.setLink k l).attn = s.attn := rfl
@[simp] theorem State.setLink_video (s : State) (k : Nat) (l : BitVec 64) : (s.setLink k l).video = s.video := rfl
@[simp] theorem State.setLink_fronts (s : State) (k : Nat) (l : BitVec 64) : (s.setLink k l).fronts = s.fronts := rfl
@[simp] theorem State.setLink_breaks (s : State) (k : Nat) (l : BitVec 64) : (s.setLink k l).breaks = s.breaks := rfl
@[simp] theorem State.setLink_cams (s : State) (k : Nat) (l : BitVec 64) : (s.setLink k l).cams = s.cams := rfl
@[simp] theorem State.setLink_couts (s : State) (k : Nat) (l : BitVec 64) : (s.setLink k l).couts = s.couts := rfl
@[simp] theorem State.setLink_adapt (s : State) (k : Nat) (l : BitVec 64) : (s.setLink k l).adapt = s.adapt := rfl
@[simp] theorem State.setLink_net (s : State) (k : Nat) (l : BitVec 64) : (s.setLink k l).net = s.net := rfl

/-! ### rawWrite -/

@[simp] theorem State.rawWrite_pending (s : State) (a : Nat) (l : List Byte) : (s.rawWrite a l).pending = s.pending := rfl
@[simp] theorem State.rawWrite_out (s : State) (a : Nat) (l : List Byte) : (s.rawWrite a l).out = s.out := rfl
@[simp] theorem State.rawWrite_free (s : State) (a : Nat) (l : List Byte) : (s.rawWrite a l).free = s.free := rfl
@[simp] theorem State.rawWrite_tb (s : State) (a : Nat) (l : List Byte) : (s.rawWrite a l).tb = s.tb := rfl
@[simp] theorem State.rawWrite_clk (s : State) (a : Nat) (l : List Byte) : (s.rawWrite a l).clk = s.clk := rfl
@[simp] theorem State.rawWrite_regs (s : State) (a : Nat) (l : List Byte) : (s.rawWrite a l).regs = s.regs := rfl
@[simp] theorem State.rawWrite_boot (s : State) (a : Nat) (l : List Byte) : (s.rawWrite a l).boot = s.boot := rfl
@[simp] theorem State.rawWrite_sec (s : State) (a : Nat) (l : List Byte) : (s.rawWrite a l).sec = s.sec := rfl
@[simp] theorem State.rawWrite_sup (s : State) (a : Nat) (l : List Byte) : (s.rawWrite a l).sup = s.sup := rfl
@[simp] theorem State.rawWrite_power (s : State) (a : Nat) (l : List Byte) : (s.rawWrite a l).power = s.power := rfl
@[simp] theorem State.rawWrite_guard (s : State) (a : Nat) (l : List Byte) : (s.rawWrite a l).guard = s.guard := rfl
@[simp] theorem State.rawWrite_recorder (s : State) (a : Nat) (l : List Byte) : (s.rawWrite a l).recorder = s.recorder := rfl
@[simp] theorem State.rawWrite_counters (s : State) (a : Nat) (l : List Byte) : (s.rawWrite a l).counters = s.counters := rfl
@[simp] theorem State.rawWrite_host (s : State) (a : Nat) (l : List Byte) : (s.rawWrite a l).host = s.host := rfl
@[simp] theorem State.rawWrite_errq (s : State) (a : Nat) (l : List Byte) : (s.rawWrite a l).errq = s.errq := rfl
@[simp] theorem State.rawWrite_stations (s : State) (a : Nat) (l : List Byte) : (s.rawWrite a l).stations = s.stations := rfl
@[simp] theorem State.rawWrite_streams (s : State) (a : Nat) (l : List Byte) : (s.rawWrite a l).streams = s.streams := rfl
@[simp] theorem State.rawWrite_groups (s : State) (a : Nat) (l : List Byte) : (s.rawWrite a l).groups = s.groups := rfl
@[simp] theorem State.rawWrite_banks (s : State) (a : Nat) (l : List Byte) : (s.rawWrite a l).banks = s.banks := rfl
@[simp] theorem State.rawWrite_queues (s : State) (a : Nat) (l : List Byte) : (s.rawWrite a l).queues = s.queues := rfl
@[simp] theorem State.rawWrite_trump (s : State) (a : Nat) (l : List Byte) : (s.rawWrite a l).trump = s.trump := rfl
@[simp] theorem State.rawWrite_sched (s : State) (a : Nat) (l : List Byte) : (s.rawWrite a l).sched = s.sched := rfl
@[simp] theorem State.rawWrite_paths (s : State) (a : Nat) (l : List Byte) : (s.rawWrite a l).paths = s.paths := rfl
@[simp] theorem State.rawWrite_arrays (s : State) (a : Nat) (l : List Byte) : (s.rawWrite a l).arrays = s.arrays := rfl
@[simp] theorem State.rawWrite_enc (s : State) (a : Nat) (l : List Byte) : (s.rawWrite a l).enc = s.enc := rfl
@[simp] theorem State.rawWrite_dec (s : State) (a : Nat) (l : List Byte) : (s.rawWrite a l).dec = s.dec := rfl
@[simp] theorem State.rawWrite_trk (s : State) (a : Nat) (l : List Byte) : (s.rawWrite a l).trk = s.trk := rfl
@[simp] theorem State.rawWrite_dealer (s : State) (a : Nat) (l : List Byte) : (s.rawWrite a l).dealer = s.dealer := rfl
@[simp] theorem State.rawWrite_field (s : State) (a : Nat) (l : List Byte) : (s.rawWrite a l).field = s.field := rfl
@[simp] theorem State.rawWrite_fab (s : State) (a : Nat) (l : List Byte) : (s.rawWrite a l).fab = s.fab := rfl
@[simp] theorem State.rawWrite_attn (s : State) (a : Nat) (l : List Byte) : (s.rawWrite a l).attn = s.attn := rfl
@[simp] theorem State.rawWrite_video (s : State) (a : Nat) (l : List Byte) : (s.rawWrite a l).video = s.video := rfl
@[simp] theorem State.rawWrite_fronts (s : State) (a : Nat) (l : List Byte) : (s.rawWrite a l).fronts = s.fronts := rfl
@[simp] theorem State.rawWrite_breaks (s : State) (a : Nat) (l : List Byte) : (s.rawWrite a l).breaks = s.breaks := rfl
@[simp] theorem State.rawWrite_cams (s : State) (a : Nat) (l : List Byte) : (s.rawWrite a l).cams = s.cams := rfl
@[simp] theorem State.rawWrite_couts (s : State) (a : Nat) (l : List Byte) : (s.rawWrite a l).couts = s.couts := rfl
@[simp] theorem State.rawWrite_adapt (s : State) (a : Nat) (l : List Byte) : (s.rawWrite a l).adapt = s.adapt := rfl
@[simp] theorem State.rawWrite_net (s : State) (a : Nat) (l : List Byte) : (s.rawWrite a l).net = s.net := rfl

/-! ### zeroRange -/

@[simp] theorem State.zeroRange_pending (s : State) (a : Nat) (n : Nat) : (s.zeroRange a n).pending = s.pending := rfl
@[simp] theorem State.zeroRange_out (s : State) (a : Nat) (n : Nat) : (s.zeroRange a n).out = s.out := rfl
@[simp] theorem State.zeroRange_free (s : State) (a : Nat) (n : Nat) : (s.zeroRange a n).free = s.free := rfl
@[simp] theorem State.zeroRange_tb (s : State) (a : Nat) (n : Nat) : (s.zeroRange a n).tb = s.tb := rfl
@[simp] theorem State.zeroRange_clk (s : State) (a : Nat) (n : Nat) : (s.zeroRange a n).clk = s.clk := rfl
@[simp] theorem State.zeroRange_regs (s : State) (a : Nat) (n : Nat) : (s.zeroRange a n).regs = s.regs := rfl
@[simp] theorem State.zeroRange_boot (s : State) (a : Nat) (n : Nat) : (s.zeroRange a n).boot = s.boot := rfl
@[simp] theorem State.zeroRange_sec (s : State) (a : Nat) (n : Nat) : (s.zeroRange a n).sec = s.sec := rfl
@[simp] theorem State.zeroRange_sup (s : State) (a : Nat) (n : Nat) : (s.zeroRange a n).sup = s.sup := rfl
@[simp] theorem State.zeroRange_power (s : State) (a : Nat) (n : Nat) : (s.zeroRange a n).power = s.power := rfl
@[simp] theorem State.zeroRange_guard (s : State) (a : Nat) (n : Nat) : (s.zeroRange a n).guard = s.guard := rfl
@[simp] theorem State.zeroRange_recorder (s : State) (a : Nat) (n : Nat) : (s.zeroRange a n).recorder = s.recorder := rfl
@[simp] theorem State.zeroRange_counters (s : State) (a : Nat) (n : Nat) : (s.zeroRange a n).counters = s.counters := rfl
@[simp] theorem State.zeroRange_host (s : State) (a : Nat) (n : Nat) : (s.zeroRange a n).host = s.host := rfl
@[simp] theorem State.zeroRange_errq (s : State) (a : Nat) (n : Nat) : (s.zeroRange a n).errq = s.errq := rfl
@[simp] theorem State.zeroRange_stations (s : State) (a : Nat) (n : Nat) : (s.zeroRange a n).stations = s.stations := rfl
@[simp] theorem State.zeroRange_streams (s : State) (a : Nat) (n : Nat) : (s.zeroRange a n).streams = s.streams := rfl
@[simp] theorem State.zeroRange_groups (s : State) (a : Nat) (n : Nat) : (s.zeroRange a n).groups = s.groups := rfl
@[simp] theorem State.zeroRange_banks (s : State) (a : Nat) (n : Nat) : (s.zeroRange a n).banks = s.banks := rfl
@[simp] theorem State.zeroRange_queues (s : State) (a : Nat) (n : Nat) : (s.zeroRange a n).queues = s.queues := rfl
@[simp] theorem State.zeroRange_trump (s : State) (a : Nat) (n : Nat) : (s.zeroRange a n).trump = s.trump := rfl
@[simp] theorem State.zeroRange_sched (s : State) (a : Nat) (n : Nat) : (s.zeroRange a n).sched = s.sched := rfl
@[simp] theorem State.zeroRange_paths (s : State) (a : Nat) (n : Nat) : (s.zeroRange a n).paths = s.paths := rfl
@[simp] theorem State.zeroRange_arrays (s : State) (a : Nat) (n : Nat) : (s.zeroRange a n).arrays = s.arrays := rfl
@[simp] theorem State.zeroRange_enc (s : State) (a : Nat) (n : Nat) : (s.zeroRange a n).enc = s.enc := rfl
@[simp] theorem State.zeroRange_dec (s : State) (a : Nat) (n : Nat) : (s.zeroRange a n).dec = s.dec := rfl
@[simp] theorem State.zeroRange_trk (s : State) (a : Nat) (n : Nat) : (s.zeroRange a n).trk = s.trk := rfl
@[simp] theorem State.zeroRange_dealer (s : State) (a : Nat) (n : Nat) : (s.zeroRange a n).dealer = s.dealer := rfl
@[simp] theorem State.zeroRange_field (s : State) (a : Nat) (n : Nat) : (s.zeroRange a n).field = s.field := rfl
@[simp] theorem State.zeroRange_fab (s : State) (a : Nat) (n : Nat) : (s.zeroRange a n).fab = s.fab := rfl
@[simp] theorem State.zeroRange_attn (s : State) (a : Nat) (n : Nat) : (s.zeroRange a n).attn = s.attn := rfl
@[simp] theorem State.zeroRange_video (s : State) (a : Nat) (n : Nat) : (s.zeroRange a n).video = s.video := rfl
@[simp] theorem State.zeroRange_fronts (s : State) (a : Nat) (n : Nat) : (s.zeroRange a n).fronts = s.fronts := rfl
@[simp] theorem State.zeroRange_breaks (s : State) (a : Nat) (n : Nat) : (s.zeroRange a n).breaks = s.breaks := rfl
@[simp] theorem State.zeroRange_cams (s : State) (a : Nat) (n : Nat) : (s.zeroRange a n).cams = s.cams := rfl
@[simp] theorem State.zeroRange_couts (s : State) (a : Nat) (n : Nat) : (s.zeroRange a n).couts = s.couts := rfl
@[simp] theorem State.zeroRange_adapt (s : State) (a : Nat) (n : Nat) : (s.zeroRange a n).adapt = s.adapt := rfl
@[simp] theorem State.zeroRange_net (s : State) (a : Nat) (n : Nat) : (s.zeroRange a n).net = s.net := rfl

/-! ### draw -/

@[simp] theorem State.draw_pending (s : State) (w : Nat) : (s.draw w).2.pending = s.pending := rfl
@[simp] theorem State.draw_out (s : State) (w : Nat) : (s.draw w).2.out = s.out := rfl
@[simp] theorem State.draw_tb (s : State) (w : Nat) : (s.draw w).2.tb = s.tb := rfl
@[simp] theorem State.draw_clk (s : State) (w : Nat) : (s.draw w).2.clk = s.clk := rfl
@[simp] theorem State.draw_regs (s : State) (w : Nat) : (s.draw w).2.regs = s.regs := rfl
@[simp] theorem State.draw_boot (s : State) (w : Nat) : (s.draw w).2.boot = s.boot := rfl
@[simp] theorem State.draw_sec (s : State) (w : Nat) : (s.draw w).2.sec = s.sec := rfl
@[simp] theorem State.draw_sup (s : State) (w : Nat) : (s.draw w).2.sup = s.sup := rfl
@[simp] theorem State.draw_power (s : State) (w : Nat) : (s.draw w).2.power = s.power := rfl
@[simp] theorem State.draw_guard (s : State) (w : Nat) : (s.draw w).2.guard = s.guard := rfl
@[simp] theorem State.draw_recorder (s : State) (w : Nat) : (s.draw w).2.recorder = s.recorder := rfl
@[simp] theorem State.draw_counters (s : State) (w : Nat) : (s.draw w).2.counters = s.counters := rfl
@[simp] theorem State.draw_host (s : State) (w : Nat) : (s.draw w).2.host = s.host := rfl
@[simp] theorem State.draw_errq (s : State) (w : Nat) : (s.draw w).2.errq = s.errq := rfl
@[simp] theorem State.draw_stations (s : State) (w : Nat) : (s.draw w).2.stations = s.stations := rfl
@[simp] theorem State.draw_streams (s : State) (w : Nat) : (s.draw w).2.streams = s.streams := rfl
@[simp] theorem State.draw_groups (s : State) (w : Nat) : (s.draw w).2.groups = s.groups := rfl
@[simp] theorem State.draw_banks (s : State) (w : Nat) : (s.draw w).2.banks = s.banks := rfl
@[simp] theorem State.draw_mem (s : State) (w : Nat) : (s.draw w).2.mem = s.mem := rfl
@[simp] theorem State.draw_queues (s : State) (w : Nat) : (s.draw w).2.queues = s.queues := rfl
@[simp] theorem State.draw_trump (s : State) (w : Nat) : (s.draw w).2.trump = s.trump := rfl
@[simp] theorem State.draw_sched (s : State) (w : Nat) : (s.draw w).2.sched = s.sched := rfl
@[simp] theorem State.draw_paths (s : State) (w : Nat) : (s.draw w).2.paths = s.paths := rfl
@[simp] theorem State.draw_arrays (s : State) (w : Nat) : (s.draw w).2.arrays = s.arrays := rfl
@[simp] theorem State.draw_enc (s : State) (w : Nat) : (s.draw w).2.enc = s.enc := rfl
@[simp] theorem State.draw_dec (s : State) (w : Nat) : (s.draw w).2.dec = s.dec := rfl
@[simp] theorem State.draw_trk (s : State) (w : Nat) : (s.draw w).2.trk = s.trk := rfl
@[simp] theorem State.draw_dealer (s : State) (w : Nat) : (s.draw w).2.dealer = s.dealer := rfl
@[simp] theorem State.draw_field (s : State) (w : Nat) : (s.draw w).2.field = s.field := rfl
@[simp] theorem State.draw_fab (s : State) (w : Nat) : (s.draw w).2.fab = s.fab := rfl
@[simp] theorem State.draw_attn (s : State) (w : Nat) : (s.draw w).2.attn = s.attn := rfl
@[simp] theorem State.draw_video (s : State) (w : Nat) : (s.draw w).2.video = s.video := rfl
@[simp] theorem State.draw_fronts (s : State) (w : Nat) : (s.draw w).2.fronts = s.fronts := rfl
@[simp] theorem State.draw_breaks (s : State) (w : Nat) : (s.draw w).2.breaks = s.breaks := rfl
@[simp] theorem State.draw_cams (s : State) (w : Nat) : (s.draw w).2.cams = s.cams := rfl
@[simp] theorem State.draw_couts (s : State) (w : Nat) : (s.draw w).2.couts = s.couts := rfl
@[simp] theorem State.draw_adapt (s : State) (w : Nat) : (s.draw w).2.adapt = s.adapt := rfl
@[simp] theorem State.draw_net (s : State) (w : Nat) : (s.draw w).2.net = s.net := rfl

/-! ### restartCounters -/

@[simp] theorem State.restartCounters_pending (s : State) (b : Nat) (which : List Nat) : (s.restartCounters b which).pending = s.pending := rfl
@[simp] theorem State.restartCounters_out (s : State) (b : Nat) (which : List Nat) : (s.restartCounters b which).out = s.out := rfl
@[simp] theorem State.restartCounters_free (s : State) (b : Nat) (which : List Nat) : (s.restartCounters b which).free = s.free := rfl
@[simp] theorem State.restartCounters_tb (s : State) (b : Nat) (which : List Nat) : (s.restartCounters b which).tb = s.tb := rfl
@[simp] theorem State.restartCounters_clk (s : State) (b : Nat) (which : List Nat) : (s.restartCounters b which).clk = s.clk := rfl
@[simp] theorem State.restartCounters_regs (s : State) (b : Nat) (which : List Nat) : (s.restartCounters b which).regs = s.regs := rfl
@[simp] theorem State.restartCounters_boot (s : State) (b : Nat) (which : List Nat) : (s.restartCounters b which).boot = s.boot := rfl
@[simp] theorem State.restartCounters_sec (s : State) (b : Nat) (which : List Nat) : (s.restartCounters b which).sec = s.sec := rfl
@[simp] theorem State.restartCounters_sup (s : State) (b : Nat) (which : List Nat) : (s.restartCounters b which).sup = s.sup := rfl
@[simp] theorem State.restartCounters_power (s : State) (b : Nat) (which : List Nat) : (s.restartCounters b which).power = s.power := rfl
@[simp] theorem State.restartCounters_guard (s : State) (b : Nat) (which : List Nat) : (s.restartCounters b which).guard = s.guard := rfl
@[simp] theorem State.restartCounters_recorder (s : State) (b : Nat) (which : List Nat) : (s.restartCounters b which).recorder = s.recorder := rfl
@[simp] theorem State.restartCounters_host (s : State) (b : Nat) (which : List Nat) : (s.restartCounters b which).host = s.host := rfl
@[simp] theorem State.restartCounters_errq (s : State) (b : Nat) (which : List Nat) : (s.restartCounters b which).errq = s.errq := rfl
@[simp] theorem State.restartCounters_stations (s : State) (b : Nat) (which : List Nat) : (s.restartCounters b which).stations = s.stations := rfl
@[simp] theorem State.restartCounters_streams (s : State) (b : Nat) (which : List Nat) : (s.restartCounters b which).streams = s.streams := rfl
@[simp] theorem State.restartCounters_groups (s : State) (b : Nat) (which : List Nat) : (s.restartCounters b which).groups = s.groups := rfl
@[simp] theorem State.restartCounters_banks (s : State) (b : Nat) (which : List Nat) : (s.restartCounters b which).banks = s.banks := rfl
@[simp] theorem State.restartCounters_mem (s : State) (b : Nat) (which : List Nat) : (s.restartCounters b which).mem = s.mem := rfl
@[simp] theorem State.restartCounters_queues (s : State) (b : Nat) (which : List Nat) : (s.restartCounters b which).queues = s.queues := rfl
@[simp] theorem State.restartCounters_trump (s : State) (b : Nat) (which : List Nat) : (s.restartCounters b which).trump = s.trump := rfl
@[simp] theorem State.restartCounters_sched (s : State) (b : Nat) (which : List Nat) : (s.restartCounters b which).sched = s.sched := rfl
@[simp] theorem State.restartCounters_paths (s : State) (b : Nat) (which : List Nat) : (s.restartCounters b which).paths = s.paths := rfl
@[simp] theorem State.restartCounters_arrays (s : State) (b : Nat) (which : List Nat) : (s.restartCounters b which).arrays = s.arrays := rfl
@[simp] theorem State.restartCounters_enc (s : State) (b : Nat) (which : List Nat) : (s.restartCounters b which).enc = s.enc := rfl
@[simp] theorem State.restartCounters_dec (s : State) (b : Nat) (which : List Nat) : (s.restartCounters b which).dec = s.dec := rfl
@[simp] theorem State.restartCounters_trk (s : State) (b : Nat) (which : List Nat) : (s.restartCounters b which).trk = s.trk := rfl
@[simp] theorem State.restartCounters_dealer (s : State) (b : Nat) (which : List Nat) : (s.restartCounters b which).dealer = s.dealer := rfl
@[simp] theorem State.restartCounters_field (s : State) (b : Nat) (which : List Nat) : (s.restartCounters b which).field = s.field := rfl
@[simp] theorem State.restartCounters_fab (s : State) (b : Nat) (which : List Nat) : (s.restartCounters b which).fab = s.fab := rfl
@[simp] theorem State.restartCounters_attn (s : State) (b : Nat) (which : List Nat) : (s.restartCounters b which).attn = s.attn := rfl
@[simp] theorem State.restartCounters_video (s : State) (b : Nat) (which : List Nat) : (s.restartCounters b which).video = s.video := rfl
@[simp] theorem State.restartCounters_fronts (s : State) (b : Nat) (which : List Nat) : (s.restartCounters b which).fronts = s.fronts := rfl
@[simp] theorem State.restartCounters_breaks (s : State) (b : Nat) (which : List Nat) : (s.restartCounters b which).breaks = s.breaks := rfl
@[simp] theorem State.restartCounters_cams (s : State) (b : Nat) (which : List Nat) : (s.restartCounters b which).cams = s.cams := rfl
@[simp] theorem State.restartCounters_couts (s : State) (b : Nat) (which : List Nat) : (s.restartCounters b which).couts = s.couts := rfl
@[simp] theorem State.restartCounters_adapt (s : State) (b : Nat) (which : List Nat) : (s.restartCounters b which).adapt = s.adapt := rfl
@[simp] theorem State.restartCounters_net (s : State) (b : Nat) (which : List Nat) : (s.restartCounters b which).net = s.net := rfl

end Sys2Proof.Machine
end

