-- ==== Sys2Proof/Laws/Tab.lean ====
section
/-! SUPPORT. Sparse tables: a read after a write, and the canonical form that every operation keeps. -/

namespace Sys2Proof.Machine.Tab

variable {α : Type} (t : Tab α) (p q : Nat) (v d : α)

@[simp] theorem look_ins_self : (t.ins q v).look q = some v := by
  induction t with
  | nil => simp [ins, look]
  | cons a r ih =>
    obtain ⟨k, u⟩ := a
    rw [ins]; split
    · simp [look]
    · split
      · simp [look]
      · simp [look, *]

theorem look_ins_ne (h : p ≠ q) : (t.ins q v).look p = t.look p := by
  induction t with
  | nil => simp [ins, look, h]
  | cons a r ih =>
    obtain ⟨k, u⟩ := a
    rw [ins]; split
    · simp [look, h]
    · split
      · subst q; simp [look, h]
      · simp [look, ih]

@[simp] theorem look_del_self : (t.del q).look q = none := by
  unfold del
  induction t with
  | nil => simp [look]
  | cons a r ih =>
    obtain ⟨k, u⟩ := a
    by_cases h : k = q
    · simpa [h] using ih
    · simp [h, look, Ne.symm h, ih]

theorem look_del_ne (h : p ≠ q) : (t.del q).look p = t.look p := by
  unfold del
  induction t with
  | nil => simp [look]
  | cons a r ih =>
    obtain ⟨k, u⟩ := a
    by_cases hk : k = q
    · simp [hk, look, h, ih]
    · simp [hk, look, ih]

@[simp] theorem val_ins_self : (t.ins q v).val d q = v := by simp [val]

theorem val_ins_ne (h : p ≠ q) : (t.ins q v).val d p = t.val d p := by simp [val, look_ins_ne _ _ _ _ h]

@[simp] theorem val_put_self [DecidableEq α] : (t.put d q v).val d q = v := by
  unfold put val; split <;> simp [*]

theorem val_put_ne [DecidableEq α] (h : p ≠ q) : (t.put d q v).val d p = t.val d p := by
  unfold put val; split <;> simp [look_ins_ne, look_del_ne, h]

@[simp] theorem val_upd_self [DecidableEq α] (f : α → α) : (t.upd d q f).val d q = f (t.val d q) := by simp [upd]

theorem val_upd_ne [DecidableEq α] (f : α → α) (h : p ≠ q) : (t.upd d q f).val d p = t.val d p := by
  simp [upd, val_put_ne _ _ _ _ _ h]

/-! ### The canonical form -/

variable {t v d}

theorem canon_nil : Canon ([] : Tab α) d := by simp [Canon, Sorted]

theorem mem_ins {a : Nat × α} (h : a ∈ t.ins q v) : a = (q, v) ∨ a ∈ t := by
  induction t with
  | nil => simpa [ins] using h
  | cons b r ih =>
    obtain ⟨k, u⟩ := b
    simp only [ins] at h; split at h
    · simpa using h
    · split at h
      · simp only [List.mem_cons] at h ⊢
        exact h.imp id Or.inr
      · simp only [List.mem_cons] at h ⊢
        rcases h with h | h
        · exact .inr (.inl h)
        · exact (ih h).imp id Or.inr

theorem sorted_ins (h : Sorted t) : Sorted (t.ins q v) := by
  induction t with
  | nil => simp [ins, Sorted]
  | cons b r ih =>
    obtain ⟨k, u⟩ := b
    simp only [Sorted, List.pairwise_cons] at h
    simp only [ins, Sorted]; split
    · rename_i hk
      refine List.pairwise_cons.2 ⟨?_, List.pairwise_cons.2 h⟩
      intro a ha
      rcases List.mem_cons.1 ha with rfl | ha
      · exact hk
      · exact Nat.lt_trans hk (h.1 a ha)
    · split
      · rename_i e; subst e
        exact List.pairwise_cons.2 ⟨h.1, h.2⟩
      · refine List.pairwise_cons.2 ⟨fun a ha => ?_, ih h.2⟩
        rcases mem_ins q ha with rfl | ha
        · change k < q; omega
        · exact h.1 a ha

theorem canon_ins (h : Canon t d) (hv : v ≠ d) : Canon (t.ins q v) d :=
  ⟨sorted_ins q h.1, fun a ha => (mem_ins q ha).elim (fun e => by simpa [e] using hv) (h.2 a)⟩

theorem canon_filter (f : Nat × α → Bool) (h : Canon t d) : Canon (t.filter f) d :=
  ⟨h.1.filter _, fun a ha => h.2 a (List.mem_filter.1 ha).1⟩

theorem canon_del (h : Canon t d) : Canon (t.del q) d := canon_filter _ h

theorem canon_put [DecidableEq α] (h : Canon t d) : Canon (t.put d q v) d := by
  unfold put; split
  · exact canon_del q h
  · exact canon_ins q h ‹_›

theorem canon_upd [DecidableEq α] (f : α → α) (h : Canon t d) : Canon (t.upd d q f) d := canon_put q h

end Sys2Proof.Machine.Tab
end

