-- ==== Sys2Proof/Laws/Mem.lean ====
section
/-! SUPPORT. Memory: what each operation on it can do, that it keeps the canonical form, and that a read of a byte
sees the last write of it. -/

namespace Sys2Proof.Machine

theorem putBytes_canon {m : Tab Byte} (h : Tab.Canon m 0) (a : Nat) (l : List Byte) : Tab.Canon (putBytes m a l) 0 := by
  induction l generalizing m a with
  | nil => exact h
  | cons b r ih => exact ih (Tab.canon_put a h) (a + 1)

theorem clearPoison_canon {p : Tab Bool} (h : Tab.Canon p false) (a n : Nat) : Tab.Canon (clearPoison p a n) false :=
  Tab.canon_filter _ h

theorem State.landBytes_canon (s : State) (sid : Nat) {m : Tab Byte} (h : Tab.Canon m 0) (a : Nat) (l : List Byte) :
    Tab.Canon (s.landBytes sid m a l) 0 := by
  induction l generalizing m a with
  | nil => exact h
  | cons b r ih =>
    refine ih ?_ (a + 1)
    split
    · exact h
    · exact Tab.canon_put a h

@[simp] theorem State.complete_mem (s : State) (sid : Nat) (w : Option Word) : (s.complete sid w).mem = s.mem := by
  unfold State.complete; split <;> simp

/-- `rawWrite` keeps the form of the memory. -/
theorem State.rawWrite_wf (s : State) (a : Nat) (l : List Byte) (h : s.mem.wf) : (s.rawWrite a l).mem.wf :=
  ⟨putBytes_canon h.1 _ _, clearPoison_canon h.2.1 _ _, h.2.2⟩

/-- `zeroRange` keeps the form of the memory. -/
theorem State.zeroRange_wf (s : State) (a n : Nat) (h : s.mem.wf) : (s.zeroRange a n).mem.wf :=
  ⟨Tab.canon_filter _ h.1, Tab.canon_filter _ h.2.1, h.2.2⟩

/-! ### The cache and the prefetchers hold no data -/

/-- Nothing that the memories hold differs: neither a byte, nor a poisoned unit, nor a block of the model store. -/
def sameStored (s u : State) : Prop := u.mem.bytes = s.mem.bytes ∧ u.mem.poison = s.mem.poison ∧ u.mem.store = s.mem.store

theorem sameStored.refl (s : State) : sameStored s s := ⟨rfl, rfl, rfl⟩

theorem sameStored.trans {s u v : State} (h : sameStored s u) (g : sameStored u v) : sameStored s v :=
  ⟨g.1.trans h.1, g.2.1.trans h.2.1, g.2.2.trans h.2.2⟩

theorem sameStored.of_mem {s u : State} (h : u.mem = s.mem) : sameStored s u := by simp [sameStored, h]

/-- From `s` to `u` only the cache, the prefetchers, the detection of strides and volatile entries (the counters) moved. -/
def onlyCache (s u : State) : Prop :=
  u = { s with
    mem := { s.mem with cache := u.mem.cache, useCount := u.mem.useCount, pf := u.mem.pf, detect := u.mem.detect }
    regs := { s.regs with vol := u.regs.vol } }

theorem onlyCache.refl (s : State) : onlyCache s s := rfl

theorem onlyCache.trans {s u v : State} (h : onlyCache s u) (g : onlyCache u v) : onlyCache s v := by
  unfold onlyCache at *; rw [g, h]

theorem onlyCache.ite {s u v : State} {c : Prop} [Decidable c] (h : onlyCache s u) (g : onlyCache s v) :
    onlyCache s (if c then u else v) := by
  split <;> assumption

theorem onlyCache.foldl {α : Type} (f : State → α → State) (h : ∀ s a, onlyCache s (f s a)) (l : List α) (s : State) :
    onlyCache s (l.foldl f s) := by
  induction l generalizing s with
  | nil => exact .refl s
  | cons a l ih => exact (h s a).trans (ih _)

theorem onlyCache.bump {e : Ent} (h : e.pers = .volatile) (s : State) (k n : Nat) : onlyCache s (s.bump e k n) := by
  simp [onlyCache, State.bump, State.bumpAt, State.setNumAt, h, Regs.mapStore]

theorem State.cacheUse_only (s : State) (k : Nat) (write : Bool) : onlyCache s (s.cacheUse k write) := by
  unfold State.cacheUse; split
  · exact .refl s
  · dsimp only; split
    · exact (onlyCache.bump (by rfl) s 0 1).trans rfl
    · rfl

theorem State.cacheFill_only (s : State) (trump : Bool) (line : Nat) (dirty lru ahead : Bool) :
    onlyCache s (s.cacheFill trump line dirty lru ahead) := by
  unfold State.cacheFill; split <;> rfl

theorem State.cacheLine_only (s : State) (trump write : Bool) (hint line : Nat) :
    onlyCache s (s.cacheLine trump write hint line) := by
  unfold State.cacheLine; split
  · exact s.cacheUse_only _ _
  · split
    · exact .refl s
    · exact s.cacheFill_only _ _ _ _ _

theorem State.cacheAccessAs_only (s : State) (trump write : Bool) (hint off n : Nat) :
    onlyCache s (s.cacheAccessAs trump write hint off n) :=
  (onlyCache.bump (by split <;> rfl) s 0 1).trans (.foldl _ (fun s l => s.cacheLine_only _ _ _ l) _ _)

theorem State.assignPf_only (s : State) (sid base : Nat) (stride : Int) (stop : Option Nat) :
    onlyCache s (s.assignPf sid base stride stop) := by
  unfold State.assignPf; split <;> rfl

theorem State.detect_only (s : State) (sid off : Nat) : onlyCache s (s.detect sid off) := by
  unfold State.detect
  exact .ite (.trans (u := { s with mem := { s.mem with pf := _, detect := _ } }) rfl (State.assignPf_only _ _ _ _ _)) rfl

/-- An access that passes through the cache moves nothing but the cache, the prefetchers and their counters (R143). -/
theorem State.passCache_only (s : State) (sid : Nat) (write : Bool) (hint a n : Nat) :
    onlyCache s (s.passCache sid write hint a n) := by
  unfold State.passCache; split
  · refine .foldl _ (fun s p => ?_) _ _
    dsimp only; split
    · exact s.cacheAccessAs_only _ _ _ _ _
    · exact (s.cacheAccessAs_only _ _ _ _ _).trans (State.detect_only _ _ _)
  · exact .refl s

theorem onlyCache.stored {s u : State} (h : onlyCache s u) : sameStored s u := by
  unfold onlyCache at h; rw [h]; exact ⟨rfl, rfl, rfl⟩

/-- Who may reach memory does not hang on the cache. -/
theorem onlyCache.access {s u : State} (h : onlyCache s u) (sid : Nat) (write : Bool) (a : Nat) :
    u.accessStatus sid write a = s.accessStatus sid write a := by
  unfold onlyCache at h; rw [h]; rfl

theorem State.passCache_stored (s : State) (sid : Nat) (write : Bool) (hint a n : Nat) :
    sameStored s (s.passCache sid write hint a n) := (s.passCache_only sid write hint a n).stored

theorem State.wf_of_stored {s u : State} (g : sameStored s u) (h : s.mem.wf) : u.mem.wf := by
  obtain ⟨a, b, c⟩ := g; exact ⟨a ▸ h.1, b ▸ h.2.1, c ▸ h.2.2⟩

theorem State.byteAt_of_stored {s u : State} (g : sameStored s u) (x : Nat) : u.byteAt x = s.byteAt x := by
  simp [State.byteAt, g.1]

theorem State.uncorrectable_mem (s : State) (sid a : Nat) : (s.uncorrectable sid a).mem = s.mem := by
  unfold State.uncorrectable; split <;> rfl

/-- A read changes nothing that the memories hold. -/
theorem State.memRead_stored (s : State) (sid a n hint : Nat) : sameStored s (s.memRead sid a n hint).2.2 := by
  have h1 : sameStored s (if (s.rangeStatus sid false a n).isNone then s.passCache sid false hint a n
      else s.complete sid (s.rangeStatus sid false a n)) := by
    split
    · exact s.passCache_stored _ _ _ _ _
    · exact .of_mem (by simp)
  unfold State.memRead; dsimp only
  split
  · exact h1.trans (.of_mem (State.uncorrectable_mem _ _ _))
  · exact h1

/-- `memRead` keeps the form of the memory. -/
theorem State.memRead_wf (s : State) (sid a n hint : Nat) (h : s.mem.wf) : (s.memRead sid a n hint).2.2.mem.wf :=
  State.wf_of_stored (s.memRead_stored sid a n hint) h

/-- `memWrite` keeps the form of the memory. -/
theorem State.memWrite_wf (s : State) (sid a : Nat) (l : List Byte) (hint : Nat) (h : s.mem.wf) :
    (s.memWrite sid a l hint).mem.wf := by
  unfold State.memWrite
  simp only [State.complete_mem]
  cases s.rangeStatus sid true a l.length with
  | none =>
    have g := State.wf_of_stored (s.passCache_stored sid true hint a l.length) h
    exact ⟨State.landBytes_canon _ _ g.1 _ _, clearPoison_canon g.2.1 _ _, g.2.2⟩
  | some w => exact ⟨State.landBytes_canon _ _ h.1 _ _, h.2.1, h.2.2⟩

/-- A read leaves every byte. -/
@[simp] theorem State.byteAt_memRead (s : State) (sid a n hint x : Nat) :
    (s.memRead sid a n hint).2.2.byteAt x = s.byteAt x := State.byteAt_of_stored (s.memRead_stored sid a n hint) x

/-- `poisonUnits` keeps the form of the memory. -/
theorem State.poisonUnits_wf (s : State) (a n : Nat) (h : s.mem.wf) : (s.poisonUnits a n).mem.wf := by
  induction n generalizing s with
  | zero => exact h
  | succ n ih => exact ih _ ⟨h.1, Tab.canon_ins _ h.2.1 (by decide), h.2.2⟩

/-- The memory after reset has the form. -/
theorem reset_mem_wf : State.reset.mem.wf := ⟨Tab.canon_nil, Tab.canon_nil, Tab.canon_nil⟩

/-! ### A read after a write -/

theorem putBytes_out (m : Tab Byte) (a : Nat) (l : List Byte) (x : Nat) (h : x < a ∨ a + l.length ≤ x) :
    (putBytes m a l).val 0 x = m.val 0 x := by
  induction l generalizing m a with
  | nil => rfl
  | cons b r ih =>
    simp only [List.length_cons] at h
    rw [putBytes, ih _ _ (by omega), Tab.val_put_ne _ _ _ _ _ (by omega)]

theorem putBytes_in (m : Tab Byte) (a : Nat) (l : List Byte) (i : Nat) (h : i < l.length) :
    (putBytes m a l).val 0 (a + i) = l[i] := by
  induction l generalizing m a i with
  | nil => simp at h
  | cons b r ih =>
    rw [putBytes]
    cases i with
    | zero => rw [putBytes_out _ _ _ _ (by omega)]; simp
    | succ i =>
      have := ih (m.put 0 a b) (a + 1) i (by simpa using h)
      rw [show a + (i + 1) = a + 1 + i by omega]; simpa using this

/-- A byte outside those written reads as before. -/
theorem State.byteAt_rawWrite_ne (s : State) (a : Nat) (l : List Byte) (x : Nat) (h : x < a ∨ a + l.length ≤ x) :
    (s.rawWrite a l).byteAt x = s.byteAt x := putBytes_out _ _ _ _ h

/-- A byte written reads as written. -/
theorem State.byteAt_rawWrite (s : State) (a : Nat) (l : List Byte) (i : Nat) (h : i < l.length) :
    (s.rawWrite a l).byteAt (a + i) = l[i] := putBytes_in _ _ _ _ h

theorem State.landBytes_out (s : State) (sid : Nat) (m : Tab Byte) (a : Nat) (l : List Byte) (x : Nat)
    (h : x < a ∨ a + l.length ≤ x) : (s.landBytes sid m a l).val 0 x = m.val 0 x := by
  induction l generalizing m a with
  | nil => rfl
  | cons b r ih =>
    simp only [List.length_cons] at h
    rw [State.landBytes, ih _ _ (by omega)]
    split
    · rfl
    · rw [Tab.val_put_ne _ _ _ _ _ (by omega)]

theorem State.landBytes_in (s : State) (sid : Nat) (m : Tab Byte) (a : Nat) (l : List Byte) (i : Nat) (h : i < l.length)
    (ok : s.accessStatus sid true (a + i) = none) : (s.landBytes sid m a l).val 0 (a + i) = l[i] := by
  induction l generalizing m a i with
  | nil => simp at h
  | cons b r ih =>
    rw [State.landBytes]
    cases i with
    | zero =>
      rw [State.landBytes_out _ _ _ _ _ _ (by omega)]
      simp only [Nat.add_zero] at ok
      simp [ok]
    | succ i =>
      rw [show a + (i + 1) = a + 1 + i by omega] at ok ⊢
      simpa using ih _ (a + 1) i (by simpa using h) ok

@[simp] theorem State.complete_byteAt (s : State) (sid : Nat) (w : Option Word) (x : Nat) :
    (s.complete sid w).byteAt x = s.byteAt x := by simp [State.byteAt]

/-- A station's write leaves every byte outside its range as it was. -/
theorem State.byteAt_memWrite_ne (s : State) (sid a : Nat) (l : List Byte) (hint x : Nat) (h : x < a ∨ a + l.length ≤ x) :
    (s.memWrite sid a l hint).byteAt x = s.byteAt x := by
  simp only [State.memWrite, State.complete_byteAt]
  refine (State.landBytes_out _ _ _ _ _ _ h).trans ?_
  split
  · exact State.byteAt_of_stored (s.passCache_stored _ _ _ _ _) x
  · rfl

/-- A station's write lands each byte at which its access is served. -/
theorem State.byteAt_memWrite (s : State) (sid a : Nat) (l : List Byte) (hint i : Nat) (h : i < l.length)
    (ok : s.accessStatus sid true (a + i) = none) : (s.memWrite sid a l hint).byteAt (a + i) = l[i] := by
  simp only [State.memWrite, State.complete_byteAt]
  refine State.landBytes_in _ _ _ _ _ _ h ?_
  split
  · rw [(s.passCache_only _ _ _ _ _).access]; exact ok
  · exact ok

end Sys2Proof.Machine
end

