-- ==== Sys2Proof/Laws/Ops.lean ====
section
/-! SUPPORT. The shared operations: what they read after an update. -/

namespace Sys2Proof.Machine

variable (s : State) (t sid n : Nat)

/-! ### Time leaves the rest alone -/

@[simp] theorem State.station_at : (s.at t).station sid = s.station sid := rfl
@[simp] theorem State.numAt_at (e : Ent) (j k : Nat) : (s.at t).numAt e j k = s.numAt e j k := rfl
@[simp] theorem State.num_at (e : Ent) (k : Nat) : (s.at t).num e k = s.num e k := rfl
@[simp] theorem State.nat_at (e : Ent) (k : Nat) : (s.at t).nat e k = s.nat e k := rfl
@[simp] theorem State.flag_at (e : Ent) (k : Nat) : (s.at t).flag e k = s.flag e k := rfl
@[simp] theorem State.blob_at (e : Ent) (j k : Nat) : (s.at t).blob e j k = s.blob e j k := rfl
@[simp] theorem State.cout_at : (s.at t).cout n = s.cout n := rfl
@[simp] theorem State.group_at : (s.at t).group n = s.group n := rfl
@[simp] theorem State.at_out : (s.at t).out = [] := rfl
@[simp] theorem State.at_tb : (s.at t).tb = max t s.tb := by simp [State.at]; omega
@[simp] theorem State.at_powerCycles : (s.at t).recorder.powerCycles = s.recorder.powerCycles := rfl
@[simp] theorem State.byteAt_at (a : Nat) : (s.at t).byteAt a = s.byteAt a := rfl
@[simp] theorem State.timeValid_at : (s.at t).timeValid = s.timeValid := rfl

/-! ### Stations -/

@[simp] theorem State.station_mapStation (f : Station → Station) : (s.mapStation sid f).station sid = f (s.station sid) := by
  simp [State.station, State.mapStation]

theorem State.station_mapStation_ne (f : Station → Station) (h : n ≠ sid) :
    (s.mapStation sid f).station n = s.station n := by
  simp [State.station, State.mapStation, Tab.val_upd_ne _ _ _ _ _ h]

@[simp] theorem State.group_mapGroup (f : Group → Group) : (s.mapGroup n f).group n = f (s.group n) := by
  simp [State.group, State.mapGroup]

@[simp] theorem State.cout_mapCout (f : Cout → Cout) : (s.mapCout n f).cout n = f (s.cout n) := by
  simp [State.cout, State.mapCout]

/-! ### Answers -/

@[simp] theorem State.emit_out (o : Out) : (s.emit o).out = s.out ++ [o] := rfl
@[simp] theorem State.answer_out (w : Word) : (s.answer w).out = s.out ++ [.answer w] := rfl

/-- A status word appended to a station's error queue is its newest. -/
theorem State.toErr_queue (k : Nat) (w : Word) : (s.toErr k w).errq.val [] k = s.errq.val [] k ++ [w] := by
  simp [State.toErr]

end Sys2Proof.Machine
end

