-- ==== Sys2Proof/WellFormed.lean ====
section
/-! DEFINITION. Which commands the wires can carry: sizes that the formats bound. A meaning is total, and does not rest
on it. -/

namespace Sys2Proof

open Machine

/-- An FDP datagram: a body of at most 1,400 bytes and a TAG of 32 (R423). -/
def Machine.Datagram.wf (m : Datagram) : Bool := decide (m.body.length ≤ 1400) && m.tag.length == 32

/-- A fabric frame: a payload in units of 32 bytes, at most 2,048 bytes (R395). -/
def Machine.Frame.wf (f : Frame) : Bool := f.payload.length % 32 == 0 && decide (f.payload.length ≤ 2048)

/-- An I3C private write: command, body and CRC-8 within the greatest write length of 72 bytes (R432). -/
def messageFits (body : List Byte) : Bool := decide (body.length + 2 ≤ 72)

/-- Is the command one that the wires can carry? -/
def commandFits (i : Instr) : Bool :=
  match i with
  | .tileReceive _ _ _ _ => true
  | .stepStart _ _ => true
  | .tileEmit _ _ _ _ _ _ => true
  | .nop _ _ => true
  | .loop _ _ => true
  | .endloop _ _ => true
  | .fence _ _ => true
  | .fenceDone _ _ => true
  | .endTable _ _ => true
  | .tableLoad _ _ _ => true
  | .tableArm _ _ _ => true
  | .tableDisarm _ _ _ => true
  | .streamMapLoad _ _ _ => true
  | .stationStart _ _ => true
  | .stationFault _ _ _ => true
  | .stationClear _ _ => true
  | .wload _ _ _ => true
  | .mmul _ _ _ => true
  | .osmul _ _ _ => true
  | .bload _ _ _ => true
  | .check _ _ _ _ => true
  | .mvmul _ _ => true
  | .rampDown _ _ _ _ => true
  | .rampUpDone _ _ => true
  | .halfFence _ _ _ => true
  | .arraySplit _ _ => true
  | .arrayJoin _ _ => true
  | .bufAccess _ _ _ => true
  | .dmaGrantForced _ _ _ => true
  | .dmaTransfer _ _ _ => true
  | .groupPowerDown _ _ _ => true
  | .groupOff _ _ _ => true
  | .groupForcedOff _ _ _ => true
  | .groupPowerUp _ _ => true
  | .groupClearDone _ _ => true
  | .ownerMapWrite _ _ _ _ => true
  | .ownerFillDone _ _ => true
  | .hbmAccess _ _ off hint len _ _ _ => decide (off + len ≤ Machine.hbmLen ∧ hint < 3)
  | .pfIssue _ _ => true
  | .hbmScrub _ _ _ _ => true
  | .msCommand _ _ _ part _ _ _ => decide (part ≤ 6)
  | .msComplete _ _ _ => true
  | .psramRead _ _ _ _ => true
  | .portEnableWrite _ _ _ _ => true
  | .frameStart _ _ _ _ _ _ => true
  | .frameEnd _ _ _ _ _ => true
  | .imageLine _ _ packet _ => decide (packet.words < 65536)
  | .metadataPacket _ _ _ _ _ _ _ _ _ => true
  | .packetIgnored _ _ _ => true
  | .lineTimeout _ _ _ _ => true
  | .developLine _ _ _ => true
  | .statsWindowEnd _ _ => true
  | .gainApply _ _ => true
  | .fwload _ _ => true
  | .fconv _ _ => true
  | .fpool _ _ => true
  | .vpool _ _ => true
  | .decide _ => true
  | .cropSample _ => true
  | .track _ => true
  | .trackEjecting _ _ => true
  | .trackRetire _ _ => true
  | .trackExpired _ _ _ => true
  | .thresholdWrite _ _ _ _ => true
  | .envelopeWrite _ _ _ _ => true
  | .windowNew _ => true
  | .windowAmend _ => true
  | .windowCancel _ => true
  | .latchCommit _ _ => true
  | .latchStrobe _ _ _ _ => true
  | .beltStall _ _ => true
  | .driverFault _ _ => true
  | .stringRefresh _ _ => true
  | .stringZeroLatch _ _ _ => true
  | .encoderEdge _ _ _ _ => true
  | .edgeFault _ _ => true
  | .magStep _ _ _ => true
  | .ssiFrameStart _ _ => true
  | .ssiFrameEnd _ _ _ _ _ => true
  | .encIndex _ _ => true
  | .lineFault _ _ _ => true
  | .lineFaultClear _ _ _ => true
  | .periodInvalid _ _ => true
  | .positionWrite _ _ _ _ => true
  | .indexArmWrite _ _ _ _ => true
  | .enc5vOverload _ _ => true
  | .enc5vRetry _ _ => true
  | .diSample _ _ _ _ => true
  | .diChange _ _ => true
  | .fieldWireBreak _ _ => true
  | .fieldSupplyLow _ => true
  | .fieldSupplyGood _ => true
  | .outputFrame _ _ => true
  | .fieldOutOvercurrent _ _ => true
  | .doRetry _ _ => true
  | .fieldOutOpenLoad _ _ => true
  | .fieldOutMismatch _ _ => true
  | .doFaultClear _ _ _ => true
  | .watchdogKick _ _ _ _ => true
  | .watchdogExpiry _ => true
  | .fieldLinkLost _ => true
  | .fieldPowerUp _ => true
  | .safeStateRelease _ _ _ => true
  | .doFaultAck _ _ _ _ => true
  | .rtpPacket _ _ _ _ _ _ _ payload => decide (payload.length < 65536)
  | .rtpRelease _ _ => true
  | .decodeSlice _ _ => true
  | .pictureDone _ _ _ => true
  | .videoBudget _ _ _ _ _ => true
  | .videoStreamLost _ _ => true
  | .vstreamEnableWrite _ _ _ _ => true
  | .templateEnableWrite _ _ _ _ => true
  | .batchBuild _ _ => true
  | .batchComplete _ _ => true
  | .attn _ _ _ => true
  | .seqLock _ _ => true
  | .kittyTake _ _ => true
  | .kittyEmpty _ _ => true
  | .kittyRefill _ => true
  | .kvPoolPagesWrite _ _ _ => true
  | .kvOpen _ _ => true
  | .kvFork _ _ => true
  | .kvClose _ _ => true
  | .kvFree _ _ => true
  | .teacherBatch _ _ _ => true
  | .trainingStart _ _ => true
  | .trainingEnd _ _ => true
  | .bankSealed _ _ => true
  | .validationEnd _ objects => objects.all fun g => g.weight != 0
  | .shiftStart _ => true
  | .adaptApprove _ _ _ => true
  | .adaptRefuse _ _ _ => true
  | .approvalTimeout _ => true
  | .swapArm _ => true
  | .swapSwitched _ _ => true
  | .watchEvaluate _ => true
  | .adaptRollback _ _ _ => true
  | .watchAccept _ => true
  | .trumpStart _ _ => true
  | .trumpStarted _ => true
  | .trumpStop _ _ => true
  | .trumpStopped _ => true
  | .trumpArrayMapWrite _ _ _ _ => true
  | .jobSubmit _ _ _ => true
  | .jobBlocked _ _ => true
  | .jobUnblocked _ _ => true
  | .residentLoadDone _ _ _ _ _ _ _ => true
  | .preemptBoundary _ _ _ => true
  | .jobDeadlineMissed _ _ => true
  | .jobOverrun _ _ => true
  | .jobAbort _ _ _ => true
  | .jobEnd _ _ => true
  | .queueEnableWrite _ _ _ _ => true
  | .queuePush _ _ _ packet _ _ _ => decide (1 ≤ packet.length ∧ packet.length ≤ 131072)
  | .queuePop _ _ _ _ _ => true
  | .queueRelease _ _ _ _ => true
  | .queueFlush _ _ _ _ => true
  | .flushBoundary _ _ => true
  | .queueMark _ _ _ _ => true
  | .queueRewind _ _ _ _ => true
  | .queueReset _ _ _ => true
  | .qSweepDone _ _ => true
  | .linkEnableWrite _ _ _ _ => true
  | .bitSlip _ _ _ _ _ => true
  | .fabAlignFail _ _ => true
  | .laneLockLoss _ _ => true
  | .txSleep _ _ => true
  | .txWake _ _ => true
  | .hello _ _ f => f.wf
  | .sleep _ _ f => f.wf
  | .ack _ _ f => f.wf
  | .nak _ _ f => f.wf
  | .replayTimeout _ _ => true
  | .tileHead _ _ f => f.wf
  | .tileData _ _ f => f.wf
  | .fabWrite _ _ f _ => f.wf
  | .fabReadReq _ _ f => f.wf
  | .readResp _ _ f => f.wf
  | .complete _ _ f => f.wf
  | .credit _ _ f => f.wf
  | .fabReturn _ _ f => f.wf
  | .fabTimeout _ _ => true
  | .bridgeDatagram _ _ f => f.wf
  | .objectWrite _ _ _ _ _ _ => true
  | .fdpOpenReq _ m => m.wf
  | .fdpClose _ m => m.wf
  | .fdpRead _ m => m.wf
  | .fdpWrite _ m => m.wf
  | .fdpDescribe _ m => m.wf
  | .fdpSegInit _ m => m.wf
  | .fdpSegData _ m => m.wf
  | .fdpSegEnd _ m => m.wf
  | .fdpSubscribe _ m => m.wf
  | .fdpKeepalive _ m => m.wf
  | .fdpBadKind _ _ m => m.wf
  | .fdpAuthFail _ m => m.wf
  | .segTimeout _ _ => true
  | .sessionTimeout _ _ => true
  | .sessionOpenIdle _ _ => true
  | .settingsCommit _ => true
  | .storeNow _ _ _ => true
  | .restoreDefaults _ _ _ => true
  | .roleKeyWrite _ _ _ _ => true
  | .integrateKeyEnrol _ _ _ => true
  | .fdpEnableWrite _ _ _ => true
  | .i3cRead _ body _ => messageFits body
  | .i3cWrite _ body _ => messageFits body
  | .i3cSegInit _ body _ => messageFits body
  | .i3cSegData _ body _ => messageFits body
  | .i3cSegEnd _ body _ => messageFits body
  | .i3cDescribe _ body _ => messageFits body
  | .eventPop _ body _ => messageFits body
  | .i3cResultRead _ => true
  | .i3cIbi _ => true
  | .entdaa _ _ => true
  | .setdasa _ _ _ => true
  | .setnewda _ _ => true
  | .rstdaa _ => true
  | .enec _ _ => true
  | .disec _ _ => true
  | .getpid _ => true
  | .getbcr _ => true
  | .getdcr _ => true
  | .getstatus _ => true
  | .getmwl _ => true
  | .setmwl _ _ => true
  | .getmrl _ => true
  | .setmrl _ _ => true
  | .getmxds _ => true
  | .enthdr0 _ => true
  | .ethFrame _ _ bytes _ _ => decide (14 ≤ bytes.length)
  | .ethLinkDown _ _ => true
  | .ptpDelayResp _ _ _ _ _ _ => true
  | .ptpAnnounce _ _ _ => true
  | .ptpMasterLost _ => true
  | .timeSet _ _ _ _ => true
  | .stepOverride _ _ _ => true
  | .overrideExpiry _ => true
  | .coutFrameStart _ _ => true
  | .overlayPending _ _ => true
  | .coutLine _ _ => true
  | .pdRequest _ _ _ _ => true
  | .pdPowerUpDone _ _ => true
  | .pdPowerDownDone _ _ => true
  | .powerSample _ _ => true
  | .ageMeasure _ _ _ _ _ => true
  | .marginPlanCommit _ => true
  | .planApplyWindow _ _ => true
  | .attestNonce _ _ _ _ => true
  | .attestReportReady _ => true
  | .integratorKeyWrite _ _ _ _ _ _ => true
  | .tamper _ => true
  | .recFlashWrite _ _ => true
  | .opTimeSave _ => true
  | .powerLoss _ => true
  | .recClear _ _ _ => true
  | .recEraseDone _ => true
  | .counterStrobe _ _ => true
  | .drainTimeout _ _ _ _ _ => true
  | .drainReport _ _ => true
  | .sensorSample _ _ _ => true
  | .sensorSilent _ _ => true
  | .sensorClear _ _ => true
  | .mgtHeartbeat _ => true
  | .mgtHeartbeatLost _ => true
  | .heartbeatReset _ => true
  | .supSelfCheck _ _ => true
  | .trumpStopHung _ => true
  | .unitRelease _ _ _ => true
  | .inputPowerGood _ => true
  | .boot _ _ => true
  | .hostReset _ _ => true
  | .mgtRestart _ _ => true
  | .resetTakeEffect _ => true
  | .phaseInService _ _ => true
  | .phaseTest _ _ => true
  | .phaseRecovery _ _ => true
  | .slotEraseDone _ _ _ => true
  | .modelActivateLoaded _ _ => true
  | .ethLinkUp _ _ => true
  | .rxWake _ _ => true
  | .txWakeEnd _ _ => true
  | .clockDataLock _ _ _ _ => true
  | .resetHoldEnd _ => true

end Sys2Proof
end

