-- ==== Sys2Proof/Tests/Slice0.lean ====
section
/-! SUPPORT. The tests: for every statement with hypotheses a state and operands that meet them (witness_<statement>, in
parts where a statement has several clauses), the checks of WellFormed with a command that each refuses, and values
computed outside the model: the spec's worked examples, its rules by hand, published check values. -/

namespace Sys2Proof.Tests

open Sys2Proof Sys2Proof.Machine

set_option Elab.async false

/-- A block in which only station `sid` is out of reset. -/
def only (sid : Nat) (x : Station) : State := { stations := [(sid, x)] }

/-- A step word of an opcode, ENC_VERSION 1 (R28). -/
def wordOf (op : Nat) : StepWord := BitVec.ofNat 128 (1 <<< 124 + op <<< 118)

/-- A station in RUN at the one word of its table. -/
def atWord (sid : Nat) (w : StepWord) : State := only sid { seq := .run, active := [w] }

/-- A stream map entry: its STREAM_ID, producer, consumer and CONS_PORT, epoch 1 (R26). -/
def entryOf (id prod cons port : Nat) : MapEntry :=
  BitVec.ofNat 128 (1 <<< 124 + id <<< 108 + prod <<< 84 + cons <<< 60 + port <<< 56 + 1 <<< 40)

/-- A tile on a stream: its epoch, SEQ and sender (R18). -/
def tileOf (id epoch : Nat) (seq : Word) (src : Nat) : Desc :=
  mkDesc 1 false false false false false false false false false id epoch seq src 1 1 0 4 0 0 0 0

/-- A job descriptor in order: its JOB_ID, an image and a context area in the HBM outside the Trump region (R351). -/
def jobOf (id : Nat) : Desc :=
  sealDesc (BitVec.ofNat 512 (1 <<< 508 + id <<< 464 + 0x100240000000 <<< 304 + 0x100240000000 <<< 168))

theorem witness_StepRunsFrontCommand : State.reset.pending = [] := rfl

theorem witness_SequencerMoves_nop : let s := atWord 0x20 (wordOf 0)
    s.standsAt 0x20 (wordOf 0) ∧ noSwitch (s.station 0x20) (wordOf 0) ∧ wordOp (wordOf 0) = 0 :=
  ⟨⟨.inl rfl, rfl, rfl⟩, .inl (by decide), by decide⟩

theorem witness_SequencerMoves_loop : let s := atWord 0x60 (wordOf 1)
    s.standsAt 0x60 (wordOf 1) ∧ noSwitch (s.station 0x60) (wordOf 1) ∧ wordOp (wordOf 1) = 1 :=
  ⟨⟨.inl rfl, rfl, rfl⟩, .inl (by decide), by decide⟩

/-- The last run of a loop, and the last but one. -/
theorem witness_SequencerMoves_endloop :
    (let s := only 0x60 { seq := .blocked, active := [0, wordOf 2], pc := 1, loops := [(1, 0)] }
     s.standsAt 0x60 (wordOf 2) ∧ noSwitch (s.station 0x60) (wordOf 2) ∧ wordOp (wordOf 2) = 2
      ∧ (s.station 0x60).loops = (1, 0) :: [])
    ∧ (let s := only 0x60 { seq := .run, active := [0, wordOf 2], pc := 1, loops := [(1, 0 + 1), (0, 0xFFFFFF)] }
     s.standsAt 0x60 (wordOf 2) ∧ (s.station 0x60).loops = (1, 0 + 1) :: [(0, 0xFFFFFF)]) :=
  ⟨⟨⟨.inr rfl, rfl, rfl⟩, .inl (by decide), by decide, rfl⟩, ⟨.inl rfl, rfl, rfl⟩, rfl⟩

/-- A FENCE met, with nothing emitted, and one unmet, a tile of stream 5 not yet accepted. -/
theorem witness_SequencerMoves_fence :
    (let s := atWord 0x9F (wordOf 3)
     s.standsAt 0x9F (wordOf 3) ∧ wordOp (wordOf 3) = 3 ∧ s.fenceMet 0x9F = true)
    ∧ (let s := { atWord 0x20 (wordOf 3) with streams := [(5, { entry := entryOf 5 0x20 0x50 0, unacc := 1 })] }
     s.standsAt 0x20 (wordOf 3) ∧ noSwitch (s.station 0x20) (wordOf 3) ∧ s.fenceMet 0x20 = false) :=
  ⟨⟨⟨.inl rfl, rfl, rfl⟩, by decide, by decide⟩, ⟨.inl rfl, rfl, rfl⟩, .inl (by decide), by decide⟩

/-- END with a table armed for it, with none armed, and at an array whose weight loader still works. -/
theorem witness_SequencerMoves_end :
    (let s := only 0 { seq := .run, active := [wordOf 4], shadow := .armed [wordOf 4] .atEnd }
     s.standsAt 0 (wordOf 4) ∧ wordOp (wordOf 4) = 4 ∧ (s.station 0).shadow = .armed [wordOf 4] .atEnd
      ∧ (SwitchCond.atEnd = .atEnd ∨ SwitchCond.atEnd = .atYield))
    ∧ (let s := atWord 0 (wordOf 4)
     s.standsAt 0 (wordOf 4) ∧ s.unitsBusy 0 = false ∧ ∀ tbl c, (s.station 0).shadow ≠ .armed tbl c)
    ∧ (let s := { atWord 0 (wordOf 4) with paths := [(0, { loading := some { word := wordOf 0x10 } })] }
     s.standsAt 0 (wordOf 4) ∧ (bit (wordOf 4) 0 = false ∧ s.unitsBusy 0 = true)
      ∧ ∀ tbl c, (s.station 0).shadow ≠ .armed tbl c) :=
  ⟨⟨⟨.inl rfl, rfl, rfl⟩, by decide, rfl, .inl rfl⟩, ⟨⟨.inl rfl, rfl, rfl⟩, by decide, nofun⟩,
    ⟨.inl rfl, rfl, rfl⟩, by decide, nofun⟩

/-- A table of one END passes the check; a loaded one may be armed. -/
theorem witness_SequencerMoves_slot :
    (let s := only 0x60 {}
     s.exists' 0x60 = true ∧ (∀ tb c, (s.station 0x60).shadow ≠ .armed tb c)
      ∧ s.tableCheck argsOk 0x60 [wordOf 4] = none)
    ∧ (let s := only 0x60 { shadow := .loaded [wordOf 4] }
     (s.station 0x60).shadow = .loaded [wordOf 4] ∧ s.armAllowed 0x60 .atEnd = true) :=
  ⟨⟨by decide, nofun, by decide⟩, rfl, by decide⟩

theorem witness_StationStates_start :
    (let s := only 0x60 { seq := .idle, active := [wordOf 4] }
     s.exists' 0x60 = true ∧ s.startAllowed 0x60 = true ∧ s.streams = [] ∧ (s.station 0x60).seq = .idle
      ∧ (s.station 0x60).active ≠ [] ∧ ∀ tbl c, (s.station 0x60).shadow ≠ .armed tbl c)
    ∧ (let s := only 0x60 { seq := .fault }
     s.exists' 0x60 = true ∧ s.startAllowed 0x60 = true ∧ (s.station 0x60).seq ≠ .idle) :=
  ⟨⟨by decide, by decide, rfl, rfl, by decide, nofun⟩, by decide, by decide, by decide⟩

/-- Clearing at the epoch that wraps. -/
theorem witness_StationStates_clear : let s := only 0x60 { seq := .fault, epoch := 0xFFFF }
    s.mayClear 0x60 = true ∧ s.sched.owner = [] ∧ s.sched.jobs = [] ∧ (s.station 0x60).epoch = 0xFFFF := by decide

theorem witness_StationStates_fault :
    (let s := only 0x60 { seq := .idle }
     fld (0x04000209 : Word) 31 24 = 4 ∧ s.exists' 0x60 = true ∧ (s.station 0x60).seq = .idle ∧ s.isTrump 0x60 = false
      ∧ isArray 0x60 = false ∧ s.sched.jobs = [] ∧ s.sched.owner = [] ∧ (s.station 0x60).faults = []
      ∧ 1 < s.nat Dict.faultLimit)
    ∧ (let s := only 0x60 { seq := .fault }
     (s.station 0x60).seq = .fault ∨ (s.station 0x60).seq = .off) := by decide

theorem witness_StreamsAndTiles_map : let e := entryOf 0x8001 0x60 0x61 15
    State.reset.isLocal (mapCons e) = true ∧ State.reset.entryBad e = none
      ∧ (State.reset.trumpRuns && mapTrump e) = false := by decide

/-- A tile in order, its SEQ the last before the wrap. -/
theorem witness_StreamsAndTiles_receive :
    (let x : Stream := { entry := entryOf 5 0x60 0x61 15, expect := 0xFFFFFFFF }
     let s : State := { only 0x61 { seq := .idle } with streams := [(5, x)] }
     let d := tileOf 5 1 0xFFFFFFFF 0x60
     s.isLocal 0x61 = true ∧ s.exists' 0x61 = true ∧ descCrcOk d = true ∧ fld d 511 508 = 1
      ∧ s.streams.look (fld d 479 464) = some x ∧ s.inStream 0x61 15 = some (fld d 479 464, x)
      ∧ BitVec.ofNat 16 (fld d 463 448) = (s.station 0x61).epoch ∧ (s.station 0x61).seq ≠ .drain
      ∧ (s.station 0x61).seq ≠ .fault ∧ s.trump.adapter = none
      ∧ mapViaQueue x.entry = false ∧ x.expect = BitVec.ofNat 32 (fld d 447 416)) := by decide +kernel

/-- A stream to a station whose epoch is 2, all its tiles sent in the epoch `e` of their sender. -/
def oldTile (e : BitVec 16) : State :=
  { only 0x61 { seq := .idle, epoch := 2 } with streams := [(5, { entry := entryOf 5 0x60 0x61 15, sentIn := e })] }

/-- A tile of an old epoch, of a sender whose epoch is that of the tile and of one whose epoch has changed. -/
theorem witness_StreamsAndTiles_returned : let d := tileOf 5 1 0 0x60
    (oldTile 1).isLocal 0x61 = true ∧ (oldTile 1).exists' 0x61 = true ∧ descCrcOk d = true ∧ fld d 511 508 = 1
    ∧ (oldTile 1).streams.look (fld d 479 464) = some { entry := entryOf 5 0x60 0x61 15, sentIn := 1 }
    ∧ BitVec.ofNat 16 (fld d 463 448) ≠ ((oldTile 1).station 0x61).epoch
    ∧ (oldTile 1).isLocal (fld d 413 392) = true ∧ (oldTile 1).exists' (fld d 399 392) = true
    ∧ (oldTile 1).senderChanged (fld d 399 392) (fld d 479 464) (BitVec.ofNat 32 (fld d 447 416)) = false
    ∧ (oldTile 7).senderChanged (fld d 399 392) (fld d 479 464) (BitVec.ofNat 32 (fld d 447 416)) = true := by
  decide +kernel

/-- A step of a DMA engine with no bound input starts; one whose bound input is empty waits. -/
theorem witness_StepsStartAndEmit_start :
    (let s := atWord 0x60 (wordOf 0x10)
     s.standsAt 0x60 (wordOf 0x10) ∧ 0x10 ≤ wordOp (wordOf 0x10) ∧ isArray 0x60 = false
      ∧ (∀ tbl c, (s.station 0x60).shadow ≠ .armed tbl c)
      ∧ (s.boundInputs 0x60 (wordOf 0x10)).all (s.portReady 0x60) = true ∧ s.lineReady 0x60 = true
      ∧ (wordHasOut 0x60 (wordOf 0x10) = true → s.creditsReady 0x60 (wordOut (wordOf 0x10)) = true))
    ∧ (let s := { atWord 0x60 (wordOf 0x3F) with streams := [(5, { entry := entryOf 5 0x61 0x60 0 })] }
     s.standsAt 0x60 (wordOf 0x3F) ∧ 0x10 ≤ wordOp (wordOf 0x3F) ∧ (∀ tbl c, (s.station 0x60).shadow ≠ .armed tbl c)
      ∧ (s.boundInputs 0x60 (wordOf 0x3F)).all (s.portReady 0x60) = false) :=
  ⟨⟨⟨.inl rfl, rfl, rfl⟩, by decide, by decide, nofun, by decide, by decide, by decide⟩,
    ⟨.inl rfl, rfl, rfl⟩, by decide, nofun, by decide⟩

/-- A weight load and a bias load of whole array 15 and a product, which are there at once; a bias load of a half whose
input is empty. -/
theorem witness_StepsStartAndEmit_array :
    (∀ op ∈ [0x10, 0x11, 0x13],
      let s := { atWord 15 (wordOf op) with
        streams := [(5, { entry := entryOf 5 0x60 15 0 })] }
      let z := s.mapStation 15 fun x => { x with inq := [(0, [.tile (tileOf 5 1 0 0x60)])] }
      ((z.station 15).seq = .run ∧ (z.station 15).running = none ∧ (z.station 15).word = some (wordOf op))
      ∧ 0x10 ≤ wordOp (wordOf op) ∧ isArray 15 = true ∧ (z.station 15).shadow = .empty ∧ z.unitsBusy 15 = false
      ∧ (z.arr (arrayOf 15)).loads = [] ∧ (z.path 15).shadow = none ∧ z.stepReady 15 (wordOf op) = true)
    ∧ (let s := { atWord 0x9F (wordOf 0x13) with streams := [(5, { entry := entryOf 5 0x61 0x9F 0 })] }
      ((s.station 0x9F).seq = .run ∧ (s.station 0x9F).running = none ∧ (s.station 0x9F).word = some (wordOf 0x13))
      ∧ isArray 0x9F = true ∧ (s.station 0x9F).shadow = .empty ∧ s.unitsBusy 0x9F = false
      ∧ (s.arr (arrayOf 0x9F)).loads = [] ∧ (s.path 0x9F).shadow = none ∧ s.stepReady 0x9F (wordOf 0x13) = false) := by
  decide +kernel

/-- The last tile of a step, and one that another follows; the byte at the top of the address space is served. -/
theorem witness_StepsStartAndEmit_emit :
    let r : Running := { word := wordOf 0x10, outs := [{ bytes := [7] }], computed := true }
    let q : Running := { r with outs := [{ bytes := [7] }, {}] }
    (let s := only 0x60 { seq := .run, running := some r }
     (s.station 0x60).running = some r ∧ r.outs = { bytes := [7] } :: [] ∧ s.tileTags 0x60 (wordOut r.word) = true
      ∧ s.tileRoom 0x60 (wordOut r.word) { bytes := [7] } = true ∧ s.fillingAt 0x1023FFFFFFFF = false
      ∧ r.computed = true ∧ isArray 0x60 = false ∧ s.outStreams 0x60 (wordOut r.word) = [] ∧ s.accessStatus 0x60 true (0x1023FFFFFFFF + 0) = none)
    ∧ (let s := only 0x60 { seq := .run, running := some q }
     (s.station 0x60).running = some q ∧ q.outs = { bytes := [7] } :: [{}] ∧ ([{}] : List OutTile) ≠ []) := by
  decide

/-- The last group, ON, may be switched off; its last write has landed; 2 µs have just passed; it is OFF; it powers
down; it is being cleared, with no request for OFF and with one that waits. -/
theorem witness_BufferGroups_power :
    (let s : State := { groups := [(23, { st := .on })] }
     (s.group 23).st = .on ∧ s.groupMayOff 23 = true)
    ∧ (let s : State := { groups := [(23, { st := .poweringDown, since := 5 })] }
     (s.group 23).st = .poweringDown ∧ (s.group 23).inflight = 0 ∧ (s.group 23).since + 2000 ≤ max 2005 s.tb
      ∧ s.groupExists 23 = true)
    ∧ (State.reset.groupExists 16 = true ∧ (State.reset.group 16).st = .off)
    ∧ (let s : State := { groups := [(0, { st := .clearing })] }
     (s.group 0).st = .clearing ∧ (s.group 0).downPending = false)
    ∧ (let s : State := { groups := [(23, { st := .clearing, downPending := true })] }
     (s.group 23).st = .clearing ∧ (s.group 23).downPending = true ∧ s.pdMayOff (16 + 23) = true
      ∧ s.groupMayOff 23 = true) := by decide +kernel

/-- A write that moves group 7, or engine 7 at rest, and leaves the rest. -/
theorem witness_BufferGroups_owner :
    State.reset.numberPasses .integrate Dict.sharedOwnerMap 0 (0x80 : BitVec 8).toNat
    ∧ (only 0x67 { seq := .idle }).numberPasses .integrate Dict.dmaOwnerMap 0 (0x80 : BitVec 8).toNat
    ∧ (inMap (State.reset.nat Dict.sharedOwnerMap) (7 : Fin 8) ≠ inMap (0x80 : BitVec 8).toNat (7 : Fin 8))
    ∧ (inMap (State.reset.nat Dict.sharedOwnerMap) (6 : Fin 8) = inMap (0x80 : BitVec 8).toNat (6 : Fin 8))
    ∧ (inMap ((only 0x67 { seq := .idle }).nat Dict.dmaOwnerMap) (7 : Fin 8)
      ≠ inMap (0x80 : BitVec 8).toNat (7 : Fin 8)) := by
  unfold State.numberPasses State.writePasses; decide +kernel

/-- A write and a read alone at the last bank's last address; an array read and a DMA read after 32 refusals. -/
theorem witness_BankAccesses_granted :
    (let s : State := { groups := [(23, { st := .on })] }
     let r : BankReq := { cls := .dma, sid := 0x60, addr := 0x0BFFFFFF, data := some [1] }
     (s.bank 0x13F).burst = 0 ∧ s.reachesBank 0x13F r = true ∧ r.data = some [1]
      ∧ s.reachesBank 0x13F { r with data := none } = true ∧ fld ({ r with data := none } : BankReq).mode 15 14 = 0)
    ∧ (let a : BankReq := { cls := .array, sid := 1, addr := 0x600000 }
     let w : BankReq := { cls := .dma, sid := 0x60, addr := 0x600000 }
     let s : State := { groups := [(1, { st := .on })], banks := [(16, { refused := [(w.who, 32)] })] }
     (s.bank 16).burst = 0 ∧ (s.bank 16).starved w = true ∧ s.reachesBank 16 a = true ∧ s.reachesBank 16 w = true
      ∧ a.cls = .array ∧ a.data = none ∧ w.data = none) := by decide +kernel

/-- A read and a write of a group that is OFF. -/
theorem witness_BankAccesses_refused :
    State.reset.reqStatus { cls := .dma, sid := 0x60, addr := 0x0BFFFFFF } = some 0x05600404
    ∧ (State.reset.reqStatus { cls := .dma, sid := 0x60, addr := 0x0BFFFFFF, data := some [1] }).isSome = true
    ∧ fld (0x05600404 : Word) 15 0 ≠ 0x0405 := by decide +kernel

theorem witness_DmaTransferCopies :
    let s := only 0x67 { seq := .run }
    let d : DmaDesc := { src := 0x100240000000, dst := 0x1023FFFFFFFF, len := 1 }
    kindOf 0x67 = .dma ∧ (s.station 0x67).seq ≠ .off ∧ (s.station 0x67).seq ≠ .fault ∧ d.refusal 0x67 = none
      ∧ d.remoteSrc = none ∧ d.remoteDst = none ∧ d.declared = none ∧ d.expand = none ∧ d.compress = none
      ∧ fld d.mode 15 14 = 0 ∧ d.ecc ≠ .bad ∧ s.dmaWaits d = false ∧ (d.needsTag = true → s.mayIssue 0x67 = true)
      ∧ s.rangeStatus 0x67 false d.src d.len = none ∧ s.poisonedRange d.src d.len = false
      ∧ s.accessStatus 0x67 true (d.dst + 0) = none := by decide

/-- A read of the last byte that the rules forbid, one held in the cache, one that waits for its channel; a write of
the first line. -/
theorem witness_HbmAccessServes :
    (let off := hbmLen - 1
     let s : State := { mem := { cache := [(wayKey (setOf (lineOf off)) 0, { line := lineOf off })] } }
     0 < 1 ∧ off + 1 ≤ hbmLen ∧ off / 256 = (off + 1 - 1) / 256 ∧ s.mayIssue 0x60 = true
      ∧ s.rangeStatus 0x60 false (hbmBase + off) 1 = none ∧ s.channel (channelOf off) = []
      ∧ s.poisonedRange (hbmBase + off) 1 = false ∧ s.cacheHit off 1 = true)
    ∧ (let off := hbmLen - 1
     let s : State := { mem := { slotAt := [(channelOf off, 1)] } }
     s.mayIssue 0x60 = true ∧ s.rangeStatus 0x60 false (hbmBase + off) 1 = none ∧ s.channel (channelOf off) = []
      ∧ s.cacheHit off 1 = false ∧ max 0 s.tb < s.mem.slotAt.val 0 (channelOf off))
    ∧ (State.reset.rangeStatus 0x60 false (hbmBase + 0) 1).isSome = true
    ∧ (let d : List Byte := List.replicate 128 1
     let off := 0x240000000
     State.reset.mayIssue 0x60 = true ∧ 0 < d.length ∧ d.length ≤ 256 ∧ off + d.length ≤ hbmLen
      ∧ off / 256 = (off + d.length - 1) / 256 ∧ off % 128 = 0 ∧ d.length % 128 = 0 ∧ (0 : Nat) ≠ 2
      ∧ State.reset.rangeStatus 0x60 true (hbmBase + off) d.length = none
      ∧ State.reset.channel (channelOf off) = []) := by decide +kernel

/-- A prefetcher at the end of its stream, and one at the start of its depth; the last address to scrub. -/
theorem witness_MemoryServices_prefetch :
    (let s : State := { mem := { pf := [(0, { live := true, next := 64, stop := some 64 })] } }
     (s.pf 0).live = true ∧ (s.pf 0).ended = true)
    ∧ (let s : State := { mem := { pf := [(255, { station := 0x60, live := true, next := hbmLen - 1, last := hbmLen - 1 })] } }
     let p := s.pf 255
     p.live = true ∧ p.ended = false ∧ (p.next - p.last).natAbs ≤ (s.num Dict.pfDepth * 1024).natAbs ∧ 0 ≤ p.next
      ∧ p.next < hbmLen ∧ s.hbmAllowed p.station false p.next.toNat = true
      ∧ (s.station p.station).tags + 8 ≤ (s.station p.station).cap)
    ∧ hbmLen - 1 < hbmLen := by decide

/-- Commands on partition 3: the last 32 blocks; one past the end; on partition 0; under way. -/
theorem witness_MemoryServices_store :
    (kindOf 0x60 = .dma ∧ State.reset.isTrump 0x60 = false ∧ State.reset.mayIssue 0x60 = true
      ∧ State.reset.partAllowed true 3 = true ∧ 0 < 32 ∧ 32 ≤ 32 ∧ 3906218 + 32 ≤ partBlocks 3)
    ∧ (State.reset.partAllowed true 0 = false ∨ partBlocks 0 < 0 + 1) ∧ partBlocks 3 < 3906219 + 32
    ∧ (let s : State := { mem := { ms := [⟨0x60, false, 3, 0, 1, 0x240000000⟩] } }
     s.isTrump 0x60 = false ∧ s.mayIssue 0x60 = true ∧ s.mem.ms = ⟨0x60, false, 3, 0, 1, 0x240000000⟩ :: []
      ∧ s.accessStatus 0x60 true (hbmBase + 0x240000000 + 0) = none)
    ∧ (let s : State := { mem := { ms := [⟨0x60, true, 3, 0, 1, 0x240000000⟩] } }
     s.isTrump 0x60 = false ∧ s.mayIssue 0x60 = true ∧ s.mem.ms = ⟨0x60, true, 3, 0, 1, 0x240000000⟩ :: []
      ∧ s.rangeStatus 0x60 false (hbmBase + 0x240000000) (1 * 4096) = none
      ∧ s.poisonedRange (hbmBase + 0x240000000) (1 * 4096) = false)
    ∧ (let s : State := { mem := { ms := [⟨0x60, true, 3, 0, 32, 0⟩] } }
     s.isTrump 0x60 = false ∧ s.mayIssue 0x60 = true ∧ s.mem.ms = ⟨0x60, true, 3, 0, 32, 0⟩ :: []) := by decide +kernel

theorem witness_MemoryServices_psram : psramWords - 1 < psramWords ∧ EccResult.corrected ≠ .bad := by decide

/-- A queue enabled in plain mode with free cells, at a packet of one byte; a queue that is not enabled. -/
theorem witness_QueuePackets :
    (let s := State.reset.setNum Dict.queueEnable 1 0xFFF
     s.queueOn 0xFFF = true ∧ s.queueStrip 0xFFF = false ∧ (s.queue 0xFFF).unread = [] ∧ ([7] : List Byte) ≠ []
      ∧ s.pushTooLong 0xFFF (packetCells 1) = false ∧ (s.pushCells 0xFFF (packetCells 1)).length = packetCells 1)
    ∧ State.reset.queueOn 0 = false := by decide +kernel

/-- The push of the second statement answers a next state. -/
theorem witness_QueuePackets_push : ∃ u,
    exec (.queuePush 0 0x60 0xFFF [7] false false false) (State.reset.setNum Dict.queueEnable 1 0xFFF) = .next u := ⟨_, rfl⟩

/-- A queue in strip-pair mode with an unread packet, and room in the fill bank. -/
theorem witness_QueuePackets_strip :
    let p : Packet := { id := 0, cells := [0], len := 1, stream := false }
    let s : State := { (State.reset.setNum Dict.queueEnable 1 5).setNum Dict.queueMode 1 5 with
      queues := { q := [(5, { unread := [p], fillCells := [1], drainCells := [0] })] } }
    s.queueOn 5 = true ∧ s.queueStrip 5 = true ∧ s.pushTooLong 5 1 = false ∧ (s.pushCells 5 1).length = 1
      ∧ (s.queue 5).unread ≠ [] := by decide +kernel

/-- An enabled queue with an unread and a held packet, the held one marked, a FLUSH pending. -/
theorem witness_QueueStates :
    let p : Packet := { id := 1, cells := [0], len := 1, stream := false }
    let q : Packet := { id := 2, cells := [65535], len := 1, stream := false }
    let s : State := { (State.reset.setNum Dict.queueEnable 1 0xFFF).setNum Dict.rewindEnable 1 0xFFF with
      boot := { phase := .recovery }
      queues := { q := [(0xFFF, { held := [p], unread := [q], mark := some 1, flush := true, incarn := 15 })] } }
    let x := s.queue 0xFFF
    s.queueOn 0xFFF = true ∧ x.unread = q :: [] ∧ x.held = p :: [] ∧ s.queueStrip 0xFFF = false
      ∧ s.markAllowed 0xFFF = true ∧ x.mark = some p.id ∧ x.flush = true ∧ s.fab.landing = [] := by decide +kernel

theorem witness_QueueStates_enable :
    State.reset.numberPasses .integrate Dict.queueEnable 0xFFF (1 : BitVec 8).toNat ∧ State.reset.queueStrip 0xFFF = false := by
  unfold State.numberPasses State.writePasses; decide +kernel

/-- A queue whose oldest unread packet is a tile of stream 5, popped by the station that the stream feeds. -/
theorem witness_QueueStates_pop :
    let e : MapEntry := entryOf 5 0x60 0x61 15 + BitVec.ofNat 128 (1 <<< 38 + 0xFFF <<< 26)
    let y : Stream := { entry := e }
    let p : Packet := { id := 1, cells := [65535], len := 64, stream := true }
    let s : State := { State.reset.setNum Dict.queueEnable 1 0xFFF with
      stations := [(0x61, { seq := .blocked })], streams := [(5, y)], queues := { q := [(0xFFF, { unread := [p] })] }
      mem := { bytes := putBytes [] (State.reset.cellAddr 65535) (wordBytes (tileOf 5 1 0 0x60)) } }
    let d := bytesWord 512 ((s.packetBytes p).take 64)
    s.queueOn 0xFFF = true ∧ (s.queue 0xFFF).unread = p :: [] ∧ p.stream = true
      ∧ s.streams.look (fld d 479 464) = some y ∧ mapViaQueue y.entry = true ∧ mapQueue y.entry = 0xFFF
      ∧ s.isLocal (mapCons y.entry) = true ∧ mapCons y.entry % 256 = 0x61 ∧ s.exists' 0x61 = true ∧ descCrcOk d = true
      ∧ fld d 511 508 = 1 ∧ BitVec.ofNat 16 (fld d 463 448) = (s.station 0x61).epoch
      ∧ s.inStream 0x61 (mapConsPort y.entry) = some (fld d 479 464, y) ∧ (s.station 0x61).seq = .blocked
      ∧ s.trump.adapter = none ∧ y.expect = BitVec.ofNat 32 (fld d 447 416) := by decide +kernel

/-- A WLOAD of one index whose tile is missing, into free shadow registers; a BLOAD of a missing tile. -/
theorem witness_ArrayAndFrontLoads_array :
    (let r : Running := { word := wordOf 0x10 ||| BitVec.ofNat 128 (0x0E <<< 71 + 1 <<< 61), ins := [(0, .gap 1)] }
     let s := { only 0x0F { seq := .run } with paths := [(0x0F, { loading := some r })] }
     let v := (s.at 0).startUnits 0x0F
     v.warm 0x0F = true ∧ ({} : ArrayRun).parity = false ∧ (v.path 0x0F).loading = some r
      ∧ (v.loadWeights 0x0F r).isSome = true)
    ∧ (let r : Running := { word := wordOf 0x13, ins := [(0, .gap 1)] }
     let s := { only 0x80 { seq := .run } with paths := [(0x80, { biasing := some r })] }
     let v := (s.at 0).startUnits 0x80
     v.warm 0x80 = true ∧ (v.path 0x80).biasing = some r ∧ Running.before r.order (v.path 0x80).next = false
      ∧ (v.feed 0x80 (wordInA r.word) r).isSome = true) := by decide +kernel

/-- An FWLOAD of one INT8 weight, from the last byte of the HBM. -/
theorem witness_ArrayAndFrontLoads_front :
    let d := mkDesc 0x0E false false false false false false false false false 5 1 0 0x60 1 1 0 1 0x1023FFFFFFFF 0 0 0
    let r : Running := { word := wordOf 0x20 ||| BitVec.ofNat 128 (0x0E <<< 71), ins := [(0, .tile d)] }
    let s := only 0x26 { seq := .run, running := some r }
    kindOf 0x26 = .fe ∧ (s.station 0x26).running = some r ∧ wordOp r.word = 0x20 ∧ r.ins = [(wordInA r.word, .tile d)]
      ∧ fld d 507 503 = fld r.word 75 71 ∧ bit d 502 = false ∧ bit d 501 = false ∧ bit d 498 = false
      ∧ 0 < fld d 351 332 ∧ s.rangeStatus 0x26 false (fld d 319 272) (fld d 351 332) = none
      ∧ s.poisonedRange (fld d 319 272) (fld d 351 332) = false := by decide +kernel

/-- An MMUL of 128 rows, an OSMUL and an MVMUL, each of K = 0. -/
theorem witness_ArrayResults_empty :
    (let r : Running := { word := wordOf 0x11 ||| BitVec.ofNat 128 (0x0E <<< 71 + 0x0E <<< 66 + 127 <<< 9) }
     let s := only 0x0F { seq := .run, running := some r }
     let g := mmulArgs r.word
     let v := (s.at 0).startUnits 0x0F
     (v.station 0x0F).running = some r ∧ r.computed = false ∧ v.warm 0x0F = true ∧ isArray 0x0F = true ∧ r.done = 0 ∧ wordOp r.word = 0x11
      ∧ g.k = 0 ∧ g.init = 0 ∧ g.swap = false ∧ g.m = 128 ∧ (operandPair g.fa g.fb g.mx).isSome = true)
    ∧ (let r : Running := { word := wordOf 0x12 ||| BitVec.ofNat 128 (0x0E <<< 71 + 0x0E <<< 66) }
     let s := only 0x0F { seq := .run, running := some r }
     let g := osmulArgs r.word
     let v := (s.at 0).startUnits 0x0F
     (v.station 0x0F).running = some r ∧ v.warm 0x0F = true ∧ wordOp r.word = 0x12 ∧ g.k = 0
      ∧ (operandPair g.fa g.fb g.mx).isSome = true)
    ∧ (let r : Running := { word := wordOf 0x18 ||| BitVec.ofNat 128 (0x0E <<< 71 + 0x0E <<< 66) }
     let s := only 0x23 { seq := .run, running := some r }
     let g := osmulArgs r.word
     ((s.at 0).station 0x23).running = some r ∧ (s.at 0).warm 0x23 = true ∧ isArray 0x23 = false ∧ wordOp r.word = 0x18 ∧ g.k = 0
      ∧ (operandPair g.fa g.fb g.mx).isSome = true) := by decide +kernel

/-- Are the tiles there that a step of a station takes: `na` at its first port, `nb` at its second? -/
def tilesThere (v : State) (sid : Nat) (r : Running) (na nb : Nat) : Bool :=
  ((v.feedN sid (wordInA r.word) r na).bind fun x => x.2.2.feedN sid (wordInB r.word) x.2.1 nb).isSome

/-- An MMUL on FP8 with one missing activation tile; the last index of an OSMUL and of an MVMUL, its tiles missing. -/
theorem witness_ArrayResults_tiles :
    (let r : Running := { word := wordOf 0x11 ||| BitVec.ofNat 128 (5 <<< 71 + 5 <<< 66 + 1 <<< 40), ins := [(0, .gap 1)] }
     let v := ((only 0x0F { seq := .run, running := some r }).at 0).startUnits 0x0F
     let g := mmulArgs r.word
     (v.station 0x0F).running = some r ∧ r.computed = false ∧ v.warm 0x0F = true ∧ isArray 0x0F = true
      ∧ wordOp r.word = 0x11 ∧ operandPair g.fa g.fb g.mx = some (.float, 1) ∧ g.swap = false
      ∧ tilesThere v 0x0F r (ceilDiv g.k 128) (if g.init = 2 then 1 else 0) = true)
    ∧ (let r : Running := { word := wordOf 0x12 ||| BitVec.ofNat 128 (0x0E <<< 71 + 0x0E <<< 66 + 1 <<< 55 + 1 <<< 11)
                            ins := [(wordInA (wordOf 0x12), .gap 1), (wordInB (wordOf 0x12), .gap 1)] }
     let v := ((only 0x0F { seq := .run, running := some r }).at 0).startUnits 0x0F
     let g := osmulArgs r.word
     (v.station 0x0F).running = some r ∧ v.warm 0x0F = true ∧ wordOp r.word = 0x12
      ∧ operandPair g.fa g.fb g.mx = some (.int, 1) ∧ 0 < g.k - r.done ∧ tilesThere v 0x0F r 1 1 = true
      ∧ r.done + min (g.k - r.done) 128 = g.k)
    ∧ (let r : Running := { word := wordOf 0x18 ||| BitVec.ofNat 128 (0x0E <<< 71 + 0x0E <<< 66 + 1 <<< 11)
                            ins := [(wordInA (wordOf 0x18), .gap 1), (wordInB (wordOf 0x18), .gap 1)] }
     let v := (only 0x23 { seq := .run, running := some r }).at 0
     let g := osmulArgs r.word
     (v.station 0x23).running = some r ∧ v.warm 0x23 = true ∧ isArray 0x23 = false ∧ wordOp r.word = 0x18
      ∧ operandPair g.fa g.fb g.mx = some (.int, 1) ∧ 0 < g.k - r.done ∧ tilesThere v 0x23 r 1 1 = true) := by
  decide +kernel

/-- A CHECK word with an expected CRC. -/
def checkWord (x : Nat) : StepWord := BitVec.ofNat 128 (1 <<< 124 + 0x14 <<< 118 + x <<< 12)

theorem fld_checkWord (x : Nat) (h : x < 4294967296) : wordOp (checkWord x) = 0x14 ∧ fld (checkWord x) 75 44 = 0
    ∧ fld (checkWord x) 43 12 = x := by
  simp only [wordOp, fld, checkWord, BitVec.extractLsb'_toNat, BitVec.toNat_ofNat, Nat.shiftLeft_eq,
    Nat.shiftRight_eq_div_pow]
  omega

theorem crc32Step_lt (k : Nat) : ∀ c, c < 2 ^ 32 → crc32Step c k < 2 ^ 32 := by
  induction k with
  | zero => exact fun _ h => h
  | succ k ih =>
    intro c h
    refine ih _ ?_
    split
    · exact Nat.xor_lt_two_pow (by omega) (by decide)
    · omega

theorem crc32_lt (l : List Byte) : crc32 l < 2 ^ 32 := by
  refine Nat.xor_lt_two_pow ?_ (by decide)
  suffices ∀ c, c < 2 ^ 32 → l.foldl (fun c b => crc32Step (c ^^^ b.toNat) 8) c < 2 ^ 32 from this _ (by decide)
  induction l with
  | nil => exact fun _ h => h
  | cons b l ih => exact fun c h => ih _ (crc32Step_lt 8 _ (Nat.xor_lt_two_pow h (by omega)))

/-- The CRC of the check values may be the one expected, or not. -/
theorem witness_ArrayResults_crc :
    (∃ w, wordOp w = 0x14 ∧ (checkCrc (BitVec.ofNat 32 (fld w 75 44)) [] == fld w 43 12) = true)
    ∧ ∃ w, wordOp w = 0x14 ∧ (checkCrc (BitVec.ofNat 32 (fld w 75 44)) [] == fld w 43 12) = false := by
  have ok (x : Nat) (h : x < 4294967296) :
      (checkCrc (BitVec.ofNat 32 (fld (checkWord x) 75 44)) [] == fld (checkWord x) 43 12) = (checkCrc 0#32 [] == x) := by
    rw [(fld_checkWord x h).2.1, (fld_checkWord x h).2.2]
  have h : checkCrc 0#32 [] < 4294967296 := crc32_lt _
  generalize checkCrc 0#32 [] = c at ok h
  have z : (if c = 0 then 1 else 0) < 4294967296 := by split <;> decide
  refine ⟨⟨_, (fld_checkWord c h).1, (ok c h).trans (by simp)⟩, _, (fld_checkWord _ z).1, (ok _ z).trans ?_⟩
  by_cases e : c = 0 <;> simp [e]

/-- On a faulted array; run from a table. -/
theorem witness_ArrayResults_check :
    (((only 3 { seq := .fault }).station 3).seq = .fault ∧ wordOp (wordOf 0x14) = 0x14)
    ∧ (let w := wordOf 0x14
     let r : Running := { word := w }
     let s := only 0x80 { seq := .run, running := some r }
     let v := (s.at 0).startUnits 0x80
     isArray 0x80 = true ∧ (v.station 0x80).running = some r ∧ v.warm 0x80 = true ∧ (v.path 0x80).next = none
      ∧ (v.station 0x80).seq = .run) := by decide +kernel

/-- A half of a split array is there. -/
theorem witness_ArrayResults_half : (((State.reset.setNum Dict.arraySplitMap 1).at 0).startUnits 0x80).exists' 0x80 = true := by
  decide +kernel

/-- A window of one line whose line is present: FCONV, FPOOL, VPOOL. -/
theorem witness_ArrayResults_window :
    let w : Nat → StepWord := fun op => wordOf op ||| BitVec.ofNat 128 (0x11 <<< 71 + 0x0E <<< 66)
    let s : Nat → Nat → State := fun sid op => { only sid { seq := .run, running := some { word := w op } } with
      fronts := [(sid, { ports := [(0, { row := 40 })] })] }
    let r : Nat → Running := fun op => { word := w op }
    (((s 0x26 0x21).station 0x26).running = some (r 0x21) ∧ (r 0x21).computed = false
      ∧ ((s 0x26 0x21).at 0).slidesTo 0x26 (r 0x21) = some (0, 0) ∧ kindOf 0x26 = .fe ∧ wordOp (r 0x21).word = 0x21
      ∧ ((s 0x26 0x21).at 0).partsThere 0x26 (r 0x21) = true ∧ (fePair (winArgs 0x26 (r 0x21).word).fmt (fld (r 0x21).word 70 66)).isSome = true)
    ∧ (((s 0x29 0x22).station 0x29).running = some (r 0x22)
      ∧ ((s 0x29 0x22).at 0).slidesTo 0x29 (r 0x22) = some (0, 0) ∧ kindOf 0x29 = .fe ∧ wordOp (r 0x22).word = 0x22)
    ∧ (((s 0x10 0x30).station 0x10).running = some (r 0x30)
      ∧ ((s 0x10 0x30).at 0).slidesTo 0x10 (r 0x30) = some (0, 0) ∧ kindOf 0x10 = .vu ∧ wordOp (r 0x30).word = 0x30) := by
  decide +kernel

/-- 256 idle cycles at full current; a ramp that began at 7; a ramp-up over at this very time. -/
theorem witness_ArrayClocks_ramp :
    ((State.reset.arr 15).ramp = .full ∧ 256 ≤ 256 ∧ State.reset.holdsWarm 15 = false)
    ∧ (let s : State := { arrays := [(15, { ramp := .down 7 })] }
     (s.arr 15).ramp = .down 7)
    ∧ (let s : State := { arrays := [(15, { ramp := .up 9 })] }
     (s.arr 15).ramp = .up 9 ∧ 9 ≤ max 9 s.tb) := by decide

theorem witness_ArrayClocks_halves :
    (let s := only 15 { seq := .idle }
     s.arrayEnabled 15 = true ∧ s.splitAllowed 15 = true ∧ s.arraySplit 15 = false)
    ∧ (let s : State := { State.reset.setNum Dict.arraySplitMap 0x8000 with
         stations := [(0x9E, { seq := .idle }), (0x9F, { seq := .idle })] }
     s.arrayEnabled 15 = true ∧ s.splitAllowed 15 = true ∧ s.arraySplit 15 = true ∧ kindOf 0x9F = .half
      ∧ s.exists' 0x9F = true ∧ (s.station 0x9F).seq = .idle ∧ s.isTrump 0x9F = false
      ∧ s.sched.jobs = [] ∧ s.sched.owner = [] ∧ (s.station 0x9F).faults = [] ∧ 1 < s.nat Dict.faultLimit
      ∧ fld (0x0400010A : Word) 31 24 = 4) := by decide +kernel

/-- A window command row (R221): NEW, AMEND or CANCEL of window 0x1FFFF, counts 1 to 2, valve 0. -/
def winRow (cmd : Nat) : Nat := 1 <<< 252 + cmd <<< 250 + 0x1FFFF <<< 208 + 1 <<< 160 + 2 <<< 112

/-- The Dealer at a command. -/
def dealAt (cmd : Nat) (slots : Tab Window) : State :=
  { (State.reset.setNum Dict.valveCount 1) with
    stations := [(0x52, { seq := .run, running := some { word := wordOf 0x10, state := [winRow cmd] } })]
    dealer := { slots := slots } }

theorem witness_WindowsAndLatches_window :
    let x : Window := { id := 0x1FFFF, enc := 0, start := 0, stop := 1, first := 0, last := 0 }
    let r : Nat → Running := fun c => { word := wordOf 0x10, state := [winRow c] }
    (let s := dealAt 0 []
     (s.station dealerId).running = some (r 0) ∧ (r 0).state = winRow 0 :: [] ∧ (r 0).done = 0
      ∧ (s.station dealerId).seq = .run ∧ s.cmdBad (winCmd (winRow 0)) = false ∧ (winCmd (winRow 0)).cmd = 0
      ∧ s.dealer.slots.look ((winCmd (winRow 0)).id % 65536) = none)
    ∧ (let s := dealAt 1 [(0xFFFF, x)]
     (s.station dealerId).running = some (r 1) ∧ s.cmdBad (winCmd (winRow 1)) = false ∧ (winCmd (winRow 1)).cmd = 1
      ∧ s.dealer.slots.look ((winCmd (winRow 1)).id % 65536) = some x ∧ x.id = (winCmd (winRow 1)).id ∧ x.opened = false)
    ∧ (let s := dealAt 2 [(0xFFFF, x)]
     (s.station dealerId).running = some (r 2) ∧ s.cmdBad (winCmd (winRow 2)) = false ∧ (winCmd (winRow 2)).cmd = 2
      ∧ s.dealer.slots.look ((winCmd (winRow 2)).id % 65536) = some x ∧ x.id = (winCmd (winRow 2)).id)
    ∧ (let s := dealAt 0 [(0xFFFF, { x with stop := 0 })]
     s.cmdBad (winCmd (winRow 0)) = false
      ∧ s.dealer.slots.look ((winCmd (winRow 0)).id % 65536) = some { x with stop := 0 }
      ∧ (s.at 0).reached ({ x with stop := 0 } : Window).enc ({ x with stop := 0 } : Window).stop = true)
    ∧ (let s := dealAt 2 []
     (s.station dealerId).running = some (r 2) ∧ (s.at 0).cmdFits (winCmd (winRow 2)) = false
      ∧ (winCmd (winRow 2)).cmd = 2) := by decide +kernel

/-- An enabled string on a stalled belt with an image to clear; one due for a change now; one to refresh. -/
theorem witness_WindowsAndLatches_commit :
    (let s : State := { State.reset.setNum Dict.stringEnable 1 15 with
       dealer := { stalled := [0], strings := [(15, { image := 1 })] } }
     (s.at 0).stringFree 15 = true ∧ s.dealer.stalled.contains (s.nat Dict.stringEncoder 15) = true
      ∧ (s.vstring 15).next ≠ 0 ∧ (s.at 0).commitNow 15 ((s.at 0).legalTime 15) = true)
    ∧ (let s : State := { State.reset.setNum Dict.stringEnable 1 0 with
       dealer := { strings := [(0, { change := true })] } }
     let z := s.at 0
     z.stringFree 0 = true ∧ s.dealer.stalled.contains (s.nat Dict.stringEncoder 0) = false
      ∧ earliest (z.changePoints 0) = some 0
      ∧ z.commitNow 0 (up10 (max ((0 + 65535) / 65536) (z.legalTime 0))) = true)
    ∧ (let s := (State.reset.setNum Dict.stringEnable 1 0).setNum Dict.refreshPeriod 1 0
     (s.at 0).stringFree 0 = true ∧ s.nat Dict.refreshPeriod 0 ≠ 0 ∧ (s.vstring 0).last = none
      ∧ earliest ((s.at 0).changePoints 0) = none
      ∧ s.dealer.stalled.contains (s.nat Dict.stringEncoder 0) = false
      ∧ (s.at 0).commitNow 0 ((s.at 0).legalTime 0) = true) := by decide +kernel

/-- A committed latch whose time is this one; the zero latch owed after a stop. -/
theorem witness_StringsAndBelts_string :
    (let l : Latch := { tb := 7, dev := 7, pos := 0, image := 1 }
     let s : State := { dealer := { strings := [(15, { committed := [l] })] } }
     (s.vstring 15).committed = l :: [] ∧ l.tb ≤ max 7 s.tb ∧ l.opens = [] ∧ l.misses = [] ∧ l.stall = false)
    ∧ (let l : Latch := { tb := 7, dev := 10, pos := 0, image := 0 }
     let s : State := { dealer := { strings := [(15, { zero := some l })] } }
     (s.vstring 15).zero = some l ∧ l.tb ≤ max 7 s.tb ∧ (s.vstring 15).committed = []) := by decide +kernel

/-- The newest edge is one ns older than STALL_TIME; an enabled string. -/
theorem witness_StringsAndBelts_belt :
    (let k : Edge := { time := 0, fwd := true, pos := 0 }
     let s : State := { enc := [(7, { ring := [k] })], clk := { dev := (50000001 + 1000000000000) * fracNs } }
     s.newest 7 = some k ∧ s.dealer.stalled.contains 7 = false
      ∧ s.numAt Dict.stallTime 7 0 < ((s.at 0).devNs : Int) - k.time)
    ∧ (State.reset.setNum Dict.stringEnable 1 15).flag Dict.stringEnable 15 = true := by decide +kernel

/-- A rises and A falls in mode 1; both lines change at once. -/
theorem witness_PositionInputs_quadrature :
    let s := State.reset.setNum Dict.encMode 1 7
    let e := s.encoder 7
    s.encModeOf 7 = 1 ∧ e.lineFault = [] ∧ (e.a ≠ true ∧ e.b = false)
      ∧ quadStep (s.nat Dict.countMult 7) e.a e.b true false = some 1 ∧ (e.a = false ∧ e.b ≠ true)
      ∧ quadStep 4 e.a e.b false true = some (-1) ∧ (e.a ≠ true ∧ e.b ≠ true) := by decide +kernel

/-- The step past the last place of the magnetic order; an SSI channel where a frame is due, one whose frame has taken its
time. -/
theorem witness_PositionInputs_channels :
    (let s : State := { State.reset.setNum Dict.encMode 2 7 with enc := [(7, { magRef := some 5 })] }
     s.encModeOf 7 = 2 ∧ (s.encoder 7).magRef = some 5
      ∧ (∃ uvw : BitVec 3, magPlace (bit uvw 2) (bit uvw 1) (bit uvw 0) = some 0 ∧ ¬ ((s.encoder 7).a = bit uvw 2
        ∧ (s.encoder 7).b = bit uvw 1 ∧ (s.encoder 7).z = bit uvw 0)) ∧ (5 + 1) % 6 = 0)
    ∧ (let s := State.reset.setNum Dict.encMode 3 0
     s.encModeOf 0 = 3 ∧ (s.encoder 0).faulted 0 = false ∧ (s.at 0).ssiDue 0 = true)
    ∧ (let s : State := { (State.reset.setNum Dict.encMode 3 0).setNum Dict.ssiCode 0 0 with
         enc := [(0, { frameAt := some 0, frameTb := some 0 })] }
     (∀ t0, (s.encoder 0).frameTb = some t0 → t0 + s.ssiClockNs 0 ≤ max 100000 s.tb)
      ∧ (s.encoder 0).frameAt = some 0 ∧ s.nat Dict.ssiParity 0 = 0 ∧ (s.encoder 0).ssiLast = none
      ∧ s.num Dict.ssiCode 0 ≠ 1) := by
  refine ⟨⟨by decide +kernel, by decide +kernel, ⟨4, by decide +kernel⟩, rfl⟩, by decide +kernel, ?_, by decide +kernel⟩
  intro t0 h
  cases h
  decide +kernel

theorem witness_PositionInputs_index :
    (let s := (State.reset.setNum Dict.encMode 1 7).setNum Dict.indexMode 1 7
     s.encModeOf 7 = 1 ∧ (s.encoder 7).lineFault = [] ∧ s.nat Dict.indexMode 7 = 1 ∧ s.encUsed 7 = false
      ∧ s.watched 7 2 = true ∧ (s.encoder 7).lineFault.contains 2 = false ∧ (s.at 0).encValid 7 = false)
    ∧ (let s : State := { enc := [(7, { lineFault := [2] })] }
     (s.encoder 7).lineFault.contains (2 : Fin 3).val = true) := by decide +kernel

theorem witness_PositionInputs_index_write :
    State.reset.numberPasses .service Dict.position 7 (0 : BitVec 64).toNat
    ∧ State.reset.numberPasses .service Dict.indexArm 7 (1 : BitVec 8).toNat ∧ (1 : BitVec 8).toNat ≤ 1 := by
  unfold State.numberPasses State.writePasses; decide +kernel

/-- A detection tile at a DEC step, and a missing one, of port 15. -/
theorem witness_DecideIssuesVerdicts :
    (let r : Running := { word := wordOf 0x10, ins := [(15, .tile (tileOf 5 1 0 0x20))] }
     let s := only 0x50 { seq := .run, running := some r }
     (s.station decId).running = some r ∧ r.computed = false ∧ r.ins = (15, .tile (tileOf 5 1 0 0x20)) :: [])
    ∧ (let r : Running := { word := wordOf 0x10, ins := [(15, .gap 1)] }
     let s := only 0x50 { seq := .run, running := some r }
     (s.station decId).running = some r ∧ r.computed = false ∧ r.ins = (15, .gap 1) :: []) := by decide +kernel

/-- One verdict row, its GEN 1, at the start of the HBM; no context held. -/
theorem witness_TrackContexts_take :
    let d := mkDesc 0x0F false false false false false false false false false 5 1 0 0x50 1 64 0 64 0x100000000000 0 0 0
    let row : List Nat := List.replicate 63 0 ++ [16]
    let r : Running := { word := wordOf 0x10, ins := [(0, .tile d)] }
    let s : State := { only 0x51 { seq := .run, running := some r } with mem := { bytes := [(0x10000000003F, 0x10)] } }
    (s.station trkId).running = some r ∧ r.computed = false ∧ r.ins = (0, .tile d) :: [] ∧ s.trk.ctx = []
      ∧ ((s.at 0).readTile trkId 0x0F false false (.tile d) (descRows d) 64).1.rows = [row]
      ∧ fld (BitVec.ofNat 512 (rowNum 64 row)) 511 508 = 1 := by decide +kernel

/-- An OPENED report for the SCHEDULED context 0; a context whose end, count 0, the belt has reached; one of PASS that is
one ns too old, and one of SCHEDULED. -/
theorem witness_TrackContexts_end :
    (let d := mkDesc 0x0F false false false false false false false false false 5 1 0 0x52 1 16 0 16 0x100000000000 0 0 0
     let row : List Nat := List.replicate 15 0 ++ [16]
     let s : State := { only 0x51 { seq := .run, inq := [(15, [.tile d])] } with
       mem := { bytes := [(0x10000000000F, 0x10)] }, trk := { ctx := [(0, BitVec.ofNat 512 (2 <<< 505))] } }
     (s.station trkId).inq.val [] 15 = .tile d :: []
      ∧ ((State.consume (s.at 0) trkId 15).2.readTile trkId 0x0F false false (.tile d) (descRows d) 16).1.rows = [row]
      ∧ fld (BitVec.ofNat 128 (rowNum 16 row)) 127 124 = 1 ∧ fld (BitVec.ofNat 128 (rowNum 16 row)) 123 121 = 0
      ∧ fld (BitVec.ofNat 128 (rowNum 16 row)) 111 80 % 65536 = 0
      ∧ fld (s.ctx 0) 479 448 = fld (BitVec.ofNat 128 (rowNum 16 row)) 111 80 ∧ ctxState (s.ctx 0) = 2)
    ∧ (let s : State := { clk := { dev := 10000000001 * fracNs }, trk := { ctx := [(0xFFFF, BitVec.ofNat 512 (1 <<< 505))] } }
     ctxState (s.ctx 0xFFFF) ≠ 0 ∧ (s.at 0).reached (fld (s.ctx 0xFFFF) 371 369) (signed 48 (fld (s.ctx 0xFFFF) 231 184)) = true
      ∧ s.trk.born.val 0 0xFFFF + s.nat Dict.trackMaxAge * 1000000 < (s.at 0).devNs ∧ ctxState (s.ctx 0xFFFF) = 1
      ∧ s.outStreams trkId s.trackPort = []) := by
  decide +kernel

/-- Thresholds at the bounds that the envelopes give at reset. -/
theorem witness_ThresholdWrites :
    State.reset.numberPasses .operate Dict.acceptThreshold 0 (65535 : BitVec 16).toNat
    ∧ State.reset.numberPasses .operate Dict.rejectThreshold 0 (0 : BitVec 16).toNat
    ∧ State.reset.numberPasses .integrate (envelopeEnt 0) 0 (32768 : BitVec 16).toNat
    ∧ State.reset.numberPasses .integrate (envelopeEnt 1) 0 (65535 : BitVec 16).toNat
    ∧ State.reset.numberPasses .integrate (envelopeEnt 2) 0 (0 : BitVec 16).toNat
    ∧ State.reset.numberPasses .integrate (envelopeEnt 3) 0 (32767 : BitVec 16).toNat := by
  unfold State.numberPasses State.writePasses; decide +kernel

/-- A sample of two lines whose slot is free, its bucket just full enough; one with SAMPLE_ENABLE 0; one whose lines are
gone. -/
theorem witness_CropSampleIsTaken :
    let v : Verdict := { port := 15, colFirst := 0, colLast := 0, posFirst := 0, posLast := 0, ctx := 0 }
    (let s : State := { ((State.reset.setNum Dict.queueEnable 1 0).setNum Dict.cropRingLines 2 15).setNum
       Dict.sampleEnable 1 with
       dec := { samples := [v], rings := [(15, { lines := 2 })], bucket := some { level := nsPerS, at_ := 0 } } }
     s.dec.samples = v :: [] ∧ s.flag Dict.sampleEnable = true ∧ s.freeSlot (max 1 (s.nat Dict.cropSlots)) s.dec.nextSlot (max 1 (s.nat Dict.cropSlots)) = some 0
      ∧ (s.dec.rings.val {} v.port).lines' (s.nat Dict.cropRingLines v.port) v = some (0, 1)
      ∧ nsPerS ≤ Bucket.levelAt s.dec.bucket (s.nat Dict.sampleMaxRate) (max 0 s.tb) ∧ s.nat Dict.cropRingLines v.port ≠ 0
      ∧ (1 + 1 - 0) * (s.cropCols v).2 * s.channels v.port * 2 ≤ s.nat Dict.cropSlotBytes ∧ s.cropAreaOk = true
      ∧ s.queueOn (s.nat Dict.adaptQueue) = true ∧ s.queueStrip (s.nat Dict.adaptQueue) = false
      ∧ (s.pushCells (s.nat Dict.adaptQueue) 1).length = 1)
    ∧ ({ dec := { samples := [v] } } : State).flag Dict.sampleEnable = false
    ∧ (let s : State := { State.reset.setNum Dict.sampleEnable 1 with dec := { samples := [v] } }
     s.flag Dict.sampleEnable = true ∧ s.dec.samples = v :: [] ∧ (s.dec.rings.val {} v.port).lines' (s.nat Dict.cropRingLines v.port) v = none) := by
  decide +kernel

/-- The last input: sampled with power and supply; ON, and BREAK, held just long enough; no supply yet; the supply
low. -/
theorem witness_FieldInputs :
    (let s : State := { field := { powered := true, supplyGood := true } }
     s.field.powered = true ∧ s.field.supplyGood = true)
    ∧ (let s : State := { field := { supplyGood := true, inputs := [(31, { raw := .on })] } }
     s.field.supplyGood = true ∧ (s.input 31).raw = .on ∧ (s.input 31).on = false ∧ (s.input 31).brk = false
      ∧ (s.input 31).since + s.nat Dict.debounce 31 * 1000 ≤ max (s.nat Dict.debounce 31 * 1000) s.tb)
    ∧ (let s : State := { field := { supplyGood := true, inputs := [(31, { raw := .brk })] } }
     s.field.supplyGood = true ∧ (s.input 31).raw = .brk ∧ (s.input 31).brk = false
      ∧ (s.input 31).since + s.nat Dict.breakFilter 31 * 1000000 ≤ max (s.nat Dict.breakFilter 31 * 1000000) s.tb)
    ∧ (let s : State := { field := { powered := true } }
     s.field.powered = true ∧ s.field.supplyGood = false ∧ s.field.low = false)
    ∧ (let s : State := { field := { powered := true, low := true } }
     s.field.powered = true ∧ s.field.supplyGood = false ∧ s.field.low = true) := by decide +kernel

/-- The last output: driven; tripped 100 ms ago; with a fault bit of each kind; latched. -/
theorem witness_FieldOutputs_protection :
    (let s : State := { field := { outputs := [(15, { driven := true })] } }
     (s.output 15).driven = true ∧ (s.output 15).tripped = false ∧ s.nat Dict.doRestart 15 ≠ 1)
    ∧ (let s : State := { State.reset.setNum Dict.doRestart 1 15 with
         field := { powered := true, outputs := [(15, { tripped := true, offAt := 7 })] } }
     s.field.powered = true ∧ s.nat Dict.doRestart 15 ≠ 0 ∧ (s.output 15).tripped = true ∧ (s.output 15).latched = false ∧ (s.output 15).offAt + 100000000 ≤ max 100000007 s.tb)
    ∧ (let s := State.reset.setNum Dict.doFault 7 15
     inMap (s.nat Dict.doFault 15) (if true then 2 else 1) = true ∧ inMap (s.nat Dict.doFault 15) (if false then 2 else 1) = true)
    ∧ (let s : State := { sup := [(7, { enc5vAt := 7 })] }
     (s.sup.val {} 7).enc5vAt + 100000000 ≤ max 100000007 s.tb) := by decide +kernel

theorem witness_FieldOutputs_protection_ack :
    let s : State := { field := { outputs := [(15, { latched := true })] } }
    s.numberPasses .operate Dict.doFaultAck 15 1 ∧ (s.output 15).latched = true := by
  unfold State.numberPasses State.writePasses; decide +kernel

/-- Frames that flow; the link lost for just 500 us; a kick at 10 us; a deadline met at its time. -/
theorem witness_FieldOutputs_frames :
    (let s : State := { field := { powered := true, safe := false } }
     s.boot.held = none ∧ s.field.powered = true ∧ s.field.safe = false ∧ s.sec.serviceState = false)
    ∧ (let s : State := { field := { powered := true, gotFrame := true, lastFrame := 7 } }
     s.field.powered = true ∧ s.field.gotFrame = true ∧ s.field.linkLost = false ∧ s.field.lastFrame + 500000 ≤ max 500007 s.tb)
    ∧ (10000 ≤ 10000 ∧ (State.reset.at 0).mayKick = true)
    ∧ (let s : State := { field := { deadline := some 9 } }
     s.field.deadline = some 9 ∧ 9 ≤ max 9 s.tb) := by decide +kernel

/-- A release after a kick. -/
theorem witness_FieldOutputs_frames_release :
    State.numberPasses { field := { kicked := true, deadline := some 1 } } .operate Dict.safeStateRelease 0 1 := by
  unfold State.numberPasses State.writePasses; decide +kernel

/-- Port 15 enabled, with one image channel of RAW12 on virtual channel 0. -/
def camOn (c : Cam) : State :=
  { (State.reset.setNum Dict.portEnable 1 15).setNumAt Dict.vcMap 0 15 0x9600 with cams := [(15, c)] }

theorem witness_CameraFrames_enable :
    State.reset.numberPasses .integrate Dict.portEnable 15 (0 : BitVec 8).toNat
    ∧ (State.reset.setNum Dict.portEnable 1 15).numberPasses .integrate Dict.portEnable 15 (0 : BitVec 8).toNat
    ∧ (State.reset.setNum Dict.portEnable 1 15).num Dict.portEnable 15 ≠ (0 : BitVec 8).toNat := by
  unfold State.numberPasses State.writePasses; decide +kernel

/-- A frame that starts with the last number, one that ends, one whose line is just too late. -/
theorem witness_CameraFrames :
    (let s := camOn {}
     s.flag Dict.portEnable 15 = true ∧ s.framingVc 15 = some (0 : BitVec 5).toNat ∧ (s.cam 15).frameOpen = false
      ∧ (s.cam 15).overflow = false ∧ (s.cam 15).lastNumber = none ∧ (0xFFFF : BitVec 16) ≠ 0)
    ∧ (let s := camOn { frameOpen := true, live := true }
     s.flag Dict.portEnable 15 = true ∧ s.framingVc 15 = some (0 : BitVec 5).toNat ∧ (s.cam 15).frameOpen = true
      ∧ (s.cam 15).live = true ∧ (s.cam 15).lastLine + s.nat Dict.linePeriodMax 15 ≤ max (s.nat Dict.linePeriodMax 15) s.tb
      ∧ s.trump.st ≠ .running) := by decide +kernel

/-- The first line of a frame with a good CRC, and one with a bad CRC. -/
theorem witness_ImageLinesReachTheLane :
    let s := camOn { frameOpen := true, live := true }
    let p : LinePacket := { dt := 0x2C, words := 6144 }
    s.flag Dict.portEnable 15 = true ∧ p.corrected = false ∧ p.readable = true ∧ p.vc < 16 ∧ s.vcImage 15 p.vc = true
      ∧ fld (s.vcMapOf 15 p.vc) 12 7 = p.dt ∧ (s.cam 15).frameOpen = true
      ∧ s.vcChannel 15 p.vc % s.scanLines 15 = (s.cam 15).next ∧ (s.cam 15).row < s.nat Dict.frameLines 15
      ∧ p.full = false ∧ (s.cam 15).overflow = false ∧ (s.cam 15).live = true ∧ p.crcOk = true
      ∧ p.words = s.rawLineBytes 15 (rawBits p.dt) ∧ (s.cam 15).last.look (s.cam 15).next = none
      ∧ ({ p with crcOk := false } : LinePacket).crcOk = false := by decide +kernel

/-- A metadata channel on virtual channel 15; a scan ready; a frame end alone; a full window; gains just due. -/
theorem witness_DevelopLanes :
    (let s : State := { (State.reset.setNum Dict.portEnable 1 0).setNumAt Dict.vcMap 15 0 0xA900 with
       cams := [(0, { frameOpen := true })] }
     s.flag Dict.portEnable 0 = true ∧ (15 : BitVec 5).toNat < 16 ∧ bit (s.vcMapOf 0 (15 : BitVec 5).toNat) 15 = true
      ∧ fld (s.vcMapOf 0 (15 : BitVec 5).toNat) 14 13 = 1
      ∧ fld (s.vcMapOf 0 (15 : BitVec 5).toNat) 12 7 = (0x12 : BitVec 6).toNat ∧ (s.cam 0).frameOpen = true
      ∧ (s.cam 0).overflow = false ∧ (List.replicate 4 (0 : Byte)).length ≤ 16384 ∧ s.outStreams (devId 0) 1 = [])
    ∧ (let run : Running := { word := wordOf 0x10 }
     let s : State := { only (devId 15) { seq := .run, running := some run } with
       trump := { st := .running }, cams := [(15, { raw := [{}] })] }
     (s.cam 15).win.full = false ∧ (s.cam 15).pending = [] ∧ s.trump.st = .running
      ∧ (s.station (devId 15)).running = some run
      ∧ (∀ l ∈ (s.cam 15).raw, l.kind = .line) ∧ s.scanReady 15 = true)
    ∧ (let s : State := { cams := [(15, { raw := [{ kind := .frameEnd }] })] }
     (s.cam 15).win.full = false ∧ (s.cam 15).group = [] ∧ s.area 15 = false ∧ (s.cam 15).raw = [{ kind := .frameEnd }]
      ∧ 0 < s.scanLines 15)
    ∧ (let s : State := { cams := [(15, { win := { full := true } })] }
     (s.cam 15).win.full = true)
    ∧ (let s : State := { trump := { st := .running }, cams := [(15, { pending := [(7, [(0, 1)])] })] }
     s.trump.st = .running ∧ (s.cam 15).pending = [(7, [(0, 1)])] ∧ 7 + 100000 ≤ max 100007 s.tb) := by decide +kernel

/-- A packet of no stream; the first of stream 63; one that comes after its place; one held just long enough. -/
theorem witness_VideoPackets :
    (State.reset.streamFor 0 0 0 = none)
    ∧ (let s := State.reset.setNum Dict.vstreamEnable 1 63
     s.streamFor 0xFFFFFFFF (s.nat Dict.udpPort 63) (s.nat Dict.payloadType 63) = some 63 ∧ (s.vstream 63).st ≠ .lost
      ∧ (s.vstream 63).held = [] ∧ (s.vstream 63).next = none)
    ∧ (let s : State := { State.reset.setNum Dict.vstreamEnable 1 63 with video := { streams := [(63, { next := some 0 })] } }
     (s.vstream 63).st ≠ .lost ∧ (s.vstream 63).next = some 0 ∧ seqAhead 0xFFFF 0 < 0)
    ∧ (let p : RtpPacket := { seq := 0xFFFF, ts := 0, marker := true, payload := [1] }
     let s : State := { video := { streams := [(63, { st := .run, held := [p] })] } }
     (s.vstream 63).held = [p] ∧ p.at_ + s.nat Dict.reorderTime * 1000000 ≤ max (s.nat Dict.reorderTime * 1000000) s.tb
      ∧ (s.vstream 63).next = none ∧ (s.vstream 63).cur = none ∧ p.marker = true ∧ (s.vstream 63).st = .run
      ∧ (∀ b ∈ (s.vstream 63).units ++ [(({ ts := p.ts, dev := p.dev } : AccessUnit).addPayload (s.nat Dict.codec 63)
        p.payload).close (s.nat Dict.codec 63)], b.rasl = false))
    ∧ (let s : State := { State.reset.setNum Dict.vstreamEnable 1 63 with
         video := { streams := [(63, { st := .run, units := [{ ts := 0, dev := 0 }] })] } }
     s.video.boundary.val 0 0 ≤ max 0 s.tb ∧ (∀ b ∈ (s.vstream 63).units, b.rasl = false)
      ∧ s.video.slice.look 0 = none ∧ s.readyStreams 0 = [63] ∧ (s.vstream 63).st = .run
      ∧ (s.vstream 63).lastPacket + s.nat Dict.streamTimeout 63 * 1000000 ≤ max 2000000000 s.tb) := by decide +kernel

theorem witness_VideoPackets_enable :
    let s : State := { power := { pd := [(50, { st := .on })] } }
    s.numberPasses .integrate Dict.vstreamEnable 63 1 ∧ s.num Dict.vstreamEnable 63 ≠ 1 := by
  unfold State.numberPasses State.writePasses; decide +kernel

/-- An undamaged picture; a unit that has used its whole budget; an instant that is just due, with and without a free
space; a batch complete. -/
theorem witness_PicturesAndBatches :
    let a : AccessUnit := { ts := 0, dev := 0 }
    let p : Picture := { ts := 0, dev := 0, done := 0 }
    (let s : State := { video := { streams := [(63, { st := .run, units := [a] })], slice := [(0, 63)] } }
     (s.vstream 63).units = a :: [] ∧ s.underDecode 63 = some a ∧ a.key = false ∧ (s.at 0).coreTime 63 ≤ s.vbudget 63
      ∧ ({} : Decoded).damage = none ∧ a.lossy = false ∧ a.broken = false)
    ∧ (let k := { a with key := true }
     let s : State := { video := { streams := [(63, { st := .waitKey, units := [k] })], slice := [(0, 63)] } }
     s.underDecode 63 = some k ∧ k.key = true ∧ s.decodable 63 {} = true)
    ∧ (let s : State := { video := { streams := [(63, { st := .run, units := [a], pics := [p], used := 40000000 })], slice := [(0, 63)] } }
     (s.vstream 63).units = [a] ∧ s.underDecode 63 = some a
      ∧ s.vbudget 63 ≤ (s.at 0).coreTime 63 ∧ (s.vstream 63).pics = p :: [] ∧ p.mucked = false)
    ∧ (let s := State.reset.setNum Dict.templateEnable 1 7
     s.flag Dict.templateEnable 7 = true ∧ s.video.enabledAt.val 0 7
        + (s.video.instants.val 0 7 + 1) * s.nat Dict.buildPeriod 7 * 1000000 ≤ max 1000000000 s.tb ∧ s.freeSpace = some 0)
    ∧ (let s : State := { (State.reset.setNum Dict.templateEnable 1 7).setNum Dict.deckDepth 1 with
         video := { building := [(0, { template := 7, seq := 0, instant := 0, slots := 1 })] } }
     s.flag Dict.templateEnable 7 = true ∧ s.freeSpace = none)
    ∧ (let s : State := { State.reset.setNum Dict.queueEnable 1 1 with
         video := { building := [(63, { template := 7, seq := 0, instant := 0, slots := 1 })] } }
     s.video.building.look (63 : BitVec 6).toNat = some { template := 7, seq := 0, instant := 0, slots := 1 }
      ∧ s.queueOn (s.nat Dict.deckQueue) = true ∧ s.queueStrip (s.nat Dict.deckQueue) = false
      ∧ (s.pushCells (s.nat Dict.deckQueue) 1).length = 1) := by decide +kernel

theorem witness_PicturesAndBatches_enable :
    State.reset.numberPasses .integrate Dict.templateEnable 7 1 ∧ State.reset.num Dict.templateEnable 7 ≠ 1 := by
  unfold State.numberPasses State.writePasses; decide +kernel

/-- A KVOP of an ATU in flight on sequence 0 (and, for FORK, from sequence 1); sequence `q` VALID with an empty list. -/
def kvAtOp (sub : Nat) (q : Option Nat) : State :=
  { only 0x24 { seq := .run, running := some { word := wordOf 0x11 ||| BitVec.ofNat 128 (sub <<< 73 + 1 <<< 49) } } with
    mem := { bytes := match q with
      | none => []
      | some q => [(17600809533440 + 16 * q + 11, 0x40), (17600809533440 + 16 * q + 12, 2),
          (17600809533440 + 16 * q + 13, 0x10), (17600809533440 + 16 * q + 15, 8)] } }

/-- The word of such a KVOP. -/
def kvWord (sub : Nat) : StepWord := wordOf 0x11 ||| BitVec.ofNat 128 (sub <<< 73 + 1 <<< 49)

/-- Locks: free, and held by the other ATU. -/
theorem witness_SequenceOperations_lock :
    (let s := kvAtOp 0 none
     (s.station 0x24).running = some { word := kvWord 0 } ∧ s.atuOp 0x24 = some 0x11 ∧ fld (kvWord 0) 75 73 ≠ 1
      ∧ fld (kvWord 0) 72 61 = 0 ∧ s.lockFree 0x24 [0] = true)
    ∧ (let s : State := { kvAtOp 0 none with attn := { locks := [(0, (0, 0x25))] } }
     s.atuOp 0x24 = some 0x11 ∧ s.lockFree 0x24 [0] = false ∧ (s.station 0x24).seq = .run) := by decide +kernel

/-- OPEN of a sequence not VALID; CLOSE and FREE of one that is; CLOSE of one that is not; FORK of an empty sequence. -/
theorem witness_SequenceOperations :
    ((kvAtOp 0 none).lockFree 0x24 [0] = true ∧ fld (kvWord 0) 75 73 = 0 ∧ dirValid ((kvAtOp 0 none).kvDir 0x24 0).1 = false)
    ∧ ((kvAtOp 2 (some 0)).lockFree 0x24 [0] = true ∧ fld (kvWord 2) 75 73 = 2
      ∧ dirValid ((kvAtOp 2 (some 0)).kvDir 0x24 0).1 = true ∧ dirComplete ((kvAtOp 2 (some 0)).kvDir 0x24 0).1 = false)
    ∧ (fld (kvWord 3) 75 73 = 3 ∧ dirValid ((kvAtOp 3 (some 0)).kvDir 0x24 0).1 = true)
    ∧ dirValid ((kvAtOp 2 none).kvDir 0x24 0).1 = false
    ∧ (let s := kvAtOp 1 (some 1)
     (s.station 0x24).running = some { word := kvWord 1 } ∧ fld (kvWord 1) 75 73 = 1 ∧ fld (kvWord 1) 72 61 = 0
      ∧ fld (kvWord 1) 60 49 = 1 ∧ s.lockFree 0x24 [0, 1] = true ∧ dirValid (s.kvDir 0x24 1).1 = true
      ∧ dirValid (s.kvDir 0x24 0).1 = false
      ∧ ∀ p ∈ s.kvSlots, (s.kvList 0x24 1 (s.kvDir 0x24 1).1 p.1 p.2).1.pages = 0)
    ∧ (dirValid ((kvAtOp 1 none).kvDir 0x24 1).1 = false) := by decide +kernel

/-- An ATTN of an ATU that has gone as far as `a`, on sequence 0, VALID, its list of `pages` pages and as many tokens (none
or one), whose page table is not written. -/
def attnAt (a : AttnRun) (pages : Nat) (x : Attn) : State :=
  let s := kvAtOp 0 (some 0)
  { s with
    stations := [(0x24, { seq := .run, running := some { word := wordOf 0x10, attn := some a } })]
    mem := { bytes := s.mem.bytes ++ if pages = 0 then [] else
      [(0x100240000002, 0x40), (0x100240000005, 8), (0x100240000007, 0x10)] }
    attn := x }

/-- The sequences of an ATTN step, its tiles all there, both free. -/
theorem witness_SequenceOperations_locks :
    let a : AttnRun := { entries := [(0, 1), (1, 1)], allIn := true }
    let s := attnAt a 0 {}
    s.attnStep 0x24 = some ({ word := wordOf 0x10, attn := some a }, attnArgs (wordOf 0x10)) ∧ (s.attnRun 0x24).entries ≠ []
      ∧ (s.attnRun 0x24).bad = false ∧ (s.attnRun 0x24).locked = false
      ∧ s.lockFree 0x24 ((s.attnRun 0x24).entries.map (·.1)) = true := by decide +kernel

/-- The conditions of AttentionEntry at entry 0 of a step. -/
def entryReady (s : State) (a : AttnRun) : Bool :=
  let g := attnArgs (wordOf 0x10)
  s.attnStep 0x24 == some ({ word := wordOf 0x10, attn := some a }, g) && a.allIn && a.kvIn && !a.bad && a.locked
    && a.pageWait == none && a.pages == [] && a.queries.length == g.qpg * a.tokens && a.entries[a.next]? == some (0, 1)
    && !g.append && ((s.at 0).entryList 0x24 g 0).1.isSome

/-- An entry of an empty list with another after it; the last entry, its rows computed, and one whose page table gives no
page. -/
theorem witness_AttentionEntry :
    let a : AttnRun := { entries := [(0, 1), (1, 1)], allIn := true, kvIn := true, locked := true, queries := [[], []] }
    let b : AttnRun := { entries := [(0, 1)], allIn := true, kvIn := true, locked := true, queries := [[]] }
    let g := attnArgs (wordOf 0x10)
    let rows : Nat → Except Nat (List (List Nat × Bool)) := fun pages =>
      let x := ((attnAt b pages {}).at 0).entryList 0x24 g 0
      match x.1 with
      | some l => (x.2.tokenRows 0x24 g l 1 0 1).1
      | none => .error 0
    entryReady (attnAt a 0 {}) a = true ∧ a.next + 1 < a.entries.length
      ∧ (((attnAt a 0 {}).at 0).entryList 0x24 g 0).1.any (fun l => l.pages == 0 && l.tokens == 0) = true
      ∧ entryReady (attnAt b 0 {}) b = true ∧ b.next + 1 = b.entries.length
      ∧ (match rows 0 with | .ok _ => true | .error _ => false) = true
      ∧ entryReady (attnAt b 1 {}) b = true ∧ (match rows 1 with | .ok _ => false | .error _ => true) = true := by
  decide +kernel

/-- An entry that waits for a page and has none to copy, and one whose last page is its own; 100 us later with too few
pages. -/
theorem witness_KittyAndPool_take :
    let a : AttnRun := { entries := [(0, 1)], pageWait := some 7, need := 1 }
    let g := attnArgs (wordOf 0x10)
    (let s := attnAt a 0 { kittyLevel := 1 }
     s.attnStep 0x24 = some ({ word := wordOf 0x10, attn := some a }, g) ∧ (s.attnRun 0x24).pageWait = some 7
      ∧ a.entries[a.next]? = some (0, 1) ∧ a.need ≤ s.attn.kittyLevel ∧ s.waitsBefore 0x24 7 = false
      ∧ ((s.at 0).entryList 0x24 g 0).1.isSome = true ∧ (s.attnRun 0x24).cur = none)
    ∧ (let s := attnAt { a with cur := some (0, 0, 0, 0) } 0 { kittyLevel := 1 }
     a.need ≤ s.attn.kittyLevel ∧ s.waitsBefore 0x24 7 = false ∧ ((s.at 0).entryList 0x24 g 0).1.isSome = true
      ∧ (s.attnRun 0x24).cur = some (0, 0, 0, 0) ∧ (s.attnRun 0x24).copy = false ∧ (s.refCount 0x24 0).1 ≤ 1)
    ∧ (let s := attnAt a 0 {}
     7 + 100000 ≤ max 100007 s.tb ∧ s.attn.kittyLevel < a.need ∧ (s.attnRun 0x24).pages = []) := by decide +kernel

/-- The Kitty at its low water; just below it with a free list that more than fills it, and with none and one COMPLETE
sequence. -/
theorem witness_KittyAndPool_refill :
    (let s : State := { attn := { kittyLevel := 256 } }
     s.nat Dict.kittyLowWater ≤ s.attn.kittyLevel)
    ∧ (let s : State := { attn := { kittyLevel := 255, freeList := [(4096, 3842)] } }
     s.attn.kittyLevel < s.nat Dict.kittyLowWater ∧ s.attn.kittyLevel ≤ s.nat Dict.kittySize
      ∧ s.nat Dict.kittySize - s.attn.kittyLevel < sumNat (s.attn.freeList.map fun p => max 1 p.2))
    ∧ (let s : State := { State.reset.setNum Dict.kvReclaim 1 with attn := { kittyLevel := 255, closes := [(4095, 7)] } }
     s.attn.kittyLevel < s.nat Dict.kittyLowWater ∧ s.attn.kittyLevel ≤ s.nat Dict.kittySize ∧ s.attn.freeList = []
      ∧ s.nat Dict.kvReclaim = 1 ∧ s.reclaimable = [4095]) := by decide +kernel

theorem witness_KittyAndPool_pool : State.reset.numberPasses .integrate Dict.kvPoolPages 0 (1 : BitVec 32).toNat := by
  unfold State.numberPasses State.writePasses; decide +kernel

/-- A candidate of adapter 7. -/
def candidate : Candidate := { id := 7, image := {} }

/-- A teacher job for the oldest record; a training for the labels of just enough; a bank loaded; a validation. -/
theorem witness_AdaptationCycle :
    (let p : Packet := { id := 0, cells := [0], len := 64, stream := false }
     let s : State := { State.reset.setNum Dict.adaptEnable 1 with
       boot := { modelLoaded := true }, queues := { q := [(0, { unread := [p] })] } }
     (s.queue (s.nat Dict.adaptQueue)).unread = p :: [] ∧ s.flag Dict.adaptEnable = true ∧ 0 < s.nat Dict.labelBatch
      ∧ s.boot.modelLoaded = true
      ∧ s.jobRefusal { desc := withDeadline (jobOf 0xFFFFFFFF) (p.postedDev + s.nat Dict.labelDeadline * nsPerS) } = none)
    ∧ (let s : State := { (State.reset.setNum Dict.adaptEnable 1).setNum Dict.labelsPending (State.reset.nat Dict.trainMinLabels) with
         trump := { adapter := some {} } }
     s.flag Dict.adaptEnable = true ∧ s.adapt.st = .idle ∧ s.trump.adapter.isSome = true
      ∧ s.nat Dict.trainMinLabels ≤ s.nat Dict.labelsPending ∧ s.jobRefusal { desc := jobOf 1 } = none)
    ∧ (let s : State := { adapt := { st := .trained, cand := some candidate, bank0 := .loading } }
     s.adapt.cand = some candidate ∧ s.adapt.st = .trained ∧ s.adapt.bank candidate.bank = .loading
      ∧ s.flag Dict.adaptEnable = false)
    ∧ (let s : State := { State.reset.setNum Dict.adaptEnable 1 with
         adapt := { st := .trained, cand := some candidate, bank0 := .loading } }
     s.flag Dict.adaptEnable = true ∧ s.jobRefusal { desc := jobOf 1 } = none)
    ∧ (let s : State := { adapt := { st := .validating, cand := some candidate } }
     let g := s.goldenSums candidate [{ label := 0, weight := 1, cand := [], live := [] }]
     s.adapt.cand = some candidate ∧ s.adapt.st = .validating ∧ 0 < g.total ∧ g.fireCand = g.fireLive ∧ candidate.image.program = s.trump.programHash
      ∧ s.oneEncoder = true ∧ s.nat Dict.goldenFloor * g.total ≤ g.equal * 65536 ∧ s.num Dict.rejDeltaMin ≤ 0 ∧ 0 ≤ s.num Dict.rejDeltaMax
      ∧ s.nat Dict.swapsThisShift < s.nat Dict.swapsPerShift)
    ∧ (let s : State := { trump := { programHash := [1] } }
     candidate.image.program ≠ s.trump.programHash) := by decide +kernel

/-- An image that states its own length and hash ends a training; a shift starts at the first second of device time. -/
theorem witness_AdaptationCycle_image :
    (({ sha := sha256 [] } : AdapterImage).ok = true ∧ (0xFFFFFFFF : BitVec 32) ≠ 0
      ∧ ({ adapt := { st := .training } } : State).adapt.st = .training)
    ∧ (let s : State := { clk := { st := .free } }
     s.timeValid = true
      ∧ (((s.at 0).devNs / nsPerS : Nat) - s.num Dict.shiftOrigin) % (max 1 (s.nat Dict.shiftLength) : Nat) = 0
      ∧ s.adapt.shiftAt ≠ some ((s.at 0).devNs / nsPerS) ∧ s.adapt.st ≠ .gated) :=
  ⟨⟨by simp [AdapterImage.ok], by decide, rfl⟩, by decide +kernel⟩

/-- A candidate awaiting approval, one ns before and just after its time is over. -/
theorem witness_AdapterSwap_decide :
    let s : State := { adapt := { st := .awaitingApproval, cand := some candidate } }
    s.adapt.cand = some candidate ∧ s.gate .integrate Dict.adaptApprove = none ∧ s.gate .integrate Dict.adaptRefuse = none
      ∧ (s.at (s.nat Dict.approvalTimeout * 60 * nsPerS)).mayDecide (7 : BitVec 32).toNat = true
      ∧ s.nat Dict.swapsThisShift < s.nat Dict.swapsPerShift ∧ (s.at 0).mayDecide (8 : BitVec 32).toNat = false
      ∧ s.adapt.st = .awaitingApproval ∧ (s.at (s.nat Dict.approvalTimeout * 60 * nsPerS + 1)).approvalLate = true := by
  decide +kernel

/-- A swap and the switch; the watch, with an evaluation due, a rollback asked for, and its end. -/
theorem witness_AdapterSwap :
    (let e : Encoder := { ring := [{ time := 0, fwd := true, pos := 0 }], valid := true }
     let s : State := { adapt := { st := .armed, cand := some candidate, bank0 := .sealed }, trump := { st := .running }, enc := [(0, e)] }
     s.adapt.cand = some candidate ∧ s.swapBank = some 0 ∧ s.trump.st = .running ∧ (s.at 0).encValid s.sharedEncoder = true)
    ∧ (let s : State := { adapt := { st := .armed, cand := some candidate, bank0 := .armed } }
     s.allSwitched = true ∧ s.adapt.st = .armed ∧ s.adapt.bank candidate.bank = .armed ∧ candidate.image.thresholds = none)
    ∧ (let s : State := { adapt := { st := .watch, cand := some candidate, bank1 := .armed, seen := 1000000000 } }
     s.adapt.cand = some candidate ∧ s.allSwitched = true ∧ s.adapt.st = .watch ∧ s.adapt.bank (1 - candidate.bank) = .armed
      ∧ (s.at 0).evalDue = true ∧ s.gate .integrate Dict.adaptRollback = none ∧ s.adapt.rolling = false
      ∧ candidate.id = (7 : BitVec 32).toNat
      ∧ s.adapt.watchAt + s.nat Dict.watchTime * nsPerS ≤ max (s.nat Dict.watchTime * nsPerS) s.tb) := by decide +kernel

/-- A stopped domain without a program; the maps at the bounds that R347 gives them; a stopping domain at rest. -/
theorem witness_TrumpDomain :
    (let s := State.reset
     s.gate .operate Dict.trumpControl = none ∧ s.trump.st = .stopped ∧ s.sec.serviceState = false ∧ s.image = none
      ∧ s.trumpRuns = false ∧ s.gate .integrate Dict.trumpSplitMap = none ∧ s.splitMapOk (1 : BitVec 16).toNat = true
      ∧ s.gate .integrate Dict.trumpArrayMap = none ∧ s.arrayMapOk (0xFF00 : BitVec 16).toNat = true
      ∧ s.sched.jobs = [] ∧ s.sched.owner = [] ∧ inMap (0xFF00 : BitVec 16).toNat 15 ≠ inMap (s.nat Dict.trumpArrayMap) 15)
    ∧ (let s : State := { only 0x50 { seq := .run } with trump := { st := .running } }
     s.gate .operate Dict.trumpControl = none ∧ s.trump.st = .running ∧ 0x50 ∈ s.trumpStations ∧ (s.station 0x50).seq = .run)
    ∧ (let s : State := { trump := { st := .stopping }, stations := State.reset.trumpStations.map fun n => (n, { seq := .idle }) }
     s.trump.st = .stopping ∧ ∀ sid ∈ s.trumpStations, (s.station sid).seq = .idle) := by decide +kernel

/-- A program of no tables for array 0, whole, with a cap of 32 for each station. -/
def program : TrumpImage :=
  { hash := Config.tablesHash [] []
    cert := { split := [false], hbmShare := State.reset.nat Dict.trumpHbmShare
              caps := State.reset.trumpStations.map fun n => (n, 32) } }

/-- A block with a program in TRUMP_PROGRAM. -/
def withProgram : State := State.reset.setBlob Dict.trumpProgram 0 0 [1]

theorem program_matches : withProgram.certMatches program = true := by
  have e1 : withProgram.trumpTables program = [] := by decide +kernel
  have e2 : withProgram.trumpStreams = [] := by decide +kernel
  unfold State.certMatches
  rw [e1, e2]
  show (Config.tablesHash [] [] == Config.tablesHash [] [] && _ && _ && _) = true
  rw [beq_self_eq_true]
  decide +kernel

/-- What a program's bytes say is open (log 45): wherever they say this program, its start passes every check. -/
theorem witness_TrumpDomain_start (h : Config.trumpImage [1] = program) :
    withProgram.image = some program ∧ withProgram.certMatches program = true
      ∧ (withProgram.writeCaps program).capSum ≤ withProgram.nat Dict.trumpTagReserve
      ∧ withProgram.banksMatch program = true ∧ withProgram.trumpHeld = none
      ∧ (withProgram.writeCaps program).trumpSplits.splitsMade = true := by
  refine ⟨?_, program_matches, by decide +kernel, by decide +kernel, by decide +kernel, by decide +kernel⟩
  have e : withProgram.blob Dict.trumpProgram = [1] := by decide +kernel
  simp only [State.image, e, h]; rfl

/-- The block STARTING under that program. -/
def starting : State := { withProgram with trump := { st := .starting } }

/-- The checks of the start once more: they pass, and every station may leave IDLE. -/
theorem witness_TrumpDomain_started (h : Config.trumpImage [1] = program) :
    let z := (starting.at 0).startChecks
    let y := (List.range 16).foldl (fun (x : State) n => x.startRefs n) z.2.loadSets.freshDomain
    starting.trump.st = .starting ∧ starting.trumpReady = true ∧ z.1 = none
      ∧ z.2.trump.adapter.bind z.2.setsRefused = none
      ∧ (y.trumpStations.foldl (fun (x : State) sid => x.leaveIdle sid) y).tooWide = none := by
  have e : (starting.at 0).blob Dict.trumpProgram = [1] := by decide +kernel
  have i : (starting.at 0).image = some program := by simp only [State.image, e, h]; rfl
  have c : (starting.at 0).certMatches program = true := program_matches
  have k : ¬ ((starting.at 0).writeCaps program).nat Dict.trumpTagReserve
      < ((starting.at 0).writeCaps program).capSum := by decide +kernel
  have b : ((starting.at 0).writeCaps program).banksMatch program = true := by decide +kernel
  have d : ((starting.at 0).writeCaps program).trumpHeld = none := by decide +kernel
  have m : ((starting.at 0).writeCaps program).trumpSplits.splitsMade = true := by decide +kernel
  have z : (starting.at 0).startChecks = (none, { ((starting.at 0).writeCaps program).trumpSplits with
      trump := { ((starting.at 0).writeCaps program).trumpSplits.trump with
        cert := program.cert, programHash := program.hash, adapter := program.adapter } }) := by
    simp only [State.startChecks, i, c, k, b, d, m, Bool.not_true, Bool.false_eq_true, if_false]
  refine ⟨rfl, by decide +kernel, ?_⟩
  rw [z]
  exact ⟨rfl, rfl, by decide +kernel⟩

/-- A descriptor that is accepted, one that is not, and one in a queue. -/
theorem witness_JobLifecycle_submit :
    (let s := State.reset
     s.gate .operate Dict.jobSubmit = none ∧ s.jobRefusal { desc := jobOf 1 } = none
      ∧ s.jobRefusal { desc := jobOf 0 } = some 0x02700E02)
    ∧ (let p : Packet := { id := 0, cells := [0], len := 64, stream := false }
     let s : State := { State.reset.setNum Dict.queueEnable 1 (State.reset.nat Dict.jobQueue) with
       queues := { q := [(State.reset.nat Dict.jobQueue, { unread := [p] })] }
       mem := { bytes := putBytes [] (hbmBase + State.reset.nat Dict.queuePoolBase) (leBytes 64 (jobOf 1).toNat) } }
     s.sec.serviceState = false ∧ (s.queue (s.nat Dict.jobQueue)).unread = p :: []
      ∧ s.jobRefusal { desc := bytesWord 512 ((s.packetBytes p).take 64) } = none) := by decide +kernel

/-- A job that owns the domain, with a deadline at 1 s and a run limit of 1 ms, its one station in the state `q`. -/
def jobAt (q : SeqState) (j : Job) : State :=
  { only 0x60 { seq := q } with sched := { jobs := [(0xFFFFFFFF, j)], owner := [0xFFFFFFFF] } }

/-- Such a job. -/
def theJob : Job := { desc := setFld (setFld (jobOf 0xFFFFFFFF) 431 384 1) 167 136 1, st := .owner, ctx := [(0x60, {})] }

theorem witness_JobLifecycle :
    (let s : State := { jobAt .blocked theJob with
       stations := [(0x60, { seq := .blocked, active := [wordOf 0x3F] })], tb := 1000000000
       streams := [(5, { entry := entryOf 5 0x61 0x60 0 })] }
     s.job? 0xFFFFFFFF = some theJob ∧ s.sched.jobs = [(0xFFFFFFFF, theJob)] ∧ s.sched.owner = [0xFFFFFFFF]
      ∧ theJob.st = .owner ∧ s.ownerBlocked = true)
    ∧ (let j := { theJob with st := .blocked }
     (jobAt .idle j).job? 0xFFFFFFFF = some j ∧ j.st = .blocked)
    ∧ (let j := { theJob with st := .ready, loading := true }
     let s : State := { jobAt .idle j with sched := { jobs := [(0xFFFFFFFF, j)] } }
     s.job? 0xFFFFFFFF = some j ∧ j.loading = true ∧ s.imageBad [] [] = false ∧ s.imageBad [(0x60, 64, [])] [] = true
      ∧ (true && !s.boot.modelLoaded) = true)
    ∧ (let s : State := { jobAt .run theJob with sched := { jobs := [(0xFFFFFFFF, theJob)], owner := [0xFFFFFFFF], switching := some [1] } }
     s.sched.switching = some [1] ∧ 1 ≠ 0xFFFFFFFF ∧ theJob.st = .owner ∧ s.atBoundary = true)
    ∧ (let s : State := { jobAt .run theJob with clk := { dev := (nsPerS + 1) * fracNs } }
     theJob.st ≠ .ended ∧ theJob.missed = false ∧ theJob.deadline = some nsPerS ∧ nsPerS < (s.at 0).devNs)
    ∧ (let s := jobAt .run theJob
     s.sched.owner.contains 0xFFFFFFFF = true ∧ theJob.map 167 136 ≠ 0
      ∧ theJob.map 167 136 * 1000000 < (s.at 1000001).owned 0xFFFFFFFF theJob ∧ s.gate .operate Dict.jobAbort = none)
    ∧ (let s := jobAt .idle theJob
     (theJob.ctx.all fun p => (s.station p.1).seq == .idle) = true) := by decide +kernel

/-- A frame for station 0x61 of this module from station 0x60 of module 1. -/
def frame (kind : Nat) (last : Bool) (txn addr rlen : Nat) (status : Word) (payload : List Byte) : Frame :=
  mkFrame kind false last 0x61 0x160 txn 1 1 addr rlen status payload

/-- Link 7 in a state. -/
def linkAt (l : Link) : State := { fab := { links := [(7, l)] } }

/-- A DOWN link with power; a lane of a training link, the last to find its marker; one of an UP link. -/
theorem witness_FabricLinks_lanes :
    (let s : State := { power := { pd := [(57, { st := .on })] } }
     s.gate .operate Dict.linkEnable = none ∧ (s.link 7).st = .down ∧ s.linkPowered 7 = true)
    ∧ (let m : Lane := { clock := true, block := true, marker := true }
     let s : State := { fab := { links := [(7, { st := .training })], lanes := [(28, m), (29, m), (30, m), (31, { clock := true })] } }
     31 / 4 = 7 ∧ (s.link 7).st = .training ∧ (s.link 7).helloSent = false ∧ 8 ≤ 8
      ∧ (∀ n ∈ [28, 29, 30], (s.lane n).marker = true) ∧ s.gate .operate Dict.bitSlip = none ∧ (s.lane 31).clock = true
      ∧ (s.lane 31).marker = false)
    ∧ (let s : State := { State.reset.setNum Dict.autoRetrain 0 7 with fab := { links := [(7, { st := .up })], lanes := [(31, { block := true })] } }
     (s.lane 31).block = true ∧ (s.link 7).st = .up ∧ s.flag Dict.autoRetrain 7 = false)
    ∧ (let s : State := { fab := { links := [(7, { st := .training })], lanes := [(31, { slips := 66 })] } }
     (s.at 0).alignFailed 7 = true) := by decide +kernel

/-- The other markers: every other lane of the link. -/
theorem witness_FabricLinks_markers (n : Nat) (h : n / 4 = 7) (h' : n ≠ 31) : n ∈ [28, 29, 30] := by
  simp only [List.mem_cons, List.not_mem_nil, or_false]; omega

/-- A HELLO from module 1, and one from an address of this module. -/
theorem witness_FabricLinks_hello :
    (let f := mkFrame 11 false false 0 0x170 0 0 0 0 0 0 []
     let s := linkAt { st := .training, helloSent := true }
     f.good 11 ∧ (s.link 7).st = .training ∧ (s.link 7).rxAsleep = false ∧ s.peerConflict 7 f.src = false
      ∧ (s.link 7).helloSent = true)
    ∧ (let f := mkFrame 11 false false 0 0x70 0 0 0 0 0 0 []
     f.good 11 ∧ (linkAt { st := .training }).peerConflict 7 f.src = true) := by
  unfold Frame.good; decide +kernel

/-- A transmitter just idle enough; asleep with a frame queued; its wake just over; a SLEEP received. -/
theorem witness_FabricLinks_sleep :
    (let s : State := { State.reset.setNum Dict.txSleepEn 1 7 with fab := { links := [(7, { st := .up, sentAt := 7 })] } }
     (s.link 7).st = .up ∧ (s.link 7).awake = true ∧ (s.link 7).txq = [] ∧ (s.link 7).unacked = [] ∧ (s.link 7).ackOwed = false
      ∧ s.flag Dict.txSleepEn 7 = true ∧ s.noSleep 7 = false
      ∧ (s.link 7).sentAt + s.nat Dict.sleepIdle 7 * 1000 ≤ max (7 + s.nat Dict.sleepIdle 7 * 1000) s.tb)
    ∧ (let s := linkAt { txAsleep := true, ackOwed := true }
     (s.link 7).txAsleep = true ∧ ((s.link 7).txq ≠ [] ∨ (s.link 7).ackOwed = true))
    ∧ (let s := linkAt { waking := some 7, ackOwed := true }
     (s.link 7).waking = some 7 ∧ 7 + 10000 ≤ max 10007 s.tb ∧ (s.link 7).txAsleep = false ∧ (s.link 7).txq = []
      ∧ (s.link 7).ackOwed = true)
    ∧ (let f := mkFrame 10 false false 0 0x170 0 0 0 0 0 0 []
     let s : State := { State.reset.setNum Dict.rxSleepEn 1 7 with fab := { links := [(7, { st := .up })] } }
     f.good 10 ∧ (s.link 7).st ≠ .down ∧ (s.link 7).rxAsleep = false ∧ s.flag Dict.rxSleepEn 7 = true
      ∧ s.noSleep 7 = false) := by
  unfold Frame.good; decide +kernel

/-- An ACK, a NAK that leaves a frame unacknowledged; a replay below the limit and one that reaches it. -/
theorem witness_FabricAcknowledgement :
    let g := frame 2 false 0 0 0 0 []
    let s := linkAt { st := .up, unacked := [g] }
    let last := frame 8 false 0 0xFFF 0 0 []
    let nak := frame 9 false 0 0xFFF 0 0 []
    (s.link 7).st ≠ .down ∧ (s.link 7).rxAsleep = false ∧ (s.link 7).txq = [] ∧ last.good 8 ∧ nak.good 9
      ∧ (s.link 7).replays = 0 ∧ 0 < s.nat Dict.replayLimit 7
      ∧ ((s.link 7).unacked.filter fun h => !lseqUpTo h.lseq (BitVec.ofNat 12 nak.addr)) ≠ []
      ∧ (s.link 7).st = .up ∧ (s.link 7).ackAt + s.nat Dict.replayTimeout 7 * 1000 ≤ max 1000000000 s.tb
      ∧ (s.link 7).unacked ≠ [] ∧ (s.link 7).replays < s.nat Dict.replayLimit 7
      ∧ s.nat Dict.replayLimit 7 ≤ ((linkAt { st := .up, unacked := [g], replays := 8 }).link 7).replays
      ∧ (State.reset.setNum Dict.autoRetrain 0 7).flag Dict.autoRetrain 7 = false := by
  unfold Frame.good; decide +kernel

/-- Two heads, as they come over the wire: the tile's epoch is this one, and the one after it. -/
def headNow : Frame :=
  { hdr := 0x1000000040000061000160ffff00010100000000000000000000000039fa16f2
    payload := wordBytes (0x1080000080010001000000000001600000000000000040000000000000000000000000000000000000000000000000000000000000000000000000000000ed75 : Desc) }
/-- The second. -/
def headOld : Frame :=
  { hdr := 0x1000000040000061000160ffff0001010000000000000000000000009a6914c5
    payload := wordBytes (0x10800000800100020000000000016000000000000000400000000000000000000000000000000000000000000000000000000000000000000000000000002500 : Desc) }

/-- A head whose tile is taken, and one of another epoch. -/
theorem witness_FabricTransactions_head :
    (linkAt { st := .up }).takesNext 7 headNow 0 ∧ headNow.last = false
    ∧ ((linkAt { st := .up }).headRefusal (headNow.dst % 256) (bytesWord 512 (headNow.payload.take 64))).1 = none
    ∧ (linkAt { st := .up }).takesNext 7 headOld 0 ∧ headOld.last = false
    ∧ ((linkAt { st := .up }).headRefusal (headOld.dst % 256) (bytesWord 512 (headOld.payload.take 64))).1 ≠ none := by
  unfold State.takesNext Frame.good; decide +kernel

/-- A tile that lands, its stream, a frame within it and its last frame. -/
def landingTile : Desc := tileOf 0x8001 1 0 0x160
/-- Its stream, through queue 5. -/
def landingStream : Stream := { entry := entryOf 0x8001 0x160 0x61 0 ||| BitVec.ofNat 128 (1 <<< 38 + 5 <<< 26) }
/-- A frame of its data. -/
def landingData (last : Bool) : Frame := frame 1 last 0xFFFF 0 0 0 [1, 2, 3, 4]
/-- The block with the tile begun. -/
def landingState : State :=
  { State.reset.setNum Dict.queueEnable 1 5 with
    fab := { links := [(7, { st := .up })], landing := [((landingData true).key, { desc := some landingTile, data := [] })] }
    streams := [(0x8001, landingStream)] }
/-- The packet that is pushed. -/
def landingPacket : List Byte :=
  wordBytes landingTile ++ (putAt [] (landingData true).addr (landingData true).payload).take
    (min (putAt [] (landingData true).addr (landingData true).payload).length (fld landingTile 351 332))

/-- Data within a tile, and the last of it, whose stream has a queue with room. -/
theorem witness_FabricTransactions_data :
    (landingState.takesNext 7 (landingData false) 1 ∧ (landingData false).last = false
      ∧ landingState.fab.landing.look (landingData false).key = some { desc := some landingTile, data := [] })
    ∧ landingState.takesNext 7 (landingData true) 1 ∧ (landingData true).last = true
    ∧ landingState.anyStream (fld landingTile 479 464) = some landingStream ∧ mapQueue landingStream.entry = 5
    ∧ bit landingTile 502 = false ∧ landingState.queueOn 5 = true ∧ landingState.queueStrip 5 = false
    ∧ landingState.pushTooLong 5 (packetCells landingPacket.length) = false
    ∧ (landingState.pushCells 5 (packetCells landingPacket.length)).length = packetCells landingPacket.length := by
  refine ⟨⟨?_, ?_, ?_⟩, ?_, ?_, ?_, ?_, ?_, ?_, ?_, ?_, ?_⟩ <;>
    first | decide +kernel | (unfold State.takesNext Frame.good; decide +kernel)

/-- A WRITE to the last unit of the HBM; a READ_REQ of one unit from a module that link 7 reaches. -/
theorem witness_FabricTransactions_access :
    (let f := frame 2 true 0xFFFF 0x1023FFFFFFE0 0 0 (List.replicate 32 1)
     let s := linkAt { st := .up }
     s.takesNext 7 f 2 ∧ placeOf f.addr = .hbm 0x23FFFFFFE0 ∧ s.accessStatus s.landEngine true (f.addr + 31) = none)
    ∧ (let f := frame 3 false 0xFFFF 0x1023FFFFFFE0 0 0 []
     let s : State := { State.reset.setBlob Dict.fabRoute 0 0 [0xFF, 0xFF, 0xF7] with fab := { links := [(7, { st := .up, peer := 0x170 })] } }
     s.takesNext 7 f 3 ∧ f.rlen = 0 ∧ (∀ p ∈ s.fab.flow, p.2.owed = false) ∧ (s.flow 0).owed = false
      ∧ f.src / 32768 = s.nat Dict.fabDomainId ∧ (s.at 0).route (f.src / 256 % 128) = some (7, false)
      ∧ (s.link 7).awake = true ∧ (s.link 7).txq = [] ∧ (s.link 7).unacked = []
      ∧ s.rangeStatus s.landEngine false f.addr 32 = none ∧ s.poisonedRange f.addr 32 = false) := by
  unfold State.takesNext Frame.good; decide +kernel

/-- Transactions of the first and the last tag: a READ_RESP, a COMPLETE, a RETURN, a timeout, a CREDIT. -/
theorem witness_FabricTransactions_ends :
    let x : Trans := { kind := .tile, reuse := 15, station := 0x60, stream := 0x8001, epoch := 1 }
    let r : Trans := { kind := .read, reuse := 0, station := 0x60, land := 0x100240000000, len := 32 }
    let y : Stream := { entry := entryOf 0x8001 0x60 0x161 0 }
    let s : State := { streams := [(0x8001, y)], fab := { links := [(7, { st := .up })], trans := [(0, r), (4095, x)] } }
    let resp := frame 4 true 0 0 0 0 (List.replicate 32 1)
    let comp := frame 5 false 0xFFFF 0 0 0 []
    let ret := frame 7 false 0xFFFF 0 0 0x03000201 []
    let cred := frame 6 false 0 (0x8001 * 4294967296) 5 0 []
    s.takesNext 7 resp 4 ∧ s.fab.trans.look (resp.txn % 4096) = some r ∧ r.reuse % 16 = resp.txn / 4096 ∧ r.kind = .read
      ∧ BitVec.ofNat 16 resp.epoch = (s.station r.station).epoch ∧ r.expand = none ∧ r.compress = none
      ∧ placeOf (r.land + resp.addr) = .hbm 0x240000000 ∧ s.exists' x.station = true
      ∧ (s.station x.station).epoch = x.epoch ∧ (s.station { x with epoch := 2 }.station).epoch ≠ { x with epoch := 2 }.epoch
      ∧ s.accessStatus s.landEngine true (r.land + resp.addr + 0) = none
      ∧ s.fab.trans.look (comp.txn % 4096) = some x ∧ x.reuse % 16 = comp.txn / 4096 ∧ x.kind = .tile ∧ x.job = 0
      ∧ s.streams.look x.stream = some y ∧ s.takesNext 7 comp 5 ∧ comp.status = 0 ∧ s.takesNext 7 ret 7
      ∧ ret.txn = comp.txn ∧ s.takesNext 7 cred 6 ∧ s.streams.look (cred.addr / 4294967296 % 65536) = some y
      ∧ s.fab.trans.look 4095 = some x ∧ x.start + s.nat Dict.fabTimeout * 1000 ≤ max 1000000000 s.tb := by
  unfold State.takesNext Frame.good; decide +kernel

/-- Datagrams at the bridge: none here; of another version; the first of a domain. -/
theorem witness_FabricTransactions_bridge :
    State.reset.isBridge = false
    ∧ (let s := State.reset.setNum Dict.bridgeEnable 1
     let h : BitVec 64 := BitVec.ofNat 64 (1 <<< 60 + 127 <<< 53)
     let f := frame 6 false 0 (0x8001 * 4294967296) 5 0 []
     s.isBridge = true ∧ (fld (0 : BitVec 64) 63 60 ≠ 1 ∨ s.bseqNewer (fld (0 : BitVec 64) 59 53) 0 = false)
      ∧ fld h 63 60 = 1 ∧ s.bseqNewer (fld h 59 53) (BitVec.ofNat 32 (fld h 31 0)) = true ∧ f.good 6 ∧ s.isLocal f.dst = true) := by
  unfold Frame.good; decide +kernel

/-- What a reach finds, from its parts. -/
theorem reaches_entry {s : State} {b : By} {i sub k : Nat} {e : Ent} (h : i < 0xF000) (he : Dict.find i sub = some e)
    (hk : s.unitOf b.who e = some k) : s.reach b i sub = .ok (e, sub - e.s, k) := by
  have : ¬ (0xF000 ≤ i ∧ b.role = .service ∧ (!s.sec.debugUnlocked) = true) := by omega
  simp only [State.reach, if_neg this, he, hk]

/-- What a reach of no entry answers. -/
theorem reaches_nothing {s : State} {b : By} {i sub : Nat} (h : i < 0xF000) (he : Dict.find i sub = none) :
    s.reach b i sub = .error abNoObject := by
  have : ¬ (0xF000 ≤ i ∧ b.role = .service ∧ (!s.sec.debugUnlocked) = true) := by omega
  simp only [State.reach, if_neg this, he]

/-- A datagram is heard by its port and source alone. -/
theorem hears_of {s : State} {m m' : Datagram} (h : s.hears m' = true) (hp : m.port = m'.port) (hs : m.src = m'.src) :
    s.hears m = true := by
  simpa only [State.hears, hp, hs] using h

/-- A step of a CRC-8 stays below 256. -/
theorem crcStep_lt (c n : Nat) (h : c < 256) : crcStep 8 7 c n < 256 := by
  induction n generalizing c with
  | zero => exact h
  | succ n ih =>
    refine ih _ ?_
    have : c * 2 % 2 ^ 8 < 2 ^ 8 := Nat.mod_lt _ (by decide)
    split
    · exact Nat.xor_lt_two_pow this (by decide)
    · exact this

/-- A CRC-8 is a byte. -/
theorem crc8_lt (l : List Byte) : crc8 l < 256 := by
  suffices h : ∀ c, c < 256 → crcMsb 8 7 c l < 256 from h 0 (by decide)
  induction l with
  | nil => exact fun c h => h
  | cons b l ih =>
    refine fun c h => ih _ (crcStep_lt _ _ (Nat.xor_lt_two_pow (n := 8) h ?_))
    simpa using b.isLt

/-- A U16 and a U16 and the ends of its range (MISSED_LOG_MAX); nothing at index 0; RO (STALL_COUNT). -/
theorem witness_DictionaryWrites_order :
    let a := State.reset.at 0
    let b : By := { role := .operate, who := 65535 }
    let v : By := { role := .view, who := 0 }
    a.reach b 0 0 = .error abNoObject
    ∧ a.reach b 0x3201 0 = .ok (Dict.missedLogMax, 0, 0) ∧ Dict.missedLogMax ≠ Dict.integrateKeyEnrol
    ∧ v.role.reaches (Dict.missedLogMax.needs v [0, 0]) = false
    ∧ b.role.reaches (Dict.missedLogMax.needs b [0, 0]) = true
    ∧ Dict.missedLogMax.lengthOk [0, 0, 0].length = false ∧ Dict.missedLogMax.lengthOk [0].length = false
    ∧ a.reach b 0x3200 7 = .ok (Dict.stallCount, 0, 0) ∧ Role.service.reaches (Dict.stallCount.needs b []) = true
    ∧ Dict.stallCount.lengthOk 8 = true ∧ a.accessRefused Dict.stallCount 0 0 = true
    ∧ Dict.missedLogMax.lengthOk 2 = true ∧ a.accessRefused Dict.missedLogMax 0 1001 = false
    ∧ Dict.missedLogMax.ty.value [0xE9, 0x03] = 1001 ∧ Dict.missedLogMax.inRange 1001 = false
    ∧ Dict.missedLogMax.ty.value [0xE8, 0x03] = 1000 ∧ a.accessRefused Dict.missedLogMax 0 1000 = false
    ∧ Dict.missedLogMax.inRange 1000 = true
    ∧ (rulesHold rangeRules Dict.missedLogMax fun f => f a (a.store b Dict.missedLogMax 0 0 1000 [0xE8, 0x03]) 0) = true
    ∧ (viewOf effects Dict.missedLogMax).isNone = true ∧ Dict.missedLogMax.selector = false
    ∧ Dict.missedLogMax.ty.isNum = true := by
  refine ⟨reaches_nothing (by decide) (by decide +kernel), reaches_entry (by decide) (by decide +kernel) (by decide +kernel), ?_, ?_, ?_, ?_, ?_,
    reaches_entry (by decide) (by decide +kernel) (by decide +kernel), ?_⟩ <;> decide +kernel

/-- No session listens to aborts at reset, and bit 3 of I3C_EVENT_MASK set to 0. -/
theorem witness_DictionaryWrites_quiet :
    let s := State.reset.setNum Dict.i3cEventMask 0
    (∀ p ∈ s.host.sessions, p.2.mask.getLsbD 3 = false) ∧ inMap (s.nat Dict.i3cEventMask) 3 = false
    ∧ s.flag Dict.fdpEnable = true ∧ (State.reset.setNum Dict.fdpEnable 0).host.sessions = []
    ∧ State.reset.sec.pufBad = false := by decide +kernel

/-- STORE_NOW by its role; a burst just over; a role key, the first INTEGRATE key, FDP_ENABLE 0 and 1. -/
theorem witness_DictionaryWrites_effects :
    State.reset.numberPasses .service Dict.storeNow 0 1
    ∧ (({ boot := { saveDirtyAt := some 5 } } : State).boot.saveDirtyAt = some 5 ∧ 5 + 2000000000 ≤ max 2000000005 0)
    ∧ State.reset.writePasses .integrate (keyEnt 0) 0 (List.replicate 32 7)
    ∧ State.reset.writePasses .service (keyEnt 2) 0 (List.replicate 32 0)
    ∧ State.reset.writePasses .view Dict.integrateKeyEnrol 0 (List.replicate 32 7)
    ∧ State.reset.numberPasses .integrate Dict.fdpEnable 0 0 ∧ State.reset.numberPasses .integrate Dict.fdpEnable 0 1 := by
  unfold State.numberPasses State.writePasses
  refine ⟨?_, ⟨rfl, by decide⟩, ?_, ?_, ?_, ?_, ?_⟩ <;> decide +kernel

/-- A datagram with the TAG that a key and a kind ask for. -/
def stamp (m : Datagram) (key : List Byte) (kind : Nat) : Datagram := { m with tag := m.tagOf key kind }

/-- Its TAG is good: a TAG is taken over the message alone. -/
theorem stamp_good (m : Datagram) (key : List Byte) (kind : Nat) :
    (stamp m key kind).tag = (stamp m key kind).tagOf key kind := rfl

/-- A key. -/
def aKey : List Byte := List.replicate 32 0xA5
/-- A served module whose VIEW key is set, with sessions. -/
def servedWith (l : Tab Session) : State :=
  { State.reset.setBlob Dict.keyView 0 0 aKey with boot := { booted := true }, host := { sessions := l } }
/-- An OPEN_REQ of the role View. -/
def openReq : Datagram := { port := 0, src := 1, session := 0, seq := 9, body := [0, 0, 1] ++ List.replicate 16 3 }
/-- Eight sessions. -/
def eight : Tab Session := (List.range 8).map fun n => (n + 1, { role := .view })

/-- An OPEN_REQ with a good TAG, its nonce new, and no session; eight. -/
theorem witness_FdpSessions_open :
    (stamp openReq aKey 0).tag = (stamp openReq aKey 0).tagOf aKey 0
    ∧ (let m := stamp openReq aKey 0
       m.body.length = 19 ∧ (m.body.getD 0 4).toNat = 0 ∧ (m.body.getD 1 0).toNat ≤ 1 ∧ 1 ≤ (m.body.getD 2 0).toNat)
    ∧ ((servedWith []).at 0).hears (stamp openReq aKey 0) = true ∧ ((servedWith eight).at 0).hears (stamp openReq aKey 0) = true
    ∧ (servedWith []).roleKey (roleOf 0) = some aKey ∧ (servedWith eight).roleKey (roleOf 0) = some aKey
    ∧ (servedWith []).host.nonces = [] ∧ (servedWith eight).host.nonces = []
    ∧ (servedWith []).host.sessions.length < 8 ∧ 8 ≤ (servedWith eight).host.sessions.length := by
  refine ⟨stamp_good .., ?_, ?_, ?_, ?_⟩ <;> decide +kernel

/-- A session of the role Integrate that has had requests up to 8. -/
def aSession : Session := { role := .integrate, key := aKey, lastSeq := 8, kept := [1] }
/-- A request in session 65535. -/
def request (seq : Word) (body : List Byte) : Datagram := { port := 0, src := 1, session := 65535, seq := seq, body := body }
/-- The module with that session. -/
def inSession (x : Session) : State := servedWith [(65535, x)]

/-- Any request with the next SEQ, or with the last one, of the open session: heard, and its TAG good for its kind. -/
theorem witness_FdpSessions_request (body : List Byte) (kind : Nat) :
    let m := stamp (request 9 body) aKey kind
    let m' := stamp (request 8 body) aKey kind
    ((inSession aSession).at 0).hears m = true ∧ (inSession aSession).host.sessions.look m.session.toNat = some aSession
    ∧ m.version = 1 ∧ newer m.seq aSession.lastSeq = true ∧ m.tag = m.tagOf aSession.key kind ∧ m.body = body
    ∧ ((inSession aSession).at 0).hears m' = true ∧ m'.seq = aSession.lastSeq ∧ aSession.kept ≠ []
    ∧ m'.tag = m'.tagOf aSession.key kind := by
  have h : ((inSession aSession).at 0).hears (request 9 []) = true := by decide +kernel
  have k : newer 9 aSession.lastSeq = true := by decide +kernel
  have l : (inSession aSession).host.sessions.look 65535 = some aSession := by decide +kernel
  exact ⟨hears_of h rfl rfl, l, rfl, k, stamp_good .., rfl, hears_of h rfl rfl, rfl, by decide, stamp_good ..⟩

/-- Bodies for the kinds: READ of one item and of 32; WRITE of a value; DESCRIBE; SEG_INIT of FAB_ROUTE; SUBSCRIBE 15. -/
theorem witness_FdpSessions_bodies :
    let z := inSession { aSession with seen := true }
    let b : By := { role := .integrate, who := 65535 }
    let one : List Byte := [0x01, 0x32, 0, 0]
    let all : List Byte := (List.replicate 32 one).flatten
    let seg : List Byte := [0x00, 0x46, 7, 1, 0, 1, 0, 0]
    readItems one = some [(0x3201, 0)] ∧ (z.readAll b [(0x3201, 0)]).1 = 0 ∧ (z.readAll b [(0x3201, 0)]).2.length ≤ 1400
    ∧ readItems all = some (List.replicate 32 (0x3201, 0)) ∧ (z.readAll b (List.replicate 32 (0x3201, 0))).1 = 0
    ∧ (z.readAll b (List.replicate 32 (0x3201, 0))).2.length ≤ 1400
    ∧ writeItems [0x01, 0x32, 0, 2, 0xE8, 3] 6 = some [(0x3201, 0, [0xE8, 3])]
    ∧ z.reach b 0x3201 0 = .ok (Dict.missedLogMax, 0, 0)
    ∧ aSession.xfer = none ∧ seg.length = 8 ∧ seg.getD 3 0 = 1
    ∧ z.reach b (leNat (seg.take 2)) (seg.getD 2 0).toNat = .ok (Dict.fabRoute, 0, 0)
    ∧ Dict.fabRoute ≠ Dict.fwStage ∧ Dict.fabRoute ≠ Dict.modelStage
    ∧ z.segWriteRefused b Dict.fabRoute 0 (leNat (seg.drop 4)) = none
    ∧ leNat [15, 0, 0, 0] < 16 ∧ badKind 1 = true ∧ badKind 15 = true := by
  refine ⟨?_, ?_, ?_, ?_, ?_, ?_, ?_, reaches_entry (by decide) (by decide +kernel) (by decide +kernel), ?_, ?_, ?_,
    reaches_entry (by decide +kernel) (by decide +kernel) (by decide +kernel), ?_⟩ <;> decide +kernel

/-- The write of FAB_ROUTE, empty and whole; a read under way; five seconds not yet, and just, over. -/
theorem witness_FdpSessions_segments :
    let f (n : Nat) : Xfer := ⟨0x4600, 7, 0, true, 256, n, List.replicate (128 * n) 0xFF, 0⟩
    let g : Xfer := ⟨0x4600, 7, 0, false, 256, 0, List.replicate 256 0xFF, 0⟩
    let body : List Byte := [1, 0, 0, 0] ++ List.replicate 128 0xFF
    (4 ≤ body.length ∧ leNat (body.take 4) = (f 1).next ∧ (f 1).writes Dict.modelStage = false ∧ (f 1).write = true
      ∧ (body.drop 4).length ≤ 1024 ∧ (f 1).data.length + (body.drop 4).length ≤ (f 1).total
      ∧ max 4999999999 0 < (f 1).last + segIdle)
    ∧ (leNat ([0, 0, 0, 0] : List Byte) = g.next ∧ g.writes Dict.modelStage = false ∧ g.write = false)
    ∧ (f 2).data.length = (f 2).total ∧ Dict.find (f 2).idx (f 2).sub = some Dict.fabRoute
    ∧ (viewOf domainEffects Dict.fabRoute).isNone = true ∧ Dict.fabRoute.ty = .domain ∧ Dict.fabRoute.selector = false
    ∧ (inSession aSession).accessRefused Dict.fabRoute 0 0 = false
    ∧ domainLength Dict.fabRoute (f 2).data.length = true
    ∧ (let b : By := { role := .integrate, who := 65535 }
       let z' := (inSession { aSession with seen := true, xfer := some (f 2) }).setXfer 65535 none false
       (rulesHold rangeRules Dict.fabRoute fun g => g z' (z'.store b Dict.fabRoute 0 0 0 (f 2).data) 0) = true)
    ∧ (inSession { aSession with xfer := some (f 1) }).xferOf 65535 = some (f 1) ∧ (f 1).last + segIdle ≤ max 5000000000 0
    ∧ (let h : Xfer := ⟨0x1023, 0, 0, true, 256, 0, [], 0⟩
       let s : State := { inSession { aSession with xfer := some h } with boot := { booted := true, commitStage := 1 } }
       s.xferOf 65535 = some h ∧ h.writes Dict.modelStage = true ∧ s.boot.commitStage = 1) := by
  decide +kernel

/-- The sixteenth bad TAG within a second; sessions just idle too long. -/
theorem witness_FdpSessions_ends :
    (let s : State := { servedWith [] with host := { lockouts := [(1, { bad := List.replicate 15 1 })] } }
     (s.at 1000000000).hears openReq = true
      ∧ ((s.host.lockouts.val {} openReq.src.toNat).bad.filter fun b => decide (max 1000000000 s.tb < b + 1000000000)).length
        = 15)
    ∧ (inSession aSession).host.sessions.look (65535 : BitVec 16).toNat = some aSession
    ∧ aSession.lastGood + (inSession aSession).nat Dict.sessionTimeout * 1000000000 ≤ max 10000000000 0
    ∧ aSession.seen = false ∧ aSession.openedAt + 2000000000 ≤ max 2000000000 0 := by decide +kernel

/-- The I3C target of a served module with the role Integrate. -/
def target (x : I3c) : State :=
  { State.reset.setNum Dict.i3cRole 2 with boot := { booted := true }, host := { i3c := x } }
/-- The CRC-8 of a private write. -/
def crcOf (cmd : Nat) (body : List Byte) : BitVec 8 := BitVec.ofNat 8 (crc8 (BitVec.ofNat 8 cmd :: body))

/-- The target with an address and without; with a CRC that is bad for every command. -/
theorem witness_I3cTarget_address :
    (target {}).host.i3c.addr = 0
    ∧ (target { addr := 127 }).i3cOn = true ∧ (target { addr := 127 }).host.i3c.addr ≠ 0
    ∧ (target { addr := 127 }).flag Dict.i3cHdrEn = true
    ∧ ∀ cmd ∈ [1, 2, 3, 4, 5, 6, 7], (0x55 : BitVec 8).toNat ≠ crc8 (BitVec.ofNat 8 cmd :: []) := by decide +kernel

/-- Any body with its CRC-8. -/
theorem witness_I3cTarget_crc (cmd : Nat) (body : List Byte) :
    (crcOf cmd body).toNat = crc8 (BitVec.ofNat 8 cmd :: body) := by
  refine Nat.mod_eq_of_lt ?_
  show crc8 _ < 256
  exact crc8_lt _

/-- Bodies and transfers for the private writes; indices the recovery loader lets be read, and one not. -/
theorem witness_I3cTarget_writes :
    let s := target { addr := 8 }
    let a := s.at 0
    let b := s.i3cBy
    let seg : List Byte := [0x00, 0x46, 7, 1, 0, 1, 0, 0]
    let data : List Byte := [1, 0, 0, 0] ++ List.replicate 64 0xFF
    let f : Xfer := ⟨0x4600, 7, 0, true, 256, 1, List.replicate 64 0xFF, 0⟩
    let g : Xfer := ⟨0x4600, 7, 0, false, 256, 1, List.replicate 64 0xFF, 0⟩
    let v : List Byte := [0x01, 0x32, 0, 64] ++ List.replicate 64 0
    s.boot.recoveryLoader = false ∧ s.sec.pufBad = false ∧ s.host.i3c.xfer = none
    ∧ a.reach b 0x3201 0 = .ok (Dict.missedLogMax, 0, 0) ∧ (a.readItem b 0x3201 0).1 = 0
    ∧ loaderIndex (bodyIndex [0xFF, 0x10, 0]) = true ∧ loaderIndex (bodyIndex [0x00, 0x11, 0]) = false
    ∧ v.length = 4 + (v.getD 3 0).toNat ∧ v.length ≤ 68
    ∧ seg.length = 8 ∧ seg.getD 3 0 = 1 ∧ a.reach b (bodyIndex seg) (seg.getD 2 0).toNat = .ok (Dict.fabRoute, 0, 0)
    ∧ a.segWriteRefused b Dict.fabRoute 0 (leNat (seg.drop 4)) = none
    ∧ 4 ≤ data.length ∧ data.length ≤ 68 ∧ (target { addr := 8, xfer := some f }).host.i3c.xfer = some f
    ∧ max 4999999999 0 < f.last + segIdle ∧ leNat (data.take 4) = f.next ∧ f.write = true
    ∧ f.writes Dict.modelStage = false ∧ f.data.length + (data.drop 4).length ≤ f.total ∧ g.write = false := by
  refine ⟨?_, ?_, ?_, reaches_entry (by decide) (by decide +kernel) (by decide +kernel), ?_, ?_, ?_, ?_, ?_, ?_, ?_,
    reaches_entry (by decide +kernel) (by decide +kernel) (by decide +kernel), ?_⟩ <;> decide +kernel

/-- The recovery loader answers too; events; a result ready at its latest; the CCCs' operands at the ends of their
ranges. -/
theorem witness_I3cTarget_others :
    (let s : State := { boot := { recoveryLoader := true }, host := { i3c := { addr := 8 } } }
     s.i3cOn = true ∧ s.boot.recoveryLoader = true)
    ∧ (target { addr := 8, events := [[1, 2, 3, 4, 5]], ibi := true }).host.i3c.events = [[1, 2, 3, 4, 5]]
    ∧ (target { addr := 8 }).host.i3c.result = none
    ∧ (let x : I3c := { addr := 8, result := some [1], writtenAt := 1 }
       x.slow = false ∧ x.writtenAt + 200000 ≤ max 200001 0)
    ∧ (72 : BitVec 7).toNat = (target {}).nat Dict.i3cStaticAddr ∧ inMap (0x01 : BitVec 8).toNat 0 = true
    ∧ inMap (0xFF : BitVec 8).toNat 0 = true ∧ 16 ≤ (16 : BitVec 16).toNat ∧ (72 : BitVec 16).toNat ≤ 72
    ∧ (264 : BitVec 16).toNat ≤ 264 := by decide +kernel

/-- A frame for a destination, from station 02:00:00:00:00:01. -/
def frameFor (dst : Nat) (rest : List Byte) : List Byte := beBytes 6 dst ++ beBytes 6 0x020000000001 ++ rest
/-- A Sync on the PTP multicast address; a group frame that is none; a broadcast ARP request for the module's address. -/
def syncFrame : List Byte := frameFor 0x011B19000000 ([0x88, 0xF7, 0x00] ++ List.replicate 45 0)
/-- A group frame that is no event message. -/
def groupFrame : List Byte := frameFor 0x011B19000000 ([0x88, 0xF7, 0x0B] ++ List.replicate 45 0)
/-- An ARP request for IPv4 address 0xC0A80001. -/
def arpFrame : List Byte :=
  frameFor 0xFFFFFFFFFFFF ([0x08, 0x06, 0, 1, 8, 0, 6, 4, 0, 1] ++ List.replicate 16 0 ++ [0xC0, 0xA8, 0, 1]
    ++ List.replicate 18 0)
/-- Both external links up. -/
def linksUp : State := ((State.reset.setNum Dict.ethLink 1 0).setNum Dict.ethLink 1 1).setNum Dict.ipv4Address 0xC0A80001

/-- A port that is down, or off; frames of each kind at a port that is up; the last frame of a second. -/
theorem witness_EthernetSwitch :
    (State.reset.num Dict.ethMode 0 ≠ 0 ∧ State.reset.flag Dict.ethLink 0 = false)
    ∧ (State.reset.setNum Dict.ethMode 0 1).num Dict.ethMode 1 = 0
    ∧ linksUp.num Dict.ethMode 0 ≠ 0 ∧ linksUp.flag Dict.ethLink 0 = true
    ∧ 1518 < (frameFor 1 (List.replicate 1507 0)).length ∧ (frameFor 1 (List.replicate 1506 0)).length ≤ 1518
    ∧ isGroup (frameSrc groupFrame) = false ∧ linksUp.net.macs.length < 1024
    ∧ frameDst groupFrame ≠ linksUp.myMac ∧ isGroup (frameDst groupFrame) = true
    ∧ linksUp.num Dict.ethMode 1 ≠ 0 ∧ linksUp.flag Dict.ethLink 1 = true ∧ ptpEvent groupFrame = none
    ∧ frameDst syncFrame ≠ linksUp.myMac ∧ isGroup (frameDst syncFrame) = true ∧ ptpEvent syncFrame = some (14, none)
    ∧ linksUp.toInternal arpFrame = true ∧ 0 < linksUp.nat Dict.rxLimit ∧ (linksUp.arpReply arpFrame).isSome = true
    ∧ (let s : State := { linksUp with net := { second := 3, count := 49999 } }
       s.net.second = max 3000000000 s.tb / 1000000000 ∧ s.net.count < s.nat Dict.rxLimit) := by decide +kernel

/-- A clock in a state. -/
def clockIn (st : TimeState) (trump : TrumpState) : State := { clk := { st := st }, trump := { st := trump } }

/-- An unset clock; one out of limits while the domain runs; an offset at the limit, and at 100 us while it is stopped. -/
theorem witness_DeviceTime_servo :
    State.reset.ptpPort 1 = true ∧ (clockIn .unset .stopped).clk.st = .unset
    ∧ (clockIn .unset .stopped).trump.st ≠ .running ∧ (clockIn .unset .stopped).ptpPort 0 = true
    ∧ (let s := clockIn .locked .running
       s.clk.st ≠ .unset ∧ s.nat Dict.stepLimit < (1000001 : Int).natAbs ∧ (1000000 : Int).natAbs ≤ s.nat Dict.stepLimit
       ∧ s.trump.st = .running ∧ (s.at 0).armed = false ∧ s.ptpPort 0 = true)
    ∧ (100000 : Int).natAbs ≤ (clockIn .free .stopped).nat Dict.stepLimit ∧ (100000 : Int).natAbs ≤ 100000
    ∧ (clockIn .free .stopped).clk.st ≠ .unset ∧ (clockIn .free .stopped).trump.st ≠ .running := by decide +kernel

/-- The last nanosecond of device time, allowed to an unset clock and not to a set one while the domain runs; the
override, and its end just reached. -/
theorem witness_DeviceTime_steps :
    (let s := State.reset.setNum Dict.ptpEnable 0
     let u : State := { s with clk := { st := .free }, trump := { st := .running } }
     let at_ := 281474976710655 * 1000000000 + 999999999
     s.gate .service Dict.timeSet = none ∧ s.flag Dict.ptpEnable = false ∧ (999999999 : BitVec 32).toNat < 1000000000
     ∧ (s.at 0).stepAllowed ((at_ : Int) - (s.at 0).devNs) = true
     ∧ u.gate .service Dict.timeSet = none ∧ u.flag Dict.ptpEnable = false
     ∧ (u.at 0).stepAllowed ((at_ : Int) - (u.at 0).devNs) = false)
    ∧ State.reset.gate .service Dict.stepOverride = none
    ∧ (let s : State := { clk := { armedAt := some 1 } }
       s.clk.armedAt = some 1 ∧ 1 + s.nat Dict.overrideWindow * 1000000000 ≤ max 60000000001 s.tb) := by decide +kernel

/-- The first master, of another identity; one just silent, with the clock locked. -/
theorem witness_DeviceTime_masters :
    (let m : Announce := { identity := [1, 2, 3, 4, 5, 6, 7, 8] }
     let s := clockIn .locked .stopped
     s.ptpPort 1 = true ∧ s.clk.masters = [] ∧ m.identity ≠ s.blob Dict.gmIdentity)
    ∧ (let m : Announce := { identity := [1, 2, 3, 4, 5, 6, 7, 8] }
       let s : State := { clk := { st := .locked, masters := [(m, 1)], master := some m } }
       s.flag Dict.ptpEnable = true ∧ (s.at 3000000001).masterSilent = true ∧ s.clk.st = .locked) := by decide +kernel

/-- Image output port 3 on, with what it has to send. -/
def outPort (x : Cout) : State :=
  { State.reset.setNum Dict.coutEnable 1 3 with power := { pd := [(55, { st := .on })] }, couts := [(3, x)] }
/-- A verdict. -/
def aVerdict : Verdict := { port := 0, colFirst := 0, colLast := 7, posFirst := 0, posLast := 7, ctx := 0 }
/-- A record of a mosaic of 4096 rows of 21845 RGB888 pixels. -/
def mosaicRec : BitVec 512 := BitVec.ofNat 512 (1 <<< 508 + 21845 <<< 480 + 4096 <<< 464)

/-- A crop request just young enough; a pending overlay alone. -/
theorem witness_ImageOutputFrames_start :
    (let c : CropReq := { verdict := aVerdict, at_ := 1, first := 0, lines := 8 }
     let s := outPort { crops := [c] }
     s.coutOn 3 = true ∧ (s.cout 3).frame = none ∧ (s.cout 3).crops = c :: []
     ∧ max 500000001 s.tb ≤ c.at_ + s.nat Dict.cropMaxAge 3 * 1000000 ∧ 0 < c.lines * s.channels c.verdict.port)
    ∧ (let s := outPort { overlay := some 0 }
       s.coutOn 3 = true ∧ (s.cout 3).frame = none ∧ (s.cout 3).crops = [] ∧ 4096 ≤ s.nat Dict.mosaicQueue 3
       ∧ (s.cout 3).overlay = some 0 ∧ 0 < s.nat Dict.ovlLines 3) := by decide +kernel

/-- A good mosaic record, just young enough, in queue 4095. -/
theorem witness_ImageOutputFrames_mosaic :
    let p : Packet := { id := 0, cells := [0], len := 64, stream := false, posted := 1 }
    let z := (outPort {}).setNum Dict.mosaicQueue 4095 3
    let s : State := { z with
      queues := { q := [(4095, { unread := [p] })] },
      mem := { bytes := putBytes [] (hbmBase + State.reset.nat Dict.queuePoolBase) (leBytes 64 mosaicRec.toNat) } }
    s.coutOn 3 = true ∧ (s.cout 3).frame = none ∧ (s.cout 3).crops = [] ∧ s.nat Dict.mosaicQueue 3 < 4096
    ∧ (s.queue (s.nat Dict.mosaicQueue 3)).unread = p :: []
    ∧ max 1000000001 s.tb ≤ p.posted + s.nat Dict.mosaicMaxAge 3 * 1000000
    ∧ mosaicOk p.len (bytesWord 512 (s.packetBytes p)) = true ∧ 0 < fld (bytesWord 512 (s.packetBytes p)) 479 464 := by
  decide +kernel

/-- Lines of a frame with an empty bucket, with a full one, and the last; an overlay that is ready, before another. -/
theorem witness_ImageOutputFrames_lines :
    (let f : OutFrame := { kind := 1, width := 4, packets := 2, step := 1 }
     let s := outPort { frame := some f, lineBucket := some { level := 17999, at_ := 0 } }
     let z := (s.at 0).nextLine 3 f
     s.coutOn 3 = true ∧ (s.cout 3).frame = some f ∧ (s.at 0).lineTokens 3 < (z.2.1.length + 6) * 1000)
    ∧ (let f : OutFrame := { kind := 1, width := 4, packets := 2, step := 1 }
       let s := outPort { frame := some f, lineBucket := some { level := 18000, at_ := 0 } }
       let z := (s.at 0).nextLine 3 f
       (s.cout 3).frame = some f ∧ (z.2.1.length + 6) * 1000 ≤ (s.at 0).lineTokens 3 ∧ f.sent + 1 < f.packets)
    ∧ (let f : OutFrame := { kind := 1, width := 4, packets := 2, sent := 1, step := 1 }
       let s := outPort { frame := some f }
       let z := (s.at 0).nextLine 3 f
       (s.cout 3).frame = some f ∧ (z.2.1.length + 6) * 1000 ≤ (s.at 0).lineTokens 3 ∧ f.packets ≤ f.sent + 1)
    ∧ (let z := ((outPort { overlay := some 0 }).setNum Dict.ovlCam 15 3).setNum Dict.ovlLines 16 3
       let s : State := { z with
         trump := { st := .running },
         dec := { rings := [(15, { lines := 249 })] } }
       s.coutOn 3 = true ∧ s.nat Dict.ovlCam 3 < 16 ∧ s.trump.st = .running
       ∧ (249 / max 1 (s.nat Dict.ovlDecimate 3 * s.nat Dict.ovlLines 3)) * (s.nat Dict.ovlDecimate 3 * s.nat Dict.ovlLines 3)
         = 128
       ∧ (s.cout 3).nextOverlay ≤ 128 ∧ (s.at 0).ovlReady 3 128 = true ∧ (s.cout 3).overlay ≠ none) := by decide +kernel

/-- Domains that may not be switched on or off; that may, off and on; at the ends of both; and a group's. -/
theorem witness_PowerAndAgeing_domains :
    (State.reset.setNum Dict.arrayEnableMap 0).pdMayOn 15 = false ∧ State.reset.pdMayOff 63 = false
    ∧ State.reset.pdMayOn 62 = true ∧ groupOfPd 62 = none ∧ (State.reset.power.pd.val {} 62).st = .off
    ∧ State.reset.pdMayOn 39 = true ∧ groupOfPd 39 = some 23 ∧ (State.reset.group 23).st = .off
    ∧ (let s : State := { power := { pd := [(49, { st := .on })] } }
       s.pdMayOff 49 = true ∧ groupOfPd 49 = none ∧ (s.power.pd.val {} 49).st = .on)
    ∧ (let x : Pd := { st := .poweringUp, waiting := some true }
       let s : State := { power := { pd := [(40, x)] } }
       (s.power.pd.val {} 40).st = .poweringUp ∧ (s.power.pd.val {} 40).waiting ≠ some false
       ∧ ∃ sid ∈ stationsOf 40, (s.station sid).seq = .off)
    ∧ (let s : State := { power := { pd := [(0, { st := .poweringDown })] }, stations := [(0, { seq := .idle })] }
       (s.power.pd.val {} 0).st = .poweringDown ∧ s.pdRule 0 = false ∧ (s.setNum Dict.trumpArrayMap 0).pdRule 0 = true
       ∧ ((s.setNum Dict.trumpArrayMap 0).power.pd.val {} 0).st = .poweringDown ∧ groupOfPd 0 = none
       ∧ ∃ sid ∈ stationsOf 0, (s.station sid).seq = .idle) := by decide +kernel

/-- Every island at its lowest point. -/
def lowest : State := { power := { islands := (List.range 41).map fun k => (k, { point := 0 }) } }
/-- A power sample taken in. -/
def sampled (s : State) (mw : Nat) : State := { s with power := { s.power with samples := (mw :: s.power.samples).take 10000 } }

/-- Samples at the cap and just above it, with an island that can go down and with none. -/
theorem witness_PowerAndAgeing_cap :
    (sampled State.reset 470000).powerAvg ≤ State.reset.nat Dict.powerCap * 1000
    ∧ State.reset.nat Dict.powerCap * 1000 < (sampled State.reset 470001).powerAvg
    ∧ (State.reset.capOrder.findSome? fun e =>
        (State.reset.pointBelow e.1 e.2 (State.reset.island e.1).point).map fun p => (e.1, p)).isSome = true
    ∧ lowest.nat Dict.powerCap * 1000 < (sampled lowest 470001).powerAvg
    ∧ (lowest.capOrder.findSome? fun e =>
        (lowest.pointBelow e.1 e.2 (lowest.island e.1).point).map fun p => (e.1, p)) = none := by decide +kernel

/-- A dark island; a measured one whose voltages change; a prepared plan with other voltages; a resting island. -/
theorem witness_PowerAndAgeing_plans :
    State.reset.islandPowered 0 = false
    ∧ (let s : State := { power := { pd := [(50, { st := .on })] } }
       s.islandPowered 30 = true ∧ adjustable 30 = true
       ∧ (s.newPlan 30 0).volts.val [] 30 ≠ s.power.plan.volts.val [] 30)
    ∧ (let s : State := { power := { prepared := true, planB := { volts := [(35, [700])] } } }
       s.power.prepared = true ∧ adjustable 35 = true
       ∧ s.power.spare.volts.val [] 35 ≠ s.power.plan.volts.val [] 35)
    ∧ (let s : State := { power := { islands := [(25, { applied := false })] } }
       adjustable 25 = true ∧ (s.island 25).applied = false ∧ (∀ sid ∈ islandStations 25, s.busy sid = false)
       ∧ s.trump.st = .stopped) := by decide +kernel

/-- A nonce with the last leaf of the open block; with none open, the last mark; with all burnt; a report under way. -/
theorem witness_SecurityCommands_attest :
    State.reset.gate .service Dict.attestNonce = none ∧ (List.replicate 32 (7 : Byte)).length = 32
    ∧ (let x : Security := { openBlock := some 4095, nextLeaf := 1023, marksBurnt := 4096 }
       x.attestRefused = false ∧ x.openBlock = some 4095 ∧ x.nextLeaf < 1024)
    ∧ (let x : Security := { openBlock := some 4094, nextLeaf := 1024, marksBurnt := 4095 }
       1024 ≤ x.nextLeaf ∧ x.marksBurnt < 4096)
    ∧ (let x : Security := { openBlock := none, marksBurnt := 4096 }
       x.openBlock = none ∧ 4096 ≤ x.marksBurnt)
    ∧ (let x : Security := { attesting := [(65535, 0, [7])] }
       x.attesting = (65535, 0, [7]) :: []) := by decide +kernel

/-- The first key of the two; a set key whose other is unset; no cause of level 4. -/
theorem witness_SecurityCommands_keys :
    State.reset.gate .service Dict.integratorKey0 = none ∧ State.reset.gate .service Dict.integratorKey1 = none
    ∧ (List.replicate 60 (7 : Byte)).length = 60
    ∧ keySet (State.reset.blob Dict.integratorKey0) = false ∧ keySet (State.reset.blob Dict.integratorKey1) = false
    ∧ keySet ((State.reset.setBlob Dict.integratorKey1 0 0 (List.replicate 60 7)).blob Dict.integratorKey1) = true
    ∧ keySet ((State.reset.setBlob Dict.integratorKey1 0 0 (List.replicate 60 7)).blob Dict.integratorKey0) = false
    ∧ hssVerify (List.replicate 60 7) [] [] = false
    ∧ ∀ c ∈ ({ guard := { causes := [(3, 7, 0)] } } : State).guard.causes, c.1 < 4 := by decide +kernel

/-- A queued record that goes to both areas, the last slot of the first-records area free; a clearing under way. -/
theorem witness_RecorderAndCounters :
    (let r : BitVec 512 := BitVec.ofNat 512 (1023 <<< 468)
     let s : State := { boot := { powered := true }, recorder := { queue := [r], firstNext := 1023, clearedBelow := 1023 } }
     let x := (s.at 0).recorder
     x.queue = r :: [] ∧ x.stopped = false ∧ x.erasing = false ∧ x.dropped = 0 ∧ x.clearedBelow ≤ fld r 499 468
     ∧ fld r 499 468 < 1024 ∧ x.firstNext < 1024 ∧ s.boot.powered = true)
    ∧ (let r : BitVec 512 := BitVec.ofNat 512 (1 <<< 507 + 6 <<< 468)
     let s : State := { recorder := { queue := [r], dropped := 1, erasing := true, clearedBelow := 7, keyNext := 255 } }
     let x := (s.at 0).recorder
     x.queue = r :: [] ∧ x.stopped = false ∧ fld r 499 468 < x.clearedBelow ∧ 0 < x.dropped ∧ bit r 507 = true
     ∧ x.keyNext < 256)
    ∧ State.reset.boot.powered = false ∧ State.reset.gate .service Dict.recClear = none
    ∧ (State.reset.at 0).recorder.erasing = false
    ∧ (({ recorder := { erasing := true } } : State).at 0).recorder.erasing = true ∧ State.reset.blocks ≠ [] := by
  decide +kernel

/-- A station that drains, its step in flight for just too long; one whose step has ended. -/
theorem witness_Guarding_drain :
    (let d : Drain := { since := 1 }
     let r : Running := { word := wordOf 0x10 }
     let r' : Running := { word := wordOf 0x10, outs := [{}] }
     let s := only 0x67 { seq := .drain, drain := some d, running := some r }
     let u := only 0x67 { seq := .drain, drain := some d, running := some r' }
     (s.station 0x67).drain = some d ∧ d.since + s.nat Dict.drainTimeout * 1000 ≤ max 1000001 s.tb
     ∧ (s.station 0x67).running = some r ∧ r.outs = [] ∧ (u.station 0x67).running = some r' ∧ r'.outs ≠ []
     ∧ (u.station 0x67).drain = some d)
    ∧ (let s := only 0 { seq := .drain, drain := some {} }
       (s.station 0).running = none ∧ (s.station 0).drain = some {} ∧ (s.station 0).seq = .drain) := by decide +kernel

/-- Readings of a temperature sensor within its bounds; one beyond the input's upper bound; implausible ones; a level
inside for just long enough. -/
theorem witness_Guarding_sensors :
    sensorListed 0x38 = true ∧ (State.reset.sensor 0x38).failed = false ∧ State.reset.boot.held = none
    ∧ implausible 0x38 99999 = false ∧ (∀ b ∈ State.reset.sensorBounds 0x38, b.beyond [99999] = false)
    ∧ sensorListed 0 = true ∧ (State.reset.sensor 0).failed = false ∧ implausible 0 63000 = false
    ∧ (voltBound 4 none (some 6300000)).beyond [63000] = true ∧ 4 ∉ (State.reset.sensor 0).levels
    ∧ implausible 0x48 150001 = true ∧ implausible 0x48 150000 = false ∧ sensorListed 0x48 = true
    ∧ (let s : State := { guard := { sensors := [(0x38, { levels := [1], inside := [(1, 1)] })] } }
       ((s.sensor 0x38).inside.filter fun p => decide (p.2 + 1000000000 ≤ max 1000000001 s.tb)).map (·.1) = [1]) := by
  decide +kernel

/-- The heartbeat, lost just now and again there; a stop that hangs; a held unit of this module. -/
theorem witness_Guarding_others :
    (let s : State := { boot := { booted := true } }
     s.boot.booted = true ∧ s.guard.lost = false ∧ s.guard.selfBad = false
     ∧ s.guard.lastBeat + s.nat Dict.heartbeatTimeout * 1000000 ≤ max 10000000 s.tb
     ∧ ∀ c ∈ s.guard.causes, c.2.1 ≠ 0x06921703)
    ∧ ({ guard := { lost := true } } : State).guard.lost = true
    ∧ (let s : State := { trump := { st := .stopping } }
       s.trump.st = .stopping
       ∧ s.trump.stoppingSince + 2 * s.nat Dict.drainTimeout * 1000 + 1000000 ≤ max 3000000 s.tb
       ∧ ∀ c ∈ s.guard.causes, c.2.1 ≠ 0x06921702)
    ∧ (let s := only 0x67 { held := true }
       s.gate .service Dict.unitRelease = none ∧ s.isLocal 0x67 = true ∧ (s.station (0x67 % 256)).held = true) := by
  decide +kernel

/-- A commit record of slot 1 of an area. -/
def slotOne (area state : Nat) : BitVec 512 := commitRecord area 1 state 0 1 0 0 0

/-- Starts: after a management restart; with a confirmed slot; with none. -/
theorem witness_StartUpAndResets_boot :
    State.reset.boot.powered = false ∧ ({ boot := { powered := true } } : State).boot.powered = true
    ∧ (let b : Boot := { powered := true, cause := 5 }
       b.powered = true ∧ b.held = none ∧ b.booted = false ∧ b.recoveryLoader = false ∧ b.cause = 5)
    ∧ (let b : Boot := { powered := true, fwRing := [slotOne 0 3] }
       b.cause ≠ 5 ∧ activeOf b.fwRing = some 1
       ∧ ({ boot := b } : State).slotChecks { fwGood := [true, true] } 1 = true
       ∧ (newestRecord b.fwRing 1).any (fun x => recState x == 2) = false)
    ∧ State.reset.sec.tamperHeld = false
    ∧ (let b : Boot := { powered := true, fwRing := [slotOne 0 1] }
       b.cause ≠ 5 ∧ activeOf b.fwRing = none) := by decide +kernel

/-- Requests just not, and just, 10 ms old; a stopped domain, no string zeroing. -/
theorem witness_StartUpAndResets_requests :
    State.reset.gate .service Dict.resetRequest = none ∧ State.reset.boot.request = none
    ∧ (let b : Boot := { request := some 1, requestAt := 1 }
       b.request = some 1 ∧ max 10000000 0 < b.requestAt + 10000000 ∧ b.requestAt + 10000000 ≤ max 10000001 0)
    ∧ (let b : Boot := { request := some 2 }
       b.request = some 2 ∧ b.requestAt + 10000000 ≤ max 10000000 0)
    ∧ State.reset.trump.st = .stopped ∧ (∀ p ∈ State.reset.dealer.strings, p.2.zero = none) := by
  refine ⟨?_, ?_, ?_, ?_, ?_, ?_⟩ <;> decide +kernel

/-- Every phase; an erase under way; a committed model of slot 1, with the domain running and stopped. -/
theorem witness_StartUpAndResets_others :
    State.reset.gate .service Dict.phaseRequest = none
    ∧ ({ phase := .test } : Boot).phase = .test ∧ ({ phase := .recovery } : Boot).phase = .recovery
    ∧ ({ phase := .inService } : Boot).phase = .inService ∧ State.reset.boot.phase = .startUp
    ∧ ({ phase := .serviceState } : Boot).phase = .serviceState
    ∧ ((1 : Fin 2).val, (1 : Fin 2).val) ∈ ({ slotErase := [(1, 1)] } : Boot).slotErase
    ∧ (let s : State := { boot := { modelRing := [slotOne 1 2], commitStage := 4 } }
       activeOf s.boot.modelRing = some 1 ∧ s.boot.commitStage = 4 ∧ s.boot.modelSwap = none ∧ s.trump.st ≠ .running
       ∧ s.imageIntact 1 = false
       ∧ ({ s with trump := { st := .running } } : State).trump.st = .running) := by decide +kernel

/-- The last DMA engine, its shadow slot armed. -/
theorem witness_ArmedSlotRefuses :
    let s := only 0x67 { seq := .run, shadow := .armed [wordOf 0x10] .atYield }
    s.exists' 0x67 = true ∧ (s.station 0x67).shadow = .armed [wordOf 0x10] .atYield := by decide +kernel

/-- Between two steps, at END, with a table armed for that; and within a step that yields. -/
theorem witness_ArmedSlotRefuses_moments :
    (let s := only 0x67 { seq := .run, active := [wordOf 4], shadow := .armed [wordOf 0x10] .atEnd }
     s.exists' 0x67 = true ∧ (s.station 0x67).shadow = .armed [wordOf 0x10] .atEnd
     ∧ (s.at 0).switchBetween 0x67 [wordOf 0x10] .atEnd = true)
    ∧ (let w : StepWord := wordOf 0x10 ||| BitVec.ofNat 128 (1 <<< 117)
     let s := only 0x67 { seq := .run, active := [w], running := some { word := w }, shadow := .armed [wordOf 0x10] .atYield }
     s.exists' 0x67 = true ∧ (s.station 0x67).shadow = .armed [wordOf 0x10] .atYield
     ∧ (s.at 0).switchBetween 0x67 [wordOf 0x10] .atYield = false
     ∧ (s.at 0).switchInStep 0x67 .atYield = true) := by decide +kernel

/-- The least role that may restore defaults, with the domain stopped and not. -/
theorem witness_RestoreDefaults :
    Role.integrate.reaches .integrate = true ∧ State.reset.trump.st = .stopped
    ∧ ({ trump := { st := .stopping } } : State).trump.st ≠ .stopped := by decide

/-- A write of 0 to each of the two while the other is 0, and while it is 1. -/
theorem witness_FdpOrI3cStaysOn :
    Role.integrate.reaches (Dict.fdpEnable.needs { role := .integrate, who := 0 } [0]) = true
    ∧ (State.reset.setNum Dict.i3cEnable 0).accessRefused Dict.fdpEnable 0 0 = false
    ∧ (State.reset.setNum Dict.i3cEnable 0).num Dict.i3cEnable 0 = 0
    ∧ State.reset.accessRefused Dict.fdpEnable 0 0 = false ∧ State.reset.num Dict.i3cEnable 0 ≠ 0
    ∧ Role.integrate.reaches (Dict.i3cEnable.needs { role := .integrate, who := 65535 } [0]) = true
    ∧ (State.reset.setNum Dict.fdpEnable 0).accessRefused Dict.i3cEnable 0 0 = false
    ∧ (State.reset.setNum Dict.fdpEnable 0).num Dict.fdpEnable 0 = 0 := by decide +kernel

/-- A heartbeat just lost; lost, with its own cause and one of level 2; absent for RESET_AFTER. -/
theorem witness_HeartbeatLevels :
    (let s : State := { boot := { booted := true } }
     s.boot.booted = true ∧ s.guard.lost = false
     ∧ s.guard.lastBeat + s.nat Dict.heartbeatTimeout * 1000000 ≤ max 10000000 s.tb)
    ∧ (let s : State := { guard := { lost := true, causes := [(3, 0x06921703, 255), (2, 7, 0)] } }
       s.guard.lost = true ∧ s.guard.selfBad = false ∧ (∀ c ∈ s.guard.causes, c.2.1 = 0x06921703 ∨ c.1 < 3))
    ∧ (let z : State := State.reset.setNum Dict.autoReset 1
       let s : State := { z with guard := { lost := true, lostAt := 1 } }
       (∀ c ∈ s.guard.causes, c.1 < 4) ∧ s.guard.lost = true ∧ s.flag Dict.autoReset = true
       ∧ s.guard.lostAt + s.nat Dict.resetAfter * 1000000 ≤ max (1 + s.nat Dict.resetAfter * 1000000) s.tb) := by
  decide +kernel

/-- MemoryKeepsItsForm, LeavesNeverReturn, QueueMovesByOne, NoLevelFourStands: the state after reset meets every
invariant, and a step from it, or from one with a command, gives a next state. -/
theorem witness_everyStep (t : Nat) :
    State.reset.mem.wf ∧ State.reset.leavesInOrder ∧ State.reset.noLevelFour
    ∧ (∃ u, step State.reset = .next u)
    ∧ ∃ u, step (({ State.reset with pending := [.tamper t] } : State)) = .next u := by
  refine ⟨by decide, ⟨by decide, nofun, nofun⟩, nofun, ⟨_, rfl⟩, ⟨_, rfl⟩⟩

/-! ### Which commands the wires can carry

One ill-formed command for each check of `commandFits`, beside its greatest well-formed neighbour. -/

/-- Past the end of the HBM by one byte; a hint of 3. -/
theorem smoke_hbmAccess :
    commandFits (.hbmAccess 0 0x60 (hbmLen - 1) 2 1 false none .good) = true
    ∧ commandFits (.hbmAccess 0 0x60 (hbmLen - 1) 2 2 false none .good) = false
    ∧ commandFits (.hbmAccess 0 0x60 0 3 1 false none .good) = false := by decide

/-- Partition 7. -/
theorem smoke_msCommand : commandFits (.msCommand 0 0x60 false 6 0 1 0) = true
    ∧ commandFits (.msCommand 0 0x60 false 7 0 1 0) = false := by decide

/-- A word count of 65,536. -/
theorem smoke_imageLine : commandFits (.imageLine 0 0 { words := 65535 } false) = true
    ∧ commandFits (.imageLine 0 0 { words := 65536 } false) = false := by decide

/-- A UDP payload of 65,536 bytes. -/
theorem smoke_rtpPacket : commandFits (.rtpPacket 0 0 0 96 0 0 false (List.replicate 65535 0)) = true
    ∧ commandFits (.rtpPacket 0 0 0 96 0 0 false (List.replicate 65536 0)) = false := by
  simp only [commandFits, List.length_replicate]; decide

/-- A packet of no byte, and one longer than any queue holds. -/
theorem smoke_queuePush : commandFits (.queuePush 0 0x60 0 [0] false false false) = true
    ∧ commandFits (.queuePush 0 0x60 0 [] false false false) = false
    ∧ commandFits (.queuePush 0 0x60 0 (List.replicate 131073 0) false false false) = false := by
  simp only [commandFits, List.length_replicate]; decide

/-- A payload that is no multiple of 32 bytes, or above 2,048, in every frame kind; and a good one. -/
theorem smoke_frames : ∀ f ∈ [({ hdr := 0, payload := [1] } : Frame), { hdr := 0, payload := List.replicate 2080 0 }],
    ∀ c ∈ [Instr.hello 0 0 f, .sleep 0 0 f, .ack 0 0 f, .nak 0 0 f, .tileHead 0 0 f, .tileData 0 0 f, .fabWrite 0 0 f false,
      .fabReadReq 0 0 f, .readResp 0 0 f, .complete 0 0 f, .credit 0 0 f, .fabReturn 0 0 f, .bridgeDatagram 0 0 f],
    commandFits c = false := by decide +kernel

/-- A frame of a full payload. -/
theorem smoke_frame_fits : commandFits (.tileData 0 0 { hdr := 0, payload := List.replicate 2048 0 }) = true := by decide +kernel

/-- A body of 1,401 bytes, and a TAG of 31, in every datagram; and a good one. -/
theorem smoke_datagrams : ∀ m ∈ [{ openReq with tag := List.replicate 31 0 },
      { openReq with body := List.replicate 1401 0, tag := List.replicate 32 0 }],
    ∀ c ∈ [Instr.fdpOpenReq 0 m, .fdpClose 0 m, .fdpRead 0 m, .fdpWrite 0 m, .fdpDescribe 0 m, .fdpSegInit 0 m,
      .fdpSegData 0 m, .fdpSegEnd 0 m, .fdpSubscribe 0 m, .fdpKeepalive 0 m, .fdpBadKind 0 1 m, .fdpAuthFail 0 m],
    commandFits c = false := by decide +kernel

/-- A datagram of the greatest body. -/
theorem smoke_datagram_fits :
    commandFits (.fdpRead 0 { openReq with body := List.replicate 1400 0, tag := List.replicate 32 0 }) = true := by
  decide +kernel

/-- A private write of 73 bytes, of every command; and one of 72. -/
theorem smoke_privateWrites : ∀ c ∈ [Instr.i3cRead 0 (List.replicate 71 0) 0, .i3cWrite 0 (List.replicate 71 0) 0,
      .i3cSegInit 0 (List.replicate 71 0) 0, .i3cSegData 0 (List.replicate 71 0) 0, .i3cSegEnd 0 (List.replicate 71 0) 0,
      .i3cDescribe 0 (List.replicate 71 0) 0, .eventPop 0 (List.replicate 71 0) 0],
    commandFits c = false := by decide

/-- The greatest private write. -/
theorem smoke_privateWrite_fits : commandFits (.i3cSegData 0 (List.replicate 70 0) 0) = true := by decide

/-- A frame without a whole header. -/
theorem smoke_ethFrame : commandFits (.ethFrame 0 0 (List.replicate 14 0) true 0) = true
    ∧ commandFits (.ethFrame 0 0 (List.replicate 13 0) true 0) = false := by decide

/-! ### Expected values from outside the model

The worked examples of the spec's chapters, values computed by hand from its rules, and the published check values of the
standards it names. -/

/-- The published check values of the CRCs, over the nine digits 1 to 9 (R18, R433, R395). -/
theorem test_crc_check_values :
    let l : List Byte := [0x31, 0x32, 0x33, 0x34, 0x35, 0x36, 0x37, 0x38, 0x39]
    crc16 l = 0x29B1 ∧ crc8 l = 0xF4 ∧ crc32 l = 0xCBF43926 := by decide +kernel

/-- SHA-256 of "abc", of FIPS 180-4. -/
theorem test_sha256_abc : sha256 [0x61, 0x62, 0x63] =
    [0xba, 0x78, 0x16, 0xbf, 0x8f, 0x01, 0xcf, 0xea, 0x41, 0x41, 0x40, 0xde, 0x5d, 0xae, 0x22, 0x23,
     0xb0, 0x03, 0x61, 0xa3, 0x96, 0x17, 0x7a, 0x9c, 0xb4, 0x10, 0xff, 0x61, 0xf2, 0x00, 0x15, 0xad] := by
  decide +kernel

/-- The six operands of the LOG8 example, from their FP32 codes (the example after R72). -/
theorem test_log8_example :
    ([0x3F4CCCCD, 0xBFA66666, 0x4039999A, 0x3F19999A, 0x3D4CCCCD, 0x40600000].map fun c =>
      (convert 0x0A none (decodeElem 1 c)).code) = [0x7D, 0x83, 0x0C, 0x7A, 0x5D, 0x0E] := by decide +kernel

/-- The same in FP8-E4M3: 0.8125, -1.25, 3.0, 0.625, 0.05078 and 3.5. -/
theorem test_e4m3_example :
    ([0x3F4CCCCD, 0xBFA66666, 0x4039999A, 0x3F19999A, 0x3D4CCCCD, 0x40600000].map fun c =>
      (convert 0x05 none (decodeElem 1 c)).code) = [0x35, 0xBA, 0x44, 0x32, 0x15, 0x46] := by decide +kernel

/-- Its three products and their sum in accumulator units at S = 16 (R64). -/
theorem test_log8_products :
    [logProduct 16 0x0A 0x7D 0x0A 0x83, logProduct 16 0x0A 0x0C 0x0A 0x7A, logProduct 16 0x0A 0x5D 0x0A 0x0E]
      = [-65536, 110218, 10624] ∧ (-65536 : Int) + 110218 + 10624 = 55306 := by decide +kernel

/-- Ends of ranges (R66): above 448 and above 57,344, an infinity into E5M2, a NaN into FP6. -/
theorem test_convert_ends :
    convert 0x05 none (.fin false 465 0) = { code := 0x7E, sat := true } ∧ convert 0x05 none (.inf true) = { code := 0xFE, sat := true }
    ∧ convert 0x06 none (.fin true 65536 0) = { code := 0xFB, sat := true } ∧ (convert 0x06 none (.inf false)).code = 0x7C
    ∧ convert 0x07 none .nan = { code := 0, nan := true } := by decide +kernel

/-- The generator of R68, by hand from state 1. -/
theorem test_generator : genNext 1 = 270369 := by decide

/-- The bank example: 0x00C1_2340 lies in quad 0, bank 3 of MA2's buffer. -/
theorem test_bank_example : bankOf 0x00C12340 = 2 * 16 + 3 := by decide

/-- The slots reserved at a Trump share of 15 % (the example after R142). -/
theorem test_reserved_slots : (List.range 100).filter (slotReserved 15)
    = [6, 13, 19, 26, 33, 39, 46, 53, 59, 66, 73, 79, 86, 93, 99] := by decide +kernel

/-- The attestation example: with 37 marks burnt, a nonce burns M37 and takes leaf 37,888; 4,156,415 leaves are left. -/
theorem test_attest_example :
    let s : State := { sec := { marksBurnt := 37 } }
    ∃ u, exec (.attestNonce 0 .service 1 (List.replicate 32 7)) s = .next u
      ∧ u.sec.attesting = [(1, 37888, List.replicate 32 7)] ∧ u.sec.marksBurnt = 38
      ∧ u.leavesLeft = 4156415 := ⟨_, rfl, by decide +kernel⟩

/-- The envelope example: REJECT_THRESHOLD 0x7333 above REJ_THR_MAX 0x7000 is a range abort, and nothing changes. -/
theorem test_threshold_example :
    let s := State.reset.setNum Dict.rejThrMax 0x7000
    ∃ u, exec (.objectWrite 0 .operate 1 0x3000 2 [0x33, 0x73]) s = .next u
      ∧ Out.answer 0x02701104 ∈ u.out ∧ u.nat Dict.rejectThreshold = s.nat Dict.rejectThreshold := ⟨_, rfl, by decide +kernel⟩

/-- The counter example: PC0 passes 2^48 into PC1 through the chain, and OVF stays. -/
theorem test_chain_example :
    ((({ chain := 1, vals := [281474700000000, 7, 0, 0, 0, 0, 0, 0], events := [1, 0, 0, 0, 0, 0, 0, 0] } : CounterBlock).count
      fun e => if e = 1 then 40000000000 else 0).take 2) = [(39723289344, false), (8, false)] := by decide +kernel

/-- The ageing example: a slack of 9 ps under a guard of 12 ps at 1.5 ps/mV raises 750 mV to 755 mV. -/
theorem test_ageing_example :
    newVolt 12 { floor := [740], vmax := [800], sens10 := [15] } 0 750 90 = 755 := by decide

/-- TIME_SET and a STEP: by hand from R451 and R452, an unset clock steps to any time, and the override clears. -/
theorem test_timeSet_steps :
    let s : State := { State.reset.setNum Dict.ptpEnable 0 with clk := { armedAt := some 0 } }
    ∃ u, exec (.timeSet 0 .service 5 7) s = .next u ∧ u.devNs = 5000000007 ∧ u.clk.st = .free ∧ u.clk.armedAt = none :=
  ⟨_, rfl, by decide +kernel⟩

/-- ENTDAA gives an address and enables IBIs; SETMWL of 73 is outside 16 to 72 and changes nothing (R432). -/
theorem test_i3c_ccc :
    (∃ u, exec (.entdaa 0 9) (target {}) = .next u ∧ u.host.i3c.addr = 9 ∧ u.host.i3c.ibi = true)
    ∧ ∃ u, exec (.setmwl 0 73) (target { addr := 9 }) = .next u ∧ u.host.i3c.mwl = 72 :=
  ⟨⟨_, rfl, by decide +kernel⟩, ⟨_, rfl, by decide +kernel⟩⟩

/-- Clearing a station in FAULT at epoch 65,535 goes on with epoch 1, by hand from R39 and R42. -/
theorem test_clear_wraps_epoch :
    ∃ u, exec (.stationClear 0 0x60) (only 0x60 { seq := .fault, epoch := 0xFFFF }) = .next u
      ∧ (u.station 0x60).epoch = 1 ∧ (u.station 0x60).seq = .idle := ⟨_, rfl, by decide +kernel⟩

/-- A write to the HBM and what it reads afterwards, the byte beside it unchanged. -/
theorem test_hbm_write :
    ∃ u, exec (.hbmAccess 0 0x60 0x240000001 0 2 false (some [5, 6]) .good) State.reset = .next u
      ∧ u.byteAt (hbmBase + 0x240000001) = 5 ∧ u.byteAt (hbmBase + 0x240000002) = 6 ∧ u.byteAt (hbmBase + 0x240000003) = 0 :=
  ⟨_, rfl, by decide +kernel⟩

end Sys2Proof.Tests
end

section
/-! PROOFS. Loads into an armed shadow slot, and its disarming (R38). -/

namespace Sys2Proof.Machine

variable (s : State) (t sid : Nat)

/-! ### A refused command, and a change of one station -/

theorem State.station_refuse (w : Word) (n : Nat) : (s.refuse w).station n = s.station n := by
  simp [State.station]

theorem State.answer_mem_refuse_out (w : Word) : Out.answer w ∈ (s.refuse w).out := by simp [State.refuse]

theorem onlyStation_mapStation_at (f : Station → Station) : onlyStation s ((s.at t).mapStation sid f) t sid :=
  ⟨rfl, fun n hn => (s.at t).station_mapStation_ne sid n f hn⟩

/-! ### What TABLE_LOAD and TABLE_DISARM do to an armed slot -/

section Armed

variable {s sid} {armed : List StepWord} {c : SwitchCond} (hx : (s.station sid).shadow = .armed armed c)
include hx

theorem State.tableLoad_armed (he : s.exists' sid = true) (tbl : List StepWord) :
    s.tableLoad sid tbl = s.refuse (withSrc 0x02000211 sid) := by
  simp [State.tableLoad, he, hx]

theorem State.tableDisarm_armed_noSwitch :
    s.tableDisarm sid false = s.mapStation sid fun x => { x with shadow := .loaded armed } := by
  simp [State.tableDisarm, hx]

theorem State.tableDisarm_armed_switchBetween (hb : s.switchBetween sid armed c = true) :
    s.tableDisarm sid true =
      (s.mapStation sid fun x => { x.switch armed with seq := .run }).refuse (withSrc 0x02000212 sid) := by
  simp [State.tableDisarm, hx, hb]

theorem State.tableDisarm_armed_switchInStep (hb : s.switchBetween sid armed c = false)
    (hi : s.switchInStep sid c = true) : s.tableDisarm sid true = s.refuse (withSrc 0x02000212 sid) := by
  simp [State.tableDisarm, hx, hb, hi]

end Armed

/-- Settles O51: each part is read off what the command does to an armed slot. That a disarm in the switch's cycle leaves a
step in flight to complete first is the model's choice (log 86). -/
theorem armedSlotRefuses : Obligations.ArmedSlotRefuses := by
  unfold Obligations.ArmedSlotRefuses
  intro t st s armed c he hx
  have hx' : ((s.at t).station st.toNat).shadow = .armed armed c := hx
  refine ⟨fun tbl => ⟨_, rfl, ?_⟩, ⟨_, rfl, ?_⟩, fun hb => ⟨_, rfl, ?_⟩, fun hb hi => ⟨_, rfl, ?_⟩⟩
  · rw [State.tableLoad_armed hx' he]
    exact ⟨State.answer_mem_refuse_out _ _, by simp, by simp⟩
  · rw [State.tableDisarm_armed_noSwitch hx']
    exact ⟨onlyStation_mapStation_at _ _ _ _, State.station_mapStation _ _ _⟩
  · rw [State.tableDisarm_armed_switchBetween hx' hb]
    have hself := (State.station_refuse _ (withSrc 0x02000212 st.toNat) _).trans
      ((s.at t).station_mapStation st.toNat fun x => { x.switch armed with seq := .run })
    exact ⟨State.answer_mem_refuse_out _ _, congrArg (·.active) hself, congrArg (·.shadow) hself, congrArg (·.pc) hself,
      congrArg (·.loops) hself, fun n hn => (State.station_refuse _ _ _).trans (State.station_mapStation_ne _ _ _ _ hn),
      by simp⟩
  · rw [State.tableDisarm_armed_switchInStep hx' hb hi]
    exact ⟨State.answer_mem_refuse_out _ _, by simp, by simp⟩

end Sys2Proof.Machine
end

section
/-! PROOFS. A write of an entry by the check that it meets (R419), what events and closed sessions leave, and that one
of FDP_ENABLE and I3C_ENABLE stays on (R437). -/

namespace Sys2Proof.Machine

/-! ### Sparse tables -/

theorem Tab.look_put_ne {α : Type} [DecidableEq α] (t : Tab α) (p q : Nat) (v d : α) (h : p ≠ q) :
    (t.put d q v).look p = t.look p := by
  unfold Tab.put
  split
  · exact t.look_del_ne p q h
  · exact t.look_ins_ne p q v h

/-- A write at a listed key lists no other. -/
theorem Tab.isSome_look_ins {α : Type} (t : Tab α) (q n : Nat) (v : α) (h : (t.look q).isSome) :
    ((t.ins q v).look n).isSome = (t.look n).isSome := by
  by_cases hn : n = q
  · subst hn; simp [h]
  · rw [Tab.look_ins_ne _ _ _ _ hn]

theorem Tab.isSome_look_iff {α : Type} {t : Tab α} {n : Nat} : (t.look n).isSome = true ↔ n ∈ t.keys := by
  unfold Tab.keys
  induction t with
  | nil => simp [Tab.look]
  | cons a r ih => by_cases h : n = a.1 <;> simp [Tab.look, h, ← ih]

theorem Tab.eq_nil_of_look {α : Type} {t : Tab α} (h : ∀ n, (t.look n).isSome = false) : t = [] := by
  cases t with
  | nil => rfl
  | cons a r => simpa [Tab.look] using h a.1

/-! ### A write by the check it meets (R419) -/

section Write

variable {s : State} {b : By} {e : Ent} {j k : Nat} {l : List Byte} {v : Int}
variable (hv : (if e.ty.isNum then e.ty.value l else 0) = v) (hr : b.role.reaches (e.needs b l) = true)
  (hl : e.lengthOk l.length = true)
include hv hr hl

theorem State.writeAt_access (ha : s.accessRefused e k v = true) : s.writeAt b e j k l = (abAccess, s) := by
  simp [State.writeAt, hv, hr, hl, ha]

theorem State.writeAt_range (ha : s.accessRefused e k v = false)
    (hx : rulesHold rangeRules e (fun f => f s (s.store b e j k v l) k) = false) :
    s.writeAt b e j k l = (abRange, s) := by
  simp [State.writeAt, hv, hr, hl, ha, hx]

theorem State.writeAt_effect (ha : s.accessRefused e k v = false) (hi : e.inRange v = true)
    (hx : rulesHold rangeRules e (fun f => f s (s.store b e j k v l) k) = true) :
    s.writeAt b e j k l = s.writeEffect b e j k v l := by
  simp [State.writeAt, hv, hr, hl, ha, hi, hx]

end Write

/-- The one rule between entries about FDP_ENABLE (R437), on the state with the value. -/
theorem State.rulesHold_fdpEnable (s t : State) (k : Nat) : rulesHold rangeRules Dict.fdpEnable (fun f => f s t k) =
    (t.flag Dict.fdpEnable || t.flag Dict.i3cEnable) := by rw [← Bool.and_true (_ || _)]; rfl

theorem State.rulesHold_i3cEnable (s t : State) (k : Nat) : rulesHold rangeRules Dict.i3cEnable (fun f => f s t k) =
    (t.flag Dict.fdpEnable || t.flag Dict.i3cEnable) := by rw [← Bool.and_true (_ || _)]; rfl

/-- What a write of 0 to FDP_ENABLE over I3C does: the entry cleared, the sessions closed, a burst begun. -/
def State.fdpOff (s : State) : State := (s.setNum Dict.fdpEnable 0).closeIfOff.savedWrite Dict.fdpEnable

theorem State.writeEffect_fdpEnable_zero (s : State) (role : Role) (j k : Nat) (l : List Byte) :
    s.writeEffect { role := role, who := 0 } Dict.fdpEnable j k 0 l = (0, s.fdpOff) := rfl

theorem State.reach_i3cEnable (s : State) (b : By) : s.reach b 0x1200 1 = .ok (Dict.i3cEnable, 0, 0) := by
  have hfind : Dict.find 0x1200 1 = some Dict.i3cEnable := by decide +kernel
  have hunit : s.unitOf b.who Dict.i3cEnable = some 0 := rfl
  simp [State.reach, hfind, hunit, show Dict.i3cEnable.s = 1 from rfl]

/-! ### The registers after a set number -/

theorem State.numAt_of_sav {s u : State} (h : u.regs.sav = s.regs.sav) (e : Ent) (he : e.pers = .saved) (j k : Nat) :
    u.numAt e j k = s.numAt e j k := by simp [State.numAt, he, Regs.store, h]

theorem State.numAt_setNumAt_self (s : State) (e : Ent) (j k : Nat) (v : Int) :
    (s.setNumAt e j k v).numAt e j k = v := by
  cases he : e.pers <;> simp [State.numAt, State.setNumAt, he, Regs.mapStore, Regs.store, Store.num, Store.setNum]

theorem State.numAt_setNumAt_ne (s : State) (e f : Ent) (j k i n : Nat) (v : Int) (h : f.key i n ≠ e.key j k) :
    (s.setNumAt e j k v).numAt f i n = s.numAt f i n := by
  cases he : e.pers <;> cases hf : f.pers <;>
    simp [State.numAt, State.setNumAt, he, hf, Regs.mapStore, Regs.store, Store.num, Store.setNum, Tab.val,
      Tab.look_put_ne, h]

/-! ### What an event leaves (R431, R436) -/

/-- From `s` to `u` hosts may have been told of something: the saved and the factory values and the saved copies stay,
what was put out stays put out, and the same sessions are open. -/
structure State.Tells (s u : State) : Prop where
  sav : u.regs.sav = s.regs.sav
  fac : u.regs.fac = s.regs.fac
  saved : u.boot.savedA = s.boot.savedA ∧ u.boot.savedB = s.boot.savedB
  out : ∀ o ∈ s.out, o ∈ u.out
  opened : ∀ n, (u.host.sessions.look n).isSome = (s.host.sessions.look n).isSome

theorem State.Tells.refl (s : State) : s.Tells s := ⟨rfl, rfl, ⟨rfl, rfl⟩, fun _ h => h, fun _ => rfl⟩

theorem State.Tells.trans {s u x : State} (h : s.Tells u) (h' : u.Tells x) : s.Tells x :=
  ⟨h'.sav.trans h.sav, h'.fac.trans h.fac, ⟨h'.saved.1.trans h.saved.1, h'.saved.2.trans h.saved.2⟩,
    fun o ho => h'.out o (h.out o ho), fun n => (h'.opened n).trans (h.opened n)⟩

theorem State.tells_bump (s : State) (e : Ent) (k n : Nat) (he : e.pers = .volatile) : s.Tells (s.bump e k n) :=
  ⟨by simp [State.bump, State.bumpAt, State.setNumAt, he, Regs.mapStore],
    by simp [State.bump, State.bumpAt, State.setNumAt, he, Regs.mapStore], ⟨rfl, rfl⟩, fun _ h => h, fun _ => rfl⟩

theorem State.tells_eventTo (s : State) (b : Nat) (w : Word) (detail num : Nat) (ses : Session)
    (h : (s.host.sessions.look num).isSome) : s.Tells (s.eventTo b w detail num ses) := by
  unfold State.eventTo
  split
  · extract_lets fresh count
    split
    · exact ⟨rfl, rfl, ⟨rfl, rfl⟩, fun _ ho => List.mem_append_left _ ho, fun n => Tab.isSome_look_ins _ _ _ _ h⟩
    · exact s.tells_bump _ _ _ rfl
  · exact .refl s

theorem State.tells_eventI3c (s : State) (b : Nat) (w : Word) (detail : Nat) : s.Tells (s.eventI3c b w detail) := by
  unfold State.eventI3c
  split
  · split
    · exact ⟨rfl, rfl, ⟨rfl, rfl⟩, fun _ h => h, fun _ => rfl⟩
    · exact s.tells_bump _ _ _ rfl
  · exact .refl s

/-- Events to a list of open sessions, one after the other. -/
theorem State.tells_foldl_eventTo (l : Tab Session) (s : State) (b : Nat) (w : Word) (detail : Nat)
    (h : ∀ p ∈ l, (s.host.sessions.look p.1).isSome) :
    s.Tells (l.foldl (fun s p => s.eventTo b w detail p.1 p.2) s) := by
  induction l generalizing s with
  | nil => exact .refl s
  | cons p l ih =>
    have hp := s.tells_eventTo b w detail p.1 p.2 (h p List.mem_cons_self)
    exact hp.trans (ih _ fun q hq => (hp.opened q.1).trans (h q (List.mem_cons_of_mem _ hq)))

theorem State.tells_event (s : State) (b : Nat) (w : Word) (detail : Nat) : s.Tells (s.event b w detail) :=
  (State.tells_foldl_eventTo _ s b w detail fun _ hp =>
    Tab.isSome_look_iff.2 (List.mem_map_of_mem hp)).trans (State.tells_eventI3c _ b w detail)

theorem State.tells_record (s : State) (w : Word) (unit : Nat) (vals : List Byte) : s.Tells (s.record w unit vals) := by
  unfold State.record
  split
  · exact (s.tells_bump Dict.recDropped 0 1 rfl).trans ⟨rfl, rfl, ⟨rfl, rfl⟩, fun _ h => h, fun _ => rfl⟩
  · exact ⟨rfl, rfl, ⟨rfl, rfl⟩, fun _ h => h, fun _ => rfl⟩

theorem State.tells_report (s : State) (w : Word) (unit : Nat) (vals : List Byte) : s.Tells (s.report w unit vals) := by
  have herr : s.Tells (s.toErr mgt w) := ⟨rfl, rfl, ⟨rfl, rfl⟩, fun _ h => h, fun _ => rfl⟩
  refine herr.trans ?_
  unfold State.report
  dsimp only
  split
  · exact (State.tells_event _ 0 w 0).trans (State.tells_record _ w unit vals)
  · split
    · exact (State.tells_event _ 1 w 0).trans (State.tells_record _ w unit vals)
    · split
      · exact State.tells_event _ 3 w 0
      · exact .refl _

/-! ### The answer of a write -/

theorem State.tells_noteAbort (s : State) (w : Word) : s.Tells (s.noteAbort w) := by
  unfold State.noteAbort
  split
  · exact s.tells_event 3 w 0
  · exact .refl s

theorem State.tells_answer (s : State) (w : Word) : s.Tells (s.answer w) :=
  ⟨rfl, rfl, ⟨rfl, rfl⟩, fun _ ho => List.mem_append_left _ ho, fun _ => rfl⟩

theorem State.tells_finish (s : State) (w : Word) : s.Tells (finish (w, s)) :=
  (s.tells_answer w).trans ((s.answer w).tells_noteAbort w)

theorem State.answer_mem_finish (s : State) (w : Word) : Out.answer w ∈ (finish (w, s)).out :=
  ((s.answer w).tells_noteAbort w).out _ (by simp)

/-! ### Closed sessions (R427) -/

theorem State.tells_setXfer (s : State) (who : Nat) (x : Option Xfer) (out : Bool) : s.Tells (s.setXfer who x out) := by
  unfold State.setXfer
  split
  · exact ⟨rfl, rfl, ⟨rfl, rfl⟩, fun _ h => h, fun _ => rfl⟩
  · split
    · next y hy =>
      exact ⟨rfl, rfl, ⟨rfl, rfl⟩, fun _ h => h, fun n => Tab.isSome_look_ins _ _ _ _ (by simp [hy])⟩
    · exact .refl s

theorem State.tells_cancelXfer (s : State) (who : Nat) (out : Bool) : s.Tells (s.cancelXfer who out) := by
  unfold State.cancelXfer
  dsimp only
  split
  · have hset := s.tells_setXfer who none out
    split
    · refine hset.trans (State.Tells.trans ?_ (State.tells_report _ _ _ _))
      exact ⟨rfl, rfl, ⟨rfl, rfl⟩, fun _ h => h, fun _ => rfl⟩
    · exact hset
  · exact .refl s

/-- A session that closes leaves the saved set and what was put out. -/
theorem State.closeSession_leaves (s : State) (n : Nat) :
    (s.closeSession n).regs.sav = s.regs.sav ∧ ∀ o ∈ s.out, o ∈ (s.closeSession n).out :=
  ⟨(s.tells_cancelXfer n false).sav, (s.tells_cancelXfer n false).out⟩

/-- Of the open sessions, the one that closes is gone. -/
theorem State.look_closeSession (s : State) (n m : Nat) : ((s.closeSession n).host.sessions.look m).isSome =
    (m != n && (s.host.sessions.look m).isSome) := by
  have hopen := (s.tells_cancelXfer n false).opened m
  change (((s.cancelXfer n false).host.sessions.del n).look m).isSome = _
  by_cases h : m = n
  · simp [h]
  · rw [Tab.look_del_ne _ _ _ h, hopen]; simp [h]

theorem State.foldl_closeSession_leaves (l : List Nat) (s : State) :
    (l.foldl State.closeSession s).regs.sav = s.regs.sav ∧ ∀ o ∈ s.out, o ∈ (l.foldl State.closeSession s).out := by
  induction l generalizing s with
  | nil => exact ⟨rfl, fun _ h => h⟩
  | cons n l ih =>
    obtain ⟨hsav, hout⟩ := s.closeSession_leaves n
    obtain ⟨hsav', hout'⟩ := ih (s.closeSession n)
    exact ⟨hsav'.trans hsav, fun o ho => hout' o (hout o ho)⟩

theorem State.look_foldl_closeSession (l : List Nat) (s : State) (m : Nat) :
    ((l.foldl State.closeSession s).host.sessions.look m).isSome =
      (!l.contains m && (s.host.sessions.look m).isSome) := by
  induction l generalizing s with
  | nil => simp
  | cons n l ih =>
    rw [List.foldl_cons, ih, State.look_closeSession, List.contains_cons, Bool.not_or, ← Bool.and_assoc,
      Bool.and_comm (!l.contains m)]
    rfl

theorem State.closeIfOff_leaves (s : State) :
    s.closeIfOff.regs.sav = s.regs.sav ∧ ∀ o ∈ s.out, o ∈ s.closeIfOff.out := by
  unfold State.closeIfOff
  split
  · exact ⟨rfl, fun _ h => h⟩
  · exact State.foldl_closeSession_leaves _ s

theorem State.sessions_closeSessions_all (s : State) : (s.closeSessions fun _ => true).host.sessions = [] := by
  refine Tab.eq_nil_of_look fun n => ?_
  unfold State.closeSessions
  rw [State.look_foldl_closeSession]
  cases h : (s.host.sessions.look n).isSome with
  | false => simp
  | true => simpa [Tab.keys] using Tab.isSome_look_iff.1 h

theorem State.sessions_closeIfOff (s : State) (h : s.flag Dict.fdpEnable = false) :
    s.closeIfOff.host.sessions = [] := by
  simp [State.closeIfOff, h, s.sessions_closeSessions_all]

/-! ### FDP_ENABLE and I3C_ENABLE (R437) -/

theorem State.num_setNum_self (s : State) (e : Ent) (k : Nat) (v : Int) : (s.setNum e v k).num e k = v :=
  s.numAt_setNumAt_self e 0 k v

theorem State.num_fdpOff (s : State) : s.fdpOff.num Dict.fdpEnable 0 = 0 := by
  obtain ⟨hsav, -⟩ := (s.setNum Dict.fdpEnable 0).closeIfOff_leaves
  exact (State.numAt_of_sav hsav Dict.fdpEnable rfl 0 0).trans (s.num_setNum_self Dict.fdpEnable 0 0)

theorem State.sessions_fdpOff (s : State) : s.fdpOff.host.sessions = [] :=
  State.sessions_closeIfOff _ (by simp [State.flag, s.num_setNum_self])

/-- Of the two, the one written 0 is off, and the other as it was. -/
theorem State.flag_setNum_fdpEnable (s : State) : ((s.setNum Dict.fdpEnable 0).flag Dict.fdpEnable ||
    (s.setNum Dict.fdpEnable 0).flag Dict.i3cEnable) = (s.num Dict.i3cEnable 0 != 0) := by
  have hi : (s.setNum Dict.fdpEnable 0).num Dict.i3cEnable 0 = s.num Dict.i3cEnable 0 :=
    s.numAt_setNumAt_ne Dict.fdpEnable Dict.i3cEnable 0 0 0 0 0 (by decide)
  simp [State.flag, hi, s.num_setNum_self]

theorem State.flag_setNum_i3cEnable (s : State) : ((s.setNum Dict.i3cEnable 0).flag Dict.fdpEnable ||
    (s.setNum Dict.i3cEnable 0).flag Dict.i3cEnable) = (s.num Dict.fdpEnable 0 != 0) := by
  have hf : (s.setNum Dict.i3cEnable 0).num Dict.fdpEnable 0 = s.num Dict.fdpEnable 0 :=
    s.numAt_setNumAt_ne Dict.i3cEnable Dict.fdpEnable 0 0 0 0 0 (by decide)
  simp [State.flag, hf, s.num_setNum_self]

section FdpEnable

variable {s : State} {role : Role} (hr : role.reaches (Dict.fdpEnable.needs { role := role, who := 0 } [0]) = true)
  (ha : s.accessRefused Dict.fdpEnable 0 0 = false)
include hr ha

theorem State.writeFdpEnable_range (h : s.num Dict.i3cEnable 0 = 0) :
    s.writeAt { role := role, who := 0 } Dict.fdpEnable 0 0 [0] = (abRange, s) := by
  refine State.writeAt_range (v := 0) rfl hr rfl ha ?_
  rw [State.rulesHold_fdpEnable]
  exact (s.flag_setNum_fdpEnable).trans (by simp [h])

theorem State.writeFdpEnable_off (h : s.num Dict.i3cEnable 0 ≠ 0) :
    s.writeAt { role := role, who := 0 } Dict.fdpEnable 0 0 [0] = (0, s.fdpOff) := by
  refine (State.writeAt_effect (v := 0) rfl hr rfl ha (by decide) ?_).trans (s.writeEffect_fdpEnable_zero role 0 0 [0])
  rw [State.rulesHold_fdpEnable]
  exact (s.flag_setNum_fdpEnable).trans (by simp [h])

end FdpEnable

theorem State.writeI3cEnable_range {s : State} {b : By} (hr : b.role.reaches (Dict.i3cEnable.needs b [0]) = true)
    (ha : s.accessRefused Dict.i3cEnable 0 0 = false) (h : s.num Dict.fdpEnable 0 = 0) :
    s.writeEntry b 0x1200 1 [0] = (abRange, s) := by
  have hwrite : s.writeAt b Dict.i3cEnable 0 0 [0] = (abRange, s) := by
    refine State.writeAt_range (v := 0) rfl hr rfl ha ?_
    rw [State.rulesHold_i3cEnable]
    exact (s.flag_setNum_i3cEnable).trans (by simp [h])
  have hne : (Dict.i3cEnable == Dict.integrateKeyEnrol) = false := by decide
  simp only [State.writeEntry, s.reach_i3cEnable, hne, hwrite, Bool.false_and, Bool.false_eq_true, if_false]

/-- Settles O53: the rule of R437 looks at the state with the value, so a write that would leave both 0 is out of range;
one that passes clears FDP_ENABLE, and every session closes with it. -/
theorem fdpOrI3cStaysOn : Obligations.FdpOrI3cStaysOn := by
  unfold Obligations.FdpOrI3cStaysOn
  intro t role who s kept
  have hkept : ∀ u : State, u.regs.sav = s.regs.sav → kept u := fun u h =>
    ⟨State.numAt_of_sav h Dict.fdpEnable rfl 0 0, State.numAt_of_sav h Dict.i3cEnable rfl 0 0⟩
  refine ⟨fun hr ha => ⟨fun hi => ⟨finish (abRange, s.at t), ?_, ?_⟩, fun hi => ⟨finish (0, (s.at t).fdpOff), ?_, ?_⟩⟩,
    fun hr ha hf => ⟨(finish (abRange, s.at t)).closeIfOff, ?_, ?_⟩⟩
  · exact congrArg (fun r => Host.Outcome.next (finish r)) (State.writeFdpEnable_range (s := s.at t) hr ha hi)
  · obtain ⟨hsav, -, -, -, hopen⟩ := (s.at t).tells_finish abRange
    exact ⟨State.answer_mem_finish _ _, hkept _ hsav, hopen⟩
  · exact congrArg (fun r => Host.Outcome.next (finish r)) (State.writeFdpEnable_off (s := s.at t) hr ha hi)
  · obtain ⟨hsav, -, -, -, hopen⟩ := (s.at t).fdpOff.tells_finish 0
    refine ⟨State.answer_mem_finish _ _, ?_, Tab.eq_nil_of_look fun n => ?_⟩
    · exact (State.numAt_of_sav hsav Dict.fdpEnable rfl 0 0).trans (s.at t).num_fdpOff
    · rw [hopen, State.sessions_fdpOff]; rfl
  · exact congrArg (fun r => Host.Outcome.next (finish r).closeIfOff)
      (State.writeI3cEnable_range (s := s.at t) hr ha hf)
  · obtain ⟨hsav, -⟩ := (s.at t).tells_finish abRange
    obtain ⟨hsav', hout⟩ := (finish (abRange, s.at t)).closeIfOff_leaves
    exact ⟨hout _ (State.answer_mem_finish _ _), hkept _ (hsav'.trans hsav)⟩

end Sys2Proof.Machine
end

section
/-! PROOFS. RESTORE_DEFAULTS sets and commits the saved set, and only while the Trump domain is STOPPED (R418): what it
does to the units on its way writes neither a factory value nor a byte entry of the saved set. -/

namespace Sys2Proof.Machine

/-! ### What the operations on the units leave of the registers -/

/-- The factory values and the bytes of the saved set, the role keys among these. -/
def Regs.lasting (r : Regs) : Store × Tab (List Byte) := (r.fac, r.sav.blobs)

theorem State.Tells.lasting {s u : State} (h : s.Tells u) : u.regs.lasting = s.regs.lasting := by
  simp [Regs.lasting, h.sav, h.fac]

theorem onlyCache.lasting {s u : State} (h : onlyCache s u) : u.regs.lasting = s.regs.lasting := by
  unfold onlyCache at h; rw [h]; rfl

@[simp] theorem lasting_ite (c : Prop) [Decidable c] (a b : State) :
    (if c then a else b).regs.lasting = if c then a.regs.lasting else b.regs.lasting := by split <;> rfl

@[simp] theorem lasting_foldl {α : Type} (f : State → α → State) (h : ∀ s a, (f s a).regs.lasting = s.regs.lasting)
    (l : List α) (s : State) : (l.foldl f s).regs.lasting = s.regs.lasting := by
  induction l generalizing s with
  | nil => rfl
  | cons a l ih => rw [List.foldl_cons, ih, h]

@[simp] theorem lasting_foldl_setLink (b : State → Nat → BitVec 64) (l : List Nat) (s : State) :
    (l.foldl (fun s k => s.setLink k (b s k)) s).regs.lasting = s.regs.lasting := lasting_foldl _ (by intros; rfl) l s

@[simp] theorem lasting_foldl_mapLane (f : Lane → Lane) (l : List Nat) (s : State) :
    (l.foldl (fun s k => s.mapLane k f) s).regs.lasting = s.regs.lasting := lasting_foldl _ (by intros; rfl) l s

@[simp] theorem lasting_foldl_mapStation (f : Station → Station) (l : List Nat) (s : State) :
    (l.foldl (fun s k => s.mapStation k f) s).regs.lasting = s.regs.lasting := lasting_foldl _ (by intros; rfl) l s

@[simp] theorem State.lasting_setNumAt (s : State) (e : Ent) (j k : Nat) (v : Int) (he : e.pers ≠ .factory) :
    (s.setNumAt e j k v).regs.lasting = s.regs.lasting := by
  cases h : e.pers with
  | factory => exact absurd h he
  | volatile => simp [State.setNumAt, h, Regs.mapStore, Regs.lasting]
  | saved => simp [State.setNumAt, h, Regs.mapStore, Regs.lasting, Store.setNum]

@[simp] theorem State.lasting_setNum (s : State) (e : Ent) (k : Nat) (v : Int) (he : e.pers ≠ .factory) :
    (s.setNum e v k).regs.lasting = s.regs.lasting := s.lasting_setNumAt e 0 k v he

@[simp] theorem State.lasting_bump (s : State) (e : Ent) (k n : Nat) (he : e.pers ≠ .factory) :
    (s.bump e k n).regs.lasting = s.regs.lasting := s.lasting_setNumAt e 0 k _ he

/-- None of the entries that RESTORE_DEFAULTS writes, or counts in, on its way holds a factory value. -/
@[simp] theorem Dict.pers_written : Dict.portEnable.pers = .saved ∧ Dict.vstreamEnable.pers = .saved
    ∧ Dict.templateEnable.pers = .saved ∧ Dict.qPeakCells.pers = .volatile ∧ Dict.lowWaterCount.pers = .volatile
    ∧ Dict.queueEnable.pers = .saved ∧ Dict.framesLostLink.pers = .volatile ∧ Dict.linkDownCount.pers = .volatile
    ∧ Dict.linkEnable.pers = .saved ∧ Dict.drainInputDropped.pers = .volatile ∧ Dict.qResets.pers = .volatile
    ∧ Dict.qResetLost.pers = .volatile ∧ Dict.qWaitCycles.pers = .volatile ∧ Dict.qFullCount.pers = .volatile
    ∧ Dict.arraySplitMap.pers = .volatile ∧ Dict.evictCount.pers = .volatile ∧ Dict.starvationCount.pers = .volatile
    ∧ Dict.trumpSplitMap.pers = .saved ∧ Dict.trumpArrayMap.pers = .saved ∧ Dict.sharedOwnerMap.pers = .saved
    ∧ Dict.dmaOwnerMap.pers = .saved ∧ Dict.kvPoolPages.pers = .saved ∧ Dict.indexMode.pers = .saved
    ∧ Dict.periodEdges.pers = .saved ∧ Dict.encMode.pers = .saved := by decide

section Units

variable (s : State) (k n q v id sid : Nat) (w : Word)

@[simp] theorem State.lasting_event (b : Nat) : (s.event b w n).regs.lasting = s.regs.lasting :=
  (s.tells_event b w n).lasting

@[simp] theorem State.lasting_record (l : List Byte) : (s.record w n l).regs.lasting = s.regs.lasting :=
  (s.tells_record w n l).lasting

@[simp] theorem State.lasting_report (l : List Byte) : (s.report w n l).regs.lasting = s.regs.lasting :=
  (s.tells_report w n l).lasting

/-! #### Cameras, video streams, templates, encoders -/

@[simp] theorem State.lasting_setPortEnable (v : Int) : (s.setPortEnable k v).regs.lasting = s.regs.lasting := by
  simp [State.setPortEnable]

@[simp] theorem State.lasting_endSlice : (s.endSlice k).regs.lasting = s.regs.lasting := by
  unfold State.endSlice
  split <;> simp

@[simp] theorem State.lasting_setStreamEnable (on : Bool) : (s.setStreamEnable k on).regs.lasting = s.regs.lasting := by
  simp [State.setStreamEnable]

@[simp] theorem State.lasting_setTemplateEnable (on : Bool) :
    (s.setTemplateEnable k on).regs.lasting = s.regs.lasting := by
  simp [State.setTemplateEnable]

@[simp] theorem State.lasting_setIndexMode (v : Int) : (s.setIndexMode k v).regs.lasting = s.regs.lasting := by
  simp [State.setIndexMode, State.lineClear]

@[simp] theorem State.lasting_setPeriodEdges (v : Int) : (s.setPeriodEdges k v).regs.lasting = s.regs.lasting := by
  simp [State.setPeriodEdges]

@[simp] theorem State.lasting_enterMode : (s.enterMode k).regs.lasting = s.regs.lasting := by
  simp [State.enterMode]

/-! #### Queues -/

@[simp] theorem State.lasting_peakCells : (s.peakCells q).regs.lasting = s.regs.lasting := by
  simp [State.peakCells]

@[simp] theorem State.lasting_takeBanks : (s.takeBanks q).regs.lasting = s.regs.lasting := by
  simp [State.takeBanks]

@[simp] theorem State.lasting_deckWatch : s.deckWatch.regs.lasting = s.regs.lasting := by
  simp [State.deckWatch]

@[simp] theorem State.lasting_giveCells (cells : List Nat) : (s.giveCells cells).regs.lasting = s.regs.lasting := by
  simp [State.giveCells]

@[simp] theorem State.lasting_queueDisable : (s.queueDisable q).regs.lasting = s.regs.lasting := by
  simp [State.queueDisable]

@[simp] theorem State.lasting_setQueueEnable (v : Int) : (s.setQueueEnable q v).regs.lasting = s.regs.lasting := by
  simp [State.setQueueEnable]

@[simp] theorem State.lasting_freePacket (cells : List Nat) : (s.freePacket q cells).regs.lasting = s.regs.lasting := by
  simp [State.freePacket]

@[simp] theorem State.lasting_queueClear : (s.queueClear q).regs.lasting = s.regs.lasting := by
  simp [State.queueClear]

@[simp] theorem State.lasting_queueMismatch : (s.queueMismatch q sid).regs.lasting = s.regs.lasting := by
  simp [State.queueMismatch]

@[simp] theorem State.lasting_passCells (trump write : Bool) (a : Nat) :
    (s.passCells trump write a n).regs.lasting = s.regs.lasting := by
  unfold State.passCells
  split
  · exact (onlyCache.foldl _ (by intros; exact State.cacheAccessAs_only _ _ _ _ _ _) _ s).lasting
  · rfl

@[simp] theorem State.lasting_fillCells (tail : BitVec 16) (i : Nat) (cells : List Nat) (l : List Byte) :
    (s.fillCells q n tail i cells l).regs.lasting = s.regs.lasting := by
  induction cells generalizing s i l with
  | nil => simp [State.fillCells]
  | cons k r ih => simp [State.fillCells, ih]

@[simp] theorem State.lasting_linkTo : (s.linkTo k n).regs.lasting = s.regs.lasting := by
  unfold State.linkTo
  split <;> simp

@[simp] theorem State.lasting_tryExchange : (s.tryExchange q).regs.lasting = s.regs.lasting := by
  simp [State.tryExchange]

@[simp] theorem State.lasting_linkPacket (cells : List Nat) (l : List Byte) (stream close : Bool) :
    (s.linkPacket q cells l stream close).regs.lasting = s.regs.lasting := by
  simp only [State.linkPacket, State.draw, State.lasting_tryExchange, State.lasting_peakCells, State.mapQueue_regs]
  split <;> simp

@[simp] theorem State.lasting_countWait : (s.countWait q).regs.lasting = s.regs.lasting := by
  unfold State.countWait
  split <;> simp

@[simp] theorem State.lasting_queuePush (l : List Byte) (stream close bad : Bool) :
    (s.queuePush sid q l stream close bad).2.regs.lasting = s.regs.lasting := by
  unfold State.queuePush State.queueBad State.answer
  dsimp only
  repeat' split
  all_goals simp

/-! #### Links -/

@[simp] theorem State.lasting_train : (s.train k).regs.lasting = s.regs.lasting := by
  simp [State.train]

@[simp] theorem State.lasting_linkDown : (s.linkDown k).regs.lasting = s.regs.lasting := by
  simp [State.linkDown]

@[simp] theorem State.lasting_writeLinkEnable : (s.writeLinkEnable k v).2.regs.lasting = s.regs.lasting := by
  unfold State.writeLinkEnable
  dsimp only
  split
  · simp
  · split <;> simp

/-! #### Jobs -/

@[simp] theorem State.lasting_mapJob (f : Job → Job) : (s.mapJob id f).regs.lasting = s.regs.lasting := by
  unfold State.mapJob
  split <;> rfl

@[simp] theorem State.lasting_accrue : (s.accrue id).regs.lasting = s.regs.lasting := by
  simp [State.accrue]

@[simp] theorem State.lasting_saveStreams : (s.saveStreams id).regs.lasting = s.regs.lasting := by
  unfold State.saveStreams
  split <;> simp

@[simp] theorem State.lasting_savePath : (s.savePath id sid).regs.lasting = s.regs.lasting := by
  simp [State.savePath]

@[simp] theorem State.lasting_saveStations : (s.saveStations id).regs.lasting = s.regs.lasting := by
  unfold State.saveStations
  split <;> simp

@[simp] theorem State.lasting_suspend (st : JobState) : (s.suspend st).regs.lasting = s.regs.lasting := by
  simp [State.suspend]

@[simp] theorem State.lasting_giveCredits : (s.giveCredits id n).regs.lasting = s.regs.lasting := by
  unfold State.giveCredits State.mapStream
  split <;> rfl

@[simp] theorem State.lasting_dropHeld : (s.dropHeld sid).regs.lasting = s.regs.lasting := by
  simp only [State.dropHeld, State.mapStation_regs]
  rw [State.lasting_bump _ _ _ _ (by simp), lasting_foldl]
  intro s p
  split <;> simp

@[simp] theorem State.lasting_dropQueued : (s.dropQueued sid).regs.lasting = s.regs.lasting := by
  simp [State.dropQueued]

@[simp] theorem State.lasting_disable : (s.disable sid).regs.lasting = s.regs.lasting := by
  simp [State.disable]

@[simp] theorem State.lasting_stopStations : (s.stopStations id).regs.lasting = s.regs.lasting := by
  unfold State.stopStations
  split <;> simp

@[simp] theorem State.lasting_giveTag : (s.giveTag sid).regs.lasting = s.regs.lasting := by
  simp [State.giveTag]

@[simp] theorem State.lasting_fenceJob : (s.fenceJob id).regs.lasting = s.regs.lasting := by
  simp [State.fenceJob]

@[simp] theorem State.lasting_jobReport : (s.jobReport id w).regs.lasting = s.regs.lasting := by
  simp [State.jobReport]

@[simp] theorem State.lasting_loadStreams (j : Job) : (s.loadStreams j).regs.lasting = s.regs.lasting := by
  simp [State.loadStreams]

@[simp] theorem State.lasting_roleChange : (s.roleChange sid).regs.lasting = s.regs.lasting := by
  simp [State.roleChange]

@[simp] theorem State.lasting_setSplit (split : Bool) : (s.setSplit n split).regs.lasting = s.regs.lasting := by
  simp [State.setSplit]

@[simp] theorem State.lasting_splitFor (j : Job) : (s.splitFor j).regs.lasting = s.regs.lasting := by
  simp [State.splitFor]

@[simp] theorem State.lasting_loadPath (j : Job) : (s.loadPath j sid).regs.lasting = s.regs.lasting := by
  simp [State.loadPath]

@[simp] theorem State.lasting_resume : (s.resume id).regs.lasting = s.regs.lasting := by
  unfold State.resume State.clearStreams
  split <;> simp

@[simp] theorem State.lasting_own : (s.own id).regs.lasting = s.regs.lasting := by
  simp [State.own, State.handOver]

@[simp] theorem State.lasting_evict : (s.evict id).regs.lasting = s.regs.lasting := by
  simp [State.evict]

theorem State.lasting_startLoad {u : State} (h : s.startLoad id = some u) : u.regs.lasting = s.regs.lasting := by
  obtain ⟨r, -, rfl⟩ := Option.map_eq_some_iff.1 h
  simp

@[simp] theorem State.lasting_starve : (s.starve id).regs.lasting = s.regs.lasting := by
  simp [State.starve]

@[simp] theorem State.lasting_schedule : s.schedule.regs.lasting = s.regs.lasting := by
  unfold State.schedule
  split
  · rfl
  · split
    · rfl
    · split
      · simp
      · split
        · rfl
        · split
          · next hload => exact s.lasting_startLoad _ hload
          · dsimp only
            split <;> simp

@[simp] theorem State.lasting_endJob : (s.endJob id w).regs.lasting = s.regs.lasting := by
  unfold State.endJob State.post State.unlockJob
  split
  · simp only [State.lasting_schedule, State.lasting_mapJob, State.lasting_jobReport]
    split <;> simp
  · rfl

@[simp] theorem State.lasting_endNaming (p : Job → Bool) : (s.endNaming p).regs.lasting = s.regs.lasting := by
  simp [State.endNaming, State.endJobs]

/-! #### The maps of arrays, banks and DMA engines, and the pool of pages -/

@[simp] theorem State.lasting_moveArray : (s.moveArray n).regs.lasting = s.regs.lasting := by
  simp [State.moveArray]

@[simp] theorem State.lasting_writeArrayMap : (s.writeArrayMap v).2.regs.lasting = s.regs.lasting := by
  unfold State.writeArrayMap
  split
  · rfl
  · split <;> simp

@[simp] theorem State.lasting_writeSplitMap : (s.writeSplitMap v).2.regs.lasting = s.regs.lasting := by
  unfold State.writeSplitMap
  split
  · rfl
  · split <;> simp

@[simp] theorem State.lasting_setSharedMap : (s.setSharedMap v).regs.lasting = s.regs.lasting :=
  (lasting_foldl _ (by intros; rfl) _ _).trans (s.lasting_setNum _ 0 v (by simp))

@[simp] theorem State.lasting_setDmaMap : (s.setDmaMap v).regs.lasting = s.regs.lasting := by
  simp [State.setDmaMap]

@[simp] theorem State.lasting_fillKitty (i : Nat) : (s.fillKitty i n).regs.lasting = s.regs.lasting := by
  induction n generalizing s i with
  | zero => rfl
  | succ n ih =>
    have hput := (s.passCache_only mgt true 0 (s.kvAt Dict.kittyBase (4 * i)) (leBytes 4 i).length).lasting
    exact (ih _ _).trans hput

@[simp] theorem State.lasting_setPoolPages : (s.setPoolPages n).regs.lasting = s.regs.lasting := by
  simp [State.setPoolPages]

end Units

/-! ### The saved set after RESTORE_DEFAULTS -/

theorem Tab.look_filter {α : Type} (t : Tab α) (p : Nat → Bool) (q : Nat) :
    Tab.look (t.filter fun a => p a.1) q = if p q then t.look q else none := by
  induction t with
  | nil => simp [Tab.look]
  | cons a r ih =>
    obtain ⟨k, v⟩ := a
    by_cases hk : q = k
    · subst hk
      cases hp : p q <;> simp [hp, Tab.look, ih]
    · cases hp : p k <;> simp [hp, Tab.look, hk, ih]

theorem newerIntact_writeOlder (a b : SavedCopy) (content : Nat → SavedCopy) :
    newerIntact (writeOlder a b content).1 (writeOlder a b content).2 =
      some { content (max a.seq b.seq + 1) with seq := max a.seq b.seq + 1, intact := true } := by
  unfold writeOlder
  dsimp only
  split
  · have hold : ¬ max a.seq b.seq + 1 < b.seq := by omega
    simp [newerIntact, olderFirst, hold]
  · have hnew : a.seq < max a.seq b.seq + 1 := by omega
    simp [newerIntact, olderFirst, hnew]

theorem State.newerIntact_commitSaved (s : State) :
    ∃ c, newerIntact s.commitSaved.boot.savedA s.commitSaved.boot.savedB = some c ∧ c.set = s.regs.sav.settings :=
  ⟨_, newerIntact_writeOlder _ _ _, rfl⟩

theorem State.arrayMapDefault_of_lasting {s u : State} (h : u.regs.lasting = s.regs.lasting) :
    u.arrayMapDefault = s.arrayMapDefault := by
  have hmap : u.nat Dict.arrayEnableMap = s.nat Dict.arrayEnableMap :=
    congrArg (fun r => (r.1.num Dict.arrayEnableMap 0 0).toNat) h
  have hon : u.arrayEnabled = s.arrayEnabled := funext fun n => by simp [State.arrayEnabled, hmap]
  simp [State.arrayMapDefault, hon]

/-- The end of RESTORE_DEFAULTS: the saved set but the role keys at its defaults, TRUMP_ARRAY_MAP at the module's, the
safe states sent to the field side, and the set committed. -/
def State.commitDefaults (s : State) : State :=
  let d : State := { s with regs := { s.regs with sav := s.regs.sav.defaults } }
  (d.setNum Dict.trumpArrayMap d.arrayMapDefault).sendSafeStates.commitSaved

/-- Before that, the units are brought to their defaults. -/
theorem State.restoreDefaults_eq (s : State) :
    ∃ x : State, x.regs.lasting = s.regs.lasting ∧ s.restoreDefaults = x.commitDefaults := by
  refine ⟨_, ?_, rfl⟩
  refine (lasting_foldl _ (by intros; rfl) _ _).trans ?_
  simp

theorem State.sav_commitDefaults (s : State) : s.commitDefaults.regs.sav =
    s.regs.sav.defaults.setNum Dict.trumpArrayMap 0 0 s.arrayMapDefault := rfl

theorem Store.num_defaults_setNum (r : Store) (e f : Ent) (j k i n : Nat) (v : Int) (h : e.key j k ≠ f.key i n) :
    (r.defaults.setNum f i n v).num e j k = e.dflt := by
  simp [Store.num, Store.setNum, Store.defaults, Tab.val, Tab.look_put_ne _ _ _ _ _ h, Tab.look]

/-- Of the byte entries, the role keys (index 0x1100) stay. -/
theorem Store.blob_defaults_setNum (r : Store) (e f : Ent) (j k i n : Nat) (v : Int) :
    (r.defaults.setNum f i n v).blob e j k =
      if e.key j k / 1099511627776 = 0x1100 then r.blob e j k else e.dfltB := by
  simp only [Store.blob, Store.setNum, Store.defaults, Tab.val, Tab.look_filter _ fun a => a / 1099511627776 == 0x1100,
    beq_iff_eq]
  split <;> rfl

theorem keyEnt_saved : ∀ w : Fin 3, (keyEnt w).pers = .saved ∧ (keyEnt w).key 0 0 / 1099511627776 = 0x1100 := by decide

/-! ### The write of RESTORE_DEFAULTS (R418) -/

/-- No condition between entries is about RESTORE_DEFAULTS. -/
theorem rulesHold_restoreDefaults (p : RangeRule → Bool) : rulesHold rangeRules Dict.restoreDefaults p = true := rfl

/-- RESTORE_DEFAULTS written 1 is refused exactly while the Trump domain is not STOPPED (R418). -/
theorem State.accessRefused_restoreDefaults (s : State) : s.accessRefused Dict.restoreDefaults 0 1 = s.trumpRuns := by
  have hrule : rulesHold accessRules Dict.restoreDefaults (fun f => f s 0 1) = ((!s.trumpRuns) && true) := rfl
  have hs : serviceWritable Dict.restoreDefaults = true := by decide
  have ha : (Dict.restoreDefaults.acc == .ro) = false ∧ (Dict.restoreDefaults.acc == .rws) = false := by decide
  simp [State.accessRefused, hrule, hs, ha]

theorem State.writeEffect_restoreDefaults (s : State) (b : By) (j k : Nat) (l : List Byte) :
    s.writeEffect b Dict.restoreDefaults j k 1 l = (0, s.restoreDefaults) := rfl

section Role

variable {role : Role} (hr : role.reaches .integrate = true) (t : Nat) (s : State)
include hr

theorem exec_restoreDefaults_stopped (h : s.trump.st = .stopped) :
    exec (.restoreDefaults t role 1) s = .next (finish (0, (s.at t).restoreDefaults)) := by
  have hrun : (s.at t).trumpRuns = false := by simp [State.trumpRuns, h]
  refine congrArg (fun r => Host.Outcome.next (finish r)) ((State.writeAt_effect (v := 1) rfl hr rfl ?_ ?_ ?_).trans
    (State.writeEffect_restoreDefaults _ _ 0 0 _))
  · rw [State.accessRefused_restoreDefaults, hrun]
  · decide
  · exact rulesHold_restoreDefaults _

theorem exec_restoreDefaults_running (h : s.trump.st ≠ .stopped) :
    exec (.restoreDefaults t role 1) s = .next (finish (abAccess, s.at t)) := by
  have hrun : (s.at t).trumpRuns = true := by simp [State.trumpRuns, h]
  refine congrArg (fun r => Host.Outcome.next (finish r)) (State.writeAt_access (v := 1) rfl hr rfl ?_)
  rw [State.accessRefused_restoreDefaults, hrun]

end Role

/-- Settles O52: on the way to the defaults no factory value and no byte entry of the saved set is written, so the role
keys stay and the default of TRUMP_ARRAY_MAP is that of the state before; the commit writes the older copy, which is the
newer from then on. -/
theorem restoreDefaults : Obligations.RestoreDefaults := by
  unfold Obligations.RestoreDefaults
  intro t role s hr
  refine ⟨fun h => ⟨_, exec_restoreDefaults_stopped hr t s h, State.answer_mem_finish _ _, ?_⟩,
    fun h => ⟨_, exec_restoreDefaults_running hr t s h, State.answer_mem_finish _ _, ?_⟩⟩
  · obtain ⟨hsav, -, ⟨hA, hB⟩, -⟩ := (s.at t).restoreDefaults.tells_finish 0
    obtain ⟨x, hx, hdef⟩ := (s.at t).restoreDefaults_eq
    generalize finish (0, (s.at t).restoreDefaults) = u at hsav hA hB ⊢
    rw [hdef] at hsav hA hB
    have hset : u.regs.sav = x.regs.sav.defaults.setNum Dict.trumpArrayMap 0 0 s.arrayMapDefault := by
      rw [hsav, State.sav_commitDefaults, State.arrayMapDefault_of_lasting hx]; rfl
    have hblob (e : Ent) (j k : Nat) (he : e.pers = .saved) : u.blob e j k =
        if e.key j k / 1099511627776 = 0x1100 then s.blob e j k else e.dfltB := by
      have hkeys : x.regs.sav.blob e j k = s.regs.sav.blob e j k :=
        congrArg (fun r => r.2.val e.dfltB (e.key j k)) hx
      simp only [State.blob, he, Regs.store, hset, Store.blob_defaults_setNum, hkeys]
    refine ⟨fun e j k he hne => ?_, ?_, fun e j k he hne => ?_, fun w => ?_, ?_⟩
    · simp only [State.numAt, he, Regs.store, hset]
      exact Store.num_defaults_setNum _ _ _ _ _ _ _ _ hne
    · have hmap : u.num Dict.trumpArrayMap = s.arrayMapDefault :=
        (congrArg (fun r => r.num Dict.trumpArrayMap 0 0) hset).trans (Tab.val_put_self _ _ _ _)
      simp [State.nat, hmap]
    · rw [hblob e j k he, if_neg hne]
    · rw [hblob _ 0 0 (keyEnt_saved w).1, if_pos (keyEnt_saved w).2]
    · rw [hA, hB, hsav]
      exact State.newerIntact_commitSaved _
  · obtain ⟨hsav, -, ⟨hA, hB⟩, -⟩ := (s.at t).tells_finish abAccess
    exact ⟨hsav, hA, hB⟩

end Sys2Proof.Machine
end

section
/-! PROOFS. A lost heartbeat: the cause of level 3 that it raises, what clears it, and the reset of the module (R531, R534,
R535). Error queues only grow while the escalation stops the Trump domain. -/

namespace Sys2Proof.Machine

/-! ### Standing levels (R535) -/

theorem foldl_max_le_iff {α : Type} (l : List (Nat × α)) (a n : Nat) :
    l.foldl (fun a c => max a c.1) a ≤ n ↔ a ≤ n ∧ ∀ c ∈ l, c.1 ≤ n := by
  induction l generalizing a with
  | nil => simp
  | cons c l ih => simp [ih, and_assoc]

/-- The highest standing level is the least bound of the levels that stand. -/
theorem State.level_le_iff (s : State) (n : Nat) : s.level ≤ n ↔ ∀ c ∈ s.guard.causes, c.1 ≤ n := by
  simp [State.level, foldl_max_le_iff]

theorem State.le_level_of_mem {s : State} {n who : Nat} {w : Word} (h : (n, w, who) ∈ s.guard.causes) : n ≤ s.level :=
  (s.level_le_iff s.level).1 le_rfl _ h

/-! ### Operations that leave the error queues as they are -/

@[simp] theorem errq_ite (c : Prop) [Decidable c] (a b : State) :
    (if c then a else b).errq = if c then a.errq else b.errq := by split <;> rfl

@[simp] theorem errq_foldl {α : Type} (f : State → α → State) (h : ∀ s a, (f s a).errq = s.errq) (l : List α)
    (s : State) : (l.foldl f s).errq = s.errq := by
  induction l generalizing s with
  | nil => rfl
  | cons a l ih => rw [List.foldl_cons, ih, h]

@[simp] theorem errq_foldl_mapStation (f : Station → Station) (l : List Nat) (s : State) :
    (l.foldl (fun s sid => s.mapStation sid f) s).errq = s.errq := errq_foldl _ (by intros; rfl) l s

section Leaves

variable (s : State)

@[simp] theorem State.errq_setNum (e : Ent) (v : Int) (k : Nat) : (s.setNum e v k).errq = s.errq := rfl

@[simp] theorem State.errq_bump (e : Ent) (k n : Nat) : (s.bump e k n).errq = s.errq := rfl

@[simp] theorem State.errq_eventTo (b : Nat) (w : Word) (detail num : Nat) (ses : Session) :
    (s.eventTo b w detail num ses).errq = s.errq := by
  simp [State.eventTo]

@[simp] theorem State.errq_eventI3c (b : Nat) (w : Word) (detail : Nat) : (s.eventI3c b w detail).errq = s.errq := by
  simp [State.eventI3c]

@[simp] theorem State.errq_event (b : Nat) (w : Word) (detail : Nat) : (s.event b w detail).errq = s.errq := by
  simp [State.event]

@[simp] theorem State.errq_record (w : Word) (unit : Nat) (vals : List Byte) :
    (s.record w unit vals).errq = s.errq := by
  simp [State.record]

/-- A report appends its word to the management cluster's queue, whatever else it tells. -/
@[simp] theorem State.errq_report (w : Word) (unit : Nat) (vals : List Byte) :
    (s.report w unit vals).errq = (s.toErr mgt w).errq := by
  simp [State.report]

@[simp] theorem State.errq_giveCredits (i n : Nat) : (s.giveCredits i n).errq = s.errq := by
  unfold State.giveCredits State.mapStream
  split <;> rfl

@[simp] theorem State.errq_dropQueued (sid : Nat) : (s.dropQueued sid).errq = s.errq := by
  simp [State.dropQueued]

@[simp] theorem State.errq_dropHeld (sid : Nat) : (s.dropHeld sid).errq = s.errq := by
  simp only [State.dropHeld, State.mapStation_errq, State.errq_bump]
  refine errq_foldl _ (fun s p => ?_) _ _
  split <;> simp

@[simp] theorem State.errq_disable (sid : Nat) : (s.disable sid).errq = s.errq := by
  simp [State.disable]

@[simp] theorem State.errq_oweZero (v : Nat) : (s.oweZero v).errq = s.errq := by
  simp [State.oweZero]

@[simp] theorem State.errq_abandonWindows : s.abandonWindows.errq = s.errq := rfl

@[simp] theorem State.errq_zeroStrings : s.zeroStrings.errq = s.errq := by
  simp [State.zeroStrings]

@[simp] theorem State.errq_trumpStopped : s.trumpStopped.errq = s.errq := by
  simp [State.trumpStopped]

end Leaves

/-! ### Operations on whose way words are reported -/

/-- Every error queue of `u` begins with what it holds in `s`. -/
def State.ErrqGrows (s u : State) : Prop := ∀ k, s.errq.val [] k <+: u.errq.val [] k

theorem State.ErrqGrows.of_eq {s u : State} (h : u.errq = s.errq) : s.ErrqGrows u := fun k => by rw [h]

theorem State.ErrqGrows.trans {s u x : State} (h : s.ErrqGrows u) (h' : u.ErrqGrows x) : s.ErrqGrows x :=
  fun k => (h k).trans (h' k)

theorem State.ErrqGrows.of_eq_left {s u x : State} (h : u.ErrqGrows x) (hu : u.errq = s.errq) : s.ErrqGrows x :=
  fun k => hu ▸ h k

theorem State.ErrqGrows.of_eq_right {s u x : State} (h : s.ErrqGrows u) (hx : x.errq = u.errq) : s.ErrqGrows x :=
  fun k => hx ▸ h k

theorem State.ErrqGrows.mem {s u : State} {k : Nat} {w : Word} (h : s.ErrqGrows u) (hw : w ∈ s.errq.val [] k) :
    w ∈ u.errq.val [] k := (h k).subset hw

theorem errqGrows_foldl {α : Type} (f : State → α → State) (h : ∀ (s : State) a, s.ErrqGrows (f s a)) (l : List α)
    (s : State) : s.ErrqGrows (l.foldl f s) := by
  induction l generalizing s with
  | nil => exact .of_eq rfl
  | cons a l ih => exact (h s a).trans (ih _)

section Grows

variable (s : State)

theorem State.errqGrows_toErr (q : Nat) (w : Word) : s.ErrqGrows (s.toErr q w) := by
  intro k
  by_cases hk : k = q
  · subst hk
    rw [State.toErr_queue]
    exact ⟨[w], rfl⟩
  · rw [show (s.toErr q w).errq.val [] k = s.errq.val [] k from Tab.val_put_ne _ _ _ _ _ hk]

theorem State.errqGrows_report (w : Word) (unit : Nat) (vals : List Byte) : s.ErrqGrows (s.report w unit vals) :=
  (s.errqGrows_toErr mgt w).of_eq_right (s.errq_report w unit vals)

theorem State.errqGrows_reportEvery (period : Nat) (w : Word) (unit : Nat) (vals : List Byte) (key : Nat) :
    s.ErrqGrows (s.reportEvery period w unit vals key) := by
  have hrep := s.errqGrows_report w unit vals
  unfold State.reportEvery
  dsimp only
  split
  · split
    · exact .of_eq rfl
    · exact hrep.of_eq_right rfl
  · exact hrep.of_eq_right rfl

theorem State.errqGrows_coutDrop (n src : Nat) : s.ErrqGrows (s.coutDrop n src) := by
  unfold State.coutDrop
  refine (State.errqGrows_reportEvery _ _ _ _ _ _).of_eq_left ?_
  rw [State.mapCout_errq, State.errq_bump]

theorem State.errqGrows_coutStop : s.ErrqGrows s.coutStop := by
  refine errqGrows_foldl _ (fun s n => ?_) _ s
  dsimp only
  have hcrops := errqGrows_foldl (fun s _ => s.coutDrop n 0) (fun s _ => s.errqGrows_coutDrop n 0) (s.cout n).crops s
  refine hcrops.trans (.of_eq_right ?_ (State.mapCout_errq _ n _))
  split
  · exact State.errqGrows_coutDrop _ n 1
  · exact .of_eq rfl

theorem State.errqGrows_adaptStop : s.ErrqGrows s.adaptStop := by
  unfold State.adaptStop
  dsimp only
  split
  · exact .of_eq (by simp)
  · exact (State.errqGrows_report _ _ _ _).of_eq_left (by simp)
  · exact .of_eq rfl

/-- The stations of the domain are disabled, and its strings owe zeros. -/
theorem State.errq_drainStations (l : List Nat) :
    (((l.foldl (fun s sid => s.disable sid) s).setNum Dict.trumpControl 0).zeroStrings).errq = s.errq := by
  rw [State.errq_zeroStrings, State.errq_setNum, errq_foldl _ fun s sid => s.errq_disable sid]

theorem State.errqGrows_trumpStop : s.ErrqGrows s.trumpStop := by
  unfold State.trumpStop
  split
  · exact .of_eq s.errq_trumpStopped
  · have hstop (x : State) := x.errqGrows_coutStop.trans (State.errqGrows_adaptStop _)
    exact ((hstop _).of_eq_right (State.errq_drainStations _ _)).of_eq_left rfl
  · exact .of_eq rfl

end Grows

/-! ### A cause of level 3 (R531, R535) -/

/-- What the stop of the domain leaves of the guard: the cause of a hung stop goes where it ends in STOPPED at once
(R535). -/
theorem State.guard_trumpStop (s : State) : s.trumpStop.guard =
    if s.trump.st = .starting then { s.guard with causes := s.guard.causes.filter fun c => c.2.1 != 0x06921702 }
    else s.guard := by
  cases h : s.trump.st <;> simp [State.trumpStop, State.trumpStopped, h]

/-- Of the causes, the stop of the domain clears none but that of a hung stop. -/
theorem State.mem_causes_trumpStop {s : State} {c : Nat × Word × Nat} (h : c ∈ s.guard.causes)
    (hc : c.2.1 ≠ 0x06921702) : c ∈ s.trumpStop.guard.causes := by
  rw [State.guard_trumpStop]
  split
  · exact List.mem_filter.2 ⟨h, bne_iff_ne.2 hc⟩
  · exact h

theorem State.guard_level2 (s : State) (w : Word) : (s.level2 w).guard = s.trumpStop.guard := by
  simp [State.level2]

theorem State.errqGrows_level2 (s : State) {w : Word} (hw : w ≠ 0x06921705) : s.ErrqGrows (s.level2 w) := by
  refine s.errqGrows_trumpStop.of_eq_right ?_
  simp only [State.level2, if_neg hw]
  split <;> rfl

/-- A cause is noted, before any action of its level. -/
def State.noteCause (s : State) (n : Nat) (w : Word) (who : Nat) : State :=
  { s with guard := { s.guard with causes := s.guard.causes ++ [(n, w, who)] } }

theorem State.mem_causes_noteCause (s : State) (n : Nat) (w : Word) (who : Nat) :
    (n, w, who) ∈ (s.noteCause n w who).guard.causes := by simp [State.noteCause]

theorem any_cause_iff (l : List (Nat × Word × Nat)) (n : Nat) (w : Word) (who : Nat) :
    (l.any fun c => c.1 == n && c.2.1 == w && c.2.2 == who) = true ↔ (n, w, who) ∈ l := by
  simp [List.any_eq_true, and_assoc]

theorem State.raise_of_mem {s : State} {n who : Nat} {w : Word} (h : (n, w, who) ∈ s.guard.causes) :
    s.raise n w who = s := if_pos ((any_cause_iff _ n w who).2 h)

theorem State.raise_three {s : State} {w : Word} {who : Nat} (h : (3, w, who) ∉ s.guard.causes) :
    s.raise 3 w who = ((s.noteCause 3 w who).level2 w).zeroStrings := by
  rw [State.raise, if_neg (mt (any_cause_iff _ 3 w who).1 h)]
  simp [State.noteCause]

theorem State.raise_four {s : State} {w : Word} {who : Nat} (h : (4, w, who) ∉ s.guard.causes) :
    s.raise 4 w who =
      ((s.noteCause 4 w who).level2 w).zeroStrings.resetModule (if w = 0x06981505 then 4 else 3) := by
  rw [State.raise, if_neg (mt (any_cause_iff _ 4 w who).1 h)]
  simp [State.noteCause]

/-- A raised cause of level 3 stands, where it is not that of a hung stop, which the stop it begins may end. -/
theorem State.mem_causes_raise_three (s : State) {w : Word} (who : Nat) (hw : w ≠ 0x06921702) :
    (3, w, who) ∈ (s.raise 3 w who).guard.causes := by
  by_cases h : (3, w, who) ∈ s.guard.causes
  · rwa [State.raise_of_mem h]
  · have hnote := State.mem_causes_trumpStop (s.mem_causes_noteCause 3 w who) hw
    simpa [State.raise_three h, State.guard_level2] using hnote

theorem State.errqGrows_raise_three (s : State) {w : Word} (who : Nat) (hw : w ≠ 0x06921705) :
    s.ErrqGrows (s.raise 3 w who) := by
  by_cases h : (3, w, who) ∈ s.guard.causes
  · exact .of_eq (by rw [State.raise_of_mem h])
  · rw [State.raise_three h]
    exact (((s.noteCause 3 w who).errqGrows_level2 hw).of_eq_left rfl).of_eq_right (State.errq_zeroStrings _)

/-- What level 3 does leaves what the guard knows of the heartbeat. -/
theorem State.lost_raise_three (s : State) (w : Word) (who : Nat) :
    (s.raise 3 w who).guard.lost = s.guard.lost ∧ (s.raise 3 w who).guard.lostAt = s.guard.lostAt := by
  by_cases h : (3, w, who) ∈ s.guard.causes
  · rw [State.raise_of_mem h]; exact ⟨rfl, rfl⟩
  · simp only [State.raise_three h, State.zeroStrings_keep, State.guard_level2, State.guard_trumpStop]
    split <;> exact ⟨rfl, rfl⟩

/-! ### The heartbeat (R534) -/

/-- The state once the loss of the heartbeat is noted, counted and reported. -/
def State.noteLost (s : State) : State :=
  (({ s with guard := { s.guard with lost := true, lostAt := s.tb } } : State).bump Dict.heartbeatLosses).report
    0x06921703

theorem State.noteLost_reported (s : State) : (0x06921703 : Word) ∈ s.noteLost.errq.val [] mgt := by
  rw [State.noteLost, State.errq_report, State.toErr_queue]
  simp

theorem State.noteLost_guard (s : State) : s.noteLost.guard = { s.guard with lost := true, lostAt := s.tb } := by
  simp [State.noteLost]

theorem State.heartbeatLost_due {s : State} (hb : s.boot.booted = true) (hl : s.guard.lost = false)
    (ht : s.guard.lastBeat + s.nat Dict.heartbeatTimeout * 1000000 ≤ s.tb) :
    s.heartbeatLost = s.noteLost.raise 3 0x06921703 mgt := if_pos (by simp [hb, hl, ht])

theorem State.heartbeat_tb (s : State) : s.heartbeat.tb = s.tb := by
  unfold State.heartbeat; dsimp only; split <;> rfl

theorem State.heartbeat_guard {s : State} (hl : s.guard.lost = true) : s.heartbeat.guard = { s.guard with
    lastBeat := s.tb, lost := false, causes := s.guard.causes.filter fun c => !(c.2.1 == 0x06921703) } := by
  rw [State.heartbeat, if_pos hl]; rfl

/-- The causes that stay when the heartbeat returns. -/
theorem State.mem_causes_heartbeat {s : State} (hl : s.guard.lost = true) (c : Nat × Word × Nat) :
    c ∈ s.heartbeat.guard.causes ↔ c ∈ s.guard.causes ∧ c.2.1 ≠ 0x06921703 := by
  rw [State.heartbeat_guard hl]
  simp only [List.mem_filter, Bool.not_eq_true', beq_eq_false_iff_ne]

theorem State.heartbeatReset_due {s : State} (hl : s.guard.lost = true) (ha : s.flag Dict.autoReset = true)
    (ht : s.guard.lostAt + s.nat Dict.resetAfter * 1000000 ≤ s.tb) :
    s.heartbeatReset = s.raise 4 0x06921703 mgt := if_pos (by simp [hl, ha, ht])

/-- With no cause of level 3 left, the supervisor kicks again after a heartbeat that was lost (R530). -/
theorem State.heartbeat_mayKick {s : State} (hl : s.guard.lost = true) (hg : s.guard.selfBad = false)
    (hc : ∀ c ∈ s.guard.causes, c.2.1 = 0x06921703 ∨ c.1 < 3) :
    s.heartbeat.level < 3 ∧ s.heartbeat.mayKick = true := by
  have hlevel : s.heartbeat.level < 3 := by
    refine Nat.lt_succ_of_le ((State.level_le_iff _ 2).2 fun c hm => ?_)
    obtain ⟨hs, hne⟩ := (State.mem_causes_heartbeat hl c).1 hm
    exact Nat.le_of_lt_succ ((hc c hs).resolve_left hne)
  refine ⟨hlevel, ?_⟩
  simp [State.mayKick, hlevel, State.heartbeat_guard hl, State.heartbeat_tb, hg]

/-- Settles O54: the loss is reported before its cause is raised, and the stop that level 3 begins takes neither away; the
return clears exactly the causes of the loss; and where no cause of level 4 stands, the one raised resets the module. -/
theorem heartbeatLevels : Obligations.HeartbeatLevels := by
  unfold Obligations.HeartbeatLevels
  intro t s now
  have hnow : (s.at t).tb = now := s.at_tb t
  refine ⟨fun hb hl ht => ⟨(s.at t).heartbeatLost, rfl, ?_⟩, fun hl => ⟨(s.at t).heartbeat, rfl, ?_, ?_, ?_⟩,
    fun h4 hl ha ht => ⟨(s.at t).heartbeatReset, rfl, ?_⟩⟩
  · rw [State.heartbeatLost_due (s := s.at t) hb hl (hnow ▸ ht)]
    have hcause := (s.at t).noteLost.mem_causes_raise_three (w := 0x06921703) mgt (by decide)
    obtain ⟨hlost, hat⟩ := (s.at t).noteLost.lost_raise_three 0x06921703 mgt
    exact ⟨(State.errqGrows_raise_three _ mgt (by decide)).mem (s.at t).noteLost_reported, ⟨mgt, hcause⟩,
      State.le_level_of_mem hcause, hlost.trans (by rw [State.noteLost_guard]),
      hat.trans (by rw [State.noteLost_guard, hnow])⟩
  · rw [State.heartbeat_guard (s := s.at t) hl]
  · exact fun c hc => ((State.mem_causes_heartbeat (s := s.at t) hl c).1 hc).2
  · exact State.heartbeat_mayKick (s := s.at t) hl
  · have hnone : (4, (0x06921703 : Word), mgt) ∉ (s.at t).guard.causes := fun h => absurd (h4 _ h) (by decide)
    rw [State.heartbeatReset_due (s := s.at t) hl ha (hnow ▸ ht), State.raise_four hnone]
    exact ⟨rfl, rfl, rfl⟩

end Sys2Proof.Machine
end
